-- ==== Sys2Proof/Word.lean ====
section
/-! DEFINITION. The word types of the machine. -/

namespace Sys2Proof

/-- A g register, an address before translation, a system register (R15, R33). -/
abbrev Word := BitVec 64

/-- The smallest addressable unit (R8). -/
abbrev Byte := BitVec 8

/-- A v register (R15). -/
abbrev VReg := BitVec 512

/-- An instruction word (R78). -/
abbrev IWord := BitVec 32

/-- An m register: 16 rows of 64 bytes (R15); row 0 lowest. -/
abbrev Tile := Vector (BitVec 512) 16

end Sys2Proof
end

