-- ==== Sys2Proof/Syntax.lean ====
section
/-! DEFINITION. The instructions of the TQ480 as data: operand kinds and the one inductive `Instr`,
with a constructor for every row of spec/opcode_table.json. Rows that carry an encoding hold the
operands of the word (R79 to R90); rows without one are steps of other agents of the device or of
the outside world, and hold the name of the part or of the message that takes the step. -/

namespace Sys2Proof

/-- Element types of the TY field (R90); TY = 15 is no type. -/
inductive Ty where
  | i8 | i16 | i32 | i64 | n8 | n16 | n32 | n64
  | e4m3 | e5m2 | fp16 | bf16 | fp32 | fp64 | bfp
  deriving DecidableEq, Repr

/-- Size codes of loads (R121): code 7 is reserved. -/
inductive LdSize where
  | b | h | w | d | bn | hn | wn
  deriving DecidableEq, Repr

/-- Size codes of stores (R121): codes 4 to 7 are reserved. -/
inductive StSize where
  | b | h | w | d
  deriving DecidableEq, Repr

/-- Scopes (R127, R362): codes 5 to 7 are reserved. -/
inductive Scope where
  | core | shed | die | device | system
  deriving DecidableEq, Repr

/-- The ORD field of an atomic (R138). -/
inductive AtomOrd where
  | relaxed | aq | rl | ar
  deriving DecidableEq, Repr

/-- The condition of MONW (R146): code 3 is reserved. -/
inductive MonCond where
  | eq | geu | ne
  deriving DecidableEq, Repr

/-- The register file of an item (R159). -/
inductive ItemFile where
  | g | v
  deriving DecidableEq, Repr

/-- The I-forms that an EXT word may extend (R81, R87): every major of format I. -/
inductive IForm where
  | addi | andi | ori | xori | slti | sltiu | shi | movhi | muli
  | beq | bne | blt | bge | bltu | bgeu | dbnz | ld | st | spl | sps
  deriving DecidableEq, Repr


/-- The instructions and steps of spec/opcode_table.json, one constructor per row, in the table's order.
The docstring of a constructor names the rule that gives its meaning. -/
inductive Instr where
  /-- ADD (R109). -/
  | add (a b c : BitVec 5)
  /-- SUB (R109). -/
  | sub (a b c : BitVec 5)
  /-- AND (R109). -/
  | and (a b c : BitVec 5)
  /-- OR (R109). -/
  | or (a b c : BitVec 5)
  /-- XOR (R109). -/
  | xor (a b c : BitVec 5)
  /-- ANDN (R109). -/
  | andn (a b c : BitVec 5)
  /-- SHL (R109). -/
  | shl (a b c : BitVec 5)
  /-- SHR (R109). -/
  | shr (a b c : BitVec 5)
  /-- SRA (R109). -/
  | sra (a b c : BitVec 5)
  /-- ROL (R109). -/
  | rol (a b c : BitVec 5)
  /-- MUL (R109). -/
  | mul (a b c : BitVec 5)
  /-- MULH (R109). -/
  | mulh (a b c : BitVec 5)
  /-- MULHU (R109). -/
  | mulhu (a b c : BitVec 5)
  /-- DIV (R109). -/
  | div (a b c : BitVec 5)
  /-- DIVU (R109). -/
  | divu (a b c : BitVec 5)
  /-- REM (R109). -/
  | rem (a b c : BitVec 5)
  /-- REMU (R109). -/
  | remu (a b c : BitVec 5)
  /-- MIN (R109). -/
  | min (a b c : BitVec 5)
  /-- MAX (R109). -/
  | max (a b c : BitVec 5)
  /-- MINU (R109). -/
  | minu (a b c : BitVec 5)
  /-- MAXU (R109). -/
  | maxu (a b c : BitVec 5)
  /-- SLT (R109). -/
  | slt (a b c : BitVec 5)
  /-- SLTU (R109). -/
  | sltu (a b c : BitVec 5)
  /-- SEQ (R109). -/
  | seq (a b c : BitVec 5)
  /-- CLZ (R109). -/
  | clz (a b : BitVec 5)
  /-- CTZ (R109). -/
  | ctz (a b : BitVec 5)
  /-- POPC (R109). -/
  | popc (a b : BitVec 5)
  /-- BREV (R109). -/
  | brev (a b : BitVec 5)
  /-- BSWAP (R109). -/
  | bswap (a b : BitVec 5)
  /-- SEXT_B (R109). -/
  | sextB (a b : BitVec 5)
  /-- SEXT_H (R109). -/
  | sextH (a b : BitVec 5)
  /-- SEXT_W (R109). -/
  | sextW (a b : BitVec 5)
  /-- ZEXT_B (R109). -/
  | zextB (a b : BitVec 5)
  /-- ZEXT_H (R109). -/
  | zextH (a b : BitVec 5)
  /-- ZEXT_W (R109). -/
  | zextW (a b : BitVec 5)
  /-- LEA_1 (R109). -/
  | lea1 (a b c : BitVec 5)
  /-- LEA_2 (R109). -/
  | lea2 (a b c : BitVec 5)
  /-- LEA_4 (R109). -/
  | lea4 (a b c : BitVec 5)
  /-- LEA_8 (R109). -/
  | lea8 (a b c : BitVec 5)
  /-- ADDI (R111). -/
  | addi (a b : BitVec 5) (i : BitVec 16)
  /-- ANDI (R111). -/
  | andi (a b : BitVec 5) (i : BitVec 16)
  /-- ORI (R111). -/
  | ori (a b : BitVec 5) (i : BitVec 16)
  /-- XORI (R111). -/
  | xori (a b : BitVec 5) (i : BitVec 16)
  /-- SLTI (R111). -/
  | slti (a b : BitVec 5) (i : BitVec 16)
  /-- SLTIU (R111). -/
  | sltiu (a b : BitVec 5) (i : BitVec 16)
  /-- SHI_L (R112). -/
  | shiL (a b : BitVec 5) (n : BitVec 6)
  /-- SHI_R (R112). -/
  | shiR (a b : BitVec 5) (n : BitVec 6)
  /-- SHI_A (R112). -/
  | shiA (a b : BitVec 5) (n : BitVec 6)
  /-- SHI_ROL (R112). -/
  | shiRol (a b : BitVec 5) (n : BitVec 6)
  /-- MOVHI (R111). -/
  | movhi (a b : BitVec 5) (i : BitVec 16)
  /-- MULI (R111). -/
  | muli (a b : BitVec 5) (i : BitVec 16)
  /-- EXT_PAIR (R87). -/
  | extPair (x : BitVec 26) (f : IForm) (a b : BitVec 5) (i : BitVec 16)
  /-- BEQ (R114). -/
  | beq (a b : BitVec 5) (i : BitVec 16)
  /-- BNE (R114). -/
  | bne (a b : BitVec 5) (i : BitVec 16)
  /-- BLT (R114). -/
  | blt (a b : BitVec 5) (i : BitVec 16)
  /-- BGE (R114). -/
  | bge (a b : BitVec 5) (i : BitVec 16)
  /-- BLTU (R114). -/
  | bltu (a b : BitVec 5) (i : BitVec 16)
  /-- BGEU (R114). -/
  | bgeu (a b : BitVec 5) (i : BitVec 16)
  /-- DBNZ (R115). -/
  | dbnz (a : BitVec 5) (i : BitVec 16)
  /-- J (R119). -/
  | j (i : BitVec 26)
  /-- CALL (R119). -/
  | call (i : BitVec 26)
  /-- JR (R120). -/
  | jr (b : BitVec 5)
  /-- CALLR (R120). -/
  | callr (a b : BitVec 5)
  /-- RET (R120). -/
  | ret
  /-- LD (R122). -/
  | ld (a b : BitVec 5) (o : BitVec 13) (sz : LdSize)
  /-- ST (R123). -/
  | st (a b : BitVec 5) (o : BitVec 13) (sz : StSize)
  /-- LDX (R126). -/
  | ldx (a b c : BitVec 5) (sz : LdSize)
  /-- STX (R126). -/
  | stx (a b c : BitVec 5) (sz : StSize)
  /-- LDA (R127). -/
  | lda (a b : BitVec 5) (p : Scope) (sz : LdSize)
  /-- STL (R127). -/
  | stl (a b : BitVec 5) (p : Scope) (sz : StSize)
  /-- LDS (R128). -/
  | lds (a b c : BitVec 5) (t : Bool)
  /-- STS (R128). -/
  | sts (a b c : BitVec 5) (t : Bool)
  /-- LDF (R128). -/
  | ldf (a b c : BitVec 5) (t : Bool)
  /-- FEGET (R126). -/
  | feget (a b : BitVec 5)
  /-- FESET (R130). -/
  | feset (a b : BitVec 5)
  /-- SPL (R132). -/
  | spl (a b : BitVec 5) (o : BitVec 13) (sz : LdSize)
  /-- SPS (R132). -/
  | sps (a b : BitVec 5) (o : BitVec 13) (sz : StSize)
  /-- AMO_ADD (R139). -/
  | amoAdd (a b c : BitVec 5) (o : AtomOrd) (d : Bool)
  /-- AMO_AND (R139). -/
  | amoAnd (a b c : BitVec 5) (o : AtomOrd) (d : Bool)
  /-- AMO_OR (R139). -/
  | amoOr (a b c : BitVec 5) (o : AtomOrd) (d : Bool)
  /-- AMO_XOR (R139). -/
  | amoXor (a b c : BitVec 5) (o : AtomOrd) (d : Bool)
  /-- AMO_MIN (R139). -/
  | amoMin (a b c : BitVec 5) (o : AtomOrd) (d : Bool)
  /-- AMO_MAX (R139). -/
  | amoMax (a b c : BitVec 5) (o : AtomOrd) (d : Bool)
  /-- AMO_MINU (R139). -/
  | amoMinu (a b c : BitVec 5) (o : AtomOrd) (d : Bool)
  /-- AMO_MAXU (R139). -/
  | amoMaxu (a b c : BitVec 5) (o : AtomOrd) (d : Bool)
  /-- AMO_SWAP (R139). -/
  | amoSwap (a b c : BitVec 5) (o : AtomOrd) (d : Bool)
  /-- CAS (R139). -/
  | cas (a b c : BitVec 5) (o : AtomOrd) (d : Bool)
  /-- RED_ADD (R141). -/
  | redAdd (b c : BitVec 5) (d : Bool)
  /-- RED_FADD (R141). -/
  | redFadd (b c : BitVec 5) (d : Bool)
  /-- RED_MIN (R141). -/
  | redMin (b c : BitVec 5) (d : Bool)
  /-- RED_MAX (R141). -/
  | redMax (b c : BitVec 5) (d : Bool)
  /-- DELEG (R142). -/
  | deleg (a b c : BitVec 5)
  /-- FENCE (R145). -/
  | fence (p : Scope) (kinds : BitVec 4)
  /-- MONW (R146). -/
  | monw (a b c : BitVec 5) (t : Bool) (n : MonCond) (mem : Bool)
  /-- GJOIN (R148). -/
  | gjoin (a b : BitVec 5)
  /-- GLEAVE (R148). -/
  | gleave (b : BitVec 5)
  /-- BAR_ARRIVE (R148). -/
  | barArrive (a b : BitVec 5)
  /-- BAR_DROP (R148). -/
  | barDrop (a b : BitVec 5)
  /-- BAR_WAIT (R148). -/
  | barWait (a b c : BitVec 5) (t : Bool)
  /-- SPAWN (R152). -/
  | spawn (a b c : BitVec 5) (n : BitVec 2)
  /-- EXIT (R153). -/
  | exit
  /-- EXIT_R (R155). -/
  | exitR (b : BitVec 5)
  /-- YIELD (R156). -/
  | yield
  /-- PRIO (R156). -/
  | prio (b : BitVec 5)
  /-- JWAIT (R157). -/
  | jwait (a : BitVec 5) (t : Bool) (n : BitVec 2)
  /-- SELF (R156). -/
  | self (a : BitVec 5)
  /-- SEND (R160). -/
  | send (a b : BitVec 5) (f : ItemFile) (d : BitVec 6) (t : Bool)
  /-- RECV (R160). -/
  | recv (a b : BitVec 5) (f : ItemFile) (d : BitVec 6) (t : Bool)
  /-- ALT (R161). -/
  | alt (a b : BitVec 5) (t : Bool)
  /-- POISON (R162). -/
  | poison (a : BitVec 5) (d : BitVec 6)
  /-- MARK (R163). -/
  | mark (a : BitVec 5)
  /-- CHNEW (R164). -/
  | chnew (a b : BitVec 5) (d : BitVec 6)
  /-- CHBIND (R165). -/
  | chbind (a b c : BitVec 5) (d : BitVec 6)
  /-- CHBIND_D (R165). -/
  | chbindD (a b : BitVec 5)
  /-- CHCLOSE (R166). -/
  | chclose (a : BitVec 5) (d : BitVec 6)
  /-- AMSG (R167). -/
  | amsg (a b c : BitVec 5) (t : Bool)
  /-- WINOPEN (R168). -/
  | winopen (a b c : BitVec 5) (d : BitVec 6)
  /-- WINCLOSE (R168). -/
  | winclose (a : BitVec 5) (d : BitVec 6)
  /-- SENDT (R171). -/
  | sendt (a b : BitVec 5) (d : BitVec 6) (t : Bool)
  /-- RECVT (R171). -/
  | recvt (a b : BitVec 5) (d : BitVec 6) (t : Bool)
  /-- THALO (R172). -/
  | thalo (a b c : BitVec 5) (d : BitVec 6) (t : Bool)
  /-- VADD (R179). -/
  | vadd (a b c : BitVec 5) (k : BitVec 3) (ty : Ty)
  /-- VSUB (R179). -/
  | vsub (a b c : BitVec 5) (k : BitVec 3) (ty : Ty)
  /-- VMUL (R179). -/
  | vmul (a b c : BitVec 5) (k : BitVec 3) (ty : Ty)
  /-- VFMA (R179). -/
  | vfma (a b c : BitVec 5) (k : BitVec 3) (ty : Ty)
  /-- VFMS (R179). -/
  | vfms (a b c : BitVec 5) (k : BitVec 3) (ty : Ty)
  /-- VMIN (R179). -/
  | vmin (a b c : BitVec 5) (k : BitVec 3) (ty : Ty)
  /-- VMAX (R179). -/
  | vmax (a b c : BitVec 5) (k : BitVec 3) (ty : Ty)
  /-- VABS (R179). -/
  | vabs (a b : BitVec 5) (k : BitVec 3) (ty : Ty)
  /-- VNEG (R179). -/
  | vneg (a b : BitVec 5) (k : BitVec 3) (ty : Ty)
  /-- VADDS (R179). -/
  | vadds (a b c : BitVec 5) (k : BitVec 3) (ty : Ty)
  /-- VSUBS (R179). -/
  | vsubs (a b c : BitVec 5) (k : BitVec 3) (ty : Ty)
  /-- VMULH (R179). -/
  | vmulh (a b c : BitVec 5) (k : BitVec 3) (ty : Ty)
  /-- VABSD (R179). -/
  | vabsd (a b c : BitVec 5) (k : BitVec 3) (ty : Ty)
  /-- VDIV (R179). -/
  | vdiv (a b c : BitVec 5) (k : BitVec 3) (ty : Ty)
  /-- VSQRT (R179). -/
  | vsqrt (a b : BitVec 5) (k : BitVec 3) (ty : Ty)
  /-- VAND (R181). -/
  | vand (a b c : BitVec 5) (k : BitVec 3) (ty : Ty)
  /-- VOR (R181). -/
  | vor (a b c : BitVec 5) (k : BitVec 3) (ty : Ty)
  /-- VXOR (R181). -/
  | vxor (a b c : BitVec 5) (k : BitVec 3) (ty : Ty)
  /-- VANDN (R181). -/
  | vandn (a b c : BitVec 5) (k : BitVec 3) (ty : Ty)
  /-- VNOT (R181). -/
  | vnot (a b : BitVec 5) (k : BitVec 3) (ty : Ty)
  /-- VSHL (R181). -/
  | vshl (a b c : BitVec 5) (k : BitVec 3) (ty : Ty)
  /-- VSHR (R181). -/
  | vshr (a b c : BitVec 5) (k : BitVec 3) (ty : Ty)
  /-- VSRA (R181). -/
  | vsra (a b c : BitVec 5) (k : BitVec 3) (ty : Ty)
  /-- VROL (R181). -/
  | vrol (a b c : BitVec 5) (k : BitVec 3) (ty : Ty)
  /-- VSHLG (R181). -/
  | vshlg (a b c : BitVec 5) (k : BitVec 3) (ty : Ty)
  /-- VSHRG (R181). -/
  | vshrg (a b c : BitVec 5) (k : BitVec 3) (ty : Ty)
  /-- VSRAG (R181). -/
  | vsrag (a b c : BitVec 5) (k : BitVec 3) (ty : Ty)
  /-- VROLG (R181). -/
  | vrolg (a b c : BitVec 5) (k : BitVec 3) (ty : Ty)
  /-- VCLZ (R181). -/
  | vclz (a b : BitVec 5) (k : BitVec 3) (ty : Ty)
  /-- VPOPC (R181). -/
  | vpopc (a b : BitVec 5) (k : BitVec 3) (ty : Ty)
  /-- VCTZ (R181). -/
  | vctz (a b : BitVec 5) (k : BitVec 3) (ty : Ty)
  /-- VCMP_EQ (R182). -/
  | vcmpEq (a : BitVec 3) (b c : BitVec 5) (k : BitVec 3) (ty : Ty)
  /-- VCMP_NE (R182). -/
  | vcmpNe (a : BitVec 3) (b c : BitVec 5) (k : BitVec 3) (ty : Ty)
  /-- VCMP_LT (R182). -/
  | vcmpLt (a : BitVec 3) (b c : BitVec 5) (k : BitVec 3) (ty : Ty)
  /-- VCMP_LE (R182). -/
  | vcmpLe (a : BitVec 3) (b c : BitVec 5) (k : BitVec 3) (ty : Ty)
  /-- VCMP_UN (R182). -/
  | vcmpUn (a : BitVec 3) (b c : BitVec 5) (k : BitVec 3) (ty : Ty)
  /-- VSEL (R183). -/
  | vsel (a b c : BitVec 5) (k : BitVec 3) (ty : Ty)
  /-- KAND (R183). -/
  | kand (a b c : BitVec 3)
  /-- KOR (R183). -/
  | kor (a b c : BitVec 3)
  /-- KXOR (R183). -/
  | kxor (a b c : BitVec 3)
  /-- KNOT (R183). -/
  | knot (a b : BitVec 3)
  /-- KMOVG (R183). -/
  | kmovg (a : BitVec 5) (b : BitVec 3)
  /-- KMOVK (R183). -/
  | kmovk (a : BitVec 3) (b : BitVec 5)
  /-- KPOPC (R183). -/
  | kpopc (a : BitVec 5) (b : BitVec 3)
  /-- KFIRST (R183). -/
  | kfirst (a : BitVec 5) (b : BitVec 3)
  /-- VCVT (R185). -/
  | vcvt (a b : BitVec 5) (rtz : Bool) (src : Ty) (k : BitVec 3) (ty : Ty) (q : BitVec 3) (sat : Bool)
  /-- VREDSUM (R186). -/
  | vredsum (a b : BitVec 5) (k : BitVec 3) (ty : Ty)
  /-- VREDMIN (R186). -/
  | vredmin (a b : BitVec 5) (k : BitVec 3) (ty : Ty)
  /-- VREDMAX (R186). -/
  | vredmax (a b : BitVec 5) (k : BitVec 3) (ty : Ty)
  /-- VREDAND (R186). -/
  | vredand (a b : BitVec 5) (k : BitVec 3) (ty : Ty)
  /-- VREDOR (R186). -/
  | vredor (a b : BitVec 5) (k : BitVec 3) (ty : Ty)
  /-- VREDXOR (R186). -/
  | vredxor (a b : BitVec 5) (k : BitVec 3) (ty : Ty)
  /-- VREDSUMW (R186). -/
  | vredsumw (a b : BitVec 5) (k : BitVec 3) (ty : Ty)
  /-- VPERM (R188). -/
  | vperm (a b c : BitVec 5) (k : BitVec 3) (ty : Ty)
  /-- VPERMX (R188). -/
  | vpermx (a b c : BitVec 5) (k : BitVec 3) (ty : Ty)
  /-- VSLDN (R188). -/
  | vsldn (a b c : BitVec 5) (k : BitVec 3) (ty : Ty)
  /-- VSLUP (R188). -/
  | vslup (a b c : BitVec 5) (k : BitVec 3) (ty : Ty)
  /-- VCOMP (R188). -/
  | vcomp (a b : BitVec 5) (k : BitVec 3) (ty : Ty)
  /-- VEXPD (R188). -/
  | vexpd (a b : BitVec 5) (k : BitVec 3) (ty : Ty)
  /-- VZIPL (R188). -/
  | vzipl (a b c : BitVec 5) (k : BitVec 3) (ty : Ty)
  /-- VZIPH (R188). -/
  | vziph (a b c : BitVec 5) (k : BitVec 3) (ty : Ty)
  /-- VUZPE (R188). -/
  | vuzpe (a b c : BitVec 5) (k : BitVec 3) (ty : Ty)
  /-- VUZPO (R188). -/
  | vuzpo (a b c : BitVec 5) (k : BitVec 3) (ty : Ty)
  /-- VREV (R188). -/
  | vrev (a b : BitVec 5) (k : BitVec 3) (ty : Ty)
  /-- VLD (R190). -/
  | vld (a b : BitVec 5) (k : BitVec 3) (ty : Ty)
  /-- VST (R190). -/
  | vst (a b : BitVec 5) (k : BitVec 3) (ty : Ty)
  /-- VLDS (R190). -/
  | vlds (a b c : BitVec 5) (k : BitVec 3) (ty : Ty)
  /-- VSTS (R190). -/
  | vsts (a b c : BitVec 5) (k : BitVec 3) (ty : Ty)
  /-- VGATH (R190). -/
  | vgath (a b c : BitVec 5) (k : BitVec 3) (ty : Ty)
  /-- VSCAT (R190). -/
  | vscat (a b c : BitVec 5) (k : BitVec 3) (ty : Ty)
  /-- VSPL (R193). -/
  | vspl (a b : BitVec 5) (k : BitVec 3) (ty : Ty)
  /-- VSPS (R193). -/
  | vsps (a b : BitVec 5) (k : BitVec 3) (ty : Ty)
  /-- VSPGA (R193). -/
  | vspga (a b c : BitVec 5) (k : BitVec 3) (ty : Ty)
  /-- VSPSC (R193). -/
  | vspsc (a b c : BitVec 5) (k : BitVec 3) (ty : Ty)
  /-- VRCP (R195). -/
  | vrcp (a b : BitVec 5) (k : BitVec 3) (ty : Ty)
  /-- VRSQ (R195). -/
  | vrsq (a b : BitVec 5) (k : BitVec 3) (ty : Ty)
  /-- VEXP2 (R195). -/
  | vexp2 (a b : BitVec 5) (k : BitVec 3) (ty : Ty)
  /-- VLOG2 (R195). -/
  | vlog2 (a b : BitVec 5) (k : BitVec 3) (ty : Ty)
  /-- VBCAST (R196). -/
  | vbcast (a b : BitVec 5) (k : BitVec 3) (ty : Ty)
  /-- VINS (R196). -/
  | vins (a b c : BitVec 5) (ty : Ty)
  /-- VEXT (R196). -/
  | vext (a b c : BitVec 5) (ty : Ty)
  /-- VMOV (R196). -/
  | vmov (a b : BitVec 5) (k : BitVec 3) (ty : Ty)
  /-- VIOTA (R196). -/
  | viota (a : BitVec 5) (k : BitVec 3) (ty : Ty)
  /-- VSPLAT (R196). -/
  | vsplat (a b c : BitVec 5) (k : BitVec 3) (ty : Ty)
  /-- TLD (R200). -/
  | tld (a : BitVec 3) (b c : BitVec 5)
  /-- TST (R200). -/
  | tst (a : BitVec 3) (b c : BitVec 5)
  /-- TLDT (R201). -/
  | tldt (a : BitVec 3) (b c : BitVec 5) (ty : Ty)
  /-- TSWAP (R202). -/
  | tswap (a : BitVec 3) (c : BitVec 5)
  /-- TSWAP_T (R202). -/
  | tswapT (a : BitVec 3) (c : BitVec 5)
  /-- TMMA (R203). -/
  | tmma (a b c : BitVec 3) (ty : Ty)
  /-- TZERO (R204). -/
  | tzero (a : BitVec 3)
  /-- TCVT (R204). -/
  | tcvt (a b : BitVec 3) (ty : Ty)
  /-- TILE_CLAIM (R198). -/
  | tileClaim (place : Nat)
  /-- RCFG (R209). -/
  | rcfg (a b : BitVec 5) (n : BitVec 2)
  /-- RRES (R210). -/
  | rres (a b : BitVec 5) (t : Bool)
  /-- RPUB (R211). -/
  | rpub (a b c : BitVec 5)
  /-- RSTAT (R213). -/
  | rstat (a b : BitVec 5)
  /-- RSTAT_MAP (R213). -/
  | rstatMap (a b : BitVec 5)
  /-- RRST (R214). -/
  | rrst (a : BitVec 5) (n : BitVec 2)
  /-- MSTAT (R232). -/
  | mstat (a b : BitVec 5)
  /-- MSTAT_CLR (R232). -/
  | mstatClr (a b : BitVec 5)
  /-- MZERO (R232). -/
  | mzero (a b : BitVec 5)
  /-- MWGT (R232). -/
  | mwgt (a b c : BitVec 5)
  /-- NODE_CMU (R227). -/
  | nodeCmu (a b c : BitVec 5)
  /-- NODE_DRAIN (R231). -/
  | nodeDrain (a b c : BitVec 5)
  /-- NODE_COPY (R234). -/
  | nodeCopy (a b c : BitVec 5)
  /-- NWAIT (R221). -/
  | nwait (a b : BitVec 5) (t : Bool)
  /-- NPOLL (R222). -/
  | npoll (a b : BitVec 5)
  /-- NFREE (R222). -/
  | nfree (a b : BitVec 5)
  /-- YCLAIM (R255). -/
  | yclaim (a : BitVec 5) (t : Bool)
  /-- YREL (R255). -/
  | yrel (a : BitVec 5)
  /-- YLOAD (R256). -/
  | yload (a b : BitVec 5)
  /-- YCLK (R256). -/
  | yclk (a b c : BitVec 5)
  /-- YRUN (R256). -/
  | yrun (a b : BitVec 5)
  /-- YSTOP (R256). -/
  | ystop (a b : BitVec 5)
  /-- YSTOP_W (R256). -/
  | ystopW (a b : BitVec 5) (t : Bool)
  /-- YSAVE (R257). -/
  | ysave (a b : BitVec 5)
  /-- YREST (R257). -/
  | yrest (a b : BitVec 5)
  /-- YGET (R258). -/
  | yget (a b : BitVec 5)
  /-- YSET (R258). -/
  | yset (a b c : BitVec 5)
  /-- YINJ (R259). -/
  | yinj (a b c : BitVec 5)
  /-- YSTAT (R259). -/
  | ystat (a : BitVec 5)
  /-- YSTAT_CLR (R259). -/
  | ystatClr (a : BitVec 5)
  /-- QSEARCH (R265). -/
  | qsearch (a b c : BitVec 5)
  /-- BRED (R270). -/
  | bred (a b c : BitVec 5)
  /-- CHAIN (R272). -/
  | chain (a b : BitVec 5)
  /-- BFPX (R238). -/
  | bfpx (a b c : BitVec 5) (k : BitVec 3) (ty : Ty)
  /-- BFPSCL (R240). -/
  | bfpscl (a b c : BitVec 5)
  /-- BFPQ (R239). -/
  | bfpq (a b c : BitVec 5) (n : BitVec 4)
  /-- BFPCVT (R237). -/
  | bfpcvt (a b : BitVec 5) (ty : Ty) (n : BitVec 4)
  /-- ECALL (R276). -/
  | ecall
  /-- ERET (R277). -/
  | eret
  /-- MFS (R278). -/
  | mfs (a : BitVec 5) (num : BitVec 12)
  /-- MTS (R278). -/
  | mts (a : BitVec 5) (num : BitVec 12)
  /-- TLBINV_PAGE (R279). -/
  | tlbinvPage (b : BitVec 5)
  /-- TLBINV_SPACE (R279). -/
  | tlbinvSpace
  /-- CFLUSH_L (R280). -/
  | cflushL (b : BitVec 5)
  /-- CFLUSH_ALL (R280). -/
  | cflushAll
  /-- CFLUSH_RED (R280). -/
  | cflushRed
  /-- ISYNC (R280). -/
  | isync
  /-- BREAK (R281). -/
  | brk (code : BitVec 10)
  /-- WFE (R281). -/
  | wfe (a : BitVec 5) (t : Bool)
  /-- PREEMPT (R282). -/
  | preempt (a b : BitVec 5)
  /-- TAKE_ASYNC_TRAP (R398). -/
  | takeAsyncTrap (proc : Nat)
  /-- TIMER_EVENT (R49). -/
  | timerEvent (proc : Nat)
  /-- FILL_ARRIVAL (R19). -/
  | fillArrival (n : Nat)
  /-- WAIT_DEADLINE (R137). -/
  | waitDeadline (proc : Nat)
  /-- SLOT_GIVE_UP (R304). -/
  | slotGiveUp (proc : Nat)
  /-- SPILL_SWAP (R301). -/
  | spillSwap (proc : Nat)
  /-- STARVATION_RAISE (R306). -/
  | starvationRaise (proc : Nat)
  /-- QUANTUM_EXPIRY (R307). -/
  | quantumExpiry (proc : Nat)
  /-- PREEMPTION_HALT (R406). -/
  | preemptionHalt (proc : Nat)
  /-- STEAL_REQUEST (R308). -/
  | stealRequest (place : Nat)
  /-- STEAL_EXPIRY (R308). -/
  | stealExpiry (place : Nat)
  /-- STEAL_ARRIVAL (R309). -/
  | stealArrival (n : Nat)
  /-- STEAL_RETURNED (R309). -/
  | stealReturned (n : Nat)
  /-- CHILD_END (R311). -/
  | childEnd (n : Nat)
  /-- EXIT_RETAIN_TIMEOUT (R155). -/
  | exitRetainTimeout (place : Nat)
  /-- DEADLOCK_PROBE (R317). -/
  | deadlockProbe (proc : Nat)
  /-- PROBE_FORWARD (R317). -/
  | probeForward (n : Nat)
  /-- FAULT_MESSAGE_RELEASE (R401). -/
  | faultMessageRelease (place : Nat)
  /-- WATCHDOG_T1 (R404). -/
  | watchdogT1 (place asid queue : Nat)
  /-- WATCHDOG_T2 (R404). -/
  | watchdogT2 (place asid queue : Nat)
  /-- WATCHDOG_T3 (R404). -/
  | watchdogT3 (place asid queue : Nat)
  /-- FE_REFUSAL (R129). -/
  | feRefusal (n : Nat)
  /-- PORT_READ (R370). -/
  | portRead (n : Nat)
  /-- PORT_WRITE (R370). -/
  | portWrite (n : Nat)
  /-- PORT_ATOMIC (R370). -/
  | portAtomic (n : Nat)
  /-- PORT_COMBINE (R370). -/
  | portCombine (n : Nat)
  /-- PORT_RECALL (R141). -/
  | portRecall (home line : Nat)
  /-- PORT_PUSH (R370). -/
  | portPush (n : Nat)
  /-- PORT_CHAIN (R375). -/
  | portChain (n : Nat)
  /-- PORT_EREAD (R370). -/
  | portEread (n : Nat)
  /-- PORT_EWRITE (R370). -/
  | portEwrite (n : Nat)
  /-- PORT_MIGRATE (R356). -/
  | portMigrate (n : Nat)
  /-- PORT_HOST (R370). -/
  | portHost (n : Nat)
  /-- BUDGET_BOUNDARY (R373). -/
  | budgetBoundary (home budget : Nat)
  /-- CHAIN_RETURN (R376). -/
  | chainReturn (n : Nat)
  /-- MEMORY_SERVER_REQUEST (R378). -/
  | memoryServerRequest (place : Nat)
  /-- WINDOW_PUSH (R328). -/
  | windowPush (n : Nat)
  /-- NODE_FINISH (R217). -/
  | nodeFinish (n : Nat)
  /-- MATRIX_STEP_GRANT (R225). -/
  | matrixStepGrant (shed : Nat)
  /-- KSTEP_RETIRE (R212). -/
  | kstepRetire (shed : Nat)
  /-- COPY_RUN (R234). -/
  | copyRun (place : Nat)
  /-- SEARCH_QUERY_START (R379). -/
  | searchQueryStart (unit : Nat)
  /-- SHARD_REPORT (R380). -/
  | shardReport (n : Nat)
  /-- BRED_CHUNK (R381). -/
  | bredChunk (unit : Nat)
  /-- RECORD_OFFER (R321). -/
  | recordOffer (n : Nat)
  /-- RECORD_RECEIVE (R321). -/
  | recordReceive (n : Nat)
  /-- RECORD_WITHDRAWAL (R321). -/
  | recordWithdrawal (n : Nat)
  /-- RECORD_ITEM (R325). -/
  | recordItem (n : Nat)
  /-- RECORD_MARKER (R313). -/
  | recordMarker (n : Nat)
  /-- RECORD_ERROR_TOKEN (R332). -/
  | recordErrorToken (n : Nat)
  /-- RECORD_CLOSE (R166). -/
  | recordClose (n : Nat)
  /-- SEND_ACK (R322). -/
  | sendAck (n : Nat)
  /-- TILE_GO (R323). -/
  | tileGo (n : Nat)
  /-- TILE_COPY_LANDED (R323). -/
  | tileCopyLanded (n : Nat)
  /-- SLOT_TOKEN (R325). -/
  | slotToken (n : Nat)
  /-- LOST_ENTRY (R327). -/
  | lostEntry (dev port : Nat)
  /-- RECORD_COPY (R334). -/
  | recordCopy (n : Nat)
  /-- REBIND_ANNOUNCE (R334). -/
  | rebindAnnounce (n : Nat)
  /-- REBIND_ACK (R334). -/
  | rebindAck (n : Nat)
  /-- INBOX_MESSAGE (R337). -/
  | inboxMessage (n : Nat)
  /-- HANDLER_DISPATCH (R337). -/
  | handlerDispatch (place asid : Nat)
  /-- DELEG_REQUEST (R142). -/
  | delegRequest (n : Nat)
  /-- DELEG_ROUTINE_START (R142). -/
  | delegRoutineStart (place asid : Nat)
  /-- YARD_STEP (R248). -/
  | yardStep (place dom : Nat)
  /-- YARD_INPUT_ITEM (R251). -/
  | yardInputItem (place input : Nat)
  /-- YARD_CLAIM_DONE (R252). -/
  | yardClaimDone (place : Nat)
  /-- YARD_RESTORE (R252). -/
  | yardRestore (place : Nat)
  /-- MOVE_HALT (R288). -/
  | moveHalt (proc : Nat)
  /-- MOVE_COPY (R288). -/
  | moveCopy (proc : Nat)
  /-- MIGRATION_SWITCH (R358). -/
  | migrationSwitch (page : Nat)
  /-- REMAP_RELOAD (R383). -/
  | remapReload (home seg : Nat) (shadowOk : Bool)
  /-- FLIT_ACK_TIMEOUT (R426). -/
  | flitAckTimeout (dev port : Nat)
  /-- LANE_SPARE (R427). -/
  | laneSpare (dev port : Nat)
  /-- LANE_RETRAIN (R427). -/
  | laneRetrain (dev port : Nat)
  /-- PORT_DOWN (R428). -/
  | portDown (dev port : Nat)
  /-- PATH_GIVE_UP (R428). -/
  | pathGiveUp (dev port : Nat)
  /-- REDUCE_STEP (R433). -/
  | reduceStep (binding : Nat)
  /-- FANOUT_STEP (R433). -/
  | fanoutStep (binding : Nat)
  /-- SESSION_AGREEMENT (R452). -/
  | sessionAgreement (asid devA devB : Nat)
  /-- LAUNCH (R107). -/
  | launch (dev win : Nat) (tag : BitVec 16)
  /-- ENDPOINT (R441). -/
  | endpoint (dev win : Nat) (tag : BitVec 16)
  /-- BIND (R438). -/
  | bind (dev win : Nat) (tag : BitVec 16)
  /-- MAP (R438). -/
  | map (dev win : Nat) (tag : BitVec 16)
  /-- ENDPOINT_DOORBELL (R442). -/
  | endpointDoorbell (dev win : Nat) (bell : BitVec 16)
  /-- HOST_ATTEST (R454). -/
  | hostAttest (dev win : Nat) (tag : BitVec 16)
  /-- STAGE (R454). -/
  | stage (dev win : Nat) (tag : BitVec 16)
  /-- ACTIVATE (R454). -/
  | activate (dev win : Nat) (tag : BitVec 16)
  /-- SERVICE (R455). -/
  | service (dev win : Nat) (tag : BitVec 16)
  /-- PORT_TAKEOUT_COMPLETE (R455). -/
  | portTakeoutComplete (home : Nat)
  /-- HOST_COUNTER (R454). -/
  | hostCounter (dev win : Nat) (tag : BitVec 16)
  /-- END (R454). -/
  | endSpace (dev win : Nat) (tag : BitVec 16)
  /-- HOST_MEM_ACCESS (R443). -/
  | hostMemAccess (dev off : Nat) (wr : Option (BitVec 64))
  /-- REGISTER_WRITE (R436): the value written; with none, the host reads the register. -/
  | registerWrite (dev off : Nat) (val : Option (BitVec 64))
  /-- PROCESS_MOVE (R287). -/
  | processMove (n : Nat)
  /-- COLLECTIVE_CONFIGURE (R431). -/
  | collectiveConfigure (n : Nat)
  /-- COLLECTIVE_RELEASE (R431). -/
  | collectiveRelease (n : Nat)
  /-- ROOT (R453). -/
  | root (n : Nat)
  /-- MIGRATE (R356). -/
  | migrate (n : Nat)
  /-- OVRING (R298). -/
  | ovring (n : Nat)
  /-- UNITPOOL (R28). -/
  | unitpool (n : Nat)
  /-- TTSET (R453). -/
  | ttset (n : Nat)
  /-- HALT (R453). -/
  | halt (n : Nat)
  /-- RESUME (R453). -/
  | resume (n : Nat)
  /-- KILL (R453). -/
  | kill (n : Nat)
  /-- SIGNAL (R453). -/
  | signal (n : Nat)
  /-- INBOX (R453). -/
  | inbox (n : Nat)
  /-- UNFENCE (R453). -/
  | unfence (n : Nat)
  /-- COUNTER (R457). -/
  | counter (n : Nat)
  /-- ATTEST (R453). -/
  | attest (n : Nat)
  /-- POWER_ON (R447). -/
  | powerOn (dev : Nat)
  /-- THROTTLE (R458). -/
  | throttle (dev die : Nat)
  /-- OVERHEAT_SHUTDOWN (R458). -/
  | overheatShutdown (dev die : Nat)
  /-- ILLEGAL_WORD (R83). -/
  | illegalWord (detail : BitVec 16) (tval : BitVec 64) (ext : Bool)
  /-- CHILD_CREATION (R297). -/
  | childCreation (n : Nat)
  /-- FLIT_ARRIVAL (R426). -/
  | flitArrival (dev port : Nat) (crcOk tagOk : Bool)
  /-- LINK_PORT_UP (R428). -/
  | linkPortUp (dev port : Nat)
  /-- TO_HOST_ENDPOINT_ROOM (R442). -/
  | toHostEndpointRoom (dev ep : Nat)
  /-- THROTTLE_END (R458). -/
  | throttleEnd (dev die : Nat)
  deriving DecidableEq, Repr

end Sys2Proof
end

