-- ==== Sys2Proof/WellFormed.lean ====
section
/-! DEFINITION. Which instructions are well formed: the operand values that the encodings of the
spec admit (R83, R90, R108). An ill-formed instruction has no word. -/

namespace Sys2Proof

/-- The integer types, TY 0 to 7 (R56, R90). -/
def Ty.isInt : Ty → Bool
  | .i8 | .i16 | .i32 | .i64 | .n8 | .n16 | .n32 | .n64 => true
  | .e4m3 | .e5m2 | .fp16 | .bf16 | .fp32 | .fp64 | .bfp => false

/-- The signed integer types, TY 0 to 3. -/
def Ty.isSigned : Ty → Bool
  | .i8 | .i16 | .i32 | .i64 => true
  | .n8 | .n16 | .n32 | .n64 | .e4m3 | .e5m2 | .fp16 | .bf16 | .fp32 | .fp64 | .bfp => false

/-- TY 8 and 9. -/
def Ty.isFp8 : Ty → Bool
  | .e4m3 | .e5m2 => true
  | .i8 | .i16 | .i32 | .i64 | .n8 | .n16 | .n32 | .n64 | .fp16 | .bf16 | .fp32 | .fp64 | .bfp => false

/-- TY 10 to 12, the types of the function instructions (R195) and of BFPX and BFPCVT (R236). -/
def Ty.isFn : Ty → Bool
  | .fp16 | .bf16 | .fp32 => true
  | .i8 | .i16 | .i32 | .i64 | .n8 | .n16 | .n32 | .n64 | .e4m3 | .e5m2 | .fp64 | .bfp => false

/-- TY 10 to 13. -/
def Ty.isFp (t : Ty) : Bool := t.isFn || t == .fp64

/-- TY 0 to 13: every type but the block type. -/
def Ty.isElem (t : Ty) : Bool := t != .bfp

/-- TY 0 to 7 and 10 to 13 (R179). -/
def Ty.isArith (t : Ty) : Bool := t.isInt || t.isFp

/-- TY 0 to 3 and 10 to 13 (R179, VABS and VNEG). -/
def Ty.isSignable (t : Ty) : Bool := t.isSigned || t.isFp

/-- TY 0 to 7 and 8 to 12 (R186, VREDSUMW). -/
def Ty.isWidenable (t : Ty) : Bool := t.isInt || t.isFp8 || t.isFn

/-- TY 8 to 13 (R182, VCMP.UN). -/
def Ty.isFloat (t : Ty) : Bool := t.isFp8 || t.isFp

/-- TY 8 to 11 (R199, TMMA and TCVT). -/
def Ty.isTile : Ty → Bool
  | .e4m3 | .e5m2 | .fp16 | .bf16 => true
  | .i8 | .i16 | .i32 | .i64 | .n8 | .n16 | .n32 | .n64 | .fp32 | .fp64 | .bfp => false

/-- Bytes of an element (R90, R176); a block counts as one element of 64 bytes. -/
def Ty.bytes : Ty → Nat
  | .i8 | .n8 | .e4m3 | .e5m2 => 1
  | .i16 | .n16 | .fp16 | .bf16 => 2
  | .i32 | .n32 | .fp32 => 4
  | .i64 | .n64 | .fp64 => 8
  | .bfp => 64

/-- The conversions VCVT accepts (R184), types apart from part and saturation. -/
def vcvtTypes (src dst : Ty) : Bool := src != dst && src.isElem && dst.isElem

/-- The ratio r of R184. -/
def vcvtRatio (src dst : Ty) : Nat := max src.bytes dst.bytes / min src.bytes dst.bytes

/-- Part and saturation of a VCVT (R184). -/
def vcvtParts (src dst : Ty) (q : BitVec 3) (sat : Bool) : Bool :=
  decide (q.toNat < vcvtRatio src dst) &&
    (!sat || (src.isInt && dst.isInt && decide (dst.bytes < src.bytes)))

/-- N(n), the elements of a BFPn block (R67). -/
def bfpCount (n : Nat) : Nat := if n = 0 then 0 else 496 / n

/-- R of R237: the source registers of BFPCVT. -/
def bfpcvtRegs (n : Nat) (ty : Ty) : Nat := (bfpCount n * ty.bytes + 63) / 64

/-- The system registers listed in R34. -/
def sysRegs : List (BitVec 12) :=
  [0x000, 0x001, 0x002, 0x003, 0x010, 0x011, 0x012, 0x013, 0x014, 0x020, 0x021, 0x022, 0x030, 0x031,
   0x032, 0x040, 0x050, 0x051, 0x052, 0x060]

/-- The numbers that MFS and MTS may carry: the listed ones, and the machine range, whose access
traps PRIV (R33). -/
def sysNumOk (num : BitVec 12) : Bool := sysRegs.contains num || decide (0x800 ≤ num.toNat)

/-- What an I-form of an EXT pair must satisfy (R112, R115, R121, R132). -/
def extOk (x : BitVec 26) (f : IForm) (a b : BitVec 5) (i : BitVec 16) : Bool :=
  match f with
  | .shi => x == 0 && i.extractLsb' 8 8 == 0
  | .dbnz => a != 0 && b == 0
  | .ld | .spl => decide ((i.extractLsb' 0 3).toNat < 7)
  | .st | .sps => decide ((i.extractLsb' 0 3).toNat < 4)
  | .addi | .andi | .ori | .xori | .slti | .sltiu | .movhi | .muli
  | .beq | .bne | .blt | .bge | .bltu | .bgeu => true

/-- The operands are values that some word carries, or (for a step without a word) any.
Only the constructors whose operand types admit more than the encoding does are named. -/
def Instr.wf (i : Instr) : Bool :=
  match i with
  | .extPair x f a b i => extOk x f a b i
  | .dbnz a _ => a != 0
  | .thalo _ _ _ d _ => decide (d.toNat ≤ 60)
  | .vadd _ _ _ _ ty => ty.isArith
  | .vsub _ _ _ _ ty => ty.isArith
  | .vmul _ _ _ _ ty => ty.isArith
  | .vfma _ _ _ _ ty => ty.isArith
  | .vfms _ _ _ _ ty => ty.isArith
  | .vmin _ _ _ _ ty => ty.isArith
  | .vmax _ _ _ _ ty => ty.isArith
  | .vabs _ _ _ ty => ty.isSignable
  | .vneg _ _ _ ty => ty.isSignable
  | .vadds _ _ _ _ ty => ty.isInt
  | .vsubs _ _ _ _ ty => ty.isInt
  | .vmulh _ _ _ _ ty => ty.isInt
  | .vabsd _ _ _ _ ty => ty.isInt
  | .vdiv _ _ _ _ ty => ty.isArith
  | .vsqrt _ _ _ ty => ty.isFp
  | .vand _ _ _ _ ty => ty.isElem
  | .vor _ _ _ _ ty => ty.isElem
  | .vxor _ _ _ _ ty => ty.isElem
  | .vandn _ _ _ _ ty => ty.isElem
  | .vnot _ _ _ ty => ty.isElem
  | .vshl _ _ _ _ ty => ty.isInt
  | .vshr _ _ _ _ ty => ty.isInt
  | .vsra _ _ _ _ ty => ty.isInt
  | .vrol _ _ _ _ ty => ty.isInt
  | .vshlg _ _ _ _ ty => ty.isInt
  | .vshrg _ _ _ _ ty => ty.isInt
  | .vsrag _ _ _ _ ty => ty.isInt
  | .vrolg _ _ _ _ ty => ty.isInt
  | .vclz _ _ _ ty => ty.isInt
  | .vpopc _ _ _ ty => ty.isInt
  | .vctz _ _ _ ty => ty.isInt
  | .vcmpEq _ _ _ _ ty => ty.isElem
  | .vcmpNe _ _ _ _ ty => ty.isElem
  | .vcmpLt _ _ _ _ ty => ty.isElem
  | .vcmpLe _ _ _ _ ty => ty.isElem
  | .vcmpUn _ _ _ _ ty => ty.isFloat
  | .vsel _ _ _ _ ty => ty.isElem
  | .vcvt _ _ _ src _ ty q sat => vcvtTypes src ty && vcvtParts src ty q sat
  | .vredsum _ _ _ ty => ty.isArith
  | .vredmin _ _ _ ty => ty.isArith
  | .vredmax _ _ _ ty => ty.isArith
  | .vredand _ _ _ ty => ty.isInt
  | .vredor _ _ _ ty => ty.isInt
  | .vredxor _ _ _ ty => ty.isInt
  | .vredsumw _ _ _ ty => ty.isWidenable
  | .vperm _ _ _ _ ty => ty.isElem
  | .vpermx _ _ _ _ ty => ty.isElem
  | .vsldn _ _ _ _ ty => ty.isElem
  | .vslup _ _ _ _ ty => ty.isElem
  | .vcomp _ _ _ ty => ty.isElem
  | .vexpd _ _ _ ty => ty.isElem
  | .vzipl _ _ _ _ ty => ty.isElem
  | .vziph _ _ _ _ ty => ty.isElem
  | .vuzpe _ _ _ _ ty => ty.isElem
  | .vuzpo _ _ _ _ ty => ty.isElem
  | .vrev _ _ _ ty => ty.isElem
  | .vlds _ _ _ _ ty => ty.isElem
  | .vsts _ _ _ _ ty => ty.isElem
  | .vgath _ _ _ _ ty => ty.isElem
  | .vscat _ _ _ _ ty => ty.isElem
  | .vspga _ _ _ _ ty => ty.isElem
  | .vspsc _ _ _ _ ty => ty.isElem
  | .vrcp _ _ _ ty => ty.isFn
  | .vrsq _ _ _ ty => ty.isFn
  | .vexp2 _ _ _ ty => ty.isFn
  | .vlog2 _ _ _ ty => ty.isFn
  | .vbcast _ _ _ ty => ty.isElem
  | .vins _ _ _ ty => ty.isElem
  | .vext _ _ _ ty => ty.isElem
  | .vmov _ _ _ ty => ty.isElem
  | .viota _ _ ty => ty.isInt
  | .vsplat _ _ _ _ ty => ty.isElem
  | .tldt _ _ _ ty => ty.isElem
  | .tmma _ _ _ ty => ty.isTile
  | .tcvt _ _ ty => ty.isTile
  | .bfpx _ _ _ _ ty => ty.isFn
  | .bfpq _ _ _ n => decide (2 ≤ n.toNat ∧ n.toNat ≤ 8)
  | .bfpcvt _ b ty n => ty.isFn && decide (2 ≤ n.toNat ∧ n.toNat ≤ 8) && decide (b.toNat + bfpcvtRegs n.toNat ty ≤ 32)
  | .mfs _ num => sysNumOk num
  | .mts _ num => sysNumOk num
  | .illegalWord detail _ _ => decide (1 ≤ detail.toNat ∧ detail.toNat ≤ 7)
  | _ => true

end Sys2Proof
end

