-- ==== Sys2Proof/Decode.lean ====
section
/-! DEFINITION. From words to instructions and back. `decode1` reads a word that stands alone and
`decodePair` an EXT word with its follower; both are total and reject with the DETAIL of R83. The order
of several rejections of one word is that of the operand-case tables (R108), log 11. After them stands
the encoder, written from the encoding fields of spec/opcode_table.json. -/

namespace Sys2Proof

/-- What the decoder reads: an instruction, or ILLEGAL with a DETAIL of R83, or the first word of an EXT
pair. -/
inductive Decoded where
  | ok (i : Instr)
  | ill (detail : Nat)
  | ext (x : BitVec 26)
  deriving DecidableEq, Repr

/-- TY codes (R90). -/
def Ty.ofCode (c : BitVec 4) : Option Ty :=
  match c.toNat with
  | 0 => some .i8 | 1 => some .i16 | 2 => some .i32 | 3 => some .i64
  | 4 => some .n8 | 5 => some .n16 | 6 => some .n32 | 7 => some .n64
  | 8 => some .e4m3 | 9 => some .e5m2 | 10 => some .fp16 | 11 => some .bf16
  | 12 => some .fp32 | 13 => some .fp64 | 14 => some .bfp
  | _ => none

def Ty.code : Ty → BitVec 4
  | .i8 => 0 | .i16 => 1 | .i32 => 2 | .i64 => 3 | .n8 => 4 | .n16 => 5 | .n32 => 6 | .n64 => 7
  | .e4m3 => 8 | .e5m2 => 9 | .fp16 => 10 | .bf16 => 11 | .fp32 => 12 | .fp64 => 13 | .bfp => 14

/-- Size codes of loads and stores (R121). -/
def LdSize.ofCode (c : BitVec 3) : Option LdSize :=
  match c.toNat with
  | 0 => some .b | 1 => some .h | 2 => some .w | 3 => some .d
  | 4 => some .bn | 5 => some .hn | 6 => some .wn
  | _ => none

def LdSize.code : LdSize → BitVec 3
  | .b => 0 | .h => 1 | .w => 2 | .d => 3 | .bn => 4 | .hn => 5 | .wn => 6

def StSize.ofCode (c : BitVec 3) : Option StSize :=
  match c.toNat with
  | 0 => some .b | 1 => some .h | 2 => some .w | 3 => some .d
  | _ => none

def StSize.code2 : StSize → BitVec 2
  | .b => 0 | .h => 1 | .w => 2 | .d => 3

def StSize.code (s : StSize) : BitVec 3 := 0#1 ++ s.code2

/-- Scope codes (R127). -/
def Scope.ofCode (c : BitVec 3) : Option Scope :=
  match c.toNat with
  | 0 => some .core | 1 => some .shed | 2 => some .die | 3 => some .device | 4 => some .system
  | _ => none

def Scope.code : Scope → BitVec 3
  | .core => 0 | .shed => 1 | .die => 2 | .device => 3 | .system => 4

/-- The ORD field (R138). -/
def AtomOrd.ofCode (c : BitVec 2) : AtomOrd :=
  match c.toNat with
  | 0 => .relaxed | 1 => .aq | 2 => .rl | _ => .ar

def AtomOrd.code : AtomOrd → BitVec 2
  | .relaxed => 0 | .aq => 1 | .rl => 2 | .ar => 3

/-- The cond field of MONW (R146). -/
def MonCond.ofCode (c : BitVec 2) : Option MonCond :=
  match c.toNat with
  | 0 => some .eq | 1 => some .geu | 2 => some .ne | _ => none

def MonCond.code : MonCond → BitVec 2
  | .eq => 0 | .geu => 1 | .ne => 2

/-- C[0] of SEND and RECV (R159). -/
def ItemFile.ofCode (c : BitVec 1) : ItemFile := if c = 0 then .g else .v

def ItemFile.code : ItemFile → BitVec 1
  | .g => 0 | .v => 1

/-- The I-form majors (R81). -/
def IForm.ofMajor (m : BitVec 6) : Option IForm :=
  match m.toNat with
  | 0x02 => some .addi | 0x03 => some .andi | 0x04 => some .ori | 0x05 => some .xori
  | 0x06 => some .slti | 0x07 => some .sltiu | 0x08 => some .shi | 0x09 => some .movhi
  | 0x0A => some .muli | 0x0B => some .beq | 0x0C => some .bne | 0x0D => some .blt
  | 0x0E => some .bge | 0x0F => some .bltu | 0x10 => some .bgeu | 0x11 => some .dbnz
  | 0x15 => some .ld | 0x16 => some .st | 0x18 => some .spl | 0x19 => some .sps
  | _ => none

def IForm.major : IForm → BitVec 6
  | .addi => 0x02 | .andi => 0x03 | .ori => 0x04 | .xori => 0x05 | .slti => 0x06 | .sltiu => 0x07
  | .shi => 0x08 | .movhi => 0x09 | .muli => 0x0A | .beq => 0x0B | .bne => 0x0C | .blt => 0x0D
  | .bge => 0x0E | .bltu => 0x0F | .bgeu => 0x10 | .dbnz => 0x11 | .ld => 0x15 | .st => 0x16
  | .spl => 0x18 | .sps => 0x19

/-- Requires `ok`, else ILLEGAL with DETAIL `d`. -/
def need (ok : Bool) (d : Nat) (k : Decoded) : Decoded := if ok then k else .ill d

/-- A k or m register number: 8 to 31 is DETAIL 4 (R80). -/
def reg3 (r : BitVec 5) (k : BitVec 3 → Decoded) : Decoded :=
  need (r.extractLsb' 3 2 == 0) 4 (k (r.extractLsb' 0 3))

/-- A TY accepted by the row, else DETAIL 4 (R176). -/
def tyIn (acc : Ty → Bool) (c : BitVec 4) (k : Ty → Decoded) : Decoded :=
  match Ty.ofCode c with
  | none => .ill 4
  | some t => need (acc t) 4 (k t)

/-- A load size, else DETAIL 6 (R121). -/
def ldSz (c : BitVec 3) (k : LdSize → Decoded) : Decoded :=
  match LdSize.ofCode c with
  | none => .ill 6
  | some s => k s

def stSz (c : BitVec 3) (k : StSize → Decoded) : Decoded :=
  match StSize.ofCode c with
  | none => .ill 6
  | some s => k s

/-- A scope, else DETAIL 6 (R127, R144). -/
def scopeOf (c : BitVec 3) (k : Scope → Decoded) : Decoded :=
  match Scope.ofCode c with
  | none => .ill 6
  | some s => k s

/-- Major 0x01 (R109, R110). -/
def dec01 (a b c : BitVec 5) (fn : BitVec 11) : Decoded :=
  let u (i : Instr) : Decoded := need (c == 0) 3 (.ok i)
  match fn.toNat with
  | 0x00 => .ok (.add a b c) | 0x01 => .ok (.sub a b c) | 0x02 => .ok (.and a b c)
  | 0x03 => .ok (.or a b c) | 0x04 => .ok (.xor a b c) | 0x05 => .ok (.andn a b c)
  | 0x06 => .ok (.shl a b c) | 0x07 => .ok (.shr a b c) | 0x08 => .ok (.sra a b c)
  | 0x09 => .ok (.rol a b c) | 0x0A => .ok (.mul a b c) | 0x0B => .ok (.mulh a b c)
  | 0x0C => .ok (.mulhu a b c) | 0x0D => .ok (.div a b c) | 0x0E => .ok (.divu a b c)
  | 0x0F => .ok (.rem a b c) | 0x10 => .ok (.remu a b c) | 0x11 => .ok (.min a b c)
  | 0x12 => .ok (.max a b c) | 0x13 => .ok (.minu a b c) | 0x14 => .ok (.maxu a b c)
  | 0x15 => .ok (.slt a b c) | 0x16 => .ok (.sltu a b c) | 0x17 => .ok (.seq a b c)
  | 0x18 => u (.clz a b) | 0x19 => u (.ctz a b) | 0x1A => u (.popc a b) | 0x1B => u (.brev a b)
  | 0x1C => u (.bswap a b) | 0x1D => u (.sextB a b) | 0x1E => u (.sextH a b)
  | 0x1F => u (.sextW a b) | 0x20 => u (.zextB a b) | 0x21 => u (.zextH a b)
  | 0x22 => u (.zextW a b)
  | 0x23 => .ok (.lea1 a b c) | 0x24 => .ok (.lea2 a b c) | 0x25 => .ok (.lea4 a b c)
  | 0x26 => .ok (.lea8 a b c)
  | _ => .ill 2

/-- SHI (R112). -/
def decShi (a b : BitVec 5) (i : BitVec 16) : Decoded :=
  need (i.extractLsb' 8 8 == 0) 3 <|
    let n := i.extractLsb' 0 6
    match (i.extractLsb' 6 2).toNat with
    | 0 => .ok (.shiL a b n) | 1 => .ok (.shiR a b n) | 2 => .ok (.shiA a b n)
    | _ => .ok (.shiRol a b n)

/-- The I-forms (R111, R112, R114, R115, R121, R132). -/
def decI (f : IForm) (a b : BitVec 5) (i : BitVec 16) : Decoded :=
  match f with
  | .addi => .ok (.addi a b i) | .andi => .ok (.andi a b i) | .ori => .ok (.ori a b i)
  | .xori => .ok (.xori a b i) | .slti => .ok (.slti a b i) | .sltiu => .ok (.sltiu a b i)
  | .shi => decShi a b i
  | .movhi => .ok (.movhi a b i) | .muli => .ok (.muli a b i)
  | .beq => .ok (.beq a b i) | .bne => .ok (.bne a b i) | .blt => .ok (.blt a b i)
  | .bge => .ok (.bge a b i) | .bltu => .ok (.bltu a b i) | .bgeu => .ok (.bgeu a b i)
  | .dbnz => need (a != 0 && b == 0) 3 (.ok (.dbnz a i))
  | .ld => ldSz (i.extractLsb' 0 3) fun s => .ok (.ld a b (i.extractLsb' 3 13) s)
  | .st => stSz (i.extractLsb' 0 3) fun s => .ok (.st a b (i.extractLsb' 3 13) s)
  | .spl => ldSz (i.extractLsb' 0 3) fun s => .ok (.spl a b (i.extractLsb' 3 13) s)
  | .sps => stSz (i.extractLsb' 0 3) fun s => .ok (.sps a b (i.extractLsb' 3 13) s)

/-- Major 0x14 (R120). -/
def dec14 (a b c : BitVec 5) (fn : BitVec 11) : Decoded :=
  match fn.toNat with
  | 0 => need (a == 0 && c == 0) 3 (.ok (.jr b))
  | 1 => need (c == 0) 3 (.ok (.callr a b))
  | 2 => need (a == 0 && b == 0 && c == 0) 3 (.ok .ret)
  | _ => .ill 2

/-- Major 0x17 (R126, R127, R131). -/
def dec17 (a b c : BitVec 5) (fn : BitVec 11) : Decoded :=
  let t := fn.getLsbD 10
  let sz := fn.extractLsb' 0 3
  let d (k : Decoded) : Decoded := need (sz == 3) 6 k
  match (fn.extractLsb' 3 7).toNat with
  | 0 => ldSz sz fun s => need (!t) 3 (.ok (.ldx a b c s))
  | 1 => stSz sz fun s => need (!t) 3 (.ok (.stx a b c s))
  | 2 => ldSz sz fun s => need (!t) 3 <| scopeOf (c.extractLsb' 0 3) fun p =>
      need (c.extractLsb' 3 2 == 0) 3 (.ok (.lda a b p s))
  | 3 => stSz sz fun s => need (!t) 3 <| scopeOf (c.extractLsb' 0 3) fun p =>
      need (c.extractLsb' 3 2 == 0) 3 (.ok (.stl a b p s))
  | 4 => d (.ok (.lds a b c t))
  | 5 => d (.ok (.sts a b c t))
  | 6 => d (.ok (.ldf a b c t))
  | 7 => d (need (!t && c == 0) 3 (.ok (.feget a b)))
  | 8 => d (need (!t && c == 0) 3 (.ok (.feset a b)))
  | _ => .ill 2

/-- Major 0x1A (R138, R143). -/
def dec1A (a b c : BitVec 5) (fn : BitVec 11) : Decoded :=
  let z := fn.getLsbD 10
  let ord := fn.extractLsb' 8 2
  let sz := fn.extractLsb' 0 3
  let d := fn.getLsbD 0
  let szOk := sz.extractLsb' 1 2 == 1
  let amo (mk : AtomOrd → Bool → Instr) : Decoded :=
    need szOk 6 (need (!z) 3 (.ok (mk (AtomOrd.ofCode ord) d)))
  let red (mk : Bool → Instr) : Decoded :=
    need szOk 6 (need (!z && ord == 0 && a == 0) 3 (.ok (mk d)))
  match (fn.extractLsb' 3 5).toNat with
  | 0 => amo (.amoAdd a b c) | 1 => amo (.amoAnd a b c) | 2 => amo (.amoOr a b c)
  | 3 => amo (.amoXor a b c) | 4 => amo (.amoMin a b c) | 5 => amo (.amoMax a b c)
  | 6 => amo (.amoMinu a b c) | 7 => amo (.amoMaxu a b c) | 8 => amo (.amoSwap a b c)
  | 9 => amo (.cas a b c)
  | 10 => red (.redAdd b c) | 11 => red (.redFadd b c) | 12 => red (.redMin b c)
  | 13 => red (.redMax b c)
  | 14 => need (!z && ord == 0 && sz == 0) 3 (.ok (.deleg a b c))
  | _ => .ill 2

/-- Major 0x1B (R144, R150). -/
def dec1B (a b c : BitVec 5) (fn : BitVec 11) : Decoded :=
  let t := fn.getLsbD 10
  let sub := fn.extractLsb' 0 5
  match (fn.extractLsb' 5 5).toNat with
  | 0 => scopeOf (c.extractLsb' 0 3) fun p =>
      need (!t && a == 0 && b == 0 && c.extractLsb' 3 2 == 0 && !sub.getLsbD 4) 3
        (.ok (.fence p (sub.extractLsb' 0 4)))
  | 1 =>
    match MonCond.ofCode (sub.extractLsb' 1 2) with
    | none => .ill 6
    | some n => need (sub.extractLsb' 3 2 == 0) 3 (.ok (.monw a b c t n (sub.getLsbD 0)))
  | 2 => need (!t && c == 0 && sub == 0) 3 (.ok (.gjoin a b))
  | 3 => need (!t && a == 0 && c == 0 && sub == 0) 3 (.ok (.gleave b))
  | 4 => need (!t && c == 0 && sub == 0) 3 (.ok (.barArrive a b))
  | 5 => need (!t && c == 0 && sub == 0) 3 (.ok (.barDrop a b))
  | 6 => need (sub == 0) 3 (.ok (.barWait a b c t))
  | _ => .ill 2

/-- Major 0x1C (R151, R158). -/
def dec1C (a b c : BitVec 5) (fn : BitVec 11) : Decoded :=
  let t := fn.getLsbD 10
  let sub := fn.extractLsb' 0 5
  let n := sub.extractLsb' 0 2
  let hi0 := sub.extractLsb' 2 3 == 0
  match (fn.extractLsb' 5 5).toNat with
  | 0 => need (!t && hi0) 3 (.ok (.spawn a b c n))
  | 1 => need (!t && a == 0 && c == 0 && sub.extractLsb' 1 4 == 0) 3 <|
      if sub.getLsbD 0 then .ok (.exitR b) else need (b == 0) 3 (.ok .exit)
  | 2 => need (!t && a == 0 && b == 0 && c == 0 && sub == 0) 3 (.ok .yield)
  | 3 => need (!t && a == 0 && c == 0 && sub == 0) 3 (.ok (.prio b))
  | 4 => need (b == 0 && c == 0 && hi0) 3 (.ok (.jwait a t n))
  | 5 => need (!t && b == 0 && c == 0 && sub == 0) 3 (.ok (.self a))
  | _ => .ill 2

/-- Major 0x1D (R82, R159, R169). -/
def dec1D (a b c : BitVec 5) (fn : BitVec 11) : Decoded :=
  let d := fn.extractLsb' 5 6
  let t := fn.getLsbD 4
  match (fn.extractLsb' 0 4).toNat with
  | 0 => need (c.extractLsb' 1 4 == 0) 3 (.ok (.send a b (ItemFile.ofCode (c.extractLsb' 0 1)) d t))
  | 1 => need (c.extractLsb' 1 4 == 0) 3 (.ok (.recv a b (ItemFile.ofCode (c.extractLsb' 0 1)) d t))
  | 2 => need (c == 0 && d == 0) 3 (.ok (.alt a b t))
  | 3 => need (b == 0 && c == 0 && !t) 3 (.ok (.poison a d))
  | 4 => need (b == 0 && c == 0 && d == 0 && !t) 3 (.ok (.mark a))
  | 5 => need (c == 0 && !t) 3 (.ok (.chnew a b d))
  | 6 => if t then need (c == 0 && d == 0) 3 (.ok (.chbindD a b)) else .ok (.chbind a b c d)
  | 7 => need (b == 0 && c == 0 && !t) 3 (.ok (.chclose a d))
  | 8 => need (d == 0) 3 (.ok (.amsg a b c t))
  | 9 => need (!t) 3 (.ok (.winopen a b c d))
  | 10 => need (b == 0 && c == 0 && !t) 3 (.ok (.winclose a d))
  | _ => .ill 2

/-- Major 0x1E (R170, R172, R173). -/
def dec1E (a b c : BitVec 5) (fn : BitVec 11) : Decoded :=
  let d := fn.extractLsb' 5 6
  let t := fn.getLsbD 4
  match (fn.extractLsb' 0 4).toNat with
  | 0 => need (c == 0) 3 (.ok (.sendt a b d t))
  | 1 => need (c == 0) 3 (.ok (.recvt a b d t))
  | 2 => need (decide (d.toNat ≤ 60)) 6 (.ok (.thalo a b c d t))
  | _ => .ill 2

/-- The fields of a V-form word (R176). -/
structure VFields where
  a : BitVec 5
  b : BitVec 5
  c : BitVec 5
  k : BitVec 3
  ty : BitVec 4
  deriving DecidableEq, Repr

/-- A V-form with three registers. -/
def VFields.abc (v : VFields) (acc : Ty → Bool)
    (mk : BitVec 5 → BitVec 5 → BitVec 5 → BitVec 3 → Ty → Instr) : Decoded :=
  tyIn acc v.ty fun t => .ok (mk v.a v.b v.c v.k t)

/-- A V-form with two registers, C zero. -/
def VFields.ab (v : VFields) (acc : Ty → Bool)
    (mk : BitVec 5 → BitVec 5 → BitVec 3 → Ty → Instr) : Decoded :=
  need (v.c == 0) 3 (tyIn acc v.ty fun t => .ok (mk v.a v.b v.k t))

/-- Major 0x1F (R179). -/
def dec1F (v : VFields) (f : BitVec 4) : Decoded :=
  match f.toNat with
  | 0 => v.abc Ty.isArith .vadd | 1 => v.abc Ty.isArith .vsub | 2 => v.abc Ty.isArith .vmul
  | 3 => v.abc Ty.isArith .vfma | 4 => v.abc Ty.isArith .vfms | 5 => v.abc Ty.isArith .vmin
  | 6 => v.abc Ty.isArith .vmax | 7 => v.ab Ty.isSignable .vabs | 8 => v.ab Ty.isSignable .vneg
  | 9 => v.abc Ty.isInt .vadds | 10 => v.abc Ty.isInt .vsubs | 11 => v.abc Ty.isInt .vmulh
  | 12 => v.abc Ty.isInt .vabsd | 13 => v.abc Ty.isArith .vdiv | 14 => v.ab Ty.isFp .vsqrt
  | _ => .ill 2

/-- Major 0x20 (R181). -/
def dec20 (v : VFields) (f : BitVec 4) : Decoded :=
  match f.toNat with
  | 0 => v.abc Ty.isElem .vand | 1 => v.abc Ty.isElem .vor | 2 => v.abc Ty.isElem .vxor
  | 3 => v.abc Ty.isElem .vandn | 4 => v.ab Ty.isElem .vnot
  | 5 => v.abc Ty.isInt .vshl | 6 => v.abc Ty.isInt .vshr | 7 => v.abc Ty.isInt .vsra
  | 8 => v.abc Ty.isInt .vrol | 9 => v.abc Ty.isInt .vshlg | 10 => v.abc Ty.isInt .vshrg
  | 11 => v.abc Ty.isInt .vsrag | 12 => v.abc Ty.isInt .vrolg
  | 13 => v.ab Ty.isInt .vclz | 14 => v.ab Ty.isInt .vpopc | _ => v.ab Ty.isInt .vctz

/-- A compare: A names a k register (R182). -/
def VFields.cmp (v : VFields) (acc : Ty → Bool)
    (mk : BitVec 3 → BitVec 5 → BitVec 5 → BitVec 3 → Ty → Instr) : Decoded :=
  tyIn acc v.ty fun t => reg3 v.a fun a => .ok (mk a v.b v.c v.k t)

/-- K and TY zero: no mask and no element type (R90). -/
def VFields.plain (v : VFields) (k : Decoded) : Decoded := need (v.k == 0 && v.ty == 0) 3 k

/-- Major 0x21 (R182, R183). -/
def dec21 (v : VFields) (f : BitVec 4) : Decoded :=
  let c0 (k : Decoded) : Decoded := v.plain (need (v.c == 0) 3 k)
  match f.toNat with
  | 0 => v.cmp Ty.isElem .vcmpEq | 1 => v.cmp Ty.isElem .vcmpNe | 2 => v.cmp Ty.isElem .vcmpLt
  | 3 => v.cmp Ty.isElem .vcmpLe | 4 => v.cmp Ty.isFloat .vcmpUn
  | 5 => v.abc Ty.isElem .vsel
  | 6 => v.plain <| reg3 v.a fun a => reg3 v.b fun b => reg3 v.c fun c => .ok (.kand a b c)
  | 7 => v.plain <| reg3 v.a fun a => reg3 v.b fun b => reg3 v.c fun c => .ok (.kor a b c)
  | 8 => v.plain <| reg3 v.a fun a => reg3 v.b fun b => reg3 v.c fun c => .ok (.kxor a b c)
  | 9 => c0 <| reg3 v.a fun a => reg3 v.b fun b => .ok (.knot a b)
  | 10 => c0 <| reg3 v.b fun b => .ok (.kmovg v.a b)
  | 11 => c0 <| reg3 v.a fun a => .ok (.kmovk a v.b)
  | 12 => c0 <| reg3 v.b fun b => .ok (.kpopc v.a b)
  | 13 => c0 <| reg3 v.b fun b => .ok (.kfirst v.a b)
  | _ => .ill 2

/-- Major 0x22, VCVT (R184): C[3:0] the source type, C[4] RTZ, FN[3:1] the part, FN[0] saturation. -/
def dec22 (v : VFields) (f : BitVec 4) : Decoded :=
  match Ty.ofCode (v.c.extractLsb' 0 4), Ty.ofCode v.ty with
  | some s, some t =>
    need (vcvtTypes s t) 4 <|
      need (vcvtParts s t (f.extractLsb' 1 3) (f.getLsbD 0)) 3
        (.ok (.vcvt v.a v.b (v.c.getLsbD 4) s v.k t (f.extractLsb' 1 3) (f.getLsbD 0)))
  | _, _ => .ill 4

/-- Major 0x23 (R186). -/
def dec23 (v : VFields) (f : BitVec 4) : Decoded :=
  match f.toNat with
  | 0 => v.ab Ty.isArith .vredsum | 1 => v.ab Ty.isArith .vredmin | 2 => v.ab Ty.isArith .vredmax
  | 3 => v.ab Ty.isInt .vredand | 4 => v.ab Ty.isInt .vredor | 5 => v.ab Ty.isInt .vredxor
  | 6 => v.ab Ty.isWidenable .vredsumw
  | _ => .ill 2

/-- Major 0x24 (R188). -/
def dec24 (v : VFields) (f : BitVec 4) : Decoded :=
  match f.toNat with
  | 0 => v.abc Ty.isElem .vperm | 1 => v.abc Ty.isElem .vpermx | 2 => v.abc Ty.isElem .vsldn
  | 3 => v.abc Ty.isElem .vslup | 4 => v.ab Ty.isElem .vcomp | 5 => v.ab Ty.isElem .vexpd
  | 6 => v.abc Ty.isElem .vzipl | 7 => v.abc Ty.isElem .vziph | 8 => v.abc Ty.isElem .vuzpe
  | 9 => v.abc Ty.isElem .vuzpo | 10 => v.ab Ty.isElem .vrev
  | _ => .ill 2

/-- Major 0x25 (R189); FN 0, 1, 6 and 7 accept every type. -/
def dec25 (v : VFields) (f : BitVec 4) : Decoded :=
  match f.toNat with
  | 0 => v.ab (fun _ => true) .vld | 1 => v.ab (fun _ => true) .vst
  | 2 => v.abc Ty.isElem .vlds | 3 => v.abc Ty.isElem .vsts
  | 4 => v.abc Ty.isElem .vgath | 5 => v.abc Ty.isElem .vscat
  | 6 => v.ab (fun _ => true) .vspl | 7 => v.ab (fun _ => true) .vsps
  | 8 => v.abc Ty.isElem .vspga | 9 => v.abc Ty.isElem .vspsc
  | _ => .ill 2

/-- Major 0x26 (R195). -/
def dec26 (v : VFields) (f : BitVec 4) : Decoded :=
  match f.toNat with
  | 0 => v.ab Ty.isFn .vrcp | 1 => v.ab Ty.isFn .vrsq | 2 => v.ab Ty.isFn .vexp2
  | 3 => v.ab Ty.isFn .vlog2
  | _ => .ill 2

/-- Major 0x27 (R196). -/
def dec27 (v : VFields) (f : BitVec 4) : Decoded :=
  match f.toNat with
  | 0 => v.ab Ty.isElem .vbcast
  | 1 => need (v.k == 0) 3 (tyIn Ty.isElem v.ty fun t => .ok (.vins v.a v.b v.c t))
  | 2 => need (v.k == 0) 3 (tyIn Ty.isElem v.ty fun t => .ok (.vext v.a v.b v.c t))
  | 3 => v.ab Ty.isElem .vmov
  | 4 => need (v.b == 0 && v.c == 0) 3 (tyIn Ty.isInt v.ty fun t => .ok (.viota v.a v.k t))
  | 5 => v.abc Ty.isElem .vsplat
  | _ => .ill 2

/-- Major 0x28 (R199, R205). R204 allows A with B = C = 0 for TZERO only; the model reads this of what the fields carry and
takes TCVT mA, m0, whose B is 0, as the TCVT of m0 (log 112). -/
def dec28 (v : VFields) (f : BitVec 4) : Decoded :=
  let k0 (k : Decoded) : Decoded := need (v.k == 0) 3 k
  let ty0 (k : Decoded) : Decoded := need (v.ty == 0) 3 k
  match f.toNat with
  | 0 => reg3 v.a fun a => k0 <| ty0 (.ok (.tld a v.b v.c))
  | 1 => reg3 v.a fun a => k0 <| ty0 (.ok (.tst a v.b v.c))
  | 2 => reg3 v.a fun a => k0 <| tyIn Ty.isElem v.ty fun t => .ok (.tldt a v.b v.c t)
  | 3 => reg3 v.a fun a => k0 <| ty0 <| need (v.b == 0) 3 (.ok (.tswap a v.c))
  | 4 => reg3 v.a fun a => k0 <| ty0 <| need (v.b == 0) 3 (.ok (.tswapT a v.c))
  | 5 => reg3 v.a fun a => reg3 v.b fun b => reg3 v.c fun c =>
      k0 <| tyIn Ty.isTile v.ty fun t => .ok (.tmma a b c t)
  | 6 => reg3 v.a fun a => k0 <| ty0 <| need (v.b == 0 && v.c == 0) 3 (.ok (.tzero a))
  | 7 => reg3 v.a fun a => reg3 v.b fun b => k0 <| need (v.c == 0) 3 <|
      tyIn Ty.isTile v.ty fun t => .ok (.tcvt a b t)
  | _ => .ill 2

/-- Major 0x29 (R208, R215). -/
def dec29 (a b c : BitVec 5) (fn : BitVec 11) : Decoded :=
  let t := fn.getLsbD 10
  let sub := fn.extractLsb' 0 5
  let n := sub.extractLsb' 0 2
  let hi0 := sub.extractLsb' 2 3 == 0
  match (fn.extractLsb' 5 5).toNat with
  | 0 => need (!t && c == 0 && hi0) 3 (.ok (.rcfg a b n))
  | 1 => need (c == 0 && sub == 0) 3 (.ok (.rres a b t))
  | 2 => need (!t && sub == 0) 3 (.ok (.rpub a b c))
  | 3 => need (!t && c == 0 && sub.extractLsb' 1 4 == 0) 3 <|
      if sub.getLsbD 0 then .ok (.rstatMap a b) else .ok (.rstat a b)
  | 4 => need (!t && b == 0 && c == 0 && hi0) 3 (.ok (.rrst a n))
  | _ => .ill 2

/-- Major 0x2A (R232). -/
def dec2A (a b c : BitVec 5) (fn : BitVec 11) : Decoded :=
  let t := fn.getLsbD 10
  let sub := fn.extractLsb' 0 5
  match (fn.extractLsb' 5 5).toNat with
  | 0 => need (!t && c == 0 && sub.extractLsb' 1 4 == 0) 3 <|
      if sub.getLsbD 0 then .ok (.mstatClr a b) else .ok (.mstat a b)
  | 1 => need (!t && c == 0 && sub == 0) 3 (.ok (.mzero a b))
  | 2 => need (!t && sub == 0) 3 (.ok (.mwgt a b c))
  | _ => .ill 2

/-- Major 0x2B (R218). -/
def dec2B (a b c : BitVec 5) (fn : BitVec 11) : Decoded :=
  let t := fn.getLsbD 10
  let sub := fn.extractLsb' 0 5
  match (fn.extractLsb' 5 5).toNat with
  | 0 => need (!t && sub == 0) 3 (.ok (.nodeCmu a b c))
  | 1 => need (!t && sub == 0) 3 (.ok (.nodeDrain a b c))
  | 2 => need (!t && sub == 0) 3 (.ok (.nodeCopy a b c))
  | 3 => need (c == 0 && sub == 0) 3 (.ok (.nwait a b t))
  | 4 => need (!t && c == 0 && sub == 0) 3 (.ok (.npoll a b))
  | 5 => need (!t && c == 0 && sub == 0) 3 (.ok (.nfree a b))
  | _ => .ill 2

/-- Major 0x2C (R254, R260). -/
def dec2C (a b c : BitVec 5) (fn : BitVec 11) : Decoded :=
  let t := fn.getLsbD 10
  let sub := fn.extractLsb' 0 5
  let s0 := sub == 0
  let c0 := c == 0
  match (fn.extractLsb' 5 5).toNat with
  | 0 => need (b == 0 && c0 && s0) 3 (.ok (.yclaim a t))
  | 1 => need (!t && b == 0 && c0 && s0) 3 (.ok (.yrel a))
  | 2 => need (!t && c0 && s0) 3 (.ok (.yload a b))
  | 3 => need (!t && s0) 3 (.ok (.yclk a b c))
  | 4 => need (!t && c0 && s0) 3 (.ok (.yrun a b))
  | 5 => need (c0 && sub.extractLsb' 1 4 == 0) 3 <|
      if sub.getLsbD 0 then .ok (.ystopW a b t) else need (!t) 3 (.ok (.ystop a b))
  | 6 => need (!t && c0 && s0) 3 (.ok (.ysave a b))
  | 7 => need (!t && c0 && s0) 3 (.ok (.yrest a b))
  | 8 => need (!t && c0 && s0) 3 (.ok (.yget a b))
  | 9 => need (!t && s0) 3 (.ok (.yset a b c))
  | 10 => need (!t && s0) 3 (.ok (.yinj a b c))
  | 11 => need (!t && b == 0 && c0 && sub.extractLsb' 1 4 == 0) 3 <|
      if sub.getLsbD 0 then .ok (.ystatClr a) else .ok (.ystat a)
  | _ => .ill 2

/-- Major 0x2D (R261). -/
noncomputable def dec2D (a b c : BitVec 5) (fn : BitVec 11) : Decoded :=
  let t := fn.getLsbD 10
  let s0 := fn.extractLsb' 0 5 == 0
  match (fn.extractLsb' 5 5).toNat with
  | 0 => need (!t && s0) 3 (.ok (.qsearch a b c))
  | 1 => need (!t && s0) 3 (.ok (.bred a b c))
  | 2 => need (!t && c == 0 && s0) 3 (.ok (.chain a b))
  | _ => .ill 2

/-- Major 0x2E (R236, R242). -/
noncomputable def dec2E (v : VFields) (f : BitVec 4) : Decoded :=
  if f == 0 then v.abc Ty.isFn .bfpx
  else if f == 1 then
    need (v.ty == 14) 4 (need (v.k == 0) 3 (.ok (.bfpscl v.a v.b v.c)))
  else if f.toNat ≤ 8 then
    need (v.ty == 14) 4 (need (v.k == 0) 3 (.ok (.bfpq v.a v.b v.c f)))
  else
    tyIn Ty.isFn v.ty fun t => need (v.k == 0) 3 <| need (v.c == 0) 3 <|
      need (decide (v.b.toNat + bfpcvtRegs (f - 7).toNat t ≤ 32)) 3 (.ok (.bfpcvt v.a v.b t (f - 7)))

/-- Major 0x2F (R275, R283). -/
noncomputable def dec2F (a b c : BitVec 5) (fn : BitVec 11) : Decoded :=
  let t := fn.getLsbD 10
  let sub := fn.extractLsb' 0 5
  let num : BitVec 12 := b ++ c ++ sub.extractLsb' 0 2
  let abc0 := a == 0 && b == 0 && c == 0
  match (fn.extractLsb' 5 5).toNat with
  | 0 => need (!t && abc0 && sub == 0) 3 (.ok .ecall)
  | 1 => need (!t && abc0 && sub == 0) 3 (.ok .eret)
  | 2 => need (!t && sub.extractLsb' 2 3 == 0) 3 (need (sysNumOk num) 2 (.ok (.mfs a num)))
  | 3 => need (!t && sub.extractLsb' 2 3 == 0) 3 (need (sysNumOk num) 2 (.ok (.mts a num)))
  | 4 => need (decide (sub.toNat ≤ 1)) 6 <| need (!t && a == 0 && c == 0) 3 <|
      if sub == 0 then .ok (.tlbinvPage b) else need (b == 0) 3 (.ok .tlbinvSpace)
  | 5 => need (decide (sub.toNat ≤ 2)) 6 <| need (!t && a == 0 && c == 0) 3 <|
      if sub == 0 then .ok (.cflushL b)
      else need (b == 0) 3 (.ok (if sub == 1 then .cflushAll else .cflushRed))
  | 6 => need (!t && abc0 && sub == 0) 3 (.ok .isync)
  | 7 => need (!t && a == 0 && sub == 0) 3 (.ok (.brk (b ++ c)))
  | 8 => need (b == 0 && c == 0 && sub == 0) 3 (.ok (.wfe a t))
  | 9 => need (!t && c == 0 && sub == 0) 3 (.ok (.preempt a b))
  | _ => .ill 2

/-- The fields of a word (R79). -/
def fldMaj (w : IWord) : BitVec 6 := w.extractLsb' 26 6
def fldA (w : IWord) : BitVec 5 := w.extractLsb' 21 5
def fldB (w : IWord) : BitVec 5 := w.extractLsb' 16 5
def fldC (w : IWord) : BitVec 5 := w.extractLsb' 11 5
def fldFn (w : IWord) : BitVec 11 := w.extractLsb' 0 11
def fldImm (w : IWord) : BitVec 16 := w.extractLsb' 0 16
def fldImm26 (w : IWord) : BitVec 26 := w.extractLsb' 0 26

/-- The V-form fields of a word. -/
def vFields (w : IWord) : VFields :=
  { a := fldA w, b := fldB w, c := fldC w,
    k := (fldFn w).extractLsb' 8 3, ty := (fldFn w).extractLsb' 4 4 }

/-- FN of a V-form word. -/
def fldF (w : IWord) : BitVec 4 := (fldFn w).extractLsb' 0 4

/-- The majors other than the I-forms and EXT (R81). -/
noncomputable def decMajor (w : IWord) : Decoded :=
  let r (d : BitVec 5 → BitVec 5 → BitVec 5 → BitVec 11 → Decoded) : Decoded :=
    d (fldA w) (fldB w) (fldC w) (fldFn w)
  let v (d : VFields → BitVec 4 → Decoded) : Decoded := d (vFields w) (fldF w)
  match (fldMaj w).toNat with
  | 0x01 => r dec01
  | 0x12 => .ok (.j (fldImm26 w))
  | 0x13 => .ok (.call (fldImm26 w))
  | 0x14 => r dec14
  | 0x17 => r dec17
  | 0x1A => r dec1A
  | 0x1B => r dec1B
  | 0x1C => r dec1C
  | 0x1D => r dec1D
  | 0x1E => r dec1E
  | 0x1F => v dec1F
  | 0x20 => v dec20
  | 0x21 => v dec21
  | 0x22 => v dec22
  | 0x23 => v dec23
  | 0x24 => v dec24
  | 0x25 => v dec25
  | 0x26 => v dec26
  | 0x27 => v dec27
  | 0x28 => v dec28
  | 0x29 => r dec29
  | 0x2A => r dec2A
  | 0x2B => r dec2B
  | 0x2C => r dec2C
  | 0x2D => r dec2D
  | 0x2E => v dec2E
  | 0x2F => r dec2F
  | _ => .ill 1

/-- A word read alone (R81, R83). Major 0x3E is the first word of an EXT pair (R87). -/
noncomputable def decode1 (w : IWord) : Decoded :=
  if fldMaj w = 0x3E then .ext (fldImm26 w)
  else
    match IForm.ofMajor (fldMaj w) with
    | some f => decI f (fldA w) (fldB w) (fldImm w)
    | none => decMajor w

/-- An EXT word with immediate `x`, and the word after it (R87): DETAIL 5 if that is no I-form. The checks
of the short form hold for the pair, on its 42-bit value (R112). -/
noncomputable def decodePair (x : BitVec 26) (w : IWord) : Decoded :=
  match IForm.ofMajor (fldMaj w) with
  | none => .ill 5
  | some f =>
    match decI f (fldA w) (fldB w) (fldImm w) with
    | .ok _ => need (f != .shi || x == 0) 3 (.ok (.extPair x f (fldA w) (fldB w) (fldImm w)))
    | r => r

/-- The words of an instruction, first word first: the whole decoder. -/
noncomputable def decode (ws : List IWord) : Decoded :=
  match ws with
  | [] => .ill 1
  | w :: rest =>
    match decode1 w with
    | .ext x =>
      match rest with
      | [] => .ill 5
      | w2 :: _ => decodePair x w2
    | r => r

/-- A word of format R (R79). -/
def encR (maj : BitVec 6) (a b c : BitVec 5) (fn : BitVec 11) : IWord := maj ++ a ++ b ++ c ++ fn

/-- A word of format I. -/
def encI (maj : BitVec 6) (a b : BitVec 5) (imm : BitVec 16) : IWord := maj ++ a ++ b ++ imm

/-- A word of format J, and the EXT word. -/
def encJ (maj : BitVec 6) (imm : BitVec 26) : IWord := maj ++ imm

/-- The one word of an instruction that has one (R79, spec/opcode_table.json). -/
def encodeWord (i : Instr) : Option IWord :=
  match i with
  | .add a b c => some (encR 0x01#6 a b c 0x000#11)
  | .sub a b c => some (encR 0x01#6 a b c 0x001#11)
  | .and a b c => some (encR 0x01#6 a b c 0x002#11)
  | .or a b c => some (encR 0x01#6 a b c 0x003#11)
  | .xor a b c => some (encR 0x01#6 a b c 0x004#11)
  | .andn a b c => some (encR 0x01#6 a b c 0x005#11)
  | .shl a b c => some (encR 0x01#6 a b c 0x006#11)
  | .shr a b c => some (encR 0x01#6 a b c 0x007#11)
  | .sra a b c => some (encR 0x01#6 a b c 0x008#11)
  | .rol a b c => some (encR 0x01#6 a b c 0x009#11)
  | .mul a b c => some (encR 0x01#6 a b c 0x00A#11)
  | .mulh a b c => some (encR 0x01#6 a b c 0x00B#11)
  | .mulhu a b c => some (encR 0x01#6 a b c 0x00C#11)
  | .div a b c => some (encR 0x01#6 a b c 0x00D#11)
  | .divu a b c => some (encR 0x01#6 a b c 0x00E#11)
  | .rem a b c => some (encR 0x01#6 a b c 0x00F#11)
  | .remu a b c => some (encR 0x01#6 a b c 0x010#11)
  | .min a b c => some (encR 0x01#6 a b c 0x011#11)
  | .max a b c => some (encR 0x01#6 a b c 0x012#11)
  | .minu a b c => some (encR 0x01#6 a b c 0x013#11)
  | .maxu a b c => some (encR 0x01#6 a b c 0x014#11)
  | .slt a b c => some (encR 0x01#6 a b c 0x015#11)
  | .sltu a b c => some (encR 0x01#6 a b c 0x016#11)
  | .seq a b c => some (encR 0x01#6 a b c 0x017#11)
  | .clz a b => some (encR 0x01#6 a b 0#5 0x018#11)
  | .ctz a b => some (encR 0x01#6 a b 0#5 0x019#11)
  | .popc a b => some (encR 0x01#6 a b 0#5 0x01A#11)
  | .brev a b => some (encR 0x01#6 a b 0#5 0x01B#11)
  | .bswap a b => some (encR 0x01#6 a b 0#5 0x01C#11)
  | .sextB a b => some (encR 0x01#6 a b 0#5 0x01D#11)
  | .sextH a b => some (encR 0x01#6 a b 0#5 0x01E#11)
  | .sextW a b => some (encR 0x01#6 a b 0#5 0x01F#11)
  | .zextB a b => some (encR 0x01#6 a b 0#5 0x020#11)
  | .zextH a b => some (encR 0x01#6 a b 0#5 0x021#11)
  | .zextW a b => some (encR 0x01#6 a b 0#5 0x022#11)
  | .lea1 a b c => some (encR 0x01#6 a b c 0x023#11)
  | .lea2 a b c => some (encR 0x01#6 a b c 0x024#11)
  | .lea4 a b c => some (encR 0x01#6 a b c 0x025#11)
  | .lea8 a b c => some (encR 0x01#6 a b c 0x026#11)
  | .addi a b i => some (encI 0x02#6 a b i)
  | .andi a b i => some (encI 0x03#6 a b i)
  | .ori a b i => some (encI 0x04#6 a b i)
  | .xori a b i => some (encI 0x05#6 a b i)
  | .slti a b i => some (encI 0x06#6 a b i)
  | .sltiu a b i => some (encI 0x07#6 a b i)
  | .shiL a b n => some (encI 0x08#6 a b (0#10 ++ n))
  | .shiR a b n => some (encI 0x08#6 a b (1#10 ++ n))
  | .shiA a b n => some (encI 0x08#6 a b (2#10 ++ n))
  | .shiRol a b n => some (encI 0x08#6 a b (3#10 ++ n))
  | .movhi a b i => some (encI 0x09#6 a b i)
  | .muli a b i => some (encI 0x0A#6 a b i)
  | .beq a b i => some (encI 0x0B#6 a b i)
  | .bne a b i => some (encI 0x0C#6 a b i)
  | .blt a b i => some (encI 0x0D#6 a b i)
  | .bge a b i => some (encI 0x0E#6 a b i)
  | .bltu a b i => some (encI 0x0F#6 a b i)
  | .bgeu a b i => some (encI 0x10#6 a b i)
  | .dbnz a i => some (encI 0x11#6 a 0#5 i)
  | .j i => some (encJ 0x12#6 i)
  | .call i => some (encJ 0x13#6 i)
  | .jr b => some (encR 0x14#6 0#5 b 0#5 0x000#11)
  | .callr a b => some (encR 0x14#6 a b 0#5 0x001#11)
  | .ret => some (encR 0x14#6 0#5 0#5 0#5 0x002#11)
  | .ld a b o sz => some (encI 0x15#6 a b (o ++ sz.code))
  | .st a b o sz => some (encI 0x16#6 a b (o ++ sz.code))
  | .ldx a b c sz => some (encR 0x17#6 a b c (0#8 ++ sz.code))
  | .stx a b c sz => some (encR 0x17#6 a b c (2#9 ++ sz.code2))
  | .lda a b p sz => some (encR 0x17#6 a b (0#2 ++ p.code) (2#8 ++ sz.code))
  | .stl a b p sz => some (encR 0x17#6 a b (0#2 ++ p.code) (6#9 ++ sz.code2))
  | .lds a b c t => some (encR 0x17#6 a b c (BitVec.ofBool t ++ 35#10))
  | .sts a b c t => some (encR 0x17#6 a b c (BitVec.ofBool t ++ 43#10))
  | .ldf a b c t => some (encR 0x17#6 a b c (BitVec.ofBool t ++ 51#10))
  | .feget a b => some (encR 0x17#6 a b 0#5 0x03B#11)
  | .feset a b => some (encR 0x17#6 a b 0#5 0x043#11)
  | .spl a b o sz => some (encI 0x18#6 a b (o ++ sz.code))
  | .sps a b o sz => some (encI 0x19#6 a b (o ++ sz.code))
  | .amoAdd a b c o d => some (encR 0x1A#6 a b c (0#1 ++ o.code ++ 1#7 ++ BitVec.ofBool d))
  | .amoAnd a b c o d => some (encR 0x1A#6 a b c (0#1 ++ o.code ++ 5#7 ++ BitVec.ofBool d))
  | .amoOr a b c o d => some (encR 0x1A#6 a b c (0#1 ++ o.code ++ 9#7 ++ BitVec.ofBool d))
  | .amoXor a b c o d => some (encR 0x1A#6 a b c (0#1 ++ o.code ++ 13#7 ++ BitVec.ofBool d))
  | .amoMin a b c o d => some (encR 0x1A#6 a b c (0#1 ++ o.code ++ 17#7 ++ BitVec.ofBool d))
  | .amoMax a b c o d => some (encR 0x1A#6 a b c (0#1 ++ o.code ++ 21#7 ++ BitVec.ofBool d))
  | .amoMinu a b c o d => some (encR 0x1A#6 a b c (0#1 ++ o.code ++ 25#7 ++ BitVec.ofBool d))
  | .amoMaxu a b c o d => some (encR 0x1A#6 a b c (0#1 ++ o.code ++ 29#7 ++ BitVec.ofBool d))
  | .amoSwap a b c o d => some (encR 0x1A#6 a b c (0#1 ++ o.code ++ 33#7 ++ BitVec.ofBool d))
  | .cas a b c o d => some (encR 0x1A#6 a b c (0#1 ++ o.code ++ 37#7 ++ BitVec.ofBool d))
  | .redAdd b c d => some (encR 0x1A#6 0#5 b c (41#10 ++ BitVec.ofBool d))
  | .redFadd b c d => some (encR 0x1A#6 0#5 b c (45#10 ++ BitVec.ofBool d))
  | .redMin b c d => some (encR 0x1A#6 0#5 b c (49#10 ++ BitVec.ofBool d))
  | .redMax b c d => some (encR 0x1A#6 0#5 b c (53#10 ++ BitVec.ofBool d))
  | .deleg a b c => some (encR 0x1A#6 a b c 0x070#11)
  | .fence p kinds => some (encR 0x1B#6 0#5 0#5 (0#2 ++ p.code) (0#7 ++ kinds))
  | .monw a b c t n mem => some (encR 0x1B#6 a b c (BitVec.ofBool t ++ 4#7 ++ n.code ++ BitVec.ofBool mem))
  | .gjoin a b => some (encR 0x1B#6 a b 0#5 0x040#11)
  | .gleave b => some (encR 0x1B#6 0#5 b 0#5 0x060#11)
  | .barArrive a b => some (encR 0x1B#6 a b 0#5 0x080#11)
  | .barDrop a b => some (encR 0x1B#6 a b 0#5 0x0A0#11)
  | .barWait a b c t => some (encR 0x1B#6 a b c (BitVec.ofBool t ++ 192#10))
  | .spawn a b c n => some (encR 0x1C#6 a b c (0#9 ++ n))
  | .exit => some (encR 0x1C#6 0#5 0#5 0#5 0x020#11)
  | .exitR b => some (encR 0x1C#6 0#5 b 0#5 0x021#11)
  | .yield => some (encR 0x1C#6 0#5 0#5 0#5 0x040#11)
  | .prio b => some (encR 0x1C#6 0#5 b 0#5 0x060#11)
  | .jwait a t n => some (encR 0x1C#6 a 0#5 0#5 (BitVec.ofBool t ++ 32#8 ++ n))
  | .self a => some (encR 0x1C#6 a 0#5 0#5 0x0A0#11)
  | .send a b f d t => some (encR 0x1D#6 a b (0#4 ++ f.code) (d ++ BitVec.ofBool t ++ 0#4))
  | .recv a b f d t => some (encR 0x1D#6 a b (0#4 ++ f.code) (d ++ BitVec.ofBool t ++ 1#4))
  | .alt a b t => some (encR 0x1D#6 a b 0#5 (0#6 ++ BitVec.ofBool t ++ 2#4))
  | .poison a d => some (encR 0x1D#6 a 0#5 0#5 (d ++ 3#5))
  | .mark a => some (encR 0x1D#6 a 0#5 0#5 0x004#11)
  | .chnew a b d => some (encR 0x1D#6 a b 0#5 (d ++ 5#5))
  | .chbind a b c d => some (encR 0x1D#6 a b c (d ++ 6#5))
  | .chbindD a b => some (encR 0x1D#6 a b 0#5 0x016#11)
  | .chclose a d => some (encR 0x1D#6 a 0#5 0#5 (d ++ 7#5))
  | .amsg a b c t => some (encR 0x1D#6 a b c (0#6 ++ BitVec.ofBool t ++ 8#4))
  | .winopen a b c d => some (encR 0x1D#6 a b c (d ++ 9#5))
  | .winclose a d => some (encR 0x1D#6 a 0#5 0#5 (d ++ 10#5))
  | .sendt a b d t => some (encR 0x1E#6 a b 0#5 (d ++ BitVec.ofBool t ++ 0#4))
  | .recvt a b d t => some (encR 0x1E#6 a b 0#5 (d ++ BitVec.ofBool t ++ 1#4))
  | .thalo a b c d t => some (encR 0x1E#6 a b c (d ++ BitVec.ofBool t ++ 2#4))
  | .vadd a b c k ty => some (encR 0x1F#6 a b c (k ++ ty.code ++ 0#4))
  | .vsub a b c k ty => some (encR 0x1F#6 a b c (k ++ ty.code ++ 1#4))
  | .vmul a b c k ty => some (encR 0x1F#6 a b c (k ++ ty.code ++ 2#4))
  | .vfma a b c k ty => some (encR 0x1F#6 a b c (k ++ ty.code ++ 3#4))
  | .vfms a b c k ty => some (encR 0x1F#6 a b c (k ++ ty.code ++ 4#4))
  | .vmin a b c k ty => some (encR 0x1F#6 a b c (k ++ ty.code ++ 5#4))
  | .vmax a b c k ty => some (encR 0x1F#6 a b c (k ++ ty.code ++ 6#4))
  | .vabs a b k ty => some (encR 0x1F#6 a b 0#5 (k ++ ty.code ++ 7#4))
  | .vneg a b k ty => some (encR 0x1F#6 a b 0#5 (k ++ ty.code ++ 8#4))
  | .vadds a b c k ty => some (encR 0x1F#6 a b c (k ++ ty.code ++ 9#4))
  | .vsubs a b c k ty => some (encR 0x1F#6 a b c (k ++ ty.code ++ 10#4))
  | .vmulh a b c k ty => some (encR 0x1F#6 a b c (k ++ ty.code ++ 11#4))
  | .vabsd a b c k ty => some (encR 0x1F#6 a b c (k ++ ty.code ++ 12#4))
  | .vdiv a b c k ty => some (encR 0x1F#6 a b c (k ++ ty.code ++ 13#4))
  | .vsqrt a b k ty => some (encR 0x1F#6 a b 0#5 (k ++ ty.code ++ 14#4))
  | .vand a b c k ty => some (encR 0x20#6 a b c (k ++ ty.code ++ 0#4))
  | .vor a b c k ty => some (encR 0x20#6 a b c (k ++ ty.code ++ 1#4))
  | .vxor a b c k ty => some (encR 0x20#6 a b c (k ++ ty.code ++ 2#4))
  | .vandn a b c k ty => some (encR 0x20#6 a b c (k ++ ty.code ++ 3#4))
  | .vnot a b k ty => some (encR 0x20#6 a b 0#5 (k ++ ty.code ++ 4#4))
  | .vshl a b c k ty => some (encR 0x20#6 a b c (k ++ ty.code ++ 5#4))
  | .vshr a b c k ty => some (encR 0x20#6 a b c (k ++ ty.code ++ 6#4))
  | .vsra a b c k ty => some (encR 0x20#6 a b c (k ++ ty.code ++ 7#4))
  | .vrol a b c k ty => some (encR 0x20#6 a b c (k ++ ty.code ++ 8#4))
  | .vshlg a b c k ty => some (encR 0x20#6 a b c (k ++ ty.code ++ 9#4))
  | .vshrg a b c k ty => some (encR 0x20#6 a b c (k ++ ty.code ++ 10#4))
  | .vsrag a b c k ty => some (encR 0x20#6 a b c (k ++ ty.code ++ 11#4))
  | .vrolg a b c k ty => some (encR 0x20#6 a b c (k ++ ty.code ++ 12#4))
  | .vclz a b k ty => some (encR 0x20#6 a b 0#5 (k ++ ty.code ++ 13#4))
  | .vpopc a b k ty => some (encR 0x20#6 a b 0#5 (k ++ ty.code ++ 14#4))
  | .vctz a b k ty => some (encR 0x20#6 a b 0#5 (k ++ ty.code ++ 15#4))
  | .vcmpEq a b c k ty => some (encR 0x21#6 (0#2 ++ a) b c (k ++ ty.code ++ 0#4))
  | .vcmpNe a b c k ty => some (encR 0x21#6 (0#2 ++ a) b c (k ++ ty.code ++ 1#4))
  | .vcmpLt a b c k ty => some (encR 0x21#6 (0#2 ++ a) b c (k ++ ty.code ++ 2#4))
  | .vcmpLe a b c k ty => some (encR 0x21#6 (0#2 ++ a) b c (k ++ ty.code ++ 3#4))
  | .vcmpUn a b c k ty => some (encR 0x21#6 (0#2 ++ a) b c (k ++ ty.code ++ 4#4))
  | .vsel a b c k ty => some (encR 0x21#6 a b c (k ++ ty.code ++ 5#4))
  | .kand a b c => some (encR 0x21#6 (0#2 ++ a) (0#2 ++ b) (0#2 ++ c) 0x006#11)
  | .kor a b c => some (encR 0x21#6 (0#2 ++ a) (0#2 ++ b) (0#2 ++ c) 0x007#11)
  | .kxor a b c => some (encR 0x21#6 (0#2 ++ a) (0#2 ++ b) (0#2 ++ c) 0x008#11)
  | .knot a b => some (encR 0x21#6 (0#2 ++ a) (0#2 ++ b) 0#5 0x009#11)
  | .kmovg a b => some (encR 0x21#6 a (0#2 ++ b) 0#5 0x00A#11)
  | .kmovk a b => some (encR 0x21#6 (0#2 ++ a) b 0#5 0x00B#11)
  | .kpopc a b => some (encR 0x21#6 a (0#2 ++ b) 0#5 0x00C#11)
  | .kfirst a b => some (encR 0x21#6 a (0#2 ++ b) 0#5 0x00D#11)
  | .vcvt a b rtz src k ty q sat => some (encR 0x22#6 a b (BitVec.ofBool rtz ++ src.code) (k ++ ty.code ++ q ++ BitVec.ofBool sat))
  | .vredsum a b k ty => some (encR 0x23#6 a b 0#5 (k ++ ty.code ++ 0#4))
  | .vredmin a b k ty => some (encR 0x23#6 a b 0#5 (k ++ ty.code ++ 1#4))
  | .vredmax a b k ty => some (encR 0x23#6 a b 0#5 (k ++ ty.code ++ 2#4))
  | .vredand a b k ty => some (encR 0x23#6 a b 0#5 (k ++ ty.code ++ 3#4))
  | .vredor a b k ty => some (encR 0x23#6 a b 0#5 (k ++ ty.code ++ 4#4))
  | .vredxor a b k ty => some (encR 0x23#6 a b 0#5 (k ++ ty.code ++ 5#4))
  | .vredsumw a b k ty => some (encR 0x23#6 a b 0#5 (k ++ ty.code ++ 6#4))
  | .vperm a b c k ty => some (encR 0x24#6 a b c (k ++ ty.code ++ 0#4))
  | .vpermx a b c k ty => some (encR 0x24#6 a b c (k ++ ty.code ++ 1#4))
  | .vsldn a b c k ty => some (encR 0x24#6 a b c (k ++ ty.code ++ 2#4))
  | .vslup a b c k ty => some (encR 0x24#6 a b c (k ++ ty.code ++ 3#4))
  | .vcomp a b k ty => some (encR 0x24#6 a b 0#5 (k ++ ty.code ++ 4#4))
  | .vexpd a b k ty => some (encR 0x24#6 a b 0#5 (k ++ ty.code ++ 5#4))
  | .vzipl a b c k ty => some (encR 0x24#6 a b c (k ++ ty.code ++ 6#4))
  | .vziph a b c k ty => some (encR 0x24#6 a b c (k ++ ty.code ++ 7#4))
  | .vuzpe a b c k ty => some (encR 0x24#6 a b c (k ++ ty.code ++ 8#4))
  | .vuzpo a b c k ty => some (encR 0x24#6 a b c (k ++ ty.code ++ 9#4))
  | .vrev a b k ty => some (encR 0x24#6 a b 0#5 (k ++ ty.code ++ 10#4))
  | .vld a b k ty => some (encR 0x25#6 a b 0#5 (k ++ ty.code ++ 0#4))
  | .vst a b k ty => some (encR 0x25#6 a b 0#5 (k ++ ty.code ++ 1#4))
  | .vlds a b c k ty => some (encR 0x25#6 a b c (k ++ ty.code ++ 2#4))
  | .vsts a b c k ty => some (encR 0x25#6 a b c (k ++ ty.code ++ 3#4))
  | .vgath a b c k ty => some (encR 0x25#6 a b c (k ++ ty.code ++ 4#4))
  | .vscat a b c k ty => some (encR 0x25#6 a b c (k ++ ty.code ++ 5#4))
  | .vspl a b k ty => some (encR 0x25#6 a b 0#5 (k ++ ty.code ++ 6#4))
  | .vsps a b k ty => some (encR 0x25#6 a b 0#5 (k ++ ty.code ++ 7#4))
  | .vspga a b c k ty => some (encR 0x25#6 a b c (k ++ ty.code ++ 8#4))
  | .vspsc a b c k ty => some (encR 0x25#6 a b c (k ++ ty.code ++ 9#4))
  | .vrcp a b k ty => some (encR 0x26#6 a b 0#5 (k ++ ty.code ++ 0#4))
  | .vrsq a b k ty => some (encR 0x26#6 a b 0#5 (k ++ ty.code ++ 1#4))
  | .vexp2 a b k ty => some (encR 0x26#6 a b 0#5 (k ++ ty.code ++ 2#4))
  | .vlog2 a b k ty => some (encR 0x26#6 a b 0#5 (k ++ ty.code ++ 3#4))
  | .vbcast a b k ty => some (encR 0x27#6 a b 0#5 (k ++ ty.code ++ 0#4))
  | .vins a b c ty => some (encR 0x27#6 a b c (0#3 ++ ty.code ++ 1#4))
  | .vext a b c ty => some (encR 0x27#6 a b c (0#3 ++ ty.code ++ 2#4))
  | .vmov a b k ty => some (encR 0x27#6 a b 0#5 (k ++ ty.code ++ 3#4))
  | .viota a k ty => some (encR 0x27#6 a 0#5 0#5 (k ++ ty.code ++ 4#4))
  | .vsplat a b c k ty => some (encR 0x27#6 a b c (k ++ ty.code ++ 5#4))
  | .tld a b c => some (encR 0x28#6 (0#2 ++ a) b c 0x000#11)
  | .tst a b c => some (encR 0x28#6 (0#2 ++ a) b c 0x001#11)
  | .tldt a b c ty => some (encR 0x28#6 (0#2 ++ a) b c (0#3 ++ ty.code ++ 2#4))
  | .tswap a c => some (encR 0x28#6 (0#2 ++ a) 0#5 c 0x003#11)
  | .tswapT a c => some (encR 0x28#6 (0#2 ++ a) 0#5 c 0x004#11)
  | .tmma a b c ty => some (encR 0x28#6 (0#2 ++ a) (0#2 ++ b) (0#2 ++ c) (0#3 ++ ty.code ++ 5#4))
  | .tzero a => some (encR 0x28#6 (0#2 ++ a) 0#5 0#5 0x006#11)
  | .tcvt a b ty => some (encR 0x28#6 (0#2 ++ a) (0#2 ++ b) 0#5 (0#3 ++ ty.code ++ 7#4))
  | .rcfg a b n => some (encR 0x29#6 a b 0#5 (0#9 ++ n))
  | .rres a b t => some (encR 0x29#6 a b 0#5 (BitVec.ofBool t ++ 32#10))
  | .rpub a b c => some (encR 0x29#6 a b c 0x040#11)
  | .rstat a b => some (encR 0x29#6 a b 0#5 0x060#11)
  | .rstatMap a b => some (encR 0x29#6 a b 0#5 0x061#11)
  | .rrst a n => some (encR 0x29#6 a 0#5 0#5 (32#9 ++ n))
  | .mstat a b => some (encR 0x2A#6 a b 0#5 0x000#11)
  | .mstatClr a b => some (encR 0x2A#6 a b 0#5 0x001#11)
  | .mzero a b => some (encR 0x2A#6 a b 0#5 0x020#11)
  | .mwgt a b c => some (encR 0x2A#6 a b c 0x040#11)
  | .nodeCmu a b c => some (encR 0x2B#6 a b c 0x000#11)
  | .nodeDrain a b c => some (encR 0x2B#6 a b c 0x020#11)
  | .nodeCopy a b c => some (encR 0x2B#6 a b c 0x040#11)
  | .nwait a b t => some (encR 0x2B#6 a b 0#5 (BitVec.ofBool t ++ 96#10))
  | .npoll a b => some (encR 0x2B#6 a b 0#5 0x080#11)
  | .nfree a b => some (encR 0x2B#6 a b 0#5 0x0A0#11)
  | .yclaim a t => some (encR 0x2C#6 a 0#5 0#5 (BitVec.ofBool t ++ 0#10))
  | .yrel a => some (encR 0x2C#6 a 0#5 0#5 0x020#11)
  | .yload a b => some (encR 0x2C#6 a b 0#5 0x040#11)
  | .yclk a b c => some (encR 0x2C#6 a b c 0x060#11)
  | .yrun a b => some (encR 0x2C#6 a b 0#5 0x080#11)
  | .ystop a b => some (encR 0x2C#6 a b 0#5 0x0A0#11)
  | .ystopW a b t => some (encR 0x2C#6 a b 0#5 (BitVec.ofBool t ++ 161#10))
  | .ysave a b => some (encR 0x2C#6 a b 0#5 0x0C0#11)
  | .yrest a b => some (encR 0x2C#6 a b 0#5 0x0E0#11)
  | .yget a b => some (encR 0x2C#6 a b 0#5 0x100#11)
  | .yset a b c => some (encR 0x2C#6 a b c 0x120#11)
  | .yinj a b c => some (encR 0x2C#6 a b c 0x140#11)
  | .ystat a => some (encR 0x2C#6 a 0#5 0#5 0x160#11)
  | .ystatClr a => some (encR 0x2C#6 a 0#5 0#5 0x161#11)
  | .qsearch a b c => some (encR 0x2D#6 a b c 0x000#11)
  | .bred a b c => some (encR 0x2D#6 a b c 0x020#11)
  | .chain a b => some (encR 0x2D#6 a b 0#5 0x040#11)
  | .bfpx a b c k ty => some (encR 0x2E#6 a b c (k ++ ty.code ++ 0#4))
  | .bfpscl a b c => some (encR 0x2E#6 a b c 0x0E1#11)
  | .bfpq a b c n => some (encR 0x2E#6 a b c (14#7 ++ n))
  | .bfpcvt a b ty n => some (encR 0x2E#6 a b 0#5 (0#3 ++ ty.code ++ (n + 7)))
  | .ecall => some (encR 0x2F#6 0#5 0#5 0#5 0x000#11)
  | .eret => some (encR 0x2F#6 0#5 0#5 0#5 0x020#11)
  | .mfs a num => some (encR 0x2F#6 a (num.extractLsb' 7 5) (num.extractLsb' 2 5) (16#9 ++ num.extractLsb' 0 2))
  | .mts a num => some (encR 0x2F#6 a (num.extractLsb' 7 5) (num.extractLsb' 2 5) (24#9 ++ num.extractLsb' 0 2))
  | .tlbinvPage b => some (encR 0x2F#6 0#5 b 0#5 0x080#11)
  | .tlbinvSpace => some (encR 0x2F#6 0#5 0#5 0#5 0x081#11)
  | .cflushL b => some (encR 0x2F#6 0#5 b 0#5 0x0A0#11)
  | .cflushAll => some (encR 0x2F#6 0#5 0#5 0#5 0x0A1#11)
  | .cflushRed => some (encR 0x2F#6 0#5 0#5 0#5 0x0A2#11)
  | .isync => some (encR 0x2F#6 0#5 0#5 0#5 0x0C0#11)
  | .brk code => some (encR 0x2F#6 0#5 (code.extractLsb' 5 5) (code.extractLsb' 0 5) 0x0E0#11)
  | .wfe a t => some (encR 0x2F#6 a 0#5 0#5 (BitVec.ofBool t ++ 256#10))
  | .preempt a b => some (encR 0x2F#6 a b 0#5 0x120#11)
  | _ => none

/-- The words of an instruction; an EXT pair has two (R87), a step of another agent none. -/
def encode (i : Instr) : Option (List IWord) :=
  match i with
  | .extPair x f a b imm => some [encJ 0x3E x, encI f.major a b imm]
  | _ => (encodeWord i).map fun w => [w]

/-- The little-endian word at byte `n` of a number, as the hardware stores words (R8, R78). -/
def wordAt (bits : Nat) (n : Nat) : IWord := BitVec.ofNat 32 (bits >>> (32 * n))

/-- What the decoder reads from an instruction whose bits, low word first, are `w`; bits at and above
`nbits` are zero. -/
noncomputable def decodeTableWord (nbits w : Nat) : Option Instr :=
  let b := w % 2 ^ nbits
  match decode [wordAt b 0, wordAt b 1] with
  | .ok i => some i
  | .ill _ | .ext _ => none

end Sys2Proof
end

