-- ==== Sys2Proof/Config.lean ====
section
/-! DEFINITION. What the spec leaves to the implementation, as constants without a value: no proof can
see what they are. -/

namespace Sys2Proof.Config

/-- Free values drawn one after another (log 20). -/
opaque freeWord : Nat → Word

/-- Byte `i` of the door table of a context record in its device-internal layout (R30, log 13): from the
owner's handle and its bound doors as (door, channel, end). -/
opaque doorByte (handle : Word) (doors : List (Nat × Nat × Bool)) (i : Nat) : Byte

/-- The check word of a door table under the key of a core (R31, log 13). -/
opaque checkWord (place : Nat) (table : List Byte) : Word

/-- The word address to which a routine of the delegation server or of the inbox returns (R142, R337). -/
opaque returnWord : BitVec 62

/-- The private keys, of 32 bytes each (log 7): the identity key of a device and the Palvex root key (R448), and the
X25519 key of a session (R452). -/
opaque identityKey (dev : Nat) : List Byte
opaque rootKey : List Byte
opaque sessionKey (n : Nat) : List Byte

/-- The keys a Grestra core draws for a sealed space (R450, log 7): the two of the XTS pair, and the tag key. -/
opaque pageKey (keyId which : Nat) : List Byte

/-- The module serial number, and the public key of the Palvex firmware (R446, R448). -/
opaque serial (dev : Nat) : Word
opaque firmwareKey : List Byte

/-- The firmware image in a slot of a part as delivered (R447, log 35): device, kind, instance, slot B. -/
opaque factorySlot (dev kind inst : Nat) (b : Bool) : List Byte

/-- The minimum SVN of a kind in the one-time storage as delivered (R446, log 35). -/
opaque factorySvn (dev kind : Nat) : Nat

/-- The port of a device to which a link port is cabled, and the route table that the firmware writes at domain
bring-up (R422, R423, log 36). -/
opaque cable (dev port : Nat) : Option (Nat × Nat)
opaque route (dev to_ : Nat) : BitVec 16

/-- A gauge of R457 that reports a physical quantity (temperature, power): kind, instance, index, time. -/
opaque gauge (kind inst idx time : Nat) : Word

/-- The bank row of an address in its pseudo-channel, and the segment of the port's remap table that covers its bank
(R382, log 84). -/
opaque bankRow (pa : Nat) : Nat
opaque remapSegment (pa : Nat) : Nat

/-- The budget of a port in a millisecond (R373): at least 4 MiB, set by the power arbiter. -/
opaque budget (port ms : Nat) : Nat

/-- What that budget is lowered to while the port's die is hot (R458): at least 4 MiB as well. -/
opaque hotBudget (port ms : Nat) : Nat

end Sys2Proof.Config
end

