-- ==== Sys2Proof/Machine/Numbers.lean ====
section
/-! DEFINITION. Numbers (R56 to R77): integer elements, the floating formats with one rounding
function, conversions, and the exact group. A floating value is held exactly: NaN, an infinity, or
(-1)^s * m * 2^e. -/

namespace Sys2Proof.Machine

/-- Rounding modes (R62). -/
inductive RM where
  | rne | rtz | rup | rdn
  deriving DecidableEq, Repr

def RM.ofBits (n : Nat) : RM :=
  match n % 4 with
  | 0 => .rne | 1 => .rtz | 2 => .rup | _ => .rdn

/-- The NUMCTL fields an instruction samples at issue (R36, R39). -/
structure NumMode where
  rm : RM
  sat8 : Bool
  nan1 : Bool
  deriving DecidableEq, Repr

/-- NUMCTL as fields (R39). -/
def NumMode.ofWord (w : Word) : NumMode :=
  { rm := .ofBits (w.extractLsb' 0 2).toNat, sat8 := w.getLsbD 2, nan1 := w.getLsbD 3 }

/-- The exact value of a floating datum. -/
inductive FVal where
  | nan
  | inf (s : Bool)
  | fin (s : Bool) (m : Nat) (e : Int)
  deriving DecidableEq, Repr

/-- A floating format (R58): exponent and mantissa widths, bias, and the magnitude bits of the largest
finite value; magnitudes above that are an infinity at `infMag` and NaNs elsewhere. -/
structure Fmt where
  ew : Nat
  mw : Nat
  bias : Nat
  maxMag : Nat
  infMag : Option Nat
  nanBits : Nat
  fp8 : Bool
  deriving DecidableEq, Repr

/-- The formats of R58, with the canonical NaNs of R60. Types that are no floating format get FP32. -/
def Fmt.of (t : Ty) (nan1 : Bool) : Fmt :=
  match t with
  | .e4m3 =>
    if nan1 then ⟨4, 3, 7, 0x77, some 0x78, 0x7C, true⟩ else ⟨4, 3, 7, 0x7E, none, 0x7F, true⟩
  | .e5m2 => ⟨5, 2, 15, 0x7B, some 0x7C, 0x7E, true⟩
  | .fp16 => ⟨5, 10, 15, 0x7BFF, some 0x7C00, 0x7E00, false⟩
  | .bf16 => ⟨8, 7, 127, 0x7F7F, some 0x7F80, 0x7FC0, false⟩
  | .fp64 => ⟨11, 52, 1023, 0x7FEFFFFFFFFFFFFF, some 0x7FF0000000000000, 0x7FF8000000000000, false⟩
  | .i8 | .i16 | .i32 | .i64 | .n8 | .n16 | .n32 | .n64 | .fp32 | .bfp =>
    ⟨8, 23, 127, 0x7F7FFFFF, some 0x7F800000, 0x7FC00000, false⟩

/-- Bits of the whole datum. -/
def Fmt.width (f : Fmt) : Nat := 1 + f.ew + f.mw

/-- The value of a bit pattern (R58, R61). -/
def Fmt.read (f : Fmt) (bits : Nat) : FVal :=
  let s := (bits >>> (f.ew + f.mw)) % 2 == 1
  let mag := bits % 2 ^ (f.ew + f.mw)
  if mag ≤ f.maxMag then
    let e := mag >>> f.mw
    let m := mag % 2 ^ f.mw
    if e = 0 then .fin s m (1 - (f.bias : Int) - f.mw)
    else .fin s (m + 2 ^ f.mw) ((e : Int) - f.bias - f.mw)
  else if f.infMag = some mag then .inf s
  else .nan

/-- Sign and magnitude bits together. -/
def Fmt.put (f : Fmt) (s : Bool) (mag : Nat) : Nat := (if s then 2 ^ (f.ew + f.mw) else 0) + mag

/-- m * 2^(e-q) rounded to an integer (R62); `s` is the sign of the whole value. -/
def roundShift (rm : RM) (s : Bool) (m : Nat) (e q : Int) : Nat :=
  if q ≤ e then m <<< (e - q).toNat
  else
    let k := (q - e).toNat
    let fl := m >>> k
    let rem := m % 2 ^ k
    if rem = 0 then fl
    else
      match rm with
      | .rtz => fl
      | .rup => if s then fl else fl + 1
      | .rdn => if s then fl + 1 else fl
      | .rne =>
        let half := 2 ^ (k - 1)
        if rem > half || (rem == half && fl % 2 == 1) then fl + 1 else fl

/-- The result of an overflow: R63, and R64 for the FP8 formats. -/
def Fmt.overflow (f : Fmt) (md : NumMode) (s : Bool) : Nat :=
  let inf : Nat := match f.infMag with | some i => f.put s i | none => f.nanBits
  if f.fp8 then (if md.sat8 then f.put s f.maxMag else inf)
  else
    match md.rm with
    | .rne => inf
    | .rtz => f.put s f.maxMag
    | .rup => if s then f.put s f.maxMag else inf
    | .rdn => if s then inf else f.put s f.maxMag

/-- The magnitude bits of m * 2^e rounded with an unbounded exponent range (R62, R64). -/
def Fmt.roundMag (f : Fmt) (rm : RM) (s : Bool) (m : Nat) (e : Int) : Nat :=
  let emin : Int := 1 - (f.bias : Int)
  let q := max ((m.log2 : Int) + e) emin - f.mw
  ((q - (emin - f.mw)).toNat <<< f.mw) + roundShift rm s m e q

/-- An exact value in a format: one rounding (R62). -/
def Fmt.write (f : Fmt) (md : NumMode) (x : FVal) : Nat :=
  match x with
  | .nan => f.nanBits
  | .inf s =>
    if f.fp8 then f.overflow md s
    else match f.infMag with | some i => f.put s i | none => f.nanBits
  | .fin s m e =>
    if m = 0 then f.put s 0
    else
      let mag := f.roundMag md.rm s m e
      if mag ≤ f.maxMag then f.put s mag else f.overflow md s

/-- Whether writing a value overflows the format (R64, R76). -/
def Fmt.overflows (f : Fmt) (rm : RM) (x : FVal) : Bool :=
  match x with
  | .nan => false
  | .inf _ => true
  | .fin s m e => m != 0 && decide (f.maxMag < f.roundMag rm s m e)

def FVal.isNan : FVal → Bool
  | .nan => true
  | .inf _ | .fin .. => false

def FVal.isInf : FVal → Bool
  | .inf _ => true
  | .nan | .fin .. => false

def FVal.isZero : FVal → Bool
  | .fin _ m _ => m == 0
  | .nan | .inf _ => false

/-- The sign bit; a NaN counts as positive. -/
def FVal.neg? : FVal → Bool
  | .nan => false
  | .inf s | .fin s _ _ => s

/-- Sign and magnitude as an integer. -/
def signed (s : Bool) (m : Nat) : Int := if s then -(m : Int) else m

/-- An exact sum as an integer over 2^e, the smaller exponent. -/
def dyAdd (a b : Int × Int) : Int × Int :=
  let e := min a.2 b.2
  (a.1 * 2 ^ (a.2 - e).toNat + b.1 * 2 ^ (b.2 - e).toNat, e)

/-- An exact nonzero or zero dyadic as a value; `z` is the sign a zero takes. -/
def dyVal (z : Bool) (a : Int × Int) : FVal :=
  if a.1 = 0 then .fin z 0 0 else .fin (decide (a.1 < 0)) a.1.natAbs a.2

def FVal.negate : FVal → FVal
  | .nan => .nan
  | .inf s => .inf (!s)
  | .fin s m e => .fin (!s) m e

/-- Exact sum; an exact zero of unlike operands takes the sign of R59. -/
def FVal.add (rm : RM) (x y : FVal) : FVal :=
  match x, y with
  | .nan, _ | _, .nan => .nan
  | .inf s, .inf t => if s = t then .inf s else .nan
  | .inf s, .fin .. => .inf s
  | .fin .., .inf t => .inf t
  | .fin s m e, .fin t n g =>
    if m = 0 ∧ n = 0 ∧ s = t then .fin s 0 0
    else dyVal (rm == .rdn) (dyAdd (signed s m, e) (signed t n, g))

/-- Exact product (R178: an infinity times zero is NaN). -/
def FVal.mul (x y : FVal) : FVal :=
  match x, y with
  | .nan, _ | _, .nan => .nan
  | .inf s, .inf t => .inf (s != t)
  | .inf s, .fin t n _ => if n = 0 then .nan else .inf (s != t)
  | .fin s m _, .inf t => if m = 0 then .nan else .inf (s != t)
  | .fin s m e, .fin t n g => .fin (s != t) (m * n) (e + g)

/-- The bits of extra precision that make a truncated quotient or root round as the exact one. -/
def extraBits : Nat := 200

/-- A truncated magnitude `q` at exponent `e`, followed by a sticky bit for an inexact tail. -/
def sticky (s : Bool) (q : Nat) (exact : Bool) (e : Int) : FVal :=
  .fin s (2 * q + (if exact then 0 else 1)) (e - 1)

/-- Quotient (R77): equal to the exact one under every rounding to a format of R58. -/
def FVal.div (x y : FVal) : FVal :=
  match x, y with
  | .nan, _ | _, .nan => .nan
  | .inf _, .inf _ => .nan
  | .inf s, .fin t _ _ => .inf (s != t)
  | .fin s _ _, .inf t => .fin (s != t) 0 0
  | .fin s m e, .fin t n g =>
    if n = 0 then (if m = 0 then .nan else .inf (s != t))
    else if m = 0 then .fin (s != t) 0 0
    else
      let k := extraBits + n.log2
      let a := m <<< k
      sticky (s != t) (a / n) (a % n == 0) (e - g - k)

/-- Integer square root, by Newton steps from above. -/
def isqrtLoop (n : Nat) : Nat → Nat → Nat
  | 0, x => x
  | fuel + 1, x =>
    let y := (x + n / x) / 2
    if y < x then isqrtLoop n fuel y else x

def isqrt (n : Nat) : Nat := if n = 0 then 0 else isqrtLoop n 2000 (2 ^ (n.log2 / 2 + 1))

/-- Square root (R77). -/
def FVal.sqrt (x : FVal) : FVal :=
  match x with
  | .nan => .nan
  | .inf s => if s then .nan else .inf false
  | .fin s m e =>
    if m = 0 then .fin s 0 0
    else if s then .nan
    else
      let odd := e % 2
      let a := (m <<< odd.toNat) <<< (2 * extraBits)
      let q := isqrt a
      sticky false q (q * q == a) ((e - odd) / 2 - extraBits)

/-- 1 / x (R77). -/
def FVal.rcp (x : FVal) : FVal := FVal.div (.fin false 1 0) x

/-- 1 / sqrt x (R77). -/
def FVal.rsq (x : FVal) : FVal :=
  match x with
  | .nan => .nan
  | .inf s => if s then .nan else .fin false 0 0
  | .fin s m e =>
    if m = 0 then .inf s
    else if s then .nan
    else
      let odd := e % 2
      let n := m <<< odd.toNat
      let k := extraBits + n.log2
      let q := isqrt (2 ^ (2 * k) / n)
      sticky false q (q * q * n == 2 ^ (2 * k)) (-((e - odd) / 2) - k)

/-- Fraction bits of the fixed-point series below (log 8). -/
def fixBits : Nat := 288

/-- ln 2 in fixed point: the sum of 1 / (k 2^k). -/
def ln2Loop : Nat → Nat
  | 0 => 0
  | k + 1 => 2 ^ fixBits / ((k + 1) * 2 ^ (k + 1)) + ln2Loop k

def ln2 : Nat := ln2Loop fixBits

/-- The tail of the exponential series from term `n`, `left` terms: t + t x/(n+1) + ... -/
def expLoop (x : Nat) : Nat → Nat → Nat → Nat
  | 0, _, _ => 0
  | left + 1, n, t => t + expLoop x left (n + 1) (t * x / 2 ^ fixBits / (n + 1))

/-- 2 to the power of a fraction `f` / 2^fixBits, in fixed point. -/
def exp2Frac (f : Nat) : Nat := expLoop (f * ln2 / 2 ^ fixBits) 90 0 (2 ^ fixBits)

/-- 2^x (R77); exact at integers. Beyond 2^20 the argument is clamped, far outside every format. -/
def FVal.exp2 (x : FVal) : FVal :=
  match x with
  | .nan => .nan
  | .inf s => if s then .fin false 0 0 else .inf false
  | .fin s m e =>
    if m = 0 then .fin false 1 0
    else if (m.log2 : Int) + e ≥ 20 then .fin false 1 (if s then -1048576 else 1048576)
    else
      let fixed : Int :=
        if e ≥ 0 then signed s (m <<< (e.toNat + fixBits))
        else signed s (if (-e).toNat ≤ fixBits then m <<< (fixBits - (-e).toNat) else 1)
      let n := fixed / 2 ^ fixBits
      let f := (fixed % 2 ^ fixBits).toNat
      if f = 0 then .fin false 1 n
      else sticky false (exp2Frac f) false (n - fixBits)

/-- z + z^3/3 + z^5/5 + ..., `left` terms from the power `t` with divisor `d`. -/
def atanhLoop (z2 : Nat) : Nat → Nat → Nat → Nat
  | 0, _, _ => 0
  | left + 1, d, t => t / d + atanhLoop z2 left (d + 2) (t * z2 / 2 ^ fixBits)

/-- log2 of a mantissa m / 2^k in [1, 2), in fixed point. -/
def log2Frac (m k : Nat) : Nat :=
  let z := (m - 2 ^ k) * 2 ^ fixBits / (m + 2 ^ k)
  2 * atanhLoop (z * z / 2 ^ fixBits) 100 1 z * 2 ^ fixBits / ln2

/-- log2 x (R77); exact at powers of two. -/
def FVal.log2 (x : FVal) : FVal :=
  match x with
  | .nan => .nan
  | .inf s => if s then .nan else .inf false
  | .fin s m e =>
    if m = 0 then .inf true
    else if s then .nan
    else
      let k := m.log2
      let n := e + k
      if m = 2 ^ k then dyVal false (n, 0)
      else
        let v : Int := n * 2 ^ fixBits + log2Frac m k
        if v < 0 then sticky true (v.natAbs - 1) false (-(fixBits : Int))
        else sticky false v.toNat false (-(fixBits : Int))

/-- The order of two values, -0 below +0, NaN not compared (R180, R187). -/
def FVal.lt (x y : FVal) : Bool :=
  match x, y with
  | .nan, _ | _, .nan => false
  | .inf s, .inf t => s && !t
  | .inf s, .fin .. => s
  | .fin .., .inf t => !t
  | .fin s m e, .fin t n g =>
    if m = 0 ∧ n = 0 then s && !t
    else
      let a := dyAdd (signed s m, e) (-(signed t n), g)
      decide (a.1 < 0)

/-- Equality of values, +0 equal to -0 (R182). -/
def FVal.eqv (x y : FVal) : Bool :=
  match x, y with
  | .nan, _ | _, .nan => false
  | .inf s, .inf t => s == t
  | .inf _, .fin .. | .fin .., .inf _ => false
  | .fin s m e, .fin t n g => (dyAdd (signed s m, e) (-(signed t n), g)).1 == 0

/-- Floating minimum and maximum (R180): NaN if either is. -/
def FVal.min (x y : FVal) : FVal := if x.isNan || y.isNan then .nan else if y.lt x then y else x
def FVal.max (x y : FVal) : FVal := if x.isNan || y.isNan then .nan else if x.lt y then y else x

/-- The low `w` bits of an integer. -/
def wrapInt (w : Nat) (x : Int) : Nat := (x % 2 ^ w).toNat

/-- `w` bits as a signed integer. -/
def toSigned (w : Nat) (n : Nat) : Int :=
  let n := n % 2 ^ w
  if 2 * n < 2 ^ w then n else (n : Int) - 2 ^ w

/-- An element of an integer type as an integer (R56). -/
def tyToInt (t : Ty) (bits : Nat) : Int :=
  if t.isSigned then toSigned (8 * t.bytes) bits else (bits % 2 ^ (8 * t.bytes) : Nat)

/-- The range of an integer type (R56). -/
def tyMinInt (t : Ty) : Int := if t.isSigned then -(2 ^ (8 * t.bytes - 1) : Int) else 0
def tyMaxInt (t : Ty) : Int :=
  if t.isSigned then 2 ^ (8 * t.bytes - 1) - 1 else 2 ^ (8 * t.bytes) - 1

/-- The bits of an integer, wrapped (R57). -/
def tyOfInt (t : Ty) (x : Int) : Nat := wrapInt (8 * t.bytes) x

/-- The bits of an integer, clamped to the type (R57). -/
def tyClamp (t : Ty) (x : Int) : Nat := tyOfInt t (max (tyMinInt t) (min (tyMaxInt t) x))

/-- Quotient of R57: toward zero; by zero all-ones; the wrap makes the overflowing case. -/
def tyDiv (t : Ty) (x y : Int) : Nat :=
  if y = 0 then 2 ^ (8 * t.bytes) - 1 else tyOfInt t (x.tdiv y)

/-- The exact value of a floating element (R58, R61). -/
def tyReadF (t : Ty) (nan1 : Bool) (bits : Nat) : FVal := (Fmt.of t nan1).read bits

def tyWriteF (t : Ty) (md : NumMode) (x : FVal) : Nat := (Fmt.of t md.nan1).write md x

/-- An integer as an exact value; 0 is +0 (R66). -/
def intVal (x : Int) : FVal := .fin (decide (x < 0)) x.natAbs 0

/-- An exact value rounded to an integer and clamped to the type (R66). -/
def tyOfFloat (t : Ty) (rm : RM) (x : FVal) : Nat :=
  match x with
  | .nan => 0
  | .inf s => tyOfInt t (if s then tyMinInt t else tyMaxInt t)
  | .fin s m e =>
    if m = 0 then 0
    else if (m.log2 : Int) + e > 70 then tyOfInt t (if s then tyMinInt t else tyMaxInt t)
    else tyClamp t (signed s (roundShift rm s m e 0))

/-- Convert of R185 and R66. -/
def convert (src dst : Ty) (md : NumMode) (sat : Bool) (bits : Nat) : Nat :=
  if src.isInt then
    let x := tyToInt src bits
    if dst.isInt then (if sat then tyClamp dst x else tyOfInt dst x)
    else tyWriteF dst md (intVal x)
  else
    let x := tyReadF src md.nan1 bits
    if dst.isInt then tyOfFloat dst md.rm x else tyWriteF dst md x

/-- The default mode of the fixed RNE paths (R62, R74). -/
def rneMode : NumMode := { rm := .rne, sat8 := false, nan1 := false }

/-- One FP32 (or FP64, or other) addition under a mode (R178). -/
def addF (t : Ty) (md : NumMode) (x y : Nat) : Nat :=
  tyWriteF t md ((tyReadF t md.nan1 x).add md.rm (tyReadF t md.nan1 y))

/-- The exact sum of finite values, as a dyadic. -/
def exactSum (xs : List FVal) : Int × Int :=
  xs.foldl (fun a x => match x with | .fin s m e => dyAdd a (signed s m, e) | .nan | .inf _ => a) (0, 0)

/-- The exact group of R73 on a list of products: acc plus their exact sum, one RNE rounding to FP32. -/
def exactGroup (acc : FVal) (ps : List FVal) : FVal :=
  if acc.isNan || ps.any FVal.isNan then .nan
  else
    let infs := (acc :: ps).filter FVal.isInf
    if infs.any FVal.neg? && infs.any (fun x => !x.neg?) then .nan
    else
      match infs with
      | i :: _ => i
      | [] =>
        let s := exactSum ps
        if s.1 = 0 then
          let sz := ps.all fun p => p.isZero && p.neg?
          match acc with
          | .fin t m e => if m = 0 then .fin (t && sz) 0 0 else .fin t m e
          | .nan | .inf _ => acc
        else
          match acc with
          | .fin t m e => dyVal false (dyAdd (signed t m, e) s)
          | .nan | .inf _ => acc

/-- ExactGroupAdd (R73) on FP32 accumulator bits and two lists of elements. -/
def exactGroupAdd (acc : Nat) (as bs : List FVal) : Nat :=
  tyWriteF .fp32 rneMode (exactGroup (tyReadF .fp32 false acc) (List.zipWith FVal.mul as bs))

end Sys2Proof.Machine
end

