-- ==== Sys2Proof/Machine/Lanes.lean ====
section
/-! DEFINITION. The elements of a v register, masks, the element operations of the vector
instructions (R176 to R196), reduction trees (R75) and the block format (R67 to R72, R236 to R241). -/

namespace Sys2Proof.Machine

/-- Element `j` of `e` bytes (R176). -/
def getEl (e : Nat) (v : VReg) (j : Nat) : Nat := (v.toNat >>> (8 * e * j)) % 2 ^ (8 * e)

/-- Elements of `w` bits, lowest first, as one number. -/
def packEls (w : Nat) : List Nat → Nat
  | [] => 0
  | x :: xs => x % 2 ^ w + 2 ^ w * packEls w xs

/-- E, the elements of a register (R176). -/
def elCount (e : Nat) : Nat := 64 / e

/-- The register whose element `j` is `f j`. -/
def vBuild (e : Nat) (f : Nat → Nat) : VReg :=
  BitVec.ofNat 512 (packEls (8 * e) ((List.range (elCount e)).map f))

/-- The register whose active elements are `f j` and whose others are those of `old` (R89). -/
def vMasked (e : Nat) (k : Word) (old : VReg) (f : Nat → Nat) : VReg :=
  vBuild e fun j => if k.getLsbD j then f j else getEl e old j

/-- The mask word with bit `j` set where `f j` holds, for `j` below `n` (R182). -/
def maskBuild (n : Nat) (f : Nat → Bool) : Word :=
  BitVec.ofNat 64 (packEls 1 ((List.range n).map fun j => if f j then 1 else 0))

/-- Leading zero bits of a `w`-bit number; `w` for 0 (R181). -/
def clzN (w n : Nat) : Nat := if n = 0 then w else w - 1 - n.log2

/-- Trailing zero bits below `w`. -/
def ctzLoop (n : Nat) : Nat → Nat → Nat
  | 0, i => i
  | fuel + 1, i => if n.testBit i then i else ctzLoop n fuel (i + 1)

def ctzN (w n : Nat) : Nat := ctzLoop n w 0

/-- The number of 1 bits below `w`. -/
def popN : Nat → Nat → Nat
  | 0, _ => 0
  | w + 1, n => n % 2 + popN w (n / 2)

/-- The arithmetic elements of R179: integers under R57, floats under R178. -/
def elAdd (t : Ty) (md : NumMode) (b c : Nat) : Nat :=
  if t.isInt then tyOfInt t (tyToInt t b + tyToInt t c) else addF t md b c

def elSub (t : Ty) (md : NumMode) (b c : Nat) : Nat :=
  if t.isInt then tyOfInt t (tyToInt t b - tyToInt t c)
  else tyWriteF t md ((tyReadF t md.nan1 b).add md.rm (tyReadF t md.nan1 c).negate)

def elMul (t : Ty) (md : NumMode) (b c : Nat) : Nat :=
  if t.isInt then tyOfInt t (tyToInt t b * tyToInt t c)
  else tyWriteF t md ((tyReadF t md.nan1 b).mul (tyReadF t md.nan1 c))

/-- A + B * C, fused; `sub` negates the product. -/
def elFma (sub : Bool) (t : Ty) (md : NumMode) (a b c : Nat) : Nat :=
  if t.isInt then
    let p := tyToInt t b * tyToInt t c
    tyOfInt t (tyToInt t a + (if sub then -p else p))
  else
    let p := (tyReadF t md.nan1 b).mul (tyReadF t md.nan1 c)
    tyWriteF t md ((tyReadF t md.nan1 a).add md.rm (if sub then p.negate else p))

def elMin (t : Ty) (md : NumMode) (b c : Nat) : Nat :=
  if t.isInt then (if tyToInt t c < tyToInt t b then c else b)
  else tyWriteF t md (FVal.min (tyReadF t md.nan1 b) (tyReadF t md.nan1 c))

def elMax (t : Ty) (md : NumMode) (b c : Nat) : Nat :=
  if t.isInt then (if tyToInt t b < tyToInt t c then c else b)
  else tyWriteF t md (FVal.max (tyReadF t md.nan1 b) (tyReadF t md.nan1 c))

/-- R180: a float's sign bit alone changes. -/
def elAbs (t : Ty) (b : Nat) : Nat :=
  let w := 8 * t.bytes
  if t.isInt then tyOfInt t (tyToInt t b).natAbs else b % 2 ^ (w - 1)

def elNeg (t : Ty) (b : Nat) : Nat :=
  let w := 8 * t.bytes
  if t.isInt then tyOfInt t (-tyToInt t b) else b ^^^ 2 ^ (w - 1)

def elAdds (t : Ty) (b c : Nat) : Nat := tyClamp t (tyToInt t b + tyToInt t c)
def elSubs (t : Ty) (b c : Nat) : Nat := tyClamp t (tyToInt t b - tyToInt t c)
def elMulh (t : Ty) (b c : Nat) : Nat := tyOfInt t (tyToInt t b * tyToInt t c / 2 ^ (8 * t.bytes))
def elAbsd (t : Ty) (b c : Nat) : Nat := tyOfInt t (tyToInt t b - tyToInt t c).natAbs

def elDiv (t : Ty) (md : NumMode) (b c : Nat) : Nat :=
  if t.isInt then tyDiv t (tyToInt t b) (tyToInt t c)
  else tyWriteF t md ((tyReadF t md.nan1 b).div (tyReadF t md.nan1 c))

/-- A floating function of one operand (R179, R195). -/
def elFn (f : FVal → FVal) (t : Ty) (md : NumMode) (b : Nat) : Nat :=
  tyWriteF t md (f (tyReadF t md.nan1 b))

/-- Shifts of `w` bits; the count is taken modulo `w` (R57, R181). -/
def elShl (w b n : Nat) : Nat := b <<< (n % w) % 2 ^ w
def elShr (w b n : Nat) : Nat := b >>> (n % w)
def elSra (t : Ty) (b n : Nat) : Nat := tyOfInt t (tyToInt t b / 2 ^ (n % (8 * t.bytes)))
def elRol (w b n : Nat) : Nat := (b <<< (n % w) ||| b >>> (w - n % w)) % 2 ^ w

/-- Bitwise logic on elements (R181). -/
def elNot (w b : Nat) : Nat := 2 ^ w - 1 - b

/-- The order relations of R182. -/
def elEq (t : Ty) (nan1 : Bool) (b c : Nat) : Bool :=
  if t.isInt then b == c else (tyReadF t nan1 b).eqv (tyReadF t nan1 c)

def elLt (t : Ty) (nan1 : Bool) (b c : Nat) : Bool :=
  if t.isInt then decide (tyToInt t b < tyToInt t c)
  else
    let x := tyReadF t nan1 b
    let y := tyReadF t nan1 c
    x.lt y && !x.eqv y

def elUn (t : Ty) (nan1 : Bool) (b c : Nat) : Bool :=
  (tyReadF t nan1 b).isNan || (tyReadF t nan1 c).isNan

/-- One level of the pairwise tree (R75): a missing child passes its sibling through. -/
def treeLevel {α : Type} (f : α → α → α) : List (Option α) → List (Option α)
  | some x :: some y :: r => some (f x y) :: treeLevel f r
  | some x :: none :: r => some x :: treeLevel f r
  | none :: y :: r => y :: treeLevel f r
  | [x] => [x]
  | [] => []

/-- The tree over up to 2^levels leaves. -/
def treeReduce {α : Type} (f : α → α → α) : Nat → List (Option α) → Option α
  | 0, xs => xs.headD none
  | n + 1, xs => treeReduce f n (treeLevel f xs)

/-- The active elements of a register as leaves (R186). -/
def leaves (t : Ty) (k : Word) (b : VReg) : List (Option Nat) :=
  (List.range (elCount t.bytes)).map fun j => if k.getLsbD j then some (getEl t.bytes b j) else none

/-- A reduction result in g (R186): I types sign-extended, all others zero-extended. -/
def redResult (t : Ty) (x : Nat) : Word :=
  if t.isSigned then BitVec.ofInt 64 (tyToInt t x) else BitVec.ofNat 64 x

def redTree (t : Ty) (k : Word) (b : VReg) (f : Nat → Nat → Nat) (empty : Nat) : Word :=
  redResult t ((treeReduce f 6 (leaves t k b)).getD empty)

/-- The type the leaves of VREDSUMW are widened to (R186). -/
def wideTy (t : Ty) : Ty :=
  if t.isSigned then .i64 else if t.isInt then .n64 else if t == .fp32 then .fp64 else .fp32

/-- VREDSUMW: exact widening, then the tree in the wide type. -/
def redSumW (t : Ty) (md : NumMode) (k : Word) (b : VReg) : Word :=
  let w := wideTy t
  let ls := (leaves t k b).map fun o => o.map fun x => convert t w md false x
  redResult w ((treeReduce (elAdd w md) 6 ls).getD 0)

/-- VREDMIN with no leaf: the largest value, or +infinity (R187); VREDMAX the opposite. -/
def redMinEmpty (t : Ty) (md : NumMode) : Nat :=
  if t.isInt then tyOfInt t (tyMaxInt t) else tyWriteF t md (.inf false)

def redMaxEmpty (t : Ty) (md : NumMode) : Nat :=
  if t.isInt then tyOfInt t (tyMinInt t) else tyWriteF t md (.inf true)

/-- A reduction writes the canonical NaN for a single NaN leaf too (R60, R187). -/
def redCanon (t : Ty) (md : NumMode) (x : Nat) : Nat :=
  if t.isInt then x else tyWriteF t md (tyReadF t md.nan1 x)

/-- The selected elements packed from 0 (R188, VCOMP). -/
def vCompress (e : Nat) (k : Word) (b : VReg) : VReg :=
  let sel := ((List.range (elCount e)).filter fun j => k.getLsbD j).map fun j => getEl e b j
  vBuild e fun j => sel.getD j 0

/-- The number of set mask bits below `j`. -/
def maskRank (k : Word) (j : Nat) : Nat := ((List.range j).filter fun i => k.getLsbD i).length

/-- VEXPD (R188). -/
def vExpand (e : Nat) (k : Word) (old b : VReg) : VReg :=
  vMasked e k old fun j => getEl e b (maskRank k j)

/-- VCVT (R185). -/
def vConvert (src dst : Ty) (md : NumMode) (q : Nat) (sat : Bool) (k : Word) (old b : VReg) : VReg :=
  let es := src.bytes
  let ed := dst.bytes
  if ed < es then
    let n := elCount es
    vBuild ed fun i =>
      if q * n ≤ i ∧ i < q * n + n ∧ k.getLsbD i = true then convert src dst md sat (getEl es b (i - q * n))
      else getEl ed old i
  else vMasked ed k old fun j => convert src dst md sat (getEl es b (q * elCount ed + j))

/-- An element widened to a g register (R196, VEXT). -/
def elToG (t : Ty) (x : Nat) : Word := redResult t x

/-- The bits of a block field (R67). -/
def blockCode (b : VReg) : Nat := b.toNat % 256
def blockScale (b : VReg) : Nat := (b.toNat >>> 8) % 256
def blockPayload (b : VReg) : Nat := b.toNat >>> 16

/-- n of a described block; none for an undescribed one (R70). -/
def blockN (b : VReg) : Option Nat :=
  if 0x12 ≤ blockCode b ∧ blockCode b ≤ 0x18 then some (blockCode b - 0x10) else none

/-- A NaN block (R69). -/
def blockIsNan (nan1 : Bool) (b : VReg) : Bool := (blockN b).isSome && nan1 && blockScale b == 0xFF

/-- Mantissa `i` of a block of width `n` (R67); 0 at and past N(n). -/
def blockMant (n : Nat) (b : VReg) (i : Nat) : Int :=
  if i < bfpCount n then toSigned n (blockPayload b >>> (i * n)) else 0

/-- The exponent of a unit: S - 127 - (n - 1) (R68). -/
def blockExp (s n : Nat) : Int := (s : Int) - 127 - ((n : Int) - 1)

/-- Element `i` of a block (R68 to R70): undescribed reads zero, a NaN block NaN. -/
def blockEl (nan1 : Bool) (b : VReg) (i : Nat) : FVal :=
  match blockN b with
  | none => .fin false 0 0
  | some n =>
    if blockIsNan nan1 b then .nan else dyVal false (blockMant n b i, blockExp (blockScale b) n)

/-- A block from its fields (R67). -/
def blockMake (n s : Nat) (ms : List Int) : VReg :=
  BitVec.ofNat 512 (0x10 + n + 256 * s + 65536 * packEls n (ms.map fun m => wrapInt n m))

/-- The NaN block of width n (R71). -/
def blockNan (n : Nat) : VReg := blockMake n 0xFF []

/-- Floor(Log2 |x|) of a finite nonzero value. -/
def floorLog2 (x : FVal) : Option Int :=
  match x with
  | .fin _ m e => if m = 0 then none else some (m.log2 + e)
  | .nan | .inf _ => none

/-- QuantiseBFP (R71) on the N(n) values of a block. -/
def quantise (xs : List FVal) (n : Nat) (rm : RM) (nan1 : Bool) : VReg :=
  if nan1 && xs.any (fun x => x.isNan || x.isInf) then blockNan n
  else
    let big := (xs.filterMap floorLog2).foldl
      (fun a l => match a with | none => some l | some b => some (max b l)) (none : Option Int)
    let s : Nat := match big with | none => 0 | some l => (max 0 (min 254 (l + 128))).toNat
    let hi : Int := 2 ^ (n - 1) - 1
    let lo : Int := -(2 ^ (n - 1))
    let mant (x : FVal) : Int :=
      match x with
      | .nan => 0
      | .inf t => if t then lo else hi
      | .fin t m e =>
        if m = 0 then 0
        else max lo (min hi (signed t (roundShift rm t m e (blockExp s n))))
    blockMake n s (xs.map mant)

/-- A pair of blocks as the matrix unit sees it (R72): its exact value, or NaN. -/
def blockPair (nan1 : Bool) (a b : VReg) : FVal :=
  if blockIsNan nan1 a || blockIsNan nan1 b then .nan
  else
    match blockN a, blockN b with
    | some na, some nb =>
      let n := min (bfpCount na) (bfpCount nb)
      let p := ((List.range n).map fun i => blockMant na a i * blockMant nb b i).foldl (· + ·) 0
      dyVal false (p, blockExp (blockScale a) na + blockExp (blockScale b) nb)
    | _, _ => .fin false 0 0

/-- BFPX (R238): what is exactly zero has the sign of R59, for a block gives no sign of zero (R68, log 90). -/
def bfpExpand (t : Ty) (md : NumMode) (k : Word) (old b : VReg) (start : Nat) : VReg :=
  let zero : FVal := .fin (md.rm == .rdn) 0 0
  vMasked t.bytes k old fun j =>
    tyWriteF t md
      (match blockN b with
       | none => zero
       | some n =>
         if start + j ≥ bfpCount n then zero
         else if blockIsNan md.nan1 b then .nan
         else dyVal (md.rm == .rdn) (blockMant n b (start + j), blockExp (blockScale b) n))

/-- BFPCVT (R237): the first N(n) elements of consecutive registers. -/
def bfpConvert (t : Ty) (n : Nat) (md : NumMode) (src : Nat → VReg) : VReg :=
  let e := elCount t.bytes
  quantise ((List.range (bfpCount n)).map fun i => tyReadF t md.nan1 (getEl t.bytes (src (i / e)) (i % e)))
    n md.rm md.nan1

/-- BFPQ (R239). -/
def bfpAdd (n : Nat) (md : NumMode) (b c : VReg) : VReg :=
  if blockIsNan md.nan1 b || blockIsNan md.nan1 c then blockNan n
  else quantise ((List.range (bfpCount n)).map fun i =>
    (blockEl md.nan1 b i).add md.rm (blockEl md.nan1 c i)) n md.rm md.nan1

/-- BFPSCL (R240); a NaN block gives the NaN block of R71 (log 38); an undescribed source gives the zero block of n = 8 (R241). A step beyond 1000 either
way acts as 1000, which is outside every scale. -/
def bfpScale (md : NumMode) (b : VReg) (step : Int) : VReg :=
  match blockN b with
  | none => blockMake 8 0 []
  | some n =>
    if blockIsNan md.nan1 b then blockNan n
    else
      let k := max (-1000) (min 1000 step)
      let s := (blockScale b : Int) + k
      if 0 ≤ s ∧ s ≤ 254 then
        blockMake n s.toNat ((List.range (bfpCount n)).map (blockMant n b))
      else
        quantise ((List.range (bfpCount n)).map fun i =>
          dyVal false (blockMant n b i, blockExp (blockScale b) n + k)) n md.rm md.nan1

/-- The elements of one row of 64 bytes as exact values (R203, R228). -/
def rowVals (t : Ty) (nan1 : Bool) (row : BitVec 512) : List FVal :=
  (List.range (elCount t.bytes)).map fun j => tyReadF t nan1 (getEl t.bytes row j)

end Sys2Proof.Machine
end

