-- ==== Sys2Proof/Machine/State.lean ====
section
/-! DEFINITION. The state of the machine as plain data: the whole domain of devices that the spec
describes, the messages in flight between their parts, and the model's own tape of what happens next.

Keys. A device is its id 0 to 4095. A place is a core of a device, `device * 1024 + core` (R24). A
process key is a handle without its generation, `place * 4096 + entry`. A global address is
`device * 2^44 + physical address`. Maps are lists of (key, value) with rising keys. -/

namespace Sys2Proof.Machine

/-- A map: (key, value) pairs in rising order of key. -/
abbrev Map (α : Type) := List (Nat × α)

/-- Why the machine stops. -/
inductive Fault where
  /-- Raised by the meaning of a process instruction when no process runs in the issuing slot. `step`
  never does so: it issues only for a running process. Safe: the machine has nothing to execute. -/
  | noProcess
  deriving DecidableEq, Repr

/-- Why an instruction has no meaning. -/
inductive Refusal where
  /-- An instruction not reached by the model yet; raised by its arm of `exec`. Safe: nothing is claimed. -/
  | notModelled (mnemonic : String)
  deriving DecidableEq, Repr

/-- A register a fill or a stall names (R15). -/
inductive RegRef where
  | g (n : BitVec 5)
  | v (n : BitVec 5)
  | m (n : BitVec 3)
  deriving DecidableEq, Repr

/-- What a fill does to a register (R16): writes and fills it, or fills it with its prior contents. -/
inductive RegWrite where
  | g (n : BitVec 5) (val : Word)
  | v (n : BitVec 5) (val : VReg)
  | m (n : BitVec 3) (val : Tile)
  | keep (r : RegRef)
  deriving DecidableEq, Repr

/-- A trap to be taken with a completion: cause, DETAIL, TVAL (R395). -/
structure Cause where
  code : Nat
  detail : Nat
  tval : Word
  deriving DecidableEq, Repr

/-- The process and generation a message belongs to, and how it orders (R361). -/
structure Own where
  p : Nat
  gen : Nat
  acq : Bool
  rel : Bool
  /-- the space and the mode that a request carries (R370). -/
  asid : Nat := 0
  smode : Bool := false
  deriving DecidableEq, Repr

/-- Where the data of a read go. -/
inductive Target where
  /-- g register `n` of the owner, extended from the size (R121). -/
  | g (n : BitVec 5) (sz : LdSize)
  /-- element `j` of `e` bytes of the vector load into v`n` (R190). -/
  | v (n : BitVec 5) (e j : Nat)
  deriving DecidableEq, Repr

/-- An operation of PORT_ATOMIC (R370): atomics, synchronised accesses, monitors and barrier steps. -/
inductive AtomOp where
  | amo (op : Nat) (w : Bool) (a : BitVec 5) (opnd cmp : Word)
  | lds (a c : BitVec 5)
  | ldf (a c : BitVec 5)
  | sts (a c : BitVec 5) (data : Word)
  | feget (a : BitVec 5)
  | feset (bit : Bool)
  | monw (a : BitVec 5) (cond : MonCond) (cmp : Word)
  | gjoin (a : BitVec 5)
  | gleave
  | arrive (a : BitVec 5)
  | drop (a : BitVec 5)
  | barWait (a : BitVec 5) (phase : Word)
  deriving DecidableEq, Repr

/-- A request parked or travelling to a home (R129). -/
structure AtomReq where
  ga : Nat
  va : Word
  op : AtomOp
  own : Own
  /-- retries left before the requester asks to be parked (R129). -/
  retries : Nat
  /-- TIMEB value of the deadline of a timed form; none: untimed (R41). -/
  deadline : Option Nat
  /-- PSTAT.DROPTRAP at issue (R411). -/
  dropTrap : Bool
  /-- the requesting place. -/
  core : Nat
  /-- the leaf has POIS = 1 (R345). -/
  pois : Bool
  deriving DecidableEq, Repr

/-- A word of a reduction line that some RED has touched (R141). -/
structure RedLine where
  line : Nat
  op : Nat
  w : Bool
  els : Map Word
  /-- the leaves through which its REDs were translated: space, page and offset bits (R279, R354). -/
  via : List (Nat × Nat × Nat) := []
  deriving DecidableEq, Repr

/-- A push toward a window (R328, R329, R231, R234, R267, R172). -/
structure Push where
  /-- the channel; its send end gave the stamp. -/
  chan : Nat
  off : Nat
  bytes : List Byte
  /-- bytes the window must hold from its start (the size test of the pushing instruction). -/
  need : Nat
  /-- the stamp value and its offset; none for halo pushes. -/
  stamp : Option (Nat × Nat)
  /-- a halo direction adds 1 to this counter index (R172). -/
  halo : Option Nat
  /-- the node, home server or waiting process told of the outcome. -/
  node : Option (Nat × Nat)
  waiter : Option (Nat × Nat × Nat)
  deriving DecidableEq, Repr

/-- An item of a channel (R333): its words and the sender's NANMODE. -/
structure Item where
  words : List Word
  nan1 : Bool
  seq : Nat
  /-- when it came to the record of a memory server, which takes its requests in this order (R378). -/
  came : Nat := 0
  /-- who sent a request for a memory server (R329): process and generation. -/
  sender : Option (Nat × Nat) := none
  deriving DecidableEq, Repr

/-- An entry of a record's queue (R320). -/
inductive Entry where
  | item (i : Item)
  | offer (i : Item) (p gen : Nat)
  | tileOffer (p gen : Nat) (nan1 : Bool)
  | marker
  | token
  | lost (seq : Nat)
  | close
  deriving DecidableEq, Repr

/-- Who holds an end (R319). -/
inductive Holder where
  | proc (p gen door : Nat)
  | hostEp (n : Nat)
  | server (place : Nat)
  | coll (binding role : Nat)
  /-- the service core of die 0 as holder of a supervisor fault door (R22). -/
  | service (dev : Nat)
  | gone
  deriving DecidableEq, Repr

/-- A receive waiting at a record (R320). -/
structure RecvOp where
  p : Nat
  gen : Nat
  file : ItemFile
  dst : BitVec 5
  status : BitVec 5
  door : Nat
  /-- RECVT: the region's scratchpad offset (R171). -/
  tile : Option Nat
  deriving DecidableEq, Repr

inductive ChanType where
  | word | message | tile | window
  deriving DecidableEq, Repr

/-- WSTATE (R328). -/
inductive WState where
  | none
  | opened (base size : Nat)
  | withdrawn
  deriving DecidableEq, Repr

/-- SSTATE (R320). -/
inductive SState where
  | opened | poisoned | closed
  deriving DecidableEq, Repr

/-- A stamp value drawn and not yet written (R235): once its payload landed, where it goes and the node
that finishes with it. -/
structure Stamp where
  v : Nat
  ga : Option Nat
  node : Option (Nat × Nat)
  deriving DecidableEq, Repr

/-- A channel: its record and its send end (R320). -/
structure Chan where
  typ : ChanType
  cap : Nat
  ety : Option Ty
  rows : Nat
  rowb : Nat
  asid : Nat
  q : List Entry
  rwait : Option RecvOp
  nextr : Nat
  win : WState
  /-- pushes waiting for a window (WSTATE NONE). -/
  pend : List Push
  /-- stamp values not yet written, in rising order (R235). -/
  stamps : List Stamp
  recv : Holder
  send : Holder
  nexts : Nat
  credit : Nat
  stamp : Nat
  sstate : SState
  /-- the flag of R331: the record holds a receive. -/
  rflag : Bool
  /-- the receive end is closed. -/
  rclosed : Bool
  /-- staging slots of a buffered tile channel (R326): global address of slot 0. -/
  stage : Nat
  /-- the record or send end is being moved (R334); entries held behind the copy. -/
  moving : Bool
  held : List Entry
  /-- the window is being withdrawn by a waiting WINCLOSE: process and generation. -/
  closing : Option (Nat × Nat)
  /-- a tile copy is under way (R323). -/
  copying : Bool
  /-- the path of its entries over the links (R424): the port at each hop, by device * 4096 + destination device. -/
  path : Map Nat := []
  deriving DecidableEq, Repr

/-- A door of a process (R20); channel 0 once the end has moved on and the old place is not yet free (R334). -/
structure Door where
  chan : Nat
  isSend : Bool
  bindCap : Bool
  /-- marker count of a receive end (R313). -/
  marks : Nat
  /-- a send end of a fault door, of which there are many (R22): which one it is, wherever it moves. -/
  fid : Nat := 0
  /-- that send end has been poisoned (R162). -/
  poisoned : Bool := false
  deriving DecidableEq, Repr

/-- A join counter (R23). -/
structure Join where
  count : BitVec 32
  canc : BitVec 16
  flt : BitVec 16
  deriving DecidableEq, Repr

/-- Where a process stands (R293). -/
inductive Run where
  | running (slot : Nat)
  | ready
  | blocked
  | halted
  deriving DecidableEq, Repr

/-- An instruction in progress that holds its process back (R137). -/
inductive WaitKind where
  /-- an offer at a record (R321); `tile`: the region's offset of a SENDT. -/
  | offer (chan : Nat) (tile : Option Nat)
  /-- a buffered send waiting for CREDIT, with its item (R325); `tile`: the region offset. -/
  | credit (chan : Nat) (words : List Word) (tile : Option Nat)
  /-- a receive registered or travelling (R321). -/
  | recv (chan : Nat)
  /-- a matched or staged tile transfer under way: no deadline (R171). -/
  | copy (chan : Nat)
  | alt (mask : Word)
  | monS (word : Nat) (cond : MonCond) (cmp : Word)
  /-- a request performed at a home that answers with a fill. -/
  | home
  | join (n : Nat)
  | spawn (bReg : BitVec 5) (j : Nat)
  | bind (chan : Nat)
  | winclose (chan : Nat)
  /-- THALO directions outstanding: codes of N, E, S, W, 255 while pending (R172). -/
  | halo (codes : List Nat) (skip : Nat)
  | amsg (place : Nat) (words : List Word)
  | rres (place ring : Nat)
  | matrix
  | ystop (mask : Nat)
  | wfe
  | preempt (target : Nat)
  /-- a TLBINV of an address, or of the whole space, that waits for accesses in flight (R279, R347). -/
  | tlbinv (va : Option Word)
  | ecall
  /-- the data of a load under DROPTRAP (R122). -/
  | load
  deriving DecidableEq, Repr

structure Wait where
  kind : WaitKind
  status : BitVec 5
  /-- door reported in a status word (R136). -/
  door : Nat
  since : Nat
  deadline : Option Nat
  /-- PC of the waiting instruction, and whether it is an EXT pair. -/
  pc : Word
  ext : Bool
  /-- NUMCTL.NANMODE when the instruction issued (R36). -/
  nan : Bool := false
  /-- the deadline has passed and the withdrawal is on its way to the record (R324). -/
  withdrawn : Bool := false
  deriving DecidableEq, Repr

/-- Why an instruction re-issues later: a register (R17, R18), ordering (R361), a TSWAP partner (R202), or
a unit that must be claimed first (R198, R252, R388). -/
inductive StallKind where
  | reg (r : RegRef)
  | order
  | tswap (m : BitVec 3) (status : BitVec 5)
  | tclaim
  | yclaim
  deriving DecidableEq, Repr

structure Stall where
  kind : StallKind
  since : Nat
  deadline : Option Nat
  /-- the instruction is one of the yard (R388). -/
  yard : Bool := false
  deriving DecidableEq, Repr

/-- A vector load being filled (R190, R191). -/
structure VFill where
  reg : BitVec 5
  left : Nat
  data : VReg
  /-- lowest poisoned active element and its address, when DROPTRAP held at issue. -/
  poison : Option (Nat × Word)
  dropTrap : Bool
  deriving DecidableEq, Repr

/-- A supervisor's request to halt (R453) or, with a target, to move a process (R287): the requester, and
whether it waits for the next round edge. A request of the firmware itself has generation 0 (R455). A halt that
has taken effect stays until it is resumed. -/
structure SupReq where
  p : Nat
  gen : Nat
  target : Option Nat
  edge : Bool
  /-- the process has halted for it (R288 step 1). -/
  halted : Bool
  /-- the process was HALTED when the move took it. -/
  stay : Bool
  deriving DecidableEq, Repr

inductive ProcKind where
  | normal | deleg | inbox
  deriving DecidableEq, Repr

/-- A process: its context record (R30) as fields, and what its core keeps about it. -/
structure Proc where
  gen : Nat
  kind : ProcKind
  pc : Word
  pstat : Word
  numctl : Word
  epol : Word
  tmo : Word
  tvec : Word
  tcause : Word
  tval : Word
  tpc : Word
  tstat : Word
  prior : Word
  qnt : Word
  feretry : Word
  timecmp : Word
  swapsq : Word
  round : Word
  joins : Vector Join 4
  gFull : BitVec 32
  vFull : BitVec 32
  g : Vector Word 32
  k : Vector Word 8
  v : Vector VReg 32
  rotor : Nat
  doors : Map Door
  asid : Nat
  ttype : Nat
  /-- the task type's PRIO, and its declared units (R98). -/
  maxPrio : Nat
  tile : Bool
  yard : Bool
  splog : Nat
  spBase : Nat
  /-- unit save area: its global address where the process declares a unit, else 0 (R30). -/
  usa : Nat
  /-- handle of the parent and the join counter it named (R152). -/
  parent : Word
  join : Nat
  run : Run
  /-- none: resident; else the overflow ring (by space) and the slot that hold the record (R293, R301). -/
  spilled : Option (Nat × Nat)
  wait : Option Wait
  stall : Option Stall
  vfills : List VFill
  /-- registers that an NWAIT still owes, and their nodes (R221). -/
  nwaits : List (BitVec 5 × Nat)
  /-- POISON traps owed for observed nodes (R221, R222): register, node id, and whether any instruction
  takes it. -/
  nodeTraps : List (BitVec 5 × Nat × Bool)
  /-- a pending yard cause (R250): overrun or integrand, and TVAL. -/
  yardTrap : Option (Bool × Word)
  /-- the grids of the domains of a displaced yard: T0 and the steps done since (R249, R252). -/
  yardGrid : List (Nat × Nat)
  sigVal : Word
  /-- reported bit of R317. -/
  reported : Bool
  started : Bool
  readySince : Nat
  slotSince : Nat
  /-- when the quantum started (R307). -/
  quantSince : Nat
  blockedSince : Nat
  /-- when the process last started a probe (R317). -/
  hardSince : Option Nat
  /-- a halt asked for (R405): 0 none, 1 priority (head), 2 quantum or PREEMPT (tail). -/
  haltReq : Nat
  /-- processes waiting for the halt in PREEMPT. -/
  haltFor : List (Nat × Nat)
  /-- held under the compatibility watchdog (R402). -/
  held : Bool
  /-- requests of the supervisor under way, oldest first (R287, R288, R453). -/
  sup : List SupReq
  /-- the request a delegation routine or handler serves: requester key, generation, register. -/
  serving : Option (Nat × Nat × BitVec 5)
  deriving DecidableEq, Repr

/-- The four kinds of node plus BRED (R216). -/
inductive NodeKind where
  | cmu | drain | copy | search | bred
  deriving DecidableEq, Repr

inductive NodeState where
  | waiting | launched | done
  deriving DecidableEq, Repr

structure Node where
  gen : Nat
  live : Bool
  owner : Nat
  ogen : Nat
  asid : Nat
  kind : NodeKind
  st : NodeState
  detached : Bool
  cmd : Word
  preds : List Nat
  status : Nat
  drop : Bool
  dropTrap : Bool
  numctl : Word
  smode : Bool
  /-- K-steps retired of a CMU node; 1 for a COPY node that runs. -/
  steps : Nat
  stamp : Option Nat
  chan : Nat
  /-- what the node read when it launched: the payload of a COPY, the descriptors and the vector of a SEARCH,
  the parameter block of a BRED. -/
  data : List Byte
  /-- a ring of the running CMU node has been reset (R214). -/
  reset : Bool
  /-- the NWAITs that wait for the status: register and deadline. -/
  waiters : List (BitVec 5 × Option Nat)
  deriving DecidableEq, Repr

/-- An operand ring (R206). -/
structure Ring where
  owner : Nat
  ogen : Nat
  asid : Nat
  base : Nat
  logcap : Nat
  head : BitVec 16
  ptail : BitVec 16
  rtail : BitVec 16
  map : BitVec 32
  poisoned : BitVec 32
  /-- the granted K-step has read the entry at HEAD. -/
  taken : Bool
  /-- processes waiting in RRES, in order (R210). -/
  waiters : List (Nat × Nat)
  deriving DecidableEq, Repr

/-- An integrator cell of a yard (R244). -/
structure YCell where
  y : Int
  res : Int
  w : Nat
  dom : Nat
  odoor : Nat
  oen : Bool
  xs : List (BitVec 16)
  ys : List (BitVec 16)
  out : Int
  deriving DecidableEq, Repr

/-- A step-clock domain (R249, R256). -/
structure YDom where
  div : Nat
  mode : Nat
  left : Nat
  run : Bool
  steps : BitVec 64
  late : Nat
  /-- the instant the grid starts from (cycles, or nanoseconds in real-time mode) and the steps done on it. -/
  t0 : Nat
  done : Nat
  deriving DecidableEq, Repr

structure Yard where
  cells : Map YCell
  /-- the cross pairs (source ID, destination domain) in the order of R247, and the 32 cross counters. -/
  pairs : List (Nat × Nat)
  cross : List Int
  ports : List Int
  doms : Vector YDom 4
  valid : Bool
  ovr : Bool
  intg : Bool
  cfg : Bool
  fcell : Nat
  fdom : Nat
  odrop : Nat
  patch : Nat
  attach : List (BitVec 8)
  deriving DecidableEq, Repr

/-- An entry of a matrix-unit queue (R224). -/
inductive QEntry where
  | node (n : Nat)
  | mstat (p gen : Nat) (a : BitVec 5) (slot : Nat) (clr : Bool)
  | mzero (p gen : Nat) (a : BitVec 5) (ctl : Word)
  deriving DecidableEq, Repr

/-- A table pointer that a shed's walker caches (R348): the table of `level` for the addresses of a space whose upper
bits are `upper`. -/
structure Pointer where
  dev : Nat
  asid : Nat
  level : Nat
  upper : Nat
  table : Nat
  deriving DecidableEq, Repr

/-- An accumulator slot (R76, R230): elements not listed are +0. -/
structure AccSlot where
  acc : Map (BitVec 32)
  ovf : Nat
  nan : Nat
  sat : Nat
  pois : Nat
  tag : Option Nat
  deriving DecidableEq, Repr

/-- The matrix unit of a shed (R223 to R230). -/
structure Shed where
  slots : Vector AccSlot 8
  /-- by core: the first 16 entries are its command queue, the rest wait outside it in their order. -/
  queues : Vector (List QEntry) 8
  ptr : Nat
  credit : Nat
  weights : Vector Nat 8
  /-- the K-step granted and not yet retired: core index and node. -/
  busy : Option (Nat × Nat)
  /-- taken out: what the cores queue meanwhile is kept apart (R455). -/
  out : Bool
  kept : List (Nat × QEntry)
  /-- the cache of the shed's walker, latest first, at most 256 (R348). -/
  pointers : List Pointer := []
  deriving DecidableEq, Repr

/-- An entry of a TLB (R346): leaf of the page at `base` with `bits` offset bits. -/
structure TlbEntry where
  asid : Nat
  base : Nat
  bits : Nat
  leaf : Word
  deriving DecidableEq, Repr

/-- A scratchpad block that EXIT.R keeps for a successor until a time (R155). -/
structure Retained where
  base : Nat
  log : Nat
  succ : Nat
  gen : Nat
  upTo : Nat
  deriving DecidableEq, Repr

/-- A record of the task that a SPAWN creates (R152). -/
structure Child where
  asid : Nat
  ttype : Nat
  g1 : Word
  parent : Word
  join : Nat
  /-- registers copied from the parent (R35). -/
  autop : Bool
  dropTrap : Bool
  numctl : Word
  epol : Word
  tvec : Word
  /-- cores still to try, nearest first (R297). -/
  order : List Nat
  /-- the victim of a steal, if this record was stolen (R309). -/
  victim : Option Nat
  /-- the task-type entry read when the SPAWN issued (R295). -/
  entry : BitVec 512
  deriving DecidableEq, Repr

/-- A steal request in a mailbox (R308). -/
structure Steal where
  thief : Nat
  expires : Nat
  deriving DecidableEq, Repr

/-- An active message or a delegation waiting at a core (R142, R337). -/
structure Call where
  words : List Word
  numctl : Word
  p : Nat
  gen : Nat
  reg : BitVec 5
  asid : Nat
  prio : Nat
  deriving DecidableEq, Repr

/-- A fault message that a core holds until its channel admits it (R401): its channel, the send end it comes from, and
the words of its items, which for a deadlock report are several and stay together (R318). -/
structure HeldFault where
  chan : Nat
  src : Nat
  items : List (List Word)
  report : Bool
  deriving DecidableEq, Repr

/-- A line that a core keeps to serve loads from (R352): its bytes, and the leaves through which the core has reached it:
space, page and offset bits (R353). -/
structure RoLine where
  data : VReg
  via : List (Nat × Nat × Nat)
  deriving DecidableEq, Repr

/-- What a compute or service core keeps (R26). -/
structure Core where
  gens : Map Nat
  tileOwner : Option Nat
  m : Vector Tile 8
  mFull : BitVec 8
  yardOwner : Option Nat
  yard : Yard
  displaced : List Nat
  rings : Vector (Option Ring) 4
  nodes : Map Node
  redLines : List RedLine
  /-- the process in each slot, with the time it was loaded. -/
  slots : Vector (Option Nat) 8
  /-- ready queues by effective priority (R302). -/
  ready : Vector (List Nat) 12
  tlb : List TlbEntry
  icache : Map VReg
  roLines : Map RoLine
  retained : List Retained
  mailbox : List Steal
  /-- the victims last tried in the shed and in the rest of the die, and how many were tried (R308). -/
  stealVictim : Nat
  stealDie : Nat
  stealTried : Nat
  idleSince : Option Nat
  stealOut : Option (Nat × Nat)
  faultMsgs : List HeldFault
  fenced : List Nat
  /-- watchdog clocks by asid * 16 + queue: start, and the last limit acted on (R403). -/
  wdog : Map (Nat × Nat)
  /-- inbox messages waiting, by space; delegation requests waiting, by space. -/
  inbox : Map (List Call)
  inboxPrio : Map Nat
  delegs : Map (List Call)
  copyQ : List Nat
  /-- overflow rings: base and records, by space (R298). -/
  ovring : Map (Word × Nat)
  /-- the areas of the unit save pool of a space, by global address (R28). -/
  unitPool : Map (List Nat)
  report : Nat
  deriving DecidableEq, Repr

/-- An entry of a row-remap table: a faulty row, its spare, and how many of the entry's bits are wrong (R382). -/
structure RemapEntry where
  row : Nat
  spare : Nat
  wrong : Nat
  deriving DecidableEq, Repr

/-- A memory port or tier-2 server (R129, R370 to R384). -/
structure Home where
  parked : List AtomReq
  failed : Bool
  /-- bytes per millisecond set by the arbiter, if any; bytes left, bytes borrowed from the next
  millisecond, and the time since which requests are held (R373). -/
  budget : Option Nat
  left : Nat
  borrowed : Nat
  heldSince : Option Nat
  /-- segments whose active copy of the remap table failed and that wait for their reload (R383). -/
  badSegs : List Nat
  /-- segments of the table whose CRC-32 does not match their entries (R382); every other one does. -/
  badCrc : List Nat := []
  /-- how many requests have had to wait here so far (R371). -/
  arrivals : Nat := 0
  /-- the millisecond of TIMEB whose budget is in force (R373). -/
  ms : Nat := 0
  /-- the row-remap table by entry (64 to a segment), and its shadow copy: row and spare (R382). -/
  remap : Map RemapEntry := []
  shadow : Map (Nat × Nat) := []
  /-- the translation cache of the port, latest first, at most 64 (R348). -/
  tlb : List TlbEntry := []
  deriving DecidableEq, Repr

/-- An address space (R34, R44, R54, R295, R344). -/
structure Space where
  live : Bool
  sealed : Bool
  wdog : Word
  /-- task-type table entries of 64 bytes (R98). -/
  types : List (BitVec 512)
  /-- root table by device. -/
  roots : Map Nat
  devices : List Nat
  faultChan : Nat
  imageHash : List Byte
  /-- granted memory: (device, base physical address, bytes, next free), and blocks given back: (global address,
  bytes). -/
  granted : List (Nat × Nat × Nat × Nat)
  spare : List (Nat × Nat) := []
  keyId : Nat
  /-- the ports that the firmware has reported to the supervisors of the space as failed or taken out, as
  device * 2048 + port (R384, R455). -/
  notices : List Nat := []
  deriving DecidableEq, Repr

/-- What reaches a process as the answer of a producer or of a wait (R16, R19). -/
structure Fill where
  p : Nat
  gen : Nat
  writes : List RegWrite
  /-- an element of a vector load: register, element bytes, index, data, and its address if poisoned. -/
  el : Option (BitVec 5 × Nat × Nat × Nat × Option Word)
  /-- a status that completes the wait of the process (R137). -/
  ends : Option Word
  cause : Option Cause
  /-- a poisoned scalar under DROPTRAP traps at the load (R122). -/
  node : Option (BitVec 5 × Nat)
  /-- the completion of a TLBINV: the space and the address (R279, R347). -/
  inv : Option (Nat × Option Word) := none
  deriving DecidableEq, Repr

/-- A chain packet (R374). -/
structure ChainPkt where
  p : Nat
  gen : Nat
  reg : BitVec 5
  asid : Nat
  smode : Bool
  desc : Nat
  v : Word
  i : Nat
  n : Nat
  steps : List (Word × Word)
  deriving DecidableEq, Repr

/-- An engine that reads and writes memory through ports (R370). -/
inductive Engine where
  /-- source `i` of a chunk of a node at reduction unit `unit`; for a write, 0 for DEST and 1 for FLAG. -/
  | bred (unit place node i : Nat)
  deriving DecidableEq, Repr

/-- A request of a supervisor to its service core (R276, R453): g1 to g7. -/
structure Svc where
  p : Nat
  gen : Nat
  args : List Word
  deriving DecidableEq, Repr

/-- A probe of the deadlock search (R317). -/
structure Probe where
  origin : Nat
  path : List Nat
  alt : Bool
  toKey : Nat
  deriving DecidableEq, Repr

/-- A partial result of a search (R380): pairs (key bits, id), code, counts. -/
structure Report where
  place : Nat
  node : Nat
  ngen : Nat
  shard : Nat
  res : List (Nat × Nat)
  code : Nat
  forgets : Nat
  badIds : Nat
  visited : Nat
  faultId : Nat
  drop : Bool
  deriving DecidableEq, Repr

/-- A message between parts of the domain: what the delivery steps of the table deliver. -/
inductive Body where
  /-- `pois`: the leaf has POIS = 1 (R345); `line`: the core that keeps a read-only line, and the leaf it reached it
  through: space, page and offset bits (R352, R353). -/
  | read (ga n : Nat) (t : Target) (va : Word) (dropTrap pois : Bool) (line : Option (Nat × Nat × Nat × Nat))
  | write (ga : Nat) (bytes : List Byte) (pois : Bool)
  | atomic (r : AtomReq)
  | refused (r : AtomReq)
  | combine (l : RedLine)
  | fill (f : Fill)
  | chain (c : ChainPkt)
  | chainBack (c : ChainPkt) (status faddr val : Word)
  | eread (ga n : Nat) (pois : Bool) (e : Engine)
  | ewrite (ga : Nat) (bytes : List Byte) (pois : Bool) (e : Engine)
  | migrate (page : Nat)
  /-- an access to host memory: what it writes, or where its data go; `drop`: under DROPTRAP; `pois`: as above. -/
  | host (ga n : Nat) (wr : Option (List Byte)) (t : Option (Target × Word)) (drop pois : Bool)
  | serverPush (place : Nat)
  | winPush (p : Push)
  | nodeDone (place node gen code : Nat) (drop : Bool)
  | report (r : Report)
  | offer (chan : Nat) (e : Entry)
  | recv (chan : Nat) (r : RecvOp)
  | withdraw (chan p gen : Nat) (isSend : Bool)
  | item (chan : Nat) (i : Item)
  /-- the items of a deadlock report, which nothing separates (R318). -/
  | deadlock (chan : Nat) (is : List Item)
  | marker (chan : Nat)
  | token (chan : Nat)
  | close (chan : Nat)
  | ack (chan p gen code : Nat)
  | tileGo (chan : Nat) (p gen : Nat) (r : RecvOp)
  | tileLanded (chan : Nat) (p gen : Nat) (r : Option RecvOp) (i : Item)
  | slotToken (chan : Nat)
  | recordCopy (chan : Nat) (isSend : Bool) (toEnd : Holder) (door : Nat) (bindCap : Bool) (own : Own)
  /-- `old`: the holder whose door is unbound when the acknowledgement arrives. -/
  | announce (chan : Nat) (old : Holder) (own : Own)
  | announceAck (chan : Nat) (old : Holder) (own : Own)
  | inbox (place : Nat) (c : Call)
  | deleg (place : Nat) (c : Call)
  | childCreate (place : Nat) (c : Child) (own : Own)
  | stealTask (place : Nat) (c : Child) (own : Own)
  | stealBack (place : Nat) (c : Child) (own : Own)
  | childEnd (parent : Word) (j kind : Nat)
  | probe (pr : Probe)
  | svc (s : Svc)
  /-- the firmware waits until the accesses of a space under way are performed: to answer a MAP, by its window and address,
  or to end the space, for the window that asked if one did (R438, R451). -/
  | drained (win : Option Nat) (asid : Nat) (va : Option Word)
  deriving DecidableEq, Repr

/-- A message in flight. Messages of one source to one destination arrive in order (R371). -/
structure Msg where
  src : Nat
  dst : Nat
  own : Option Own
  body : Body
  /-- it has arrived and waits at its home: its number among those that waited there, and its address (R371, R373, R383). -/
  came : Option (Nat × Nat) := none
  /-- it was sent inside a device behind entries that the links still carried: their highest number. -/
  late : Nat := 0
  deriving DecidableEq, Repr

/-- A search in progress (R265): the visited set, the candidates, the results and the counts; the ids to be met next
and whether they are the entries; the neighbour block to be read next (its node, its address, the blocks left) and the
ids of the blocks read before it; and how the search ended, with the id whose record faulted. -/
structure Seek where
  visited : List Nat
  cand : List (Nat × Nat)
  res : List (Nat × Nat)
  forgets : Nat
  badIds : Nat
  count : Nat
  drop : Bool
  todo : List Nat
  entries : Bool
  block : Option (Nat × Word × Nat)
  ids : List Nat
  ending : Option (Nat × Nat)
  deriving DecidableEq, Repr

/-- A query held by a search unit (R379), and a node held by a reduction unit (R381). -/
structure Query where
  place : Nat
  node : Nat
  ngen : Nat
  shard : Nat
  whole : Bool
  /-- how far its search has come. -/
  run : Option Seek := none
  deriving DecidableEq, Repr

structure BredJob where
  place : Nat
  node : Nat
  ngen : Nat
  asid : Nat
  smode : Bool
  nsrc : Nat
  ty : Ty
  count : Nat
  dest : Word
  flag : Word
  fval : Word
  offs : List Int
  chunk : Nat
  /-- chunk of each source read so far, in source order; `writes`: DEST writes outstanding. -/
  got : List (Nat × List Byte)
  asked : Bool
  writes : Nat
  drop : Bool
  deriving DecidableEq, Repr

/-- The engines under a stack: key `device * 12 + stack` (R379, R381). Of the queries the unit holds the first 256, of
the jobs the first 64; the rest wait at the port in arrival order. -/
structure Stack where
  queries : List Query
  /-- taken out: how many of the first queries the search unit still holds (R455). -/
  out : Option Nat
  jobs : List BredJob
  /-- taken out: how many of the first jobs the unit still holds (R455). -/
  bredOut : Option Nat
  deriving DecidableEq, Repr

/-- Shard lists gathered by the issuing port of a sharded search (R380). -/
structure Merge where
  left : Nat
  reports : List Report
  deriving DecidableEq, Repr

/-- An entry waiting in, or sent by, a link port (R425, R426). -/
structure LinkEntry where
  msg : Msg
  toKey : Nat
  item : Bool
  tries : Nat
  sentAt : Option Nat
  queuedAt : Nat
  /-- its number among the entries that links have carried, from 1 on: those of one send end go in this order. -/
  id : Nat := 0
  /-- flits that have not arrived yet (R425); with none left, whether their acknowledgement was lost (R426). -/
  left : Nat := 1
  ackLost : Bool := false
  deriving DecidableEq, Repr

/-- The session of a sealed space between two devices (R429, R452): its key and the counter of its nonces. -/
structure Session where
  asid : Nat
  devA : Nat
  devB : Nat
  key : List Byte
  nonce : Nat
  deriving DecidableEq, Repr

/-- A link port: key `device * 16 + port` (R425 to R429). -/
structure Link where
  peer : Option (Nat × Nat)
  up : Bool
  lanes : Nat
  queue : List LinkEntry
  /-- the entries that have arrived at the peer and whose acknowledgement is not back, oldest first (R426). -/
  replay : List LinkEntry := []
  /-- when the port last went down (R428). -/
  downAt : Nat := 0
  deriving DecidableEq, Repr

/-- A binding of a collective unit (R430 to R433). -/
structure Coll where
  asid : Nat
  fanout : Bool
  head : Bool
  nout : Nat
  ety : Ty
  roles : Map Nat
  stopped : Bool
  /-- an input whose items are discarded until it closes. -/
  discard : Option Nat
  /-- the tiles staged in the unit's own SRAM, by role * 64 + slot (R432). -/
  sram : Map (List Byte) := []
  deriving DecidableEq, Repr

/-- A request window of a service core: key `device * 4 + d` (R436). -/
structure Window where
  req : List Word
  rsp : List Word
  busy : Bool
  done : Bool
  tag : Nat
  deriving DecidableEq, Repr

/-- A registered host endpoint: key `device * 1024 + number` (R441). -/
structure HostEp where
  toHost : Bool
  isMsg : Bool
  logs : Nat
  vec : Nat
  sc : Nat
  base : Nat
  chan : Option Nat
  /-- items waiting for room, and items whose rendezvous sender waits for the host's HEAD. -/
  pend : List Entry
  acks : List (Nat × Nat × Nat)
  deriving DecidableEq, Repr

/-- An instance of a part that carries firmware (R446, R447). -/
structure Part where
  slotA : List Byte
  slotB : List Byte
  activeB : Bool
  digest : List Byte
  inService : Bool
  deriving DecidableEq, Repr

/-- A migration under way: key old page (R356). -/
structure Migration where
  new : Nat
  next : Nat
  asid : Nat
  va : Word
  svc : Svc
  deriving DecidableEq, Repr

/-- A service of a part under way (R454, R455): the window that asked, the part, whether its inactive image is to be
activated and the minimum SVN raised, the instances still to follow, and the status so far. -/
structure Servicing where
  win : Nat
  kind : Nat
  inst : Nat
  activate : Bool
  raise : Bool
  rest : List Nat
  st : Nat
  deriving DecidableEq, Repr

/-- A device of the domain (R422, R435 to R458). -/
structure Device where
  on : Bool
  /-- the model's cycle of its device reset, from which its TIMEB counts (R47). -/
  t0 : Nat := 0
  routes : Map Nat
  parts : Map Part
  minSvn : Map Nat
  /-- the MSI-X table of 1,024 bytes; empty: as at reset (R435, log 32). -/
  msix : List Byte
  msiPending : Word
  serial : Word
  /-- dies that are throttled, and since when (R458). -/
  hot : Map Nat
  services : List Servicing
  deriving DecidableEq, Repr

/-- A request in the work queue of a home memory server (R378): requester process, request words; and from its first
read on the stamp drawn then, the window's channel, the space and the mode it reads with, and what it has read. -/
structure ServerReq where
  p : Nat
  gen : Nat
  words : List Word
  stamp : Option Nat
  chan : Nat := 0
  asid : Nat := 0
  smode : Bool := false
  data : List Byte := []
  deriving DecidableEq, Repr

/-- A home memory server (R378): its work queue, and the requester from which on the next grain is served. -/
structure Server where
  queue : List ServerReq
  turn : Nat
  deriving DecidableEq, Repr

/-- The whole machine. -/
structure State where
  /-- bytes of HBM, tier 2, scratchpads (by aperture address) and host memory, by global address; an
  unlisted byte reads 0 (log 2). -/
  mem : List Host.Cell
  /-- empty words, by global address / 8, rising; every other word is full (R355). -/
  empties : List Nat
  /-- poisoned lines, by global address / 64, rising. -/
  poisoned : List Nat
  /-- what the ECC and TAG of a line show (R355), by global address / 64: its wrong 16-bit symbols, and whether the
  tag mismatches. Every other line is right. -/
  ecc : Map (Nat × Bool) := []
  procs : Map Proc
  cores : Map Core
  sheds : Map Shed
  chans : Map Chan
  homes : Map Home
  spaces : Map Space
  bases : Map Stack
  merges : Map Merge
  links : Map Link
  colls : Map Coll
  windows : Map Window
  hostEps : Map HostEp
  devices : Map Device
  migrations : Map Migration
  /-- memory-server work queues by place (R378). -/
  servers : Map Server
  sessions : List Session
  counters : Map Nat
  /-- the model's own count of MSI-X vectors signalled to the host: key `device * 64 + vector` (R444). -/
  signals : Map Nat
  net : List Msg
  /-- the model's own tape: steps of other agents and of the outside world that happen next (log 1). -/
  agenda : List Instr
  /-- the model's own clock: 1.8 GHz cycles since device reset, and cycles per step (log 4). -/
  cycle : Nat
  pace : Nat
  /-- the process whose instruction issues now, and the slot that issued last: place * 8 + slot (R303). -/
  cur : Nat
  turn : Nat := 0
  /-- the model's own: data answered to the last host read (R443). -/
  hostData : Word
  /-- the model's own: whether those data came with CXL poison (R443). -/
  hostPoison : Bool := false
  /-- the model's own count of entries that links have carried. -/
  carried : Nat := 0
  nextChan : Nat
  /-- the model's own count of free values drawn. -/
  free : Nat
  deriving DecidableEq, Repr

/-- An accumulator slot at reset (R230). -/
def AccSlot.reset : AccSlot := { acc := [], ovf := 0, nan := 0, sat := 0, pois := 0, tag := none }

/-- The matrix unit at reset (R225, R230): P names core 0, credit 0, weights 1. -/
def Shed.reset : Shed :=
  { slots := Vector.replicate 8 AccSlot.reset, queues := Vector.replicate 8 [], ptr := 0, credit := 0,
    weights := Vector.replicate 8 1, busy := none, out := false, kept := [] }

/-- A domain at its reset clock word DIV 2, MODE 0 (R256). -/
def YDom.reset : YDom :=
  { div := 2, mode := 0, left := 0, run := false, steps := 0, late := 0, t0 := 0, done := 0 }

/-- The empty yard (R252). -/
def Yard.empty : Yard :=
  { cells := [], pairs := [], cross := List.replicate 32 0, ports := List.replicate 12 0, doms := Vector.replicate 4 YDom.reset,
    valid := false, ovr := false, intg := false, cfg := false, fcell := 0, fdom := 0, odrop := 0,
    patch := 0, attach := List.replicate 8 0 }

/-- A core at reset: no process, nothing cached, every table empty (R26, R206). -/
def Core.reset : Core :=
  { gens := [], tileOwner := none, m := Vector.replicate 8 (Vector.replicate 16 0), mFull := 0xFF,
    yardOwner := none, yard := Yard.empty, displaced := [], rings := Vector.replicate 4 none, nodes := [],
    redLines := [], slots := Vector.replicate 8 none, ready := Vector.replicate 12 [], tlb := [],
    icache := [], roLines := [], retained := [], mailbox := [], stealVictim := 0, stealDie := 0, stealTried := 0,
    idleSince := none, stealOut := none, faultMsgs := [], fenced := [], wdog := [], inbox := [],
    inboxPrio := [], delegs := [], copyQ := [], ovring := [], unitPool := [],
    report := 0 }

/-- A memory port at reset. -/
def Home.reset : Home :=
  { parked := [], failed := false, budget := none, left := 0, borrowed := 0, heldSince := none, badSegs := [] }

/-- A space that does not exist. -/
def Space.reset : Space :=
  { live := false, sealed := false, wdog := 0, types := [], roots := [], devices := [], faultChan := 0,
    imageHash := [], granted := [], keyId := 0 }

def Stack.reset : Stack := { queries := [], out := none, jobs := [], bredOut := none }

/-- A link port at reset: 8 lanes, no peer known until domain bring-up (R425). -/
def Link.reset : Link := { peer := none, up := false, lanes := 8, queue := [] }

/-- A request window at reset (R436). -/
def Window.reset : Window :=
  { req := List.replicate 8 0, rsp := List.replicate 8 0, busy := false, done := false, tag := 0 }

/-- A device before POWER_ON. -/
def Device.reset : Device :=
  { on := false, routes := [], parts := [], minSvn := [], msix := [], msiPending := 0, serial := 0,
    hot := [], services := [] }

/-- The registers of a process at creation (R35 and the reset columns of R37 to R54), every field zero
and every register full. -/
def Proc.reset : Proc :=
  { gen := 0, kind := .normal, pc := 0, pstat := 0x10, numctl := 4, epol := 0, tmo := BitVec.allOnes 64,
    tvec := 0, tcause := 0, tval := 0, tpc := 0, tstat := 0, prior := 0, qnt := 100000, feretry := 16,
    timecmp := BitVec.allOnes 64, swapsq := 0, round := 0,
    joins := Vector.replicate 4 { count := 0, canc := 0, flt := 0 },
    gFull := BitVec.allOnes 32, vFull := BitVec.allOnes 32, g := Vector.replicate 32 0,
    k := Vector.replicate 8 0, v := Vector.replicate 32 0, rotor := 0, doors := [], asid := 0, ttype := 0,
    maxPrio := 0, tile := false, yard := false, splog := 0, spBase := 0, usa := 0, parent := 0, join := 0,
    run := .ready, spilled := none, wait := none, stall := none, vfills := [], nwaits := [],
    nodeTraps := [], yardTrap := none, yardGrid := [], sigVal := 0, reported := false, started := false, readySince := 0,
    slotSince := 0, quantSince := 0, blockedSince := 0, hardSince := none, haltReq := 0, haltFor := [], held := false,
    sup := [], serving := none }

/-- The machine right after device reset: nothing is booted, no space and no process exists, every word
is full, TIMEB is 0 (R47, R355, R447). -/
def State.reset : State :=
  { mem := [], empties := [], poisoned := [], ecc := [], procs := [], cores := [], sheds := [], chans := [],
    homes := [], spaces := [], bases := [], merges := [], links := [], colls := [], windows := [],
    hostEps := [], devices := [], migrations := [], servers := [], sessions := [], counters := [], signals := [],
    net := [], agenda := [], cycle := 0, pace := 1, cur := 0, turn := 0, hostData := 0, nextChan := 1, free := 0 }

end Sys2Proof.Machine
end

