-- ==== Sys2Proof/Machine/Maps.lean ====
section
/-! DEFINITION. Maps with rising keys, sets of numbers, and memory as a list of cells in one canonical
form: addresses strictly rising, no cell holding 0, which is what an unlisted byte reads (log 2). -/

namespace Sys2Proof.Machine

/-- The value at a key. -/
def mget {α : Type} : Map α → Nat → Option α
  | [], _ => none
  | (k, v) :: r, i => if k = i then some v else mget r i

/-- Sets the value at a key, keeping the keys rising. -/
def mset {α : Type} : Map α → Nat → α → Map α
  | [], i, x => [(i, x)]
  | (k, v) :: r, i, x =>
    if i < k then (i, x) :: (k, v) :: r
    else if i = k then (i, x) :: r
    else (k, v) :: mset r i x

/-- Keeps a line in a cache of `cap` lines, in place of the lowest one when it is full (log 6). -/
def keepLine {α : Type} (cap : Nat) (m : Map α) (i : Nat) (x : α) : Map α :=
  mset (if cap ≤ m.length ∧ (mget m i).isNone then m.drop 1 else m) i x

/-- Removes a key. -/
def mdel {α : Type} : Map α → Nat → Map α
  | [], _ => []
  | (k, v) :: r, i => if k = i then r else (k, v) :: mdel r i

/-- Membership in a set held as a rising list. -/
def smem : List Nat → Nat → Bool
  | [], _ => false
  | k :: r, i => if k = i then true else smem r i

def sadd : List Nat → Nat → List Nat
  | [], i => [i]
  | k :: r, i => if i < k then i :: k :: r else if i = k then k :: r else k :: sadd r i

def sdel : List Nat → Nat → List Nat
  | [], _ => []
  | k :: r, i => if k = i then r else k :: sdel r i

/-- One byte of memory. -/
def memGet : List Host.Cell → Nat → Byte
  | [], _ => 0
  | (k, v) :: r, a => if k = a then v else memGet r a

/-- Writes one byte; writing 0 removes the cell. -/
def memSet : List Host.Cell → Nat → Byte → List Host.Cell
  | [], a, b => if b = 0 then [] else [(a, b)]
  | (k, v) :: r, a, b =>
    if a < k then (if b = 0 then (k, v) :: r else (a, b) :: (k, v) :: r)
    else if a = k then (if b = 0 then r else (a, b) :: r)
    else (k, v) :: memSet r a b

/-- The canonical form above a lower bound: every key at least `lo`, rising, no zero byte. -/
def memWfFrom : Nat → List Host.Cell → Bool
  | _, [] => true
  | lo, (k, v) :: r => decide (lo ≤ k) && v != 0 && memWfFrom (k + 1) r

/-- The canonical form of memory. -/
def Memory.wf (m : List Host.Cell) : Bool := memWfFrom 0 m

/-- `n` bytes from `a`, lowest first (R8). -/
def memBytes (m : List Host.Cell) (a : Nat) : Nat → List Byte
  | 0 => []
  | n + 1 => memGet m a :: memBytes m (a + 1) n

/-- Bytes as a little-endian number (R8). -/
def leNat : List Byte → Nat
  | [] => 0
  | b :: r => b.toNat + 256 * leNat r

/-- A number as `n` little-endian bytes. -/
def leBytes : Nat → Nat → List Byte
  | 0, _ => []
  | n + 1, x => BitVec.ofNat 8 x :: leBytes n (x / 256)

/-- `n` bytes from `a` as a number. -/
def memNat (m : List Host.Cell) (a n : Nat) : Nat := leNat (memBytes m a n)

/-- Writes bytes from `a` upward. -/
def memPut (m : List Host.Cell) (a : Nat) : List Byte → List Host.Cell
  | [] => m
  | b :: r => memPut (memSet m a b) (a + 1) r

/-- Sets bit `i` of an n-bit set. -/
def setBit {w : Nat} (x : BitVec w) (i : Nat) (b : Bool) : BitVec w :=
  if b then x ||| BitVec.twoPow w i else x &&& ~~~(BitVec.twoPow w i)

/-- Replaces bits [lo + n - 1 : lo] of a word. -/
def setField (x : Word) (lo n : Nat) (v : Nat) : Word :=
  let m : Word := BitVec.ofNat 64 ((2 ^ n - 1) <<< lo)
  (x &&& ~~~m) ||| (BitVec.ofNat 64 ((v % 2 ^ n) <<< lo))

/-- Bits [lo + n - 1 : lo] of a word. -/
def field (x : Word) (lo n : Nat) : Nat := (x.extractLsb' lo n).toNat

/-- Replaces element `i` of a list. -/
def listSet {α : Type} : List α → Nat → α → List α
  | [], _, _ => []
  | _ :: r, 0, x => x :: r
  | a :: r, i + 1, x => a :: listSet r i x

/-- Removes element `i` of a list. -/
def listDel {α : Type} : List α → Nat → List α
  | [], _ => []
  | _ :: r, 0 => r
  | a :: r, i + 1 => a :: listDel r i

end Sys2Proof.Machine
end

