-- ==== Sys2Proof/Machine/Base.lean ====
section
/-! DEFINITION. The named reads and writes of the state: processes, cores, registers, fields of the
system registers, time, counters, messages, addresses and homes. -/

namespace Sys2Proof.Machine

/-- The outcome of a meaning. -/
abbrev Out := Host.Outcome State Fault Refusal

def State.core (s : State) (pl : Nat) : Core := (mget s.cores pl).getD Core.reset
def State.setCore (s : State) (pl : Nat) (c : Core) : State := { s with cores := mset s.cores pl c }
def State.modCore (s : State) (pl : Nat) (f : Core → Core) : State := s.setCore pl (f (s.core pl))
def State.setProc (s : State) (k : Nat) (p : Proc) : State := { s with procs := mset s.procs k p }

/-- Changes a process, if it exists. -/
def State.modProc (s : State) (k : Nat) (f : Proc → Proc) : State :=
  match mget s.procs k with
  | none => s
  | some p => s.setProc k (f p)

def State.space (s : State) (asid : Nat) : Space := (mget s.spaces asid).getD Space.reset
def State.setSpace (s : State) (asid : Nat) (x : Space) : State :=
  { s with spaces := mset s.spaces asid x }
def State.shed (s : State) (sh : Nat) : Shed := (mget s.sheds sh).getD Shed.reset
def State.setShed (s : State) (sh : Nat) (x : Shed) : State := { s with sheds := mset s.sheds sh x }
def State.home (s : State) (h : Nat) : Home := (mget s.homes h).getD Home.reset
def State.setHome (s : State) (h : Nat) (x : Home) : State := { s with homes := mset s.homes h x }
def State.setChan (s : State) (c : Nat) (x : Chan) : State := { s with chans := mset s.chans c x }

/-- Changes a channel, if it exists. -/
def State.modChan (s : State) (c : Nat) (f : Chan → Chan) : State :=
  match mget s.chans c with
  | none => s
  | some x => s.setChan c (f x)

def State.device (s : State) (d : Nat) : Device := (mget s.devices d).getD Device.reset
def State.setDevice (s : State) (d : Nat) (x : Device) : State := { s with devices := mset s.devices d x }
def State.window (s : State) (w : Nat) : Window := (mget s.windows w).getD Window.reset
def State.setWindow (s : State) (w : Nat) (x : Window) : State := { s with windows := mset s.windows w x }
def State.link (s : State) (l : Nat) : Link := (mget s.links l).getD Link.reset
def State.setLink (s : State) (l : Nat) (x : Link) : State := { s with links := mset s.links l x }
def State.base (s : State) (b : Nat) : Stack := (mget s.bases b).getD Stack.reset
def State.setBase (s : State) (b : Nat) (x : Stack) : State := { s with bases := mset s.bases b x }

/-- Nanoseconds of the model's clock: 1.8 GHz cycles scaled (log 4). -/
def State.timeb (s : State) : Nat := s.cycle * 5 / 9

/-- TIMEB of a device: nanoseconds since its device reset (R47, log 4). -/
def State.timebOf (s : State) (dev : Nat) : Nat := (s.cycle - (s.device dev).t0) * 5 / 9

/-- Places, devices, handles (R24). -/
def placeOf (k : Nat) : Nat := k / 4096
def devOf (pl : Nat) : Nat := pl / 1024
def coreOf (pl : Nat) : Nat := pl % 1024
def keyDev (k : Nat) : Nat := devOf (placeOf k)
def handleOf (k gen : Nat) : Word := BitVec.ofNat 64 (k * 2 ^ 30 + gen)
def handleKey (h : Word) : Nat := h.toNat / 2 ^ 30
def handleGen (h : Word) : Nat := h.toNat % 2 ^ 30

/-- The process a handle names (R25): none for a stale handle. -/
def State.byHandle (s : State) (h : Word) : Option (Nat × Proc) :=
  match mget s.procs (handleKey h) with
  | none => none
  | some p => if p.gen = handleGen h ∧ p.gen ≠ 0 then some (handleKey h, p) else none

/-- The process of a key and generation. -/
def State.byOwn (s : State) (k gen : Nat) : Option Proc :=
  match mget s.procs k with
  | none => none
  | some p => if p.gen = gen then some p else none

/-- SELFH (R52). -/
def selfHandle (k : Nat) (p : Proc) : Word := handleOf k p.gen

/-- The die of a compute or service core (R3, R5). -/
def coreDie (c : Nat) : Nat := if c ≥ 768 then c - 768 else c / 192

/-- Registers (R15). -/
def Proc.rg (p : Proc) (n : BitVec 5) : Word := if n = 0 then 0 else p.g[n.toNat]'n.isLt
def Proc.wg (p : Proc) (n : BitVec 5) (x : Word) : Proc :=
  if n = 0 then p
  else { p with g := p.g.set n.toNat x n.isLt, gFull := setBit p.gFull n.toNat true }
def Proc.rv (p : Proc) (n : BitVec 5) : VReg := p.v[n.toNat]'n.isLt
def Proc.wv (p : Proc) (n : BitVec 5) (x : VReg) : Proc :=
  { p with v := p.v.set n.toNat x n.isLt, vFull := setBit p.vFull n.toNat true }
def Proc.rk (p : Proc) (n : BitVec 3) : Word := if n = 0 then BitVec.allOnes 64 else p.k[n.toNat]'n.isLt
def Proc.wk (p : Proc) (n : BitVec 3) (x : Word) : Proc :=
  if n = 0 then p else { p with k := p.k.set n.toNat x n.isLt }

/-- Marks a register empty (R16); g0 stays full. -/
def Proc.eg (p : Proc) (n : BitVec 5) : Proc :=
  if n = 0 then p else { p with gFull := setBit p.gFull n.toNat false }
def Proc.ev (p : Proc) (n : BitVec 5) : Proc := { p with vFull := setBit p.vFull n.toNat false }

/-- Fills a register with its prior contents (R16). -/
def Proc.fg (p : Proc) (n : BitVec 5) : Proc := { p with gFull := setBit p.gFull n.toNat true }
def Proc.fv (p : Proc) (n : BitVec 5) : Proc := { p with vFull := setBit p.vFull n.toNat true }
def Proc.gOk (p : Proc) (n : BitVec 5) : Bool := n == 0 || p.gFull.getLsbD n.toNat
def Proc.vOk (p : Proc) (n : BitVec 5) : Bool := p.vFull.getLsbD n.toNat

/-- Fields of the system registers (R37 to R54). -/
def Proc.smode (p : Proc) : Bool := field p.pstat 0 2 != 0
def Proc.autop (p : Proc) : Bool := p.pstat.getLsbD 4
def Proc.dropTrap (p : Proc) : Bool := p.pstat.getLsbD 5
def Proc.evmask (p : Proc) : Nat := field p.pstat 16 3
def Proc.evpend (p : Proc) : Nat := field p.pstat 24 3
def Proc.mode (p : Proc) : NumMode := NumMode.ofWord p.numctl
def Proc.nan1 (p : Proc) : Bool := p.numctl.getLsbD 3
def Proc.prioBase (p : Proc) : Nat := field p.prior 0 4
def Proc.eff (p : Proc) : Nat := field p.prior 16 4
def Proc.setEff (p : Proc) (e : Nat) : Proc := { p with prior := setField p.prior 16 4 e }
def Proc.setBase (p : Proc) (b : Nat) : Proc := { p with prior := setField p.prior 0 4 b }
def Proc.advance (p : Proc) : Proc := { p with pc := p.pc + 4 }
def Proc.isRunning (p : Proc) : Bool :=
  match p.run with
  | .running _ => true
  | .ready | .blocked | .halted => false

/-- The model's cycle in which TIMEB of a device first reads `t` or more (R47, log 4). -/
def cycleAt (s : State) (dev t : Nat) : Nat := (s.device dev).t0 + (9 * t + 4) / 5

/-- The deadline of a wait of process `k` that starts now (R41), as a cycle of the model: the TIMEB of its device plus TMO;
none never expires. -/
def deadlineOf (s : State) (k : Nat) (p : Proc) (timed : Bool) : Option Nat :=
  if timed && p.tmo != BitVec.allOnes 64 then some (cycleAt s (keyDev k) (s.timebOf (keyDev k) + p.tmo.toNat)) else none

/-- Whether a deadline has passed. -/
def pastDeadline (s : State) (d : Option Nat) : Bool :=
  match d with
  | none => false
  | some t => decide (t ≤ s.cycle)

/-- A status word with its DOOR (R136). -/
def doorWord (code door : Nat) : Word := BitVec.ofNat 64 (code % 256 + 256 * (door % 64))

/-- The status word of an instruction on its own door (R136): with CODE OK the whole word is 0, as R291, R292, R342 and
R369 have it of SENDT on d1 and WINOPEN on d2 (log 92). -/
def statusWord (code door : Nat) : Word := if code = 0 then 0 else doorWord code door

/-- Status codes (R135). -/
def stOk : Nat := 0
def stTimeout : Nat := 1
def stPoisoned : Nat := 2
def stDropped : Nat := 3
def stClosed : Nat := 4
def stFull : Nat := 6
def stBadType : Nat := 7
def stFault : Nat := 8
def stCancelled : Nat := 9

/-- Advances a counter of R457: kind, instance and index of a device; counters saturate at 64 bits. -/
def counterKey (dev kind inst idx : Nat) : Nat := ((dev * 16 + kind) * 4096 + inst) * 256 + idx
def State.count (s : State) (dev kind inst idx by' : Nat) : State :=
  let key := counterKey dev kind inst idx
  { s with counters := mset s.counters key (min ((mget s.counters key).getD 0 + by') (2 ^ 64 - 1)) }

/-- A counter of a compute core (R457 kind 0). -/
def State.countCore (s : State) (pl idx : Nat) : State := s.count (devOf pl) 0 (coreOf pl) idx 1

/-- Agent numbers for sources and destinations of messages: places; then homes, the records of channels, other
parts, the send ends of channels, the senders of a fault door, and cores as senders of fault messages. -/
def agentHome (h : Nat) : Nat := 2 ^ 32 + h
def agentChan (c : Nat) : Nat := 2 ^ 33 + c
def agentPart (x : Nat) : Nat := 2 ^ 34 + x
def agentSend (c : Nat) : Nat := 2 ^ 35 + c

/-- The device of the holder of an end. -/
def holderDev (h : Holder) : Option Nat :=
  match h with
  | .proc p _ _ => some (keyDev p)
  | .hostEp n => some (n / 1024)
  | .server pl => some (devOf pl)
  | .coll b _ => some (b / 512)
  | .service d => some d
  | .gone => none

/-- The device where an agent stands. -/
def agentDev (s : State) (a : Nat) : Option Nat :=
  if a < 2 ^ 32 then some (a / 1024)
  else if a < 2 ^ 33 then some ((a - 2 ^ 32) / 2048)
  else if a < 2 ^ 34 then (mget s.chans (a - 2 ^ 33)).bind fun x => holderDev x.recv
  else if a < 2 ^ 35 then none
  else if a < 2 ^ 36 then (mget s.chans (a - 2 ^ 35)).bind fun x => holderDev x.send
  else if a < 2 ^ 37 then
    (s.procs.find? fun (e : Nat × Proc) => e.2.doors.any fun d => d.2.isSend && d.2.fid == a - 2 ^ 36).map fun e => keyDev e.1
  else some ((a - 2 ^ 37) / 1024)

/-- The ports of a route entry (R423). -/
def routePorts (s : State) (dev to_ : Nat) : List Nat :=
  let mask := (mget (s.device dev).routes to_).getD 0
  (List.range 16).filter fun i => mask.testBit i

/-- The lowest-numbered usable port toward a device, else the lowest of its route entry (R423, R424). -/
def routePort (s : State) (dev to_ : Nat) : Nat :=
  let ports := routePorts s dev to_
  ((ports.find? fun i => (s.link (dev * 16 + i)).up).orElse fun _ => ports.head?).getD 0

/-- Whether a link drops an entry when its retries run out (R327, R426). -/
def droppable (b : Body) : Bool :=
  match b with
  | .offer _ (.lost _) => false
  | .offer _ _ | .item _ _ | .tileLanded _ _ _ _ _ => true
  | _ => false

/-- The channel an entry belongs to. -/
def Body.chan (b : Body) : Option Nat :=
  match b with
  | .offer c _ | .recv c _ | .withdraw c _ _ _ | .item c _ | .deadlock c _ | .marker c | .token c | .close c | .ack c _ _ _
  | .tileGo c _ _ _ | .tileLanded c _ _ _ _ | .slotToken c | .recordCopy c _ _ _ _ _ | .announce c _ _ | .announceAck c _ _ => some c
  | .winPush p => some p.chan
  | .read _ _ _ _ _ _ _ | .write _ _ _ | .atomic _ | .refused _ | .combine _ | .fill _ | .eread _ _ _ _ | .ewrite _ _ _ _
  | .migrate _ | .host _ _ _ _ _ _ | .serverPush _ | .nodeDone _ _ _ _ _ | .report _ | .childEnd _ _ _ | .probe _ | .svc _ | .drained _ _ _
  | .inbox _ _ | .deleg _ _ | .childCreate _ _ _ | .stealTask _ _ _ | .stealBack _ _ _ | .chain _ | .chainBack _ _ _ _ => none

/-- The space whose traffic a message is. -/
def trafficSpace (s : State) (m : Msg) : Option Nat :=
  match m.body.chan with
  | some c => (mget s.chans c).map fun x => x.asid
  | none =>
    match m.body with
    | .inbox _ c | .deleg _ c => some c.asid
    | .childCreate _ c _ | .stealTask _ c _ | .stealBack _ c _ => some c.asid
    | .chain c | .chainBack c _ _ _ => some c.asid
    | _ => m.own.map (·.asid)

/-- Whether an entry is encrypted and authenticated (R429). -/
def isSealed (s : State) (m : Msg) : Bool :=
  match trafficSpace s m with
  | none => false
  | some a => (s.space a).sealed

/-- The nonce counter of the session of an entry's two ends advances (R429). -/
def State.useNonce (s : State) (m : Msg) (devA devB : Nat) : State :=
  match trafficSpace s m with
  | none => s
  | some a =>
    { s with sessions := s.sessions.map fun (x : Session) =>
        if x.asid = a ∧ x.devA = min devA devB ∧ x.devB = max devA devB then { x with nonce := x.nonce + 1 } else x }

/-- The flits of an entry (R425); of what is no channel entry the spec gives none, and it takes the flits of an item of its
words, or one (log 98). -/
def flitsOf (s : State) (m : Msg) : Nat :=
  (if isSealed s m then 1 else 0) +
    match m.body with
    | .item _ i | .offer _ (.item i) | .offer _ (.offer i _ _) => if i.words.length ≤ 1 then 2 else 3
    | .tileLanded _ _ _ _ i => 1 + (8 * i.words.length + 31) / 32
    | .winPush p => 1 + (p.bytes.length + 31) / 32
    | .deadlock _ is => 3 * is.length
    | .inbox _ _ | .deleg _ _ => 3
    | _ => 1

/-- The hops of a path from a device to another (R424): the lowest-numbered usable port of the route entry at each one. -/
def pathFrom (s : State) (to_ : Nat) : Nat → Nat → Map Nat
  | 0, _ => []
  | fuel + 1, dev =>
    if dev = to_ then []
    else
      let i := routePort s dev to_
      match (s.link (dev * 16 + i)).peer with
      | none => []
      | some (d, _) => mset (pathFrom s to_ fuel d) (dev * 4096 + to_) i

/-- Fixes the path of a channel as its ends are bound or moved (R424), in both directions. -/
def State.fixPath (s : State) (c : Nat) : State :=
  match mget s.chans c with
  | none => s
  | some x =>
    match holderDev x.send, holderDev x.recv with
    | some d, some e =>
      if d = e then (if x.path.isEmpty then s else s.setChan c { x with path := [] })
      else s.setChan c { x with path := (pathFrom s d 64 e).foldl (fun m h => mset m h.1 h.2) (pathFrom s e 64 d) }
    | _, _ => s

/-- The link port by which an entry leaves a device (R424): that of its channel's path; without one, the port by which
entries of the same sender to the same place still wait, else the usable port of the route. -/
def pathPort (s : State) (dev to_ : Nat) (m : Msg) : Nat :=
  match (m.body.chan.bind fun c => mget s.chans c).bind fun x => mget x.path (dev * 4096 + to_) with
  | some i => i
  | none =>
    let same (i : Nat) : Bool := (s.link (dev * 16 + i)).queue.any fun e => e.msg.src == m.src && e.msg.dst == m.dst
    ((List.range 16).find? same).getD (routePort s dev to_)

/-- Puts an entry in the queue of a link port. -/
def State.enqLink (s : State) (dev : Nat) (e : LinkEntry) : State :=
  let l := dev * 16 + pathPort s dev e.toKey e.msg
  let x := s.link l
  s.setLink l { x with queue := x.queue ++ [{ e with tries := 0, sentAt := none, queuedAt := s.timeb,
                                                     left := flitsOf s e.msg, ackLost := false }] }

/-- A message goes out over the links, sealed under the next nonce of its session (R424, R429). -/
def State.enlink (s : State) (dev to_ : Nat) (m : Msg) : State :=
  (({ s with carried := s.carried + 1 } : State).useNonce m dev to_).enqLink dev
    { msg := m, toKey := to_, item := droppable m.body, tries := 0, sentAt := none, queuedAt := s.timeb, id := s.carried + 1 }

/-- Whether entries of a sender to a place are still on the links, of those numbered up to `n`. -/
def onLinks (s : State) (src dst n : Nat) : Bool :=
  s.links.any fun (l : Nat × Link) => l.2.queue.any fun e => e.msg.src == src && e.msg.dst == dst && decide (e.id ≤ n)

/-- Sends a message: inside a device straight away, to another device by the queue of a link port (R424). What follows
entries that are still on the links comes behind them, also when an end has moved meanwhile (R334 to R336). -/
def State.post (s : State) (src dst : Nat) (own : Option Own) (b : Body) : State :=
  let m : Msg := { src := src, dst := dst, own := own, body := b }
  let here : State := { s with net := s.net ++ [if onLinks s src dst s.carried then { m with late := s.carried } else m] }
  match agentDev s src, agentDev s dst with
  | some d, some e => if d = e then here else s.enlink d e m
  | _, _ => here

/-- Exactly `n` bytes of a list. -/
def exactly (n : Nat) (l : List Byte) : List Byte := (l ++ List.replicate n 0).take n

/-- An entry that comes to a record at a time: a memory server takes what came first (R378). -/
def Holder.dated (h : Holder) (t : Nat) (e : Entry) : Entry :=
  match h, e with
  | .server _, .item i => .item { i with came := t }
  | .server _, .offer i p gen => .offer { i with came := t } p gen
  | _, e => e

/-- The state without message `n`. -/
def State.took (s : State) (n : Nat) : State := { s with net := listDel s.net n }

/-- The global address of a physical address of a device. -/
def gaOf (dev pa : Nat) : Nat := dev * 2 ^ 44 + pa
def gaDev (ga : Nat) : Nat := ga / 2 ^ 44
def gaPa (ga : Nat) : Nat := ga % 2 ^ 44

/-- The ranges of R343. -/
inductive Range where
  | hbm (channel : Nat)
  | tier2 (die : Nat)
  | scratch (core : Nat)
  | host
  | control
  | none
  deriving DecidableEq, Repr

def rangeOf (pa : Nat) : Range :=
  if pa < 0x0C000000000 then .hbm (pa / 2 ^ 30)
  else if pa < 0x10000000000 then .none
  else if pa < 0x20000000000 then .tier2 (pa / 2 ^ 38 % 4)
  else if pa < 0x20018000000 then .scratch ((pa - 0x20000000000) / 2 ^ 19)
  else if pa < 0x30000000000 then .none
  else if pa < 0x40000000000 then .host
  else if pa < 0xF0000000000 then .none
  else .control

/-- The home of a word (R343, R349): ports at their channel, tier-2 servers at 768 + die, host memory at
772 + die of the service core that serves it, scratchpads at 1024 + core; a device has 2048 homes. -/
def homeOf (ga : Nat) : Nat :=
  gaDev ga * 2048 +
    (match rangeOf (gaPa ga) with
     | .hbm c => c
     | .tier2 d => 768 + d
     | .scratch c => 1024 + c
     | .host => 772
     | .control => 776
     | .none => 777)

/-- The service core that serves the traffic of a die: its own, or while that is out of service its peer (R455). -/
def servingDie (s : State) (dev d : Nat) : Nat :=
  if (mget (s.device dev).parts (6 * 4096 + d)).any fun x => !x.inService then (d + 1) % 4 else d

/-- The home that serves an access of a place: host memory is reached through the service core of its die (R343). -/
def homeFor (s : State) (pl ga : Nat) : Nat :=
  match rangeOf (gaPa ga) with
  | .host => gaDev ga * 2048 + 772 + servingDie s (devOf pl) (coreDie (coreOf pl))
  | .hbm _ | .tier2 _ | .scratch _ | .control | .none => homeOf ga

/-- The scratchpad aperture (R343): the byte at offset `o` of the scratchpad of a place. -/
def scratchGa (pl o : Nat) : Nat := gaOf (devOf pl) (0x20000000000 + coreOf pl * 2 ^ 19 + o)

/-- The byte at an offset of a process's allocation, wrapped (R132). -/
def spadGa (k : Nat) (p : Proc) (o : Nat) : Nat :=
  scratchGa (placeOf k) (p.spBase + o % 2 ^ p.splog)

/-- Bytes of the allocation from an offset, each wrapped. -/
def spadBytes (s : State) (k : Nat) (p : Proc) (o : Nat) (n : Nat) : List Byte :=
  (List.range n).map fun i => memGet s.mem (spadGa k p (o + i))

def spadNat (s : State) (k : Nat) (p : Proc) (o n : Nat) : Nat := leNat (spadBytes s k p o n)

/-- Whether a word is full (R355). -/
def State.full (s : State) (ga : Nat) : Bool := !smem s.empties (ga / 8)
def State.setFull (s : State) (ga : Nat) : State := { s with empties := sdel s.empties (ga / 8) }
def State.setEmpty (s : State) (ga : Nat) : State := { s with empties := sadd s.empties (ga / 8) }

/-- Whether the ECC of a line finds it uncorrectable, or its tag mismatches (R355). -/
def State.eccBad (s : State) (line : Nat) : Bool :=
  match mget s.ecc line with
  | none => false
  | some (wrong, tag) => tag || decide (2 ≤ wrong)

/-- Whether a word lies in a poisoned line (R125, R355) or on a failed pseudo-channel (R384). -/
def State.bad (s : State) (ga : Nat) : Bool :=
  smem s.poisoned (ga / 64) || s.eccBad (ga / 64) || (s.home (homeOf ga)).failed

/-- The part whose counters a home advances (R445 kind 2). -/
def homeInst (h : Nat) : Nat := h % 2048
def State.countHome (s : State) (ga idx : Nat) : State :=
  s.count (gaDev ga) 2 (homeInst (homeOf ga)) idx 1

/-- A page under migration (R357): the copy of an address whose line has already been copied. -/
def State.migratedTo (s : State) (ga : Nat) : Option Nat :=
  match mget s.migrations (ga / 65536) with
  | none => none
  | some m => if ga % 65536 / 64 < m.next then some (m.new * 65536 + ga % 65536) else none

/-- Stores bytes at their place, and at the new copy of a migrating page, without other effects. -/
def State.putBytes (s : State) (ga : Nat) (bs : List Byte) : State :=
  let s := { s with mem := memPut s.mem ga bs }
  match s.migratedTo ga with
  | none => s
  | some g => { s with mem := memPut s.mem g bs }

/-- Sets the full/empty bit of a word, and of its migrated copy. -/
def State.putFull (s : State) (ga : Nat) (full : Bool) : State :=
  let f (s : State) (a : Nat) : State := if full then s.setFull a else s.setEmpty a
  let s := f s ga
  match s.migratedTo ga with
  | none => s
  | some g => f s g

/-- Sets every word of `n` bytes from an address full. -/
def State.fillWords (s : State) (ga n : Nat) : State :=
  (List.range ((ga % 8 + n + 7) / 8)).foldl (fun s i => s.putFull (ga / 8 * 8 + 8 * i) true) s

/-- Package coordinates of a compute core (R3): core 192 d + 8 s + c. -/
def coreX (i : Nat) : Nat := 12 * (i / 192 % 2) + 2 * (i % 192 / 8 % 6) + i % 2
def coreY (i : Nat) : Nat := 16 * (i / 192 / 2) + 4 * (i % 192 / 8 / 6) + i % 8 / 2

/-- The core at package coordinates (R3). -/
def coreAt (x y : Nat) : Nat :=
  192 * (x / 12 + 2 * (y / 16)) + 8 * (x % 12 / 2 + 6 * (y % 16 / 4)) + (x % 2 + 2 * (y % 4))

/-- Mesh distance of two compute cores (R297). -/
def dist (a b : Nat) : Nat :=
  (max (coreX a) (coreX b) - min (coreX a) (coreX b)) + (max (coreY a) (coreY b) - min (coreY a) (coreY b))

/-- The processes of a place, with their keys. -/
def State.procsAt (s : State) (pl : Nat) : List (Nat × Proc) := s.procs.filter fun e => placeOf e.1 == pl

end Sys2Proof.Machine
end

