-- ==== Sys2Proof/Machine/Homes.lean ====
section
/-! DEFINITION. What every access meets at its home, whoever makes it: the row-remap table (R382, R383), the ECC of its
lines (R355), the recall of reduction lines (R141, R354) and the budget of the port (R373). -/

namespace Sys2Proof.Machine

/-- The home of an address. -/
def State.homeAt (s : State) (ga : Nat) : Home := s.home (homeOf ga)
def State.modHome (s : State) (h : Nat) (f : Home → Home) : State := s.setHome h (f (s.home h))

/-- The entry of a remap table that covers the row of an address (R382, log 84). -/
def Home.rowEntry (x : Home) (ga : Nat) : Option (Nat × RemapEntry) :=
  if x.remap.isEmpty then none
  else x.remap.find? fun e => decide (e.1 < 1024) && e.1 / 64 == Config.remapSegment (gaPa ga) && e.2.row == Config.bankRow (gaPa ga)

/-- Whether the segment that covers the bank of an address waits for its reload (R383). -/
def Home.rowWaits (x : Home) (ga : Nat) : Bool := !x.badSegs.isEmpty && x.badSegs.contains (Config.remapSegment (gaPa ga))

/-- Reads the remap entry of an address (R382, R383): a single-bit error is corrected and counted; an uncorrectable entry, or
a segment that fails its CRC, makes the segment wait for a reload. -/
def State.readRow (s : State) (ga : Nat) : State :=
  let x := s.homeAt ga
  let s := if !x.badCrc.isEmpty && x.badCrc.contains (Config.remapSegment (gaPa ga)) then
      s.modHome (homeOf ga) fun x => { x with badSegs := sadd x.badSegs (Config.remapSegment (gaPa ga)) }
    else s
  match x.rowEntry ga with
  | none => s
  | some (i, e) =>
    if e.wrong = 0 then s
    else if e.wrong = 1 then
      (s.modHome (homeOf ga) fun x => { x with remap := mset x.remap i { e with wrong := 0 } }).countHome ga 4
    else s.modHome (homeOf ga) fun x => { x with badSegs := sadd x.badSegs (i / 64) }

/-- A line with one wrong symbol is corrected and counted when it is read (R355). -/
def State.correctLine (s : State) (line : Nat) : State :=
  match mget s.ecc line with
  | some (1, false) => ({ s with ecc := mdel s.ecc line }).countHome (line * 64) 7
  | _ => s

/-- The lines of `n` bytes from an address. -/
def linesOf (ga n : Nat) : List Nat := (List.range ((ga % 64 + n + 63) / 64)).map (· + ga / 64)

/-- Corrects the lines of an access. -/
def State.correct (s : State) (ga n : Nat) : State :=
  if s.ecc.isEmpty then s else (linesOf ga n).foldl (fun s l => s.correctLine l) s

/-- What an access of `n` bytes charges: 64 bytes a line (R373). -/
def chargeOf (ga n : Nat) : Nat := (ga % 64 + n + 63) / 64 * 64

/-- What an access meets before it is served: the remap entry of its row (R382), and the ECC of its lines (R355). -/
def State.met (s : State) (ga n : Nat) : State := (s.readRow ga).correct ga n

/-- An access is admitted at its home (R373, R383): its remap entry and lines are read and its lines charged to the
budget, with borrowing of a tenth; none while requests are held. -/
def State.charge (s : State) (ga n : Nat) : Option State :=
  let s := s.met ga n
  let h := homeOf ga
  let x := s.home h
  if x.rowWaits ga then none
  else
    match x.budget with
    | none => some s
    | some b =>
      if x.heldSince.isSome then none
      else if chargeOf ga n ≤ x.left then some (s.setHome h { x with left := x.left - chargeOf ga n })
      else if x.borrowed + (chargeOf ga n - x.left) ≤ b / 10 then
        some (s.setHome h { x with left := 0, borrowed := x.borrowed + (chargeOf ga n - x.left) })
      else none

/-- From when on requests wait at a home for the next budget (R373). -/
def State.holdHome (s : State) (ga : Nat) : State :=
  let s := s.readRow ga
  if (s.homeAt ga).rowWaits ga then s
  else s.modHome (homeOf ga) fun x => { x with heldSince := if x.heldSince.isSome then x.heldSince else some s.timeb }

/-- A request that its home does not admit waits there in arrival order: for the reload of a segment (R383) or for the
next budget (R373). -/
def State.holdPort (s : State) (ga i : Nat) : State :=
  let t := s.holdHome ga
  match t.net[i]? with
  | none => t
  | some m =>
    if m.came.isSome then t
    else
      ({ t with net := listSet t.net i { m with came := some ((t.homeAt ga).arrivals, ga) } } : State).modHome (homeOf ga) fun x =>
        { x with arrivals := x.arrivals + 1 }

/-- Whether a message waits at its home ahead of whatever comes later: for the next budget, or its time has come. One that
waits for the reload of a segment lets the requests to other banks pass (R383). -/
def Msg.ahead (s : State) (m : Msg) : Bool := m.came.any fun c => !(s.homeAt c.2).rowWaits c.2

/-- Whether message `e`, which was sent before `m` if `sooner`, goes before it: the messages of one source to one place
arrive in the order sent (R371), and the requests that wait at a home are served in arrival order, before new ones (R373,
R383). -/
def Msg.before (s : State) (e m : Msg) (sooner : Bool) : Bool :=
  e.dst == m.dst &&
    match e.came, m.came with
    | some (i, _), some (j, _) => decide (i < j) && e.ahead s
    | some _, none => e.ahead s
    | none, none => sooner && e.src == m.src
    | none, some _ => false

/-- Message `n`, if nothing goes before it: no message in flight, and no entry that the links still carry. -/
def State.arriving (s : State) (n : Nat) : Option Msg :=
  match s.net[n]? with
  | none => none
  | some m =>
    if (s.net.take n).any (fun e => e.before s m true) || (s.net.drop (n + 1)).any (fun e => e.before s m false) ||
        (m.late != 0 && onLinks s m.src m.dst m.late) then none
    else some m

/-- Whether a read from `src` that its home performs in one step must still wait (log 83): an earlier request of the same
source to that home is on its way (R371), requests are held there, or the home does not admit it now (R373, R383). -/
def readWaits (s : State) (src ga n : Nat) : Bool :=
  (s.net.any fun m => m.dst == agentHome (homeOf ga) && ((m.src == src && m.came.isNone) || m.ahead s)) || (s.charge ga n).isNone

/-- Apply of R139, on fields of 4 or 8 bytes. -/
def amoApply (op : Nat) (w : Bool) (old opnd : Word) : Word :=
  let sx (x : Word) : Word := if w then (x.setWidth 32).signExtend 64 else x
  let zx (x : Word) : Word := if w then (x.setWidth 32).setWidth 64 else x
  match op with
  | 0 => old + opnd
  | 1 => old &&& opnd
  | 2 => old ||| opnd
  | 3 => old ^^^ opnd
  | 4 => if (sx opnd).slt (sx old) then opnd else old
  | 5 => if (sx old).slt (sx opnd) then opnd else old
  | 6 => if (zx opnd).ult (zx old) then opnd else old
  | 7 => if (zx old).ult (zx opnd) then opnd else old
  | _ => opnd

/-- The type a RED.FADD adds in. -/
def fadd (w : Bool) (x y : Word) : Word := BitVec.ofNat 64 (addF (if w then .fp32 else .fp64) rneMode x.toNat y.toNat)

/-- The operation of a reduction line on one element (R138, R141). -/
def redApply (op : Nat) (w : Bool) (old x : Word) : Word :=
  match op with
  | 0 => old + x
  | 1 => fadd w old x
  | 2 => amoApply 4 w old x
  | _ => amoApply 5 w old x

/-- The bytes of an element of a reduction line. -/
def RedLine.bytes (l : RedLine) : Nat := if l.w then 4 else 8

/-- Applies one element of a line to its home word as one indivisible step, and sets the word full (R141). -/
def State.combineEl (s : State) (l : RedLine) (e : Nat × Word) : State :=
  let ga := l.line * 64 + l.bytes * e.1
  let old : Word := BitVec.ofNat 64 (memNat s.mem ga l.bytes)
  (s.putBytes ga (leBytes l.bytes (redApply l.op l.w old e.2).toNat)).putFull ga true

/-- The combines of a line that a recall gathers: those on their way, in the order sent (R354), then the copies that
the cores hold, in ascending core id (R141). -/
def copiesOf (s : State) (line : Nat) : List RedLine :=
  (s.net.filterMap fun m => match m.body with | .combine l => if l.line = line ∧ !l.els.isEmpty then some l else none | _ => none) ++
    (s.cores.map fun (c : Nat × Core) => c.2.redLines.filter fun l => l.line == line).flatten

/-- The state without those copies. -/
def State.uncopied (s : State) (line : Nat) : State :=
  { s with
    net := s.net.filter fun m => match m.body with | .combine l => l.line != line || l.els.isEmpty | _ => true
    cores := s.cores.map fun (c : Nat × Core) => (c.1, { c.2 with redLines := c.2.redLines.filter fun l => l.line != line }) }

/-- The aperture hides the allocation of a sealed space from other spaces (R450). -/
def sealedFrom (s : State) (ga : Nat) (asid : Option Nat) : Bool :=
  match rangeOf (gaPa ga) with
  | .scratch c =>
    let o := gaPa ga % 2 ^ 19
    (s.procsAt (gaDev ga * 1024 + c)).any fun e =>
      decide (e.2.splog ≠ 0 ∧ e.2.spBase ≤ o ∧ o < e.2.spBase + 2 ^ e.2.splog) && (s.space e.2.asid).sealed &&
        asid != some e.2.asid
  | .hbm _ | .tier2 _ | .host | .control | .none => false

/-- Whether a word lies in memory granted to a sealed space (R443, R450). -/
def sealedPage (s : State) (ga : Nat) : Bool :=
  s.spaces.any fun (a : Nat × Space) =>
    a.2.sealed && a.2.granted.any fun g => decide (gaOf g.1 g.2.1 ≤ ga ∧ ga < gaOf g.1 g.2.1 + g.2.2.1)

/-- Whether a line comes from another space into the allocation of a sealed one (R450): the aperture drops it. -/
def RedLine.barred (s : State) (l : RedLine) : Bool := l.via.any fun v => sealedFrom s (l.line * 64) (some v.1)

/-- Combines one copy into memory; at a poisoned or failed home it is dropped and counted (R141). -/
def State.combineQuiet (s : State) (l : RedLine) : State :=
  if s.bad (l.line * 64) then s.countHome (l.line * 64) 1
  else if l.barred s then s
  else l.els.foldl (fun s e => s.combineEl l e) s

/-- The recall of a line by a reader other than a process: the copies are combined, and the home is told to serve
what is parked on the line. -/
def State.gather (s : State) (line : Nat) : State :=
  match copiesOf s line with
  | [] => s
  | ls =>
    let s := ls.foldl (fun s l => s.combineQuiet l) (s.uncopied line)
    if (s.homeAt (line * 64)).parked.isEmpty then s
    else
      s.post (agentHome (homeOf (line * 64))) (agentHome (homeOf (line * 64))) none
        (.combine { line := line, op := 0, w := false, els := [] })

/-- `n` bytes as a read at their home gives them: every copy of their lines combined (R141). -/
def readBytes (s : State) (ga n : Nat) : List Byte := memBytes ((linesOf ga n).foldl (fun s l => s.gather l) s).mem ga n
def readNat (s : State) (ga n : Nat) : Nat := leNat (readBytes s ga n)

/-- What the homes do for a read of `n` bytes that is performed in one step: the lines recalled and charged (R349, R373). -/
def State.readDone (s : State) (ga n : Nat) : State :=
  let s := (linesOf ga n).foldl (fun s l => s.gather l) s
  (s.charge ga n).getD s

/-- What the homes do for a read of the firmware: the lines are recalled, and nothing is held or charged (R349, R373). -/
def State.firmRead (s : State) (ga n : Nat) : State := ((linesOf ga n).foldl (fun s l => s.gather l) s).met ga n

/-- A read that must wait has come to its home: from when on the home holds requests is kept (R373). -/
def State.readHeld (s : State) (ga n : Nat) : State := if (s.charge ga n).isNone then s.holdHome ga else s

/-- Reads from `src` performed in one step, one after another: the state after them, or the address at which one waits. -/
def State.readAll (s : State) (src : Nat) : List (Nat × Nat) → Except Nat State
  | [] => .ok s
  | (ga, n) :: rest => if readWaits s src ga n then .error ga else (s.readDone ga n).readAll src rest

/-- The home of the words of a core's scratchpad. -/
def spadHome (pl : Nat) : Nat := homeOf (scratchGa pl 0)

/-- Whether a reduction line is one of a core's scratchpad, reached through the aperture. -/
def RedLine.onSpad (l : RedLine) (pl : Nat) : Bool := homeOf (l.line * 64) == spadHome pl

/-- Whether a copy of a reduction line of a core's scratchpad is held by a core or on its way (R141, R349). -/
def spadReduced (s : State) (pl : Nat) : Bool :=
  (s.cores.any fun (c : Nat × Core) => c.2.redLines.any (·.onSpad pl)) ||
    s.net.any fun m => match m.body with | .combine l => !l.els.isEmpty && l.onSpad pl | _ => false

/-- The words of a core's scratchpad as an engine reads them: every copy of their reduction lines combined (R133, R349). -/
def State.spadSeen (s : State) (pl : Nat) : State :=
  if !spadReduced s pl then s
  else
    ((s.net.filterMap fun m => match m.body with | .combine l => if l.onSpad pl then some l.line else none | _ => none) ++
        (s.cores.map fun (c : Nat × Core) => (c.2.redLines.filter (·.onSpad pl)).map (·.line)).flatten).foldl (fun s l => s.gather l) s

end Sys2Proof.Machine
end

