-- ==== Sys2Proof/Machine/Translate.lean ====
section
/-! DEFINITION. Translation of virtual addresses (R344 to R348): the table walk, the TLBs and the walkers' caches, the
checks. -/

namespace Sys2Proof.Machine

/-- What an access needs (R346). -/
inductive Access where
  | read | write | exec
  deriving DecidableEq, Repr

/-- The outcome of a walk: a leaf, or a fault (cause, detail) with the poisoned table entry it met. -/
inductive Walk where
  | ok (e : TlbEntry)
  | fault (code detail : Nat) (bad : Option Nat)
  deriving DecidableEq, Repr

/-- Canonical: bits 63:56 equal bit 55 (R122). -/
def canonical (va : Word) : Bool :=
  va.extractLsb' 55 9 == 0 || va.extractLsb' 55 9 == BitVec.allOnes 9

/-- The offset bits below the index of a level (R344). -/
def levelBits (level : Nat) : Nat := 16 + 10 * (4 - level)

/-- The address bits of a table entry (R345). -/
def leafBase (e : Word) : Nat := field e 13 31 * 2 ^ 13

/-- The address of the entry of a table for an address. -/
def entryGa (dev level t : Nat) (va : Word) : Nat := gaOf dev t + 8 * (va.toNat / 2 ^ levelBits level % 1024)

/-- The levels of a walk from `level` on; `fuel` counts the levels left. -/
def walkFrom (s : State) (dev asid : Nat) (va : Word) : Nat → Nat → Nat → Walk
  | 0, _, _ => .fault 5 4 none
  | fuel + 1, level, t =>
    let bits := levelBits level
    let ga := entryGa dev level t va
    let e : Word := BitVec.ofNat 64 (readNat s ga 8)
    if s.bad ga then .fault 5 5 (some ga)
    else if !e.getLsbD 0 then .fault 5 1 none
    else if field e 7 6 ≠ 0 ∨ field e 44 20 ≠ 0 then .fault 5 4 none
    else if !e.getLsbD 5 then
      if field e 1 4 ≠ 0 ∨ e.getLsbD 6 then .fault 5 4 none
      else if level = 4 then .fault 5 4 none
      else walkFrom s dev asid va fuel (level + 1) (leafBase e)
    else if e.getLsbD 2 && !e.getLsbD 1 then .fault 5 4 none
    else if level = 1 ∨ leafBase e % 2 ^ bits ≠ 0 then .fault 5 4 none
    else if rangeOf (leafBase e + va.toNat % 2 ^ bits) = .none then .fault 5 3 none
    else .ok { asid := asid, base := va.toNat / 2 ^ bits, bits := bits, leaf := e }

/-- The shed whose walker serves a place; for a service core it is shed 0 of its die (R348, R372, log 6). -/
def walkerOf (pl : Nat) : Nat :=
  devOf pl * 128 + (if coreOf pl < 768 then coreOf pl / 8 else 24 * (coreOf pl - 768))

/-- Whether a cached pointer is that of a table on the way to an address. -/
def Pointer.leadsTo (x : Pointer) (dev asid : Nat) (va : Word) : Bool :=
  x.dev == dev && x.asid == asid && x.upper == va.toNat / 2 ^ levelBits (x.level - 1)

/-- Where a walk of a place starts: at the deepest table that the walker caches (R348), else at the root. -/
def walkStart (s : State) (pl asid : Nat) (va : Word) : Option (Nat × Nat) :=
  let hits := (s.shed (walkerOf pl)).pointers.filter fun x => x.leadsTo (devOf pl) asid va
  match [4, 3, 2].findSome? fun n => hits.find? fun x => x.level == n with
  | some x => if (mget (s.space asid).roots (devOf pl)).isSome then some (x.level, x.table) else none
  | none => (mget (s.space asid).roots (devOf pl)).map fun root => (1, root)

/-- A walk for a place on its own device (R346); with no root the space has nothing there (R372). -/
def walk (s : State) (pl asid : Nat) (va : Word) : Walk :=
  if !canonical va then .fault 5 2 none
  else
    match walkStart s pl asid va with
    | none => .fault 5 1 none
    | some (level, t) => walkFrom s (devOf pl) asid va (5 - level) level t

/-- The tables that a walk reads, by level. -/
def tablesFrom (s : State) (dev asid : Nat) (va : Word) : Nat → Nat → Nat → List (Nat × Nat)
  | 0, _, _ => []
  | fuel + 1, level, t =>
    let e : Word := BitVec.ofNat 64 (readNat s (entryGa dev level t va) 8)
    (level, t) ::
      (if s.bad (entryGa dev level t va) || !e.getLsbD 0 || field e 1 6 != 0 || field e 7 6 != 0 || field e 44 20 != 0 then []
       else tablesFrom s dev asid va fuel (level + 1) (leafBase e))

/-- The tables, by level, that a walk for a place reads. -/
def walkTables (s : State) (pl asid : Nat) (va : Word) : List (Nat × Nat) :=
  if !canonical va then []
  else
    match walkStart s pl asid va with
    | none => []
    | some (level, t) => tablesFrom s (devOf pl) asid va (5 - level) level t

/-- The walker caches the pointers that a walk has followed: those of every table but its first (R348). -/
def State.cachePointers (s : State) (pl asid : Nat) (va : Word) (ts : List (Nat × Nat)) : State :=
  let new := (ts.drop 1).map fun x : Nat × Nat =>
    ({ dev := devOf pl, asid := asid, level := x.1, upper := va.toNat / 2 ^ levelBits (x.1 - 1), table := x.2 } : Pointer)
  if new.isEmpty then s
  else
    let w := s.shed (walkerOf pl)
    s.setShed (walkerOf pl) { w with pointers := (new.reverse ++ w.pointers).take 256 }

/-- What a walk leaves: its table reads are performed at their homes (R370), one after another, and the walker caches
their pointers (R348); or the address at which one must wait. -/
def State.walked (s : State) (pl asid : Nat) (va : Word) : Except Nat State :=
  let ts := walkTables s pl asid va
  match s.readAll pl (ts.map fun x => (entryGa (devOf pl) x.1 x.2 va, 8)) with
  | .error ga => .error ga
  | .ok s => .ok (s.cachePointers pl asid va ts)

/-- Whether a TLB entry maps an address of a space. -/
def TlbEntry.covers (e : TlbEntry) (asid : Nat) (va : Word) : Bool :=
  e.asid == asid && e.base == va.toNat / 2 ^ e.bits

/-- The physical address an entry gives. -/
def TlbEntry.pa (e : TlbEntry) (va : Word) : Nat := leafBase e.leaf + va.toNat % 2 ^ e.bits

/-- The checks of R346 on a leaf: none, or the detail of PROT. -/
def leafCheck (e : Word) (pa : Nat) (smode : Bool) (a : Access) : Option Nat :=
  let ok := match a with
    | .read => e.getLsbD 1
    | .write => e.getLsbD 2
    | .exec => e.getLsbD 3
  if !ok then some 3
  else if !smode && !e.getLsbD 4 then some 4
  else
    match rangeOf pa with
    | .control => some 5
    | .scratch _ => if smode then none else some 5
    | .hbm _ | .tier2 _ | .host | .none => none

/-- The outcome of a translation: a global address and its leaf, or cause and detail; or a read of the walk that must wait
at its home, so that the walk is made again (log 83). -/
inductive Xlate where
  | ok (ga : Nat) (leaf : Word)
  | fault (code detail : Nat)
  | wait
  deriving DecidableEq, Repr

/-- The leaf as checked. -/
def checked (dev : Nat) (e : TlbEntry) (va : Word) (smode : Bool) (a : Access) : Xlate :=
  match leafCheck e.leaf (e.pa va) smode a with
  | some d => .fault 6 d
  | none => .ok (gaOf dev (e.pa va)) e.leaf

/-- Translate for an engine of a place, as its walker finds it (R346, R372). -/
def xlateAt (s : State) (pl asid : Nat) (smode : Bool) (va : Word) (a : Access) : Xlate :=
  match walk s pl asid va with
  | .fault c d _ => .fault c d
  | .ok e => checked (devOf pl) e va smode a

/-- A poisoned table entry is counted at its home (R346). -/
def State.countMet (s : State) (w : Walk) : State :=
  match w with
  | .fault _ _ (some ga) => s.countHome ga 0
  | .fault _ _ none | .ok _ => s

/-- What a walk for the firmware leaves: its table reads are neither held nor charged (R373). -/
def State.firmWalked (s : State) (pl asid : Nat) (va : Word) : State :=
  let ts := walkTables s pl asid va
  ((ts.foldl (fun s x => s.firmRead (entryGa (devOf pl) x.1 x.2 va) 8) s).cachePointers pl asid va ts).countMet (walk s pl asid va)

/-- Translate for an engine of a place, with the reads of its walk: the state after them; an address at which one must
wait is met again later (log 83). -/
def xlateFor (s : State) (pl asid : Nat) (smode : Bool) (va : Word) (a : Access) : State × Xlate :=
  match s.walked pl asid va with
  | .error ga => (s.readHeld ga 8, .wait)
  | .ok t => (t.countMet (walk s pl asid va), xlateAt s pl asid smode va a)

/-- Translate at a memory port, with its translation cache of 64 entries (R348, R372). -/
def portXlate (s : State) (home pl asid : Nat) (smode : Bool) (va : Word) (a : Access) : State × Xlate :=
  if !canonical va then (s, .fault 5 2)
  else if (mget (s.space asid).roots (devOf pl)).isNone then (s, .fault 5 1)
  else
    match (s.home home).tlb.find? fun e => e.covers asid va with
    | some e => (s, checked (devOf pl) e va smode a)
    | none =>
      match walk s pl asid va, xlateFor s pl asid smode va a with
      | .ok e, (t, .ok ga leaf) => (t.modHome home fun h => { h with tlb := (e :: h.tlb).take 64 }, .ok ga leaf)
      | .ok e, (t, .fault c d) => (t.modHome home fun h => { h with tlb := (e :: h.tlb).take 64 }, .fault c d)
      | _, x => x

/-- The leaves that a core's two TLBs hold (R348). -/
def tlbSize : Nat := 2112

/-- Translate for a process of a place (R346): a TLB entry that covers the address is used; else the leaf
that the walk finds is entered, in place of the one entered first when the TLBs are full (R348, log 6). -/
def translate (s : State) (pl asid : Nat) (smode : Bool) (va : Word) (a : Access) : State × Xlate :=
  if !canonical va then (s, .fault 5 2)
  else
    match (s.core pl).tlb.find? fun e => e.covers asid va with
    | some e => (s, checked (devOf pl) e va smode a)
    | none =>
      match walk s pl asid va, xlateFor s pl asid smode va a with
      | .ok e, (t, .ok ga leaf) => (t.modCore pl fun c => { c with tlb := (e :: c.tlb).take tlbSize }, .ok ga leaf)
      | .ok e, (t, .fault c d) => (t.modCore pl fun c => { c with tlb := (e :: c.tlb).take tlbSize }, .fault c d)
      | _, x => x

/-- A leaf with POIS = 1 (R345). -/
def leafPois (e : Word) : Bool := e.getLsbD 6

/-- Whether a leaf, by its space, page and offset bits, covers an address of a space, or belongs to the space. -/
def viaOf (asid : Nat) (va : Option Word) (v : Nat × Nat × Nat) : Bool :=
  v.1 == asid && (match va with | none => true | some x => v.2.1 == x.toNat / 2 ^ v.2.2)

/-- Removes the read-only lines that a core has reached through leaves that an invalidation removes (R353). -/
def Core.dropLines (c : Core) (asid : Nat) (va : Option Word) : Core :=
  { c with roLines := c.roLines.filter fun l => !l.2.via.any (viaOf asid va) }

/-- Removes the TLB entries that cover an address of a space, or all of the space (R279), and the read-only lines
reached through them (R353). -/
def Core.dropTlb (c : Core) (asid : Nat) (va : Option Word) : Core :=
  { c.dropLines asid va with
    tlb := c.tlb.filter fun e => !(e.asid == asid && (match va with | none => true | some x => e.covers asid x)) }

end Sys2Proof.Machine
end

