-- ==== Sys2Proof/Machine/Sched.lean ====
section
/-! DEFINITION. The scheduler of a core (R293 to R307): ready queues, slots, context records (R30, R31),
the overflow ring, waking, giving up a slot and halting. -/

namespace Sys2Proof.Machine

/-- Appends to ready queue `q`, at its head or tail (R302). -/
def Core.enq (c : Core) (q k : Nat) (head : Bool) : Core :=
  let l := (c.ready[q]?).getD []
  { c with ready := c.ready.setIfInBounds q (if head then k :: l else l ++ [k]) }

/-- Removes a process from every ready queue. -/
def Core.deq (c : Core) (k : Nat) : Core := { c with ready := c.ready.map fun l => l.filter (· != k) }

/-- The ready order: descending EFF, then position (R299). -/
def Core.readyOrder (c : Core) : List Nat := c.ready.toList.reverse.flatten

/-- Frees the slot a process holds. -/
def Core.unslot (c : Core) (k : Nat) : Core :=
  { c with slots := c.slots.map fun o => if o = some k then none else o }

/-- Whether a process has its context in the context store. -/
def Proc.resident (p : Proc) : Bool := p.spilled.isNone

/-- Makes a process READY at the head or tail of the queue of its EFF (R302). -/
def State.enqueue (s : State) (k : Nat) (head : Bool) : State :=
  match mget s.procs k with
  | none => s
  | some p =>
    (s.setProc k { p with run := .ready }).modCore (placeOf k) fun c => (c.deq k).enq p.eff k head

/-- The first free slot. -/
def freeSlot (c : Core) : Option Nat := c.slots.toList.findIdx? (·.isNone)

/-- Loads the first resident process of the ready order into a free slot, while there are both
(R300): EFF becomes BASE and the quantum starts (R305, R307). -/
def State.load (s : State) (pl : Nat) : Nat → State
  | 0 => s
  | fuel + 1 =>
    let c := s.core pl
    match freeSlot c, c.readyOrder.find? fun k => (match mget s.procs k with | none => false | some p => p.resident) with
    | some i, some k =>
      match mget s.procs k with
      | none => s
      | some p =>
        let p := { p.setEff p.prioBase with run := .running i, slotSince := s.timeb, quantSince := s.timeb }
        ((s.setProc k p).setCore pl { c.deq k with slots := c.slots.setIfInBounds i (some k) }).load pl fuel
    | _, _ => s

/-- The processes in the slots of a core. -/
def slotProcs (s : State) (c : Core) : List Proc := c.slots.toList.filterMap fun o => o.bind fun k => mget s.procs k

/-- The slot of lowest EFF, the one loaded longest ago on a tie, then the lowest number (R305). -/
def lowestSlot (s : State) (c : Core) : Option (Nat × Proc) :=
  c.slots.toList.foldl (fun best o =>
    match o with
    | none => best
    | some k =>
      match mget s.procs k with
      | none => best
      | some p =>
        match best with
        | none => some (k, p)
        | some (_, b) =>
          if p.eff < b.eff ∨ (p.eff = b.eff ∧ p.slotSince < b.slotSince) then some (k, p) else best) none

/-- Whether the EFF of a resident READY process exceeds that of every one of the 8 slots, all occupied (R305). -/
def outranked (s : State) (c : Core) : Bool :=
  c.slots.toList.all (·.isSome) &&
    c.readyOrder.any fun k =>
      match mget s.procs k with
      | none => false
      | some r => r.resident && (slotProcs s c).all fun p => decide (p.eff < r.eff)

/-- Priority pre-emption of the lowest slot (R305). The halt falls at the next PREEMPTION_HALT; one that the quantum
of the same slot has asked for becomes it (R307), and while another slot is about to be halted none is added. -/
def State.outrank (s : State) (pl : Nat) : State :=
  let c := s.core pl
  if !outranked s c then s
  else
    match lowestSlot s c with
    | none => s
    | some (v, p) =>
      if p.haltReq = 0 && (slotProcs s c).any fun r => r.haltReq != 0 then s else s.setProc v { p with haltReq := 1 }

/-- A core has a free slot and no READY process (R308). -/
def Core.idle (c : Core) : Bool := c.slots.toList.any (·.isNone) && c.readyOrder.isEmpty

/-- The watchdog clocks of a core run while it holds a READY or held process of their queue (R403). -/
def State.watch (s : State) (pl : Nat) : State :=
  let keys := ((s.procsAt pl).filter fun e =>
    (s.space e.2.asid).wdog.getLsbD 0 && e.2.kind == .normal && (e.2.run == .ready || e.2.held)).map fun e =>
      e.2.asid * 16 + e.2.prioBase
  s.modCore pl fun c =>
    { c with wdog := keys.foldl (fun m i => mset m i ((mget c.wdog i).getD (s.timeb, 0))) [] }

/-- The watchdog clocks of a space on every core, as its limits have been written (R54, R403). -/
def State.watchSpace (s : State) (asid : Nat) : State :=
  (s.procs.filter fun (e : Nat × Proc) => e.2.asid == asid).foldl (fun s e => s.watch (placeOf e.1)) s

/-- After a process became READY or a slot became free: load the slots, then test R305. -/
def State.settle (s : State) (pl : Nat) : State :=
  let s := ((s.load pl 8).outrank pl).watch pl
  s.modCore pl fun c => { c with idleSince := if c.idle then some (c.idleSince.getD s.timeb) else none }

/-- A fill that ends the wait of a process with a status word. -/
def endFill (p gen : Nat) (st : Word) : Fill :=
  { p := p, gen := gen, writes := [], el := none, ends := some st, cause := none, node := none }

/-- The PREEMPTs that wait for a process complete (R282). -/
def State.preempted (s : State) (k code : Nat) : State :=
  match mget s.procs k with
  | none => s
  | some p =>
    p.haltFor.foldl (fun s (w : Nat × Nat) =>
      s.post (placeOf k) (placeOf w.1) none (.fill (endFill w.1 w.2 (BitVec.ofNat 64 code))))
      (s.setProc k { p with haltFor := [] })

/-- Makes a process READY by creation, arrival, wake or a YIELD: tail of its queue, its clock restarted (R302, R306). A halt
asked for while it was in its slot is over, and the PREEMPTs that asked for one complete (R282, R294, R405). -/
def State.makeReady (s : State) (k : Nat) : State :=
  let s := ((s.modProc k fun p =>
    { p.setEff p.prioBase with readySince := s.timeb, hardSince := none, reported := false, haltReq := 0 }).enqueue k false)
  (s.preempted k stOk).settle (placeOf k)

/-- Wakes a BLOCKED process (R294). -/
def State.wake (s : State) (k : Nat) : State :=
  match mget s.procs k with
  | none => s
  | some p => if p.run = .blocked then s.makeReady k else s

/-- A RUNNING process leaves its slot in a wait and is BLOCKED (R304): the PREEMPTs that asked for it complete (R282). -/
def State.block (s : State) (k : Nat) : State :=
  ((s.modProc k fun p => { p with run := .blocked, blockedSince := s.timeb, haltReq := 0 }).modCore (placeOf k)
    fun c => (c.unslot k).deq k).settle (placeOf k) |>.preempted k stOk

/-- Takes a process out of slot and queues, HALTED (R294). -/
def State.park (s : State) (k : Nat) : State :=
  ((s.modProc k fun p => { p with run := .halted, haltReq := 0 }).modCore (placeOf k) fun c =>
    (c.unslot k).deq k).settle (placeOf k)

/-- Fields of a context record in the order of R30, up to the door table. -/
def Proc.recordHead (dev : Nat) (k : Nat) (p : Proc) : List Byte :=
  let w (x : Word) := leBytes 8 x.toNat
  w p.pc ++ w p.pstat ++ w p.numctl ++ w p.epol ++ w p.tmo ++ w p.tvec ++ w p.tcause ++ w p.tval ++ w p.tpc ++
    w p.tstat ++ w p.prior ++ w p.qnt ++ w p.feretry ++ w p.timecmp ++ w p.swapsq ++ w p.round ++
    (p.joins.toList.map fun j => leBytes 4 j.count.toNat ++ leBytes 2 j.canc.toNat ++ leBytes 2 j.flt.toNat).flatten ++
    leBytes 4 p.gFull.toNat ++ leBytes 4 p.vFull.toNat ++ List.replicate 8 0 ++ w (handleOf k p.gen) ++
    leBytes 8 (if p.tile || p.yard then p.usa - dev * 2 ^ 44 else 0) ++ List.replicate 64 0 ++
    (p.g.toList.map w).flatten ++ ((p.k.set 0 (BitVec.allOnes 64)).toList.map w).flatten ++ leBytes 8 p.rotor

/-- The door table of a process in the device's layout (R30, log 13). -/
def Proc.doorTable (k : Nat) (p : Proc) : List Byte :=
  (List.range 1024).map (Config.doorByte (handleOf k p.gen) (p.doors.map fun e => (e.1, e.2.chan, e.2.isSend)))

/-- The context record of a process (R30): 4 KiB. -/
def Proc.record (k : Nat) (p : Proc) : List Byte :=
  p.recordHead (keyDev k) k ++ List.replicate 432 0 ++
    leBytes 8 (Config.checkWord (placeOf k) (p.doorTable k)).toNat ++ p.doorTable k ++
    (p.v.toList.map fun x => leBytes 64 x.toNat).flatten

/-- Replaces bits of a register by those of a record where the mask is 1 (R31). -/
def maskIn (mask old new : Word) : Word := (old &&& ~~~mask) ||| (new &&& mask)

/-- A process as its record at `ga` now says (R31): registers follow the field rules of R37 to R54. A TIMECMP that has
changed there is written as R49 has it: EVPEND[24] then says whether TIMEB has reached it. -/
def Proc.reload (s : State) (ga : Nat) (p : Proc) : Proc :=
  let n (o z : Nat) : Nat := memNat s.mem (ga + o) z
  let w (o : Nat) : Word := BitVec.ofNat 64 (n o 8)
  let pstat := maskIn 0x07070030 p.pstat (w 0x008)
  { p with
    pc := w 0x000 &&& ~~~3#64
    pstat := if w 0x068 = p.timecmp then pstat else setBit pstat 24 (decide ((w 0x068).toNat ≤ s.timebOf (gaDev ga)))
    numctl := w 0x010 &&& 0xF
    epol := w 0x018 &&& 0xFFFFFFFFFF
    tmo := w 0x020
    tvec := w 0x028 &&& ~~~3#64
    tcause := w 0x030 &&& 0xFFFF01FF
    tval := w 0x038
    tpc := w 0x040 &&& ~~~3#64
    tstat := w 0x048 &&& 0x707
    prior := setField p.prior 0 4 (min (field (w 0x050) 0 4) 11)
    qnt := BitVec.ofNat 64 (max 1000 (n 0x058 4))
    feretry := w 0x060 &&& 0xFF
    timecmp := w 0x068
    swapsq := setField (w 0x070 &&& 0x801F1F03) 8 5 (min 23 (field (w 0x070) 8 5))
    round := w 0x078 &&& 0xFFFFFFFF
    joins := Vector.ofFn fun i =>
      { count := BitVec.ofNat 32 (n (0x080 + 8 * i.val) 4), canc := BitVec.ofNat 16 (n (0x084 + 8 * i.val) 2),
        flt := BitVec.ofNat 16 (n (0x086 + 8 * i.val) 2) }
    gFull := BitVec.ofNat 32 (n 0x0A0 4)
    vFull := BitVec.ofNat 32 (n 0x0A4 4)
    usa := if p.tile || p.yard then p.usa / 2 ^ 44 * 2 ^ 44 + n 0x0B8 8 else 0
    g := Vector.ofFn fun i => if i.val = 0 then 0 else w (0x100 + 8 * i.val)
    k := Vector.ofFn fun i => if i.val = 0 then 0 else w (0x200 + 8 * i.val)
    rotor := n 0x240 8 % 64
    v := Vector.ofFn fun i => BitVec.ofNat 512 (n (0x800 + 64 * i.val) 64) }

/-- Whether the check word of the record at `ga` matches its door table (R31, log 13). -/
def recordChecks (s : State) (k ga : Nat) (p : Proc) : Bool :=
  memBytes s.mem (ga + 0x400) 1024 == p.doorTable k &&
    memNat s.mem (ga + 0x3F8) 8 == (Config.checkWord (placeOf k) (p.doorTable k)).toNat

/-- The global address of record `slot` in the overflow ring of a space on a core (R298). -/
def ringGa (s : State) (pl asid slot : Nat) : Option Nat :=
  match mget (s.core pl).ovring asid with
  | none => none
  | some (base, _) =>
    match xlateAt s pl asid true (base + BitVec.ofNat 64 (4096 * slot)) .write with
    | .ok ga _ => some ga
    | .fault _ _ | .wait => none

/-- The entries of a door table as its bytes show them. -/
def Proc.tableDoors (p : Proc) : List (Nat × Nat × Bool) := p.doors.map fun e => (e.1, e.2.chan, e.2.isSend)

/-- Writes what changed of the record of a spilled process: its registers, and the door table with a new check word
only where a door changed (R19, R31). -/
def State.updateRecord (s : State) (k : Nat) (old p : Proc) (slot : Nat × Nat) : State :=
  match ringGa s (placeOf k) slot.1 slot.2 with
  | none => s
  | some ga =>
    let s := (s.putBytes ga (p.recordHead (keyDev k) k)).putBytes (ga + 0x800) (p.v.toList.map fun x => leBytes 64 x.toNat).flatten
    if old.tableDoors = p.tableDoors then s
    else s.putBytes (ga + 0x3F8) (leBytes 8 (Config.checkWord (placeOf k) (p.doorTable k)).toNat ++ p.doorTable k)

/-- Writes the record of a spilled process at its ring slot (R299). -/
def State.putRecord (s : State) (k : Nat) (p : Proc) (slot : Nat × Nat) : State :=
  match ringGa s (placeOf k) slot.1 slot.2 with
  | none => s
  | some ga => s.putBytes ga (p.record k)

/-- A process as it stands: a spilled one as its record says (R19, R31). -/
def State.live (s : State) (k : Nat) : Option Proc :=
  match mget s.procs k with
  | none => none
  | some p =>
    match p.spilled with
    | none => some p
    | some slot =>
      match ringGa s (placeOf k) slot.1 slot.2 with
      | none => some p
      | some ga => some (p.reload s ga)

/-- Replaces a process by what it has become, in its ring record too while it is spilled (R19). -/
def State.putProc (s : State) (k : Nat) (old q : Proc) : State :=
  match q.spilled with
  | none => s.setProc k q
  | some slot => (s.setProc k q).updateRecord k old q slot

/-- Changes a process, in its ring record too if it is spilled (R19). -/
def State.modLive (s : State) (k : Nat) (f : Proc → Proc) : State :=
  match s.live k with
  | none => s
  | some p =>
    s.putProc k p (f p)

/-- Resident processes of a core, the reserved ones apart (R26, log 21). -/
def State.residents (s : State) (pl : Nat) : List (Nat × Proc) :=
  (s.procsAt pl).filter fun e => e.2.resident && e.2.kind == .normal

/-- The lowest-numbered free slot of the overflow ring (R298). -/
def freeRing (s : State) (pl asid : Nat) : Option Nat :=
  let n := match mget (s.core pl).ovring asid with | none => 0 | some (_, r) => r
  (List.range n).find? fun i => !((s.procsAt pl).any fun e => e.2.spilled == some (asid, i))

/-- The victim of R299: a BLOCKED resident process of lowest BASE, blocked longest; else the resident
READY process last in the ready order. -/
def spillVictim (s : State) (pl : Nat) : Option (Nat × Proc) :=
  let rs := s.residents pl
  let b := (rs.filter fun e => e.2.run == .blocked).foldl (fun best e =>
    match best with
    | none => some e
    | some o =>
      if e.2.prioBase < o.2.prioBase ∨ (e.2.prioBase = o.2.prioBase ∧ e.2.blockedSince < o.2.blockedSince)
      then some e else best) (none : Option (Nat × Proc))
  match b with
  | some e => some e
  | none =>
    match (s.core pl).readyOrder.reverse.find? (fun k => rs.any (·.1 == k)) with
    | none => none
    | some k => rs.find? (·.1 == k)

/-- What a spill needs: the slot and address, or the counter that says why not (R299). -/
inductive SpillRoom where
  | ok (slot : Nat)
  | full
  | unmapped (slot : Nat)
  deriving DecidableEq, Repr

/-- Room for a record in the overflow ring of a space (R298, R299); a core whose port is out of service spills nothing (R455). -/
def spillRoom (s : State) (pl asid : Nat) : SpillRoom :=
  if (mget (s.device (devOf pl)).parts (2 * 4096 + coreOf pl)).any (fun x => !x.inService) then .full
  else
  match freeRing s pl asid with
  | none => .full
  | some i =>
    match ringGa s pl asid i with
    | none => .unmapped i
    | some _ => .ok i

/-- Whether the core holds no context for another process. -/
def contextsFull (s : State) (pl : Nat) : Bool := decide (32 ≤ (s.residents pl).length)

/-- Spills a process to a ring slot (R299). -/
def State.spill (s : State) (k slot : Nat) : State :=
  match mget s.procs k with
  | none => s
  | some p =>
    let q := { p with spilled := some (p.asid, slot) }
    (s.setProc k q).putRecord k q (p.asid, slot)

/-- Whether the newly arriving process of priority `prio` itself goes to the ring, or which victim does
(R299): the last READY process stands ahead of it if its EFF is at least `prio`. -/
inductive SpillPlan where
  | none
  | self (slot : Nat)
  | victim (k slot : Nat)
  | cannot (asid : Nat) (why : SpillRoom)
  deriving DecidableEq, Repr

def spillPlan (s : State) (pl asid prio : Nat) : SpillPlan :=
  if !contextsFull s pl then .none
  else
    let own := match spillRoom s pl asid with
      | .ok i => SpillPlan.self i
      | r => .cannot asid r
    match spillVictim s pl with
    | some (k, p) =>
      if p.run = .blocked ∨ p.eff < prio then
        match spillRoom s pl p.asid with
        | .ok i => .victim k i
        | r => .cannot p.asid r
      else own
    | none => own

/-- Removes a process from slot and queues before it ends or moves. -/
def State.detach (s : State) (k : Nat) : State :=
  s.modCore (placeOf k) fun c => (c.unslot k).deq k

/-- Completes a halt at an instruction boundary (R406, R407): a wait stays and blocks the process; a stall
is withdrawn and the process is READY. -/
def State.leaveSlot (s : State) (k : Nat) (head : Bool) : State :=
  match mget s.procs k with
  | none => s
  | some p =>
    if p.wait.isSome then s.block k
    else
      (((s.setProc k { p with stall := none, haltReq := 0, readySince := s.timeb }).detach k).enqueue k head).settle
        (placeOf k)

/-- The lowest free process-table entry, or the highest for a reserved process (log 21). -/
def freeEntry (s : State) (pl : Nat) (top : Bool) : Option Nat :=
  let used := (s.procsAt pl).map fun e => e.1 % 4096
  (List.range 4096).map (fun i => if top then 4095 - i else i) |>.find? fun e => !used.contains e

/-- The next generation of an entry (R25). -/
def nextGen (g : Nat) : Nat := if g ≥ 0x3FFFFFFF then 1 else g + 1

end Sys2Proof.Machine
end

