-- ==== Sys2Proof/Machine/Ends.lean ====
section
/-! DEFINITION. Closing and poisoning the ends of channels (R162, R166), fault messages (R400, R401), the
scratchpad and unit areas of a core (R28, R155), and the end of a process (R153, R154, R399). These
operations post messages; what the messages do is said by the steps that deliver them. -/

namespace Sys2Proof.Machine

/-- The place where a record is (R320). -/
def recordPlace (x : Chan) : Option Nat :=
  match x.recv with
  | .proc p _ _ => some (placeOf p)
  | .server pl => some pl
  | .service dev => some (dev * 1024 + 768)
  | .hostEp _ | .coll _ _ | .gone => none

/-- Whether a channel is the supervisor fault door of a space (R22). -/
def isFaultChan (s : State) (c : Nat) : Bool := s.spaces.any fun e => e.2.live && e.2.faultChan == c

/-- The source of an entry sent on a door: a fault door has many send ends, each with a number of its own (R22). -/
def sendAgent (s : State) (e : Door) : Nat := if isFaultChan s e.chan then 2 ^ 36 + e.fid else agentSend e.chan

/-- The send end of a process on a channel. -/
def Proc.sendDoor (p : Proc) (c : Nat) : Door :=
  ((p.doors.find? fun d => d.2.isSend && d.2.chan == c).map (·.2)).getD { chan := c, isSend := true, bindCap := false, marks := 0 }

/-- The processes in a wait for CREDIT on a channel (R325). -/
def creditWaiters (s : State) (c : Nat) : List (Nat × Proc) :=
  s.procs.filter fun e =>
    match e.2.wait with
    | some { kind := .credit x _ _, .. } => x == c
    | _ => false

/-- The bytes that an allocation takes of the memory granted to a space: whole 4 KiB blocks (log 17). -/
def grantSize (n : Nat) : Nat := (n + 4095) / 4096 * 4096

/-- Gives bytes back to the memory granted to a space (R28, R326, R358). -/
def State.giveBack (s : State) (asid ga n : Nat) : State :=
  if n = 0 then s
  else
    let x := s.space asid
    s.setSpace asid { x with spare := x.spare ++ [(ga, grantSize n)] }

/-- The bytes of the staging slots of a channel (R326). -/
def Chan.stageBytes (x : Chan) : Nat := if x.typ = .tile then x.cap * x.rows * x.rowb else 0

/-- Removes the record of a channel and frees its staging slots (R166, R326). -/
def State.dropChan (s : State) (c : Nat) : State :=
  match mget s.chans c with
  | none => s
  | some x => ({ s with chans := mdel s.chans c } : State).giveBack x.asid x.stage (if x.stage = 0 then 0 else x.stageBytes)

/-- Frees a channel whose ends are both closed (R166). -/
def State.freeChan (s : State) (c : Nat) : State :=
  match mget s.chans c with
  | none => s
  | some x => if x.rclosed && x.send == .gone then s.dropChan c else s

/-- Bytes as 64-bit words, and back (R8). -/
def packWords : List Byte → List Word
  | [] => []
  | a :: b :: c :: d :: e :: f :: g :: h :: r => BitVec.ofNat 64 (leNat [a, b, c, d, e, f, g, h]) :: packWords r
  | x :: r => [BitVec.ofNat 64 (leNat (x :: r))]
def unpackWords (ws : List Word) : List Byte := (ws.map fun w => leBytes 8 w.toNat).flatten

/-- The bytes of a tile of a channel (R164). -/
def Chan.tileBytes (x : Chan) : Nat := x.rows * x.rowb

/-- The staging slot of a sequence number: a collective unit has its own SRAM, in CAP slots for each input (R326, R432). -/
def stageOf (s : State) (x : Chan) (seq : Nat) : List Byte :=
  match x.recv with
  | .coll b role =>
    exactly x.tileBytes ((mget (((mget s.colls b).map (·.sram)).getD []) (role * 64 + seq % x.cap)).getD [])
  | .proc _ _ _ | .hostEp _ | .server _ | .service _ | .gone => memBytes s.mem (x.stage + seq % x.cap * x.tileBytes) x.tileBytes

/-- Writes a tile into its staging slot (R326, R432). -/
def State.putStage (s : State) (x : Chan) (seq : Nat) (bs : List Byte) : State :=
  match x.recv with
  | .coll b role =>
    (match mget s.colls b with
     | none => s
     | some y => { s with colls := mset s.colls b { y with sram := mset y.sram (role * 64 + seq % x.cap) bs } })
  | .proc _ _ _ | .hostEp _ | .server _ | .service _ | .gone =>
    let ga := x.stage + seq % x.cap * x.tileBytes
    (s.putBytes ga bs).fillWords ga bs.length

/-- The bytes of a process's region of a tile channel, from an offset aligned down to the element (R171). -/
def regionOff (x : Chan) (off : Nat) : Nat :=
  let e := match x.ety with | none => 1 | some t => t.bytes
  off - off % e

/-- The copy path of the sender of a tile starts (R323): what its region holds now goes to the receiver. -/
def State.copyTile (s : State) (c : Nat) (x : Chan) (k : Nat) (p : Proc) (r : RecvOp) : State :=
  let off := match p.wait with
    | some { kind := .offer _ (some o), .. } => o
    | _ => 0
  let s := s.spadSeen (placeOf k)
  s.post (placeOf k) (placeOf r.p) none
    (.tileLanded c k p.gen (some r)
      { words := packWords (spadBytes s k p (regionOff x off) x.tileBytes), nan1 := p.wait.elim p.nan1 (·.nan), seq := x.nextr })

/-- Closes a send end: the close travels behind the items already sent (R166). The closing of one send
end of a fault door leaves its other send ends (log 22). -/
def State.closeSend (s : State) (c : Nat) : State :=
  match mget s.chans c with
  | none => s
  | some x =>
    if isFaultChan s c then s
    else if x.rclosed then s.dropChan c
    else
      let s := if x.typ = .window ∨ x.sstate = .poisoned then s else s.post (agentSend c) (agentChan c) none (.close c)
      s.setChan c { x with send := .gone, sstate := if x.sstate = .poisoned then .poisoned else .closed }

/-- Places an error token behind the items already sent (R162). The end of a process leaves its send ends of fault doors,
which its fault message may still use (R399, log 22). -/
def State.poisonSend (s : State) (c : Nat) : State :=
  match mget s.chans c with
  | none => s
  | some x =>
    if isFaultChan s c then s
    else if x.sstate ≠ .opened then s
    else (s.setChan c { x with sstate := .poisoned }).post (agentSend c) (agentChan c) none (.token c)

/-- POISON of a send end at a door (R162): one of many of a fault door closes alone, and its token stands behind its own
items (R22). -/
def State.poisonDoor (s : State) (k d : Nat) (e : Door) : State :=
  if !isFaultChan s e.chan then s.poisonSend e.chan
  else if e.poisoned then s
  else
    (s.modProc k fun p => { p with doors := mset p.doors d { e with poisoned := true } }).post (sendAgent s e) (agentChan e.chan)
      none (.token e.chan)

/-- Where the acknowledgement of an offer goes: to the process that waits for it, else, as for the items of a to-device
endpoint (R442), to the send end. -/
def offerFrom (c p gen : Nat) : Nat := if gen = 0 then agentSend c else placeOf p

/-- Acknowledges the offers of a queue with a status. -/
def State.ackOffers (s : State) (c code : Nat) : List Entry → State
  | [] => s
  | .offer _ p gen :: r =>
    (s.post (agentChan c) (offerFrom c p gen) none (.ack c p gen code)).ackOffers c code r
  | .tileOffer p gen _ :: r =>
    (s.post (agentChan c) (offerFrom c p gen) none (.ack c p gen code)).ackOffers c code r
  | .item _ :: r => s.ackOffers c code r
  | .marker :: r => s.ackOffers c code r
  | .token :: r => s.ackOffers c code r
  | .lost _ :: r => s.ackOffers c code r
  | .close :: r => s.ackOffers c code r

/-- Withdraws the window of an end; waiting pushes meet the end again and are refused (R328). -/
def State.withdraw (s : State) (c : Nat) : State :=
  match mget s.chans c with
  | none => s
  | some x =>
    (s.setChan c { x with win := .withdrawn, pend := [] } |>
      (x.pend.foldl fun s p => s.post (agentSend c) (agentChan c) none (.winPush p)))

/-- Whether pushes that the window's end has accepted still wait for their stamps (R168). -/
def Chan.landing (x : Chan) : Bool := x.stamps.any (·.ga.isSome)

/-- Whether a message is a push toward a channel. -/
def Msg.pushes (m : Msg) (c : Nat) : Bool := match m.body with | .winPush p => p.chan == c | _ => false

/-- Whether pushes toward a window are in flight or wait for their stamps (R153 step 2). -/
def pushesOn (s : State) (c : Nat) : Bool :=
  (mget s.chans c).any Chan.landing || s.net.any (·.pushes c) ||
    s.links.any fun (l : Nat × Link) => l.2.queue.any fun e => e.msg.pushes c

/-- The accepted pushes of a window that goes at once have landed without their stamps: their nodes finish. -/
def State.landed (s : State) (c : Nat) (x : Chan) : State :=
  x.stamps.foldl (fun s (t : Stamp) =>
    match t.ga, t.node with
    | some _, some (pl, id) => s.post (agentChan c) pl none (.nodeDone pl (id % 64) (id / 64) stOk false)
    | _, _ => s) (s.modChan c fun y => { y with stamps := y.stamps.filter (·.ga.isNone) })

/-- Tells the holder of a send end, if it waits in an ALT, that its peer has closed (R161, R331). -/
def State.tellSender (s : State) (c : Nat) (h : Holder) : State :=
  match h with
  | .proc k gen _ =>
    (match (s.byOwn k gen).bind (·.wait) with
     | some { kind := .alt _, .. } => s.post (agentChan c) (placeOf k) none (.ack c k gen stClosed)
     | _ => s)
  | .hostEp _ | .server _ | .coll _ _ | .service _ | .gone => s

/-- Closes a receive end (R166, R321, R328): offers and senders waiting see CLOSED, the queue and the
window go. -/
def State.closeRecv (s : State) (c : Nat) : State :=
  match mget s.chans c with
  | none => s
  | some x =>
    let s := (s.landed c x).withdraw c
    let s := s.modChan c fun y =>
      { y with q := [], held := [], rwait := none, rflag := false, rclosed := true, recv := .gone, moving := false }
    let s := s.tellSender c x.send
    let s := s.ackOffers c stClosed (x.q ++ x.held)
    let s := (creditWaiters s c).foldl
      (fun s e => s.post (agentChan c) (placeOf e.1) none (.ack c e.1 e.2.gen stClosed)) s
    s.freeChan c

/-- The words of a fault message (R400). -/
def faultWords (code detail source : Nat) (async : Bool) (handle tval tpc : Word) (time : Nat)
    (pstat round tstat : Word) : List Word :=
  [BitVec.ofNat 64 (code + (if async then 256 else 0) + source * 512 + detail % 65536 * 65536), handle, tval,
   tpc, BitVec.ofNat 64 time, pstat, round &&& 0xFFFFFFFF, tstat]

/-- The items of a fault message from sequence number `n` on. -/
def HeldFault.entries (m : HeldFault) (n : Nat) : List Item :=
  (List.range m.items.length).map fun i => { words := m.items.getD i [], nan1 := false, seq := (n + i) % 2 ^ 32 }

/-- Tries to send a fault message on a channel as a SEND that no process waits for (R401): none when the
channel must be waited for. The items of a deadlock report travel together (R318). -/
def State.tryFault (s : State) (pl : Nat) (m : HeldFault) : Option State :=
  match mget s.chans m.chan with
  | none => some (s.countCore pl 10)
  | some x =>
    if x.rclosed then some (s.countCore pl 10)
    else if x.cap = 0 then
      if x.rflag && x.q.isEmpty then
        some (s.post m.src (agentChan m.chan) none
          (.offer m.chan (.offer { words := m.items.headD [], nan1 := false, seq := x.nexts } 0 0)))
      else none
    else if x.credit < m.items.length then none
    else
      let s := s.setChan m.chan { x with credit := x.credit - m.items.length, nexts := (x.nexts + m.items.length) % 2 ^ 32 }
      some (if m.report then s.post m.src (agentChan m.chan) none (.deadlock m.chan (m.entries x.nexts))
        else (m.entries x.nexts).foldl (fun s i => s.post m.src (agentChan m.chan) none (.item m.chan i)) s)

/-- Sends a fault message, or holds it: a core holds up to 64 (R401). -/
def State.faultSend (s : State) (pl : Nat) (m : HeldFault) : State :=
  let held := (s.core pl).faultMsgs
  let keep (s : State) : State :=
    if held.length < 64 then s.modCore pl fun k => { k with faultMsgs := held ++ [m] } else s.countCore pl 10
  if held.any (fun e => e.chan == m.chan) then keep s
  else
    match s.tryFault pl m with
    | some s => s
    | none => keep s

/-- A fault message on d62 of a process, from the send end that its own items come from (R22, R401). -/
def State.faultOn62 (s : State) (k : Nat) (p : Proc) (ws : List Word) : State :=
  match mget p.doors 62 with
  | some d =>
    if d.isSend && !d.poisoned then s.faultSend (placeOf k) { chan := d.chan, src := sendAgent s d, items := [ws], report := false }
    else s.countCore (placeOf k) 10
  | none => s.countCore (placeOf k) 10

/-- The core itself as a sender of fault messages. -/
def coreSender (pl : Nat) : Nat := 2 ^ 37 + pl

/-- A fault message of a core to the supervisor fault door of a space. -/
def State.faultToSpace (s : State) (pl asid : Nat) (ws : List Word) : State :=
  s.faultSend pl { chan := (s.space asid).faultChan, src := coreSender pl, items := [ws], report := false }

/-- Whether a block of 2^log bytes at `base` is free in the scratchpad of a core. -/
def blockFree (s : State) (pl base log : Nat) : Bool :=
  let disjoint (b l : Nat) : Bool := l == 0 || decide (base + 2 ^ log ≤ b ∨ b + 2 ^ l ≤ base)
  ((s.procsAt pl).all fun e => disjoint e.2.spBase e.2.splog) &&
    ((s.core pl).retained.all fun r => disjoint r.base r.log)

/-- The lowest free aligned block of 2^log bytes (log 21). -/
def freeBlock (s : State) (pl log : Nat) : Option Nat :=
  if log = 0 then some 0
  else ((List.range (2 ^ 19 / 2 ^ log)).map (· * 2 ^ log)).find? fun b => blockFree s pl b log

/-- Whether a process of a core holds a unit save area. -/
def areaUsed (s : State) (pl a : Nat) : Bool := (s.procsAt pl).any fun e => (e.2.tile || e.2.yard) && e.2.usa == a

/-- A free unit save area of the pool of a space on a core (R28). -/
def freeArea (s : State) (pl asid : Nat) : Option Nat :=
  ((mget (s.core pl).unitPool asid).getD []).find? fun a => !areaUsed s pl a

/-- Writes `n` zero bytes and sets their words full (R152, R355). -/
def State.zero (s : State) (ga n : Nat) : State :=
  { s with mem := s.mem.filter fun c => !(decide (ga ≤ c.1) && decide (c.1 < ga + n))
           empties := s.empties.filter fun w => !(decide (ga ≤ 8 * w) && decide (8 * w < ga + n)) }

/-- How a process ends (R154). -/
inductive End where
  | normal | cancelled | faulted | killed
  deriving DecidableEq, Repr

/-- A node's entry is free, or held by no process once DETACHED (R222). -/
def Node.detach (n : Node) : Node :=
  match n.st with
  | .done => { n with live := false }
  | .waiting | .launched => { n with detached := true, waiters := [] }

/-- Whether a CMU command word names ring `i` of the core with index `c` in its shed (R227). -/
def namesRing (cmd : Word) (c i : Nat) : Bool :=
  field cmd 12 5 == c + 8 * i || field cmd 17 5 == c + 8 * i

/-- The CMU nodes at the heads of the queues of a shed that name a ring meet its reset (R214). -/
def State.ringReset (s : State) (pl i : Nat) : State :=
  let base := pl - pl % 8
  (List.range 8).foldl (fun s q =>
    let heads : List QEntry := ((s.shed (devOf pl * 128 + coreOf pl / 8)).queues[q]?).getD []
    match heads with
    | .node n :: _ =>
      s.modCore (base + q) fun c =>
        match mget c.nodes n with
        | none => c
        | some x =>
          if x.kind == .cmu && namesRing x.cmd (pl % 8) i then { c with nodes := mset c.nodes n { x with reset := true } } else c
    | _ => s) s

/-- Unconfigures a ring: every waiting RRES returns CLOSED (R214). -/
def State.unring (s : State) (pl i : Nat) : State :=
  match ((s.core pl).rings[i]?).getD none with
  | none => s
  | some r =>
    let s := (s.ringReset pl i).modCore pl fun c => { c with rings := c.rings.setIfInBounds i none }
    r.waiters.foldl (fun s w =>
      s.post pl (placeOf w.1) none (.fill (endFill w.1 w.2 (BitVec.ofNat 64 stClosed)))) s

/-- Answers a supervisor's ECALL: g1 and g2 (R276). -/
def svcFill (p gen st : Nat) (g2 : Word) : Fill :=
  { p := p, gen := gen, writes := [.g 1 (BitVec.ofNat 64 st), .g 2 g2], el := none, ends := some 0, cause := none,
    node := none }

/-- Answers a request of a supervisor; the firmware's own need no answer. -/
def State.tell (s : State) (pl : Nat) (r : SupReq) (st : Nat) (g2 : Word) : State :=
  if r.gen = 0 then s else s.post pl (placeOf r.p) none (.fill (svcFill r.p r.gen st g2))

/-- The parts of a core that a process holds are released without a save (R153 step 3, R399 step 3). -/
def State.releaseUnits (s : State) (k gen : Nat) : State :=
  let pl := placeOf k
  let s := s.modCore pl fun c =>
    let own := c.yardOwner = some k
    { c with
      tileOwner := if c.tileOwner = some k then none else c.tileOwner
      yardOwner := if own then none else c.yardOwner
      yard := if own then Yard.empty else c.yard
      displaced := c.displaced.filter (· != k)
      nodes := c.nodes.map fun e => if e.2.live && e.2.owner == k && e.2.ogen == gen then (e.1, e.2.detach) else e }
  (List.range 4).foldl (fun s i =>
    match ((s.core pl).rings[i]?).getD none with
    | none => s
    | some r => if r.owner = k ∧ r.ogen = gen then s.unring pl i else s) s

/-- Whether an entry is the offer of a process. -/
def Entry.isOfferOf (e : Entry) (k gen : Nat) : Bool :=
  match e with
  | .offer _ p g => p == k && g == gen
  | .tileOffer p g _ => p == k && g == gen
  | .item _ | .marker | .token | .lost _ | .close => false

/-- Whether a message is an offer, a receive or a halo push that a process waits for. -/
def Msg.waitedBy (m : Msg) (k gen : Nat) : Bool :=
  match m.body with
  | .offer _ e => e.isOfferOf k gen
  | .recv _ r => r.p == k && r.gen == gen
  | .winPush p => p.waiter.any fun w => w.1 == k && w.2.1 == gen
  | .fill f => f.inv.isSome && f.p == k && f.gen == gen
  | _ => false

/-- The tiles of a process that ends which their records have already matched (R321): the copy of each starts now, while
the region stands. -/
def State.copyMatched (s : State) (k : Nat) (p : Proc) : State :=
  let go (m : Msg) : Option (Nat × RecvOp) :=
    match m.body with
    | .tileGo c q g r => if q = k ∧ g = p.gen then some (c, r) else none
    | _ => none
  let gos := s.net.filterMap go ++ (s.links.map fun (l : Nat × Link) => l.2.queue.filterMap fun e => go e.msg).flatten
  gos.foldl (fun s g => match mget s.chans g.1 with | none => s | some x => s.copyTile g.1 x k p g.2)
    { s with
      net := s.net.filter fun m => (go m).isNone
      links := s.links.map fun (l : Nat × Link) => (l.1, { l.2 with queue := l.2.queue.filter fun e => (go e.msg).isNone }) }

/-- Withdraws what a process that ends has offered, asked for or pushed in an instruction it waits in (R175): nothing of it
moves any more. The status CANCELLED that R175 gives such a wait has no register left to go to: it goes nowhere (log 99). -/
def State.withdrawOf (s : State) (k gen : Nat) : State :=
  let mine (e : Entry) : Bool := e.isOfferOf k gen
  { s with
    net := s.net.filter fun m => !m.waitedBy k gen
    links := s.links.map fun (l : Nat × Link) => (l.1, { l.2 with queue := l.2.queue.filter fun e => !e.msg.waitedBy k gen })
    hostEps := s.hostEps.map fun (e : Nat × HostEp) => (e.1, { e.2 with pend := e.2.pend.filter fun o => !mine o })
    chans := s.chans.map fun (c : Nat × Chan) =>
      (c.1, { c.2 with q := c.2.q.filter (fun e => !mine e), held := c.2.held.filter (fun e => !mine e)
                       pend := c.2.pend.filter fun q => !q.waiter.any fun w => w.1 == k && w.2.1 == gen }) }

/-- Ends one process (R153, R154, R399): its ends close or are poisoned, `msg` goes to d62, its units,
allocation, context and entry are freed, its parent's join counter is told. `keep`: EXIT.R keeps the
allocation. -/
def State.endOne (s : State) (k : Nat) (how : End) (msg : Option (List Word)) (keep : Bool) : State :=
  match mget s.procs k with
  | none => s
  | some p =>
    let pl := placeOf k
    let s := ((s.detach k).copyMatched k p).withdrawOf k p.gen
    let s := p.doors.foldl (fun s d =>
      if d.2.isSend then
        if how = .normal then s.closeSend d.2.chan
        else
          let s := if (mget s.chans d.2.chan).any (·.typ == .window) then s else s.poisonSend d.2.chan
          s.closeSend d.2.chan
      else s.closeRecv d.2.chan) s
    let s := match msg with
      | none => s
      | some ws => s.faultOn62 k p ws
    let s := s.releaseUnits k p.gen
    let s := { s with homes := s.homes.map fun (h : Nat × Home) =>
      (h.1, { h.2 with parked := h.2.parked.filter fun r => !(r.own.p == k && r.own.gen == p.gen) }) }
    let s := p.haltFor.foldl (fun s w =>
      s.post pl (placeOf w.1) none (.fill (endFill w.1 w.2 (BitVec.ofNat 64 stClosed)))) s
    let s := p.sup.foldl (fun s r => if r.halted && r.target.isNone then s else s.tell pl r stClosed 0) s
    let s := { s with procs := mdel s.procs k }
    let s := if keep || p.splog == 0 then s else s.zero (scratchGa pl p.spBase) (2 ^ p.splog)
    let s := if p.parent = 0 then s
      else
        let kind := match how with
          | .normal => 0
          | .cancelled => 1
          | .faulted | .killed => 2
        s.post pl (placeOf (handleKey p.parent)) none (.childEnd p.parent p.join kind)
    s.settle pl

/-- The inbox of a space on a core ends with the last process of the space there (R337); the messages that wait in it go
with it (log 85). -/
def State.endInbox (s : State) (pl asid : Nat) : State :=
  if (s.procsAt pl).any fun e => e.2.asid == asid && e.2.kind == .normal then s
  else
    ((s.procsAt pl).filter fun e => e.2.asid == asid && e.2.kind == .inbox).foldl
      (fun s e => s.endOne e.1 .normal none false) (s.modCore pl fun c => { c with inbox := mdel c.inbox asid })

/-- Ends a process, and with the last one of its space on its core the inbox (R153, R154, R337, R399). -/
def State.endProc (s : State) (k : Nat) (how : End) (msg : Option (List Word)) (keep : Bool) : State :=
  match mget s.procs k with
  | none => s
  | some p => (s.endOne k how msg keep).endInbox (placeOf k) p.asid

end Sys2Proof.Machine
end

