-- ==== Sys2Proof/Machine/Ops.lean ====
section
/-! DEFINITION. Taking an exception and returning from one (R396 to R402, R277); fills and the end of a
wait (R16, R19, R137); and the issue of an instruction with its checks (R17, R18, R84, R361). -/

namespace Sys2Proof.Machine

/-- Whether an access of the process is not yet performed (R359), of a kind that `f` selects. -/
def outstanding (s : State) (k gen : Nat) (f : Own → Body → Bool) : Bool :=
  (s.net.any fun m => match m.own with | none => false | some o => o.p == k && o.gen == gen && f o m.body) ||
    (s.homes.any fun (h : Nat × Home) => h.2.parked.any fun r => r.own.p == k && r.own.gen == gen && f r.own (.atomic r))

/-- Leaves the instruction in place to issue again (R17, R18, R361); a stall of the same kind keeps its
clock and deadline. -/
def State.stallOn (s : State) (k : Nat) (p : Proc) (kind : StallKind) (deadline : Option Nat) (yard : Bool := false) : State :=
  match p.stall with
  | some x =>
    if x.kind = kind then s
    else s.setProc k { p with stall := some { kind := kind, since := s.cycle, deadline := deadline, yard := yard } }
  | none => s.setProc k { p with stall := some { kind := kind, since := s.cycle, deadline := deadline, yard := yard } }

/-- The watchdog clock of the queue of a process returns to 0 as one of its instructions retires (R403). -/
def State.clocked (s : State) (k : Nat) (p : Proc) : State :=
  let c := s.core (placeOf k)
  match mget c.wdog (p.asid * 16 + p.prioBase) with
  | none => s
  | some _ => s.setCore (placeOf k) { c with wdog := mset c.wdog (p.asid * 16 + p.prioBase) (s.timeb, 0) }

/-- PC and NEXT word addresses of a routine's return point. -/
def returnPoint : Word := Config.returnWord ++ 0#2

/-- TSTAT as trap entry writes it (R397). -/
def newTstat (p : Proc) (ext : Bool) : Word :=
  BitVec.ofNat 64 (field p.pstat 0 2 + (if ext then 4 else 0) + p.evmask * 256)

/-- A reserved process waits for its next request (R142, R337); a halt asked for meanwhile is over (R282, R405). -/
def State.idleRoutine (s : State) (k : Nat) : State :=
  let s := (s.modProc k fun p => { p with run := .blocked, wait := none, stall := none, serving := none, haltReq := 0 }).detach k
  (s.preempted k stOk).settle (placeOf k)

/-- A trap in a routine ends it (R142, R338). -/
def State.endRoutine (s : State) (k : Nat) (p : Proc) (code detail : Nat) (val pc : Word) (ext : Bool) : State :=
  let pl := placeOf k
  match p.serving with
  | none => s
  | some (q, gen, reg) =>
    let deleg := p.kind == .deleg
    let ws := faultWords code detail (if deleg then 1 else 2) false (handleOf q gen) val pc (s.timebOf (keyDev k)) p.pstat
      p.round (newTstat p ext)
    let s := (s.countCore pl (if deleg then 6 else 8)).faultToSpace pl p.asid ws
    let s := if deleg then
        s.post pl (placeOf q) none (.fill { (endFill q gen 0) with writes := [.g reg 0], ends := none })
      else s
    s.idleRoutine k

/-- Freezing (R399): the process ends as faulted, with its fault message. -/
def State.freeze (s : State) (k : Nat) (p : Proc) (code detail : Nat) (val pc : Word) (async ext : Bool) : State :=
  s.endProc k .faulted
    (some (faultWords code detail 0 async (handleOf k p.gen) val pc (s.timebOf (keyDev k)) p.pstat p.round (newTstat p ext)))
    false

/-- Makes a spilled process resident: its registers are those of its record; a door table that fails its check
freezes it (R31). Where the page of the record no longer translates, the spec is silent: the process keeps the registers
its core last knew, and nothing is checked (log 79). -/
def State.unspill (s : State) (k : Nat) : State :=
  match mget s.procs k with
  | none => s
  | some p =>
    match p.spilled with
    | none => s
    | some (a, i) =>
      match ringGa s (placeOf k) a i with
      | none => s.setProc k { p with spilled := none }
      | some ga =>
        let q := { p.reload s ga with spilled := none }
        if recordChecks s k ga p then s.setProc k q
        else (s.setProc k q).freeze k q 0x0A 1 0 q.pc false false

/-- Swaps a spilled process with a resident one, whose record goes to the slot it leaves (R301); with no victim the
process just becomes resident. -/
def State.swapIn (s : State) (k : Nat) (victim : Option Nat) : State :=
  match (mget s.procs k).bind (·.spilled) with
  | none => s
  | some slot =>
    let s := s.unspill k
    match victim.bind fun v => (mget s.procs v).map fun q => (v, q) with
    | none => s
    | some (v, q) =>
      let q := { q with spilled := some slot }
      (s.setProc v q).putRecord v q slot

/-- Takes a process out of slot and queues, HALTED, with its context in the context store (R293). -/
def State.parkIn (s : State) (k : Nat) : State :=
  (s.swapIn k (if contextsFull s (placeOf k) then (spillVictim s (placeOf k)).map (·.1) else none)).park k

/-- A process halts for the requests of supervisors that are due (R288, R453): the halts are answered, a stall is
withdrawn. -/
def State.haltFor (s : State) (k : Nat) (due : SupReq → Bool) : State :=
  match mget s.procs k with
  | none => s
  | some p =>
    let now := p.sup.filter fun r => due r && !r.halted
    if now.isEmpty then s
    else
      let stay := p.run == .halted
      let p := { p with stall := none, reported := false
                        sup := p.sup.map fun r => if due r && !r.halted then { r with halted := true, stay := stay } else r }
      let s := now.foldl (fun s r => if r.target.isNone then s.tell (placeOf k) r stOk 0 else s) (s.setProc k p)
      (s.preempted k stOk).parkIn k

/-- Holding under the compatibility watchdog (R402): the process has left its slot, as a PREEMPT asked (R282). -/
def State.hold (s : State) (k : Nat) (p : Proc) (code detail : Nat) (val pc : Word) (async ext : Bool) : State :=
  let q := { p with
    tcause := BitVec.ofNat 64 (code + (if async then 256 else 0) + detail % 65536 * 65536)
    tval := val, tpc := pc, tstat := newTstat p ext, pc := pc, held := true, stall := none
    readySince := s.timeb }
  let s := (s.putProc k p q).faultOn62 k q
    (faultWords code detail 3 async (handleOf k p.gen) val pc (s.timebOf (keyDev k)) p.pstat p.round (newTstat p ext))
  (s.parkIn k).preempted k stOk

/-- The EVPEND bit of an event cause. -/
def eventBit (code : Nat) : Option Nat :=
  if code = 0x18 then some 24 else if code = 0x19 then some 25 else if code = 0x1A then some 26 else none

/-- Whether the timer level holds for a process of a core on a device (R49). -/
def timerLevel (s : State) (dev : Nat) (p : Proc) : Bool := decide (p.timecmp.toNat ≤ s.timebOf dev)

/-- Trap entry (R397): the saved registers, EVMASK, EVPEND and the mode, and the pc at TVEC. -/
def trapEntry (s : State) (dev : Nat) (p : Proc) (code detail : Nat) (val pc : Word) (async ext : Bool) : Proc :=
  let ps := setField (setField p.pstat 16 3 0) 0 2 1
  { p with
    tcause := BitVec.ofNat 64 (code + (if async then 256 else 0) + detail % 65536 * 65536)
    tval := val
    tpc := pc
    tstat := newTstat p ext
    pstat := match async, eventBit code with
      | true, some b => setBit ps b (b == 24 && timerLevel s dev p)
      | true, none => ps
      | false, _ => ps
    pc := p.tvec
    stall := none }

/-- TakeTrap (R397), with R14 and R402; a trap in a routine ends the routine (R142, R338). -/
def State.takeTrap (s : State) (k code detail : Nat) (val pc : Word) (async ext : Bool) : State :=
  match s.live k with
  | none => s
  | some p =>
    if p.kind ≠ .normal ∧ !async then s.endRoutine k p code detail val pc ext
    else if async && p.smode && p.evmask == 0 then s
    else if p.smode && !async then s.freeze k p code detail val pc async ext
    else if p.tvec = 0 then
      if async && (eventBit code).isSome then s
      else if (s.space p.asid).wdog.getLsbD 0 then s.hold k p code detail val pc async ext
      else s.freeze k p code detail val pc async ext
    else s.putProc k p (trapEntry s (keyDev k) p code detail val pc async ext)

/-- A synchronous trap at the current instruction. A routine or handler ends only when what it has issued is performed,
so that its effects come before its answer and before the next one (R142, R337). -/
def State.trap (s : State) (k : Nat) (p : Proc) (ext : Bool) (code detail : Nat) (val : Word) : State :=
  if p.kind != .normal && outstanding s k p.gen (fun _ _ => true) then s.stallOn k p .order none
  else (s.setProc k { p with stall := none }).takeTrap k code detail val p.pc false ext

/-- ERET (R277): PC, MODE and EVMASK from the trap registers. -/
def returnFromTrap (p : Proc) : Proc :=
  { p with
    pc := p.tpc
    pstat := setField (setField p.pstat 0 2 (if field p.tstat 0 2 = 0 then 0 else 1)) 16 3 (field p.tstat 8 3)
    stall := none }

/-- Whether a register is full. -/
def regFull (s : State) (k : Nat) (p : Proc) (r : RegRef) : Bool :=
  match r with
  | .g n => p.gOk n
  | .v n => p.vOk n
  | .m n =>
    let c := s.core (placeOf k)
    if c.tileOwner = some k then c.mFull.getLsbD n.toNat
    else (memGet s.mem (p.usa + 0x2900)).getLsbD n.toNat

/-- The register number and file as EMPTYREG reports them (R17). -/
def regCode (r : RegRef) : Word :=
  match r with
  | .g n => BitVec.ofNat 64 n.toNat
  | .v n => BitVec.ofNat 64 (32 + n.toNat)
  | .m n => BitVec.ofNat 64 (64 + n.toNat)

/-- The EPOL bit that governs reads of a register (R40). -/
def epolBit (p : Proc) (r : RegRef) : Bool :=
  match r with
  | .g n => p.epol.getLsbD n.toNat
  | .v n => p.epol.getLsbD n.toNat
  | .m n => p.epol.getLsbD (32 + n.toNat)

/-- The bytes of a tile, row 0 lowest (R32), and a tile from bytes. -/
def tileBytes (t : Tile) : List Byte := (t.toList.map fun r => leBytes 64 r.toNat).flatten
def memTile (s : State) (ga : Nat) : Tile := Vector.ofFn fun i => BitVec.ofNat 512 (memNat s.mem (ga + 64 * i.val) 64)

/-- Writes an m register and fills it: in the unit, or in the save area (R19). -/
def State.fillM (s : State) (k : Nat) (p : Proc) (n : BitVec 3) (val : Option Tile) : State :=
  let pl := placeOf k
  if (s.core pl).tileOwner = some k then
    s.modCore pl fun c =>
      { c with m := (match val with | none => c.m | some t => c.m.setIfInBounds n.toNat t)
               mFull := setBit c.mFull n.toNat true }
  else
    let s := match val with
      | none => s
      | some t => s.putBytes (p.usa + 1024 * n.toNat) (tileBytes t)
    s.putBytes (p.usa + 0x2900) [setBit (memGet s.mem (p.usa + 0x2900)) n.toNat true]

/-- What a fill does to a register (R16). -/
def State.regWrite (s : State) (k : Nat) (w : RegWrite) : State :=
  match w with
  | .g n x => s.modLive k fun p => p.wg n x
  | .v n x => s.modLive k fun p => p.wv n x
  | .m n t => (match mget s.procs k with | none => s | some p => s.fillM k p n (some t))
  | .keep (.g n) => s.modLive k fun p => p.fg n
  | .keep (.v n) => s.modLive k fun p => p.fv n
  | .keep (.m n) => (match mget s.procs k with | none => s | some p => s.fillM k p n none)

/-- Whether a POISONED status ends its process (R162). -/
def WaitKind.meetsToken (w : WaitKind) : Bool :=
  match w with
  | .recv _ | .alt _ | .copy _ => true
  | .offer _ _ | .credit _ _ _ | .monS _ _ _ | .home | .join _ | .spawn _ _ | .bind _ | .winclose _ | .halo _ _
  | .amsg _ _ | .rres _ _ | .matrix | .ystop _ | .wfe | .preempt _ | .tlbinv _ | .ecall | .load => false

/-- Counts the child of a SPAWN that returns OK (R152). -/
def Proc.counted (p : Proc) (w : WaitKind) (st : Word) : Proc :=
  match w with
  | .spawn _ j =>
    if st = 0 then
      { p with joins := p.joins.setIfInBounds j { ((p.joins[j]?).getD { count := 0, canc := 0, flt := 0 }) with
          count := ((p.joins[j]?).getD { count := 0, canc := 0, flt := 0 }).count + 1 } }
    else p
  | _ => p

/-- Ends the wait of a process with a status, and wakes it (R137, R294); POISONED under AUTOP ends the
process as cancelled (R162). -/
def State.finishWait (s : State) (k : Nat) (st : Word) : State :=
  match s.live k with
  | none => s
  | some p =>
    match p.wait with
    | none => s
    | some w =>
      if w.kind.meetsToken && st.toNat % 256 == stPoisoned && p.autop then s.endProc k .cancelled none false
      else
        ((s.modLive k fun p => { (p.counted w.kind st).wg w.status st with wait := none, reported := false, hardSince := none }).wake
          k).clocked k p

/-- Sets an EVPEND bit, which completes a WFE (R38, R281). -/
def State.setEvent (s : State) (k bit : Nat) : State :=
  let s := s.modLive k fun p => { p with pstat := setBit p.pstat bit true }
  match mget s.procs k with
  | none => s
  | some p =>
    match p.wait with
    | some { kind := .wfe, .. } => s.finishWait k 0
    | _ => s

/-- Ends a register stall whose register is full (R17, R18). -/
def State.unstall (s : State) (k : Nat) : State :=
  match s.live k with
  | none => s
  | some p =>
    match p.stall with
    | some { kind := .reg r, .. } =>
      if regFull s k p r then (s.modLive k fun p => { p with stall := none }).wake k else s
    | _ => s

/-- An element of a vector load arrives (R190, R191): with the last one the register is written, or keeps
its contents when a poisoned element must trap. -/
def State.fillEl (s : State) (k : Nat) (reg : BitVec 5) (e j data : Nat) (bad : Option Word) : State :=
  match s.live k with
  | none => s
  | some p =>
    match p.vfills.find? fun f => f.reg == reg with
    | none => s
    | some f =>
      let worse := match bad, f.poison with
        | some a, some (i, b) => if j < i then some (j, a) else some (i, b)
        | some a, none => some (j, a)
        | none, o => o
      let f' := { f with
        left := f.left - 1
        data := vBuild e (fun i => if i = j then data else getEl e f.data i)
        poison := worse }
      let rest := p.vfills.filter fun g => g.reg != reg
      if f'.left ≠ 0 then s.modLive k fun p => { p with vfills := f' :: rest }
      else
        match f.dropTrap, worse with
        | true, some (_, a) =>
          let at_ := match p.wait with | some w => (w.pc, w.ext) | none => (p.pc, false)
          ((s.modLive k fun p => { p.fv reg with vfills := rest, wait := none }).wake k).takeTrap k 7 1 a at_.1 false at_.2
        | _, _ =>
          let s := s.modLive k fun p => { p.wv reg f'.data with vfills := rest }
          if f.dropTrap then s.finishWait k 0 else s

/-- A fill lands (R19): in the registers, or in the record of a spilled process; one for a process that
has ended is counted and discarded (R153). -/
def State.applyFill (s : State) (pl : Nat) (f : Fill) : State :=
  match s.byOwn f.p f.gen with
  | none => s.countCore pl 9
  | some _ =>
    let s := f.writes.foldl (fun s w => s.regWrite f.p w) s
    let s := match f.el with
      | none => s
      | some (reg, e, j, data, bad) => s.fillEl f.p reg e j data bad
    let s := match f.node with
      | none => s
      | some (reg, id) => s.modLive f.p fun p =>
          { p with nwaits := p.nwaits.filter fun n => !(n.1 == reg && n.2 == id) }
    let s :=
      match f.cause with
      | none => (match f.ends with | none => s | some st => s.finishWait f.p st)
      | some c =>
        match s.live f.p with
        | none => s
        | some p =>
          let at_ := match p.wait with | some w => (w.pc, w.ext) | none => (p.pc, false)
          let s := match f.ends with
            | none => (s.modLive f.p fun p => { p with wait := none }).wake f.p
            | some st => s.finishWait f.p st
          s.takeTrap f.p c.code c.detail c.tval at_.1 false at_.2
    s.unstall f.p

/-- The kind of unit an instruction needs (R27). -/
inductive UnitReq where
  | none | tile | yard
  deriving DecidableEq, Repr

/-- How an instruction touches memory, scratchpad or an engine (R221, R361). -/
inductive Touch where
  | none | plain | acquire | release | both
  deriving DecidableEq, Repr

def Touch.acquires (t : Touch) : Bool := t == .acquire || t == .both
def Touch.releases (t : Touch) : Bool := t == .release || t == .both

/-- What an instruction asks of its process before its own description applies: the unit, the mode, its
sources in the order B, C, A and its destinations, its ordering, whether it orders without touching memory,
scratchpad or an engine itself (R221), whether it is an EXT pair, whether a
routine may run it, and its word for TVAL. -/
structure Need where
  /-- the scope within which it orders (R362). -/
  scope : Scope := .device
  /-- a FENCE: whether it waits for reads and for writes (R145). -/
  fence : Option (Bool × Bool) := none
  unit : UnitReq := .none
  needS : Bool := false
  srcs : List RegRef := []
  dsts : List RegRef := []
  touch : Touch := .none
  quiet : Bool := false
  /-- whether its release combines the lines of its scope (R354). -/
  lines : Bool := true
  /-- whether it ends its process. -/
  exits : Bool := false
  ext : Bool := false
  noRoutine : Bool := false
  word : IWord := 0

/-- Runs `f` with the process of the issuing slot. -/
def run (s : State) (f : Nat → Proc → State) : Out :=
  match mget s.procs s.cur with
  | none => .fault .noProcess
  | some p => .next (f s.cur p)

/-- Whether an address lies in host memory. -/
def isHost (ga : Nat) : Bool := rangeOf (gaPa ga) == .host

/-- Whether a scope of an instruction of a core covers the home of an address (R141, R362): the core itself, its shed, its
die, or the device. -/
def scopeCovers (sc : Scope) (pl ga : Nat) : Bool :=
  match sc, rangeOf (gaPa ga) with
  | .core, .hbm c | .core, .scratch c => c == coreOf pl
  | .shed, .hbm c | .shed, .scratch c => c / 8 == coreOf pl / 8
  | .die, .hbm c | .die, .scratch c => c / 192 == coreDie (coreOf pl)
  | .die, .tier2 d => d == coreDie (coreOf pl)
  | .device, _ | .system, _ => true
  | _, _ => false

/-- Whether a combine of the core, of a line whose home a scope covers, is not yet performed (R354). -/
def combining (s : State) (pl : Nat) (sc : Scope) : Bool :=
  s.net.any fun m => m.src == pl && (match m.body with | .combine l => scopeCovers sc pl (l.line * 64) | _ => false)

/-- Sends the reduction lines of a core that `f` selects toward their homes. -/
def State.combineIf (s : State) (pl : Nat) (f : RedLine → Bool) : State :=
  let ls := (s.core pl).redLines.filter f
  if ls.isEmpty then s
  else
    ls.foldl (fun s l => s.post pl (agentHome (homeOf (l.line * 64))) none (.combine l))
      (s.modCore pl fun c => { c with redLines := c.redLines.filter fun l => !f l })

/-- Whether a core holds reduction lines whose homes a scope covers. -/
def linesHeld (s : State) (pl : Nat) (sc : Scope) : Bool := (s.core pl).redLines.any fun l => scopeCovers sc pl (l.line * 64)

/-- Sends the reduction lines of a core whose homes a scope covers (R141, R354). -/
def State.combineAll (s : State) (pl : Nat) (sc : Scope) : State := s.combineIf pl fun l => scopeCovers sc pl (l.line * 64)

/-- A process issues: it has started, and its stall is over. A successor named by EXIT.R takes the retained allocation
with its first instruction, in place of its own (R155). -/
def State.start (s : State) (k : Nat) (p : Proc) : State × Proc :=
  let p := { p with stall := none }
  if p.started then (s.setProc k p, p)
  else
    let p := { p with started := true }
    match (s.core (placeOf k)).retained.find? fun r =>
        r.succ == k && r.gen == p.gen && r.log == p.splog && decide (s.timeb ≤ r.upTo) with
    | some r =>
      let q := { p with spBase := r.base }
      let s := s.modCore (placeOf k) fun c => { c with retained := c.retained.filter (· != r) }
      (s.setProc k q, q)
    | none => (s.setProc k p, p)

/-- Whether the instruction that process `p` began has trapped or is to issue again, so that it has had no effect: the
process has taken a trap, has ended by one (R399), or is held (R402), a routine has ended by one (R142), or it stalls. -/
def backsOff (t : State) (k : Nat) (p : Proc) (exits : Bool) : Bool :=
  match t.byOwn k p.gen with
  | none => !exits
  | some q =>
    q.held || (!p.smode && q.smode) || (p.serving.isSome && q.serving.isNone) ||
      (match q.stall with | some { kind := .order, .. } => true | _ => false)

/-- Whether the instruction that process `p` began has retired: the process goes on behind it, and does not wait in it
(R403). -/
def retires (t : State) (k : Nat) (p : Proc) : Bool :=
  !backsOff t k p false && (t.byOwn k p.gen).any fun q => q.wait.isNone && q.stall.isNone

/-- The watchdog clock after an instruction (R403). -/
def State.retired (t : State) (k : Nat) (p : Proc) : State := if retires t k p then t.clocked k p else t

/-- The first empty source (R84 step 4). -/
def emptySource (s : State) (k : Nat) (p : Proc) (rs : List RegRef) : Option RegRef :=
  rs.find? fun r => !regFull s k p r

/-- Whether a stall on this register has already sampled its EPOL bit (R17). -/
def sampled (p : Proc) (r : RegRef) : Bool :=
  match p.stall with
  | some x => x.kind == .reg r
  | none => false

/-- Whether an instruction touches memory, scratchpad or an engine (R221). -/
def Need.touches (nd : Need) : Bool := nd.touch != .none && !nd.quiet

/-- The POISON trap owed for a node that this instruction takes (R221, R222). -/
def owedTrap (p : Proc) (nd : Need) : Option (BitVec 5 × Nat × Bool) :=
  p.nodeTraps.find? fun t => t.2.2 || nd.touches || nd.srcs.contains (.g t.1)

/-- Whether a release or fence of a scope waits for an access: those to host memory are ordered only at SYSTEM scope and
by channels (R364). -/
def Body.within (b : Body) (sc : Scope) : Bool := match b with | .host _ _ _ _ _ _ => sc == .system | _ => true

/-- Whether an access in flight reads, and whether it writes (R145). -/
def Body.reads (b : Body) : Bool :=
  match b with
  | .read _ _ _ _ _ _ _ | .atomic _ | .refused _ => true
  | .host _ _ w _ _ _ => w.isNone
  | _ => false
def Body.writes (b : Body) : Bool :=
  match b with
  | .write _ _ _ | .atomic _ | .refused _ => true
  | .host _ _ w _ _ _ => w.isSome
  | _ => false

/-- Whether an engine that the process has started still reads for it (R145). -/
def engineReads (s : State) (k gen : Nat) : Bool :=
  (s.core (placeOf k)).nodes.any fun (n : Nat × Node) =>
    n.2.live && n.2.owner == k && n.2.ogen == gen && n.2.st == .launched

/-- Whether an instruction orders what its core has reduced: a release, or a FENCE with WR or WW (R141, R354). -/
def Need.combines (nd : Need) : Bool := (nd.touch.releases && nd.lines) || nd.fence.any (·.2)

/-- What a FENCE waits for (R145): the accesses of the kinds it names, and for WR or WW the combines of its scope. -/
def fenceWaits (s : State) (k : Nat) (p : Proc) (sc : Scope) (f : Bool × Bool) : Bool :=
  (f.1 && (outstanding s k p.gen (fun _ b => b.reads && b.within sc) || engineReads s k p.gen)) ||
    (f.2 && (outstanding s k p.gen (fun _ b => b.writes && b.within sc) || combining s (placeOf k) sc))

/-- The ordering an instruction waits for (R361): acquires before it; for an acquire, releases before it;
for a release, every access before it and the combines of the core; for a FENCE, what it names. -/
def mustWait (s : State) (k : Nat) (p : Proc) (nd : Need) : Bool :=
  (nd.touch != .none &&
    (outstanding s k p.gen (fun o _ => o.acq) ||
      (nd.touch.acquires && outstanding s k p.gen (fun o _ => o.rel)) ||
      (nd.touch.releases && (outstanding s k p.gen (fun _ b => b.within nd.scope) || combining s (placeOf k) nd.scope)))) ||
    nd.fence.any (fenceWaits s k p nd.scope)

/-- The empty source whose read traps EMPTYREG (R17, R108): the first one, in the order B, C, A, whose EPOL bit asks for
it, also behind a source that would stall. -/
def trapSource (s : State) (k : Nat) (p : Proc) (rs : List RegRef) : Option RegRef :=
  rs.find? fun r => !regFull s k p r && epolBit p r && !sampled p r

/-- Issue (R84): the checks and waits that come before an instruction's own description, then `body`,
which receives the state with the process issuing. An instruction that traps, or that must issue again, has no effect: what
it orders counts only for one that goes on. That one first sends the reduction lines of its scope home (R141, R354), and
waits until what it orders is performed (R361). The POISON trap owed for a node is taken after EMPTYREG and before the
checks of the body, DOOR, ALIGN and the rest: R84, R221, R222 and R396 do not place it among them (log 80). -/
def issue (nd : Need) (body : Nat → Proc → State → State) (s : State) : Out :=
  run s fun k p =>
    if (nd.unit = .tile ∧ !p.tile) ∨ (nd.unit = .yard ∧ !p.yard) then s.trap k p nd.ext 1 7 1
    else if nd.noRoutine && p.kind != .normal then s.trap k p nd.ext 1 2 (nd.word.setWidth 64)
    else if nd.needS && !p.smode then s.trap k p nd.ext 2 0 (nd.word.setWidth 64)
    else if nd.unit = .tile ∧ (s.core (placeOf k)).tileOwner ≠ some k then s.stallOn k p .tclaim none
    else
      match trapSource s k p nd.srcs, emptySource s k p nd.srcs with
      | some r, _ => s.trap k p nd.ext 3 0 (regCode r)
      | none, some r => s.stallOn k p (.reg r) none (nd.unit == .yard)
      | none, none =>
        match nd.dsts.find? fun r => !regFull s k p r with
        | some r => s.stallOn k p (.reg r) none (nd.unit == .yard)
        | none =>
          match owedTrap p nd with
          | some t =>
            s.trap k { p with nodeTraps := p.nodeTraps.filter (· != t) } nd.ext 7 2 (BitVec.ofNat 64 t.2.1)
          | none =>
            match nd.touches, p.nwaits with
            | true, w :: _ => s.stallOn k p (.reg (.g w.1)) none (nd.unit == .yard)
            | _, _ =>
              let (s₁, q) := s.start k p
              let t := body k q s₁
              if backsOff t k q nd.exits then t
              else if nd.combines && linesHeld s (placeOf k) nd.scope then (s.combineAll (placeOf k) nd.scope).stallOn k p .order none
              else if mustWait s k p nd then s.stallOn k p .order none
              else t.retired k q

/-- The end of an instruction: the process as it left it, at the next instruction. -/
def State.fin (s : State) (k : Nat) (p : Proc) : State := s.setProc k p.advance

/-- The next instruction after one of `ext`'s length. -/
def Proc.over (p : Proc) (ext : Bool) : Proc := { p with pc := p.pc + (if ext then 8 else 4) }

/-- A register instruction: sources, one g destination, a result. -/
def execG (srcs : List RegRef) (a : BitVec 5) (ext : Bool) (f : Proc → Word) (s : State) : Out :=
  issue { srcs := srcs, dsts := [.g a], ext := ext } (fun k p s => s.setProc k ((p.wg a (f p)).over ext)) s

/-- The process starts to wait in its instruction, which it has passed (R137). -/
def State.waitIn (s : State) (k : Nat) (p : Proc) (kind : WaitKind) (status : BitVec 5) (door : Nat)
    (deadline : Option Nat) : State :=
  s.setProc k { p.advance with
    wait := some { kind := kind, status := status, door := door, since := s.cycle, deadline := deadline, pc := p.pc, ext := false,
                   nan := p.nan1 } }

/-- Takes control to a target (R120): in a routine, the return point ends it once what it has issued is performed (R142,
R174, R337). -/
def State.jump (s : State) (k : Nat) (p : Proc) (target : Word) : State :=
  if p.kind ≠ .normal ∧ target = returnPoint then
    if outstanding s k p.gen (fun _ _ => true) then s.stallOn k p .order none
    else
    match p.serving with
    | some (q, gen, reg) =>
      let s := (s.setProc k p).clocked k p
      let s := if p.kind = .deleg then
          s.post (placeOf k) (placeOf q) none (.fill { (endFill q gen 0) with writes := [.g reg (p.rg 3)], ends := none })
        else s
      s.idleRoutine k
    | none => s.idleRoutine k
  else s.setProc k { p with pc := target }

end Sys2Proof.Machine
end

