-- ==== Sys2Proof/Machine/Operands.lean ====
section
/-! DEFINITION. Operand forms: immediates (R86, R87), sizes and offsets of loads and stores (R121), scratchpad
offsets (R132), addresses with their traps (R122, R346), and the requests that accesses send to a home. -/

namespace Sys2Proof.Machine

/-- Bytes(sz) of R121. -/
def ldBytes (z : LdSize) : Nat :=
  match z with
  | .b | .bn => 1
  | .h | .hn => 2
  | .w | .wn => 4
  | .d => 8

def stBytes (z : StSize) : Nat :=
  match z with
  | .b => 1
  | .h => 2
  | .w => 4
  | .d => 8

/-- Extend(d, sz) of R121. -/
def ldExtend (z : LdSize) (x : Nat) : Word :=
  match z with
  | .b => (BitVec.ofNat 8 x).signExtend 64
  | .h => (BitVec.ofNat 16 x).signExtend 64
  | .w => (BitVec.ofNat 32 x).signExtend 64
  | .d => BitVec.ofNat 64 x
  | .bn => BitVec.ofNat 64 (x % 2 ^ 8)
  | .hn => BitVec.ofNat 64 (x % 2 ^ 16)
  | .wn => BitVec.ofNat 64 (x % 2 ^ 32)

/-- A scaled offset of the short form, and of an EXT pair (R121). -/
def shortOff (o : BitVec 13) (n : Nat) : Word := o.signExtend 64 * BitVec.ofNat 64 n
def longOff (x : BitVec 26) (i : BitVec 16) (n : Nat) : Word :=
  ((x ++ i).extractLsb' 3 39).signExtend 64 * BitVec.ofNat 64 n

/-- The 42-bit immediate of an EXT pair (R87). -/
def extImm (x : BitVec 26) (i : BitVec 16) : Word := (x ++ i).signExtend 64

/-- ScratchOffset (R132): wrapped within the allocation and aligned down to the size. -/
def scratchOff (p : Proc) (base off : Word) (n : Nat) : Nat :=
  let o := (base + off).toNat % 2 ^ p.splog
  o - o % n

/-- The home agent of an address, and the one that serves an access of a place (R343). -/
def homeAgent (ga : Nat) : Nat := agentHome (homeOf ga)
def accessAgent (s : State) (pl ga : Nat) : Nat := agentHome (homeFor s pl ga)

/-- A process as owner of a message. -/
def ownOf (k : Nat) (p : Proc) (t : Touch) : Own :=
  { p := k, gen := p.gen, acq := t.acquires, rel := t.releases, asid := p.asid, smode := p.smode }

/-- Whether the process has a synchronised store to this word that is not performed (R361: accesses to a
common byte stay in order, even past a refusal). -/
def feWaits (s : State) (k gen ga : Nat) : Bool :=
  let hit (r : AtomReq) : Bool := r.own.p == k && r.own.gen == gen && r.ga / 8 == ga / 8
  (s.net.any fun m =>
    match m.body with
    | .atomic r => hit r
    | .refused r => hit r
    | _ => false) ||
    s.homes.any fun (h : Nat × Home) => h.2.parked.any hit

/-- Whether the process has any access to this line that is not performed. -/
def lineWaits (s : State) (k gen ga : Nat) : Bool :=
  s.net.any fun m =>
    match m.own with
    | none => false
    | some o =>
      o.p == k && o.gen == gen &&
        (match m.body with
         | .read a _ _ _ _ _ _ => a / 64 == ga / 64
         | .write a _ _ => a / 64 == ga / 64
         | .atomic r => r.ga / 64 == ga / 64
         | .refused r => r.ga / 64 == ga / 64
         | .host a _ _ _ _ _ => a / 64 == ga / 64
         | _ => true)

/-- A data access of a process (R122, R346): ALIGN, then XLATE or PROT, with TVAL the address; else `go`
with the global address and the leaf. An access that follows a synchronised store of the process to the
same word waits for it. -/
def State.access (s : State) (k : Nat) (p : Proc) (ext : Bool) (va : Word) (n : Nat) (a : Access)
    (go : State → Nat → Word → State) : State :=
  if va.toNat % n ≠ 0 then s.trap k p ext 4 0 va
  else
    match translate s (placeOf k) p.asid p.smode va a with
    | (s, .fault c d) => s.trap k p ext c d va
    | (s, .wait) => s.stallOn k p .order none
    | (s, .ok ga leaf) => if feWaits s k p.gen ga then s.stallOn k p .order none else go s ga leaf

/-- Whether a load through this leaf may be served from a read-only line (R352). -/
def readOnly (pl ga : Nat) (leaf : Word) : Bool :=
  !leaf.getLsbD 2 && !leafPois leaf &&
    (match rangeOf (gaPa ga) with
     | .hbm c => c != coreOf pl
     | .tier2 _ => true
     | .scratch _ | .host | .control | .none => false)

/-- The leaf through which an address of a space is reached: space, page and offset bits. -/
def viaLeaf (s : State) (pl asid : Nat) (va : Word) : Nat × Nat × Nat :=
  match (s.core pl).tlb.find? fun e => e.covers asid va with
  | some e => (asid, e.base, e.bits)
  | none => (asid, va.toNat / 65536, 16)

/-- The request of a read: host memory is reached through the service core (R343). -/
def readBody (s : State) (pl asid ga n : Nat) (leaf : Word) (t : Target) (va : Word) (drop : Bool) : Body :=
  match rangeOf (gaPa ga) with
  | .host => .host ga n none (some (t, va)) drop (leafPois leaf)
  | .hbm _ | .tier2 _ | .scratch _ | .control | .none =>
    .read ga n t va drop (leafPois leaf) (if readOnly pl ga leaf then some (pl, viaLeaf s pl asid va) else none)

/-- The request of a write. -/
def writeBody (ga : Nat) (bs : List Byte) (leaf : Word) : Body :=
  match rangeOf (gaPa ga) with
  | .host => .host ga bs.length (some bs) none false (leafPois leaf)
  | .hbm _ | .tier2 _ | .scratch _ | .control | .none => .write ga bs (leafPois leaf)

/-- Sends the reduction lines that a core holds of the line of an address toward its home, ahead of a store of the same
core (R361: accesses to a common byte stay in order). -/
def State.combineAt (s : State) (pl ga : Nat) : State :=
  s.combineIf pl fun l => l.line == ga / 64

/-- A read-only line has been reached through a leaf (R353). -/
def Core.reach (c : Core) (line : Nat) (v : Nat × Nat × Nat) : Core :=
  match mget c.roLines line with
  | none => c
  | some l => if l.via.contains v then c else { c with roLines := mset c.roLines line { l with via := v :: l.via } }

/-- Load (R122): the register is empty until the fill; under DROPTRAP nothing issues before it. -/
def State.loadGo (s : State) (k : Nat) (p : Proc) (ext : Bool) (a : BitVec 5) (z : LdSize) (va : Word)
    (t : Touch) : State :=
  let pl := placeOf k
  s.access k p ext va (ldBytes z) .read fun s ga leaf =>
    match (if readOnly pl ga leaf then mget (s.core pl).roLines (ga / 64) else none) with
    | some line =>
      (s.modCore pl fun c => c.reach (ga / 64) (viaLeaf s pl p.asid va)).setProc k
        ((p.wg a (ldExtend z (line.data.toNat >>> (8 * (ga % 64)) % 2 ^ (8 * (ldBytes z))))).over ext)
    | none =>
      let s := s.post pl (accessAgent s pl ga) (some (ownOf k p t)) (readBody s pl p.asid ga (ldBytes z) leaf (.g a z) va p.dropTrap)
      let q := (p.eg a).over ext
      if p.dropTrap then
        s.setProc k { q with
          wait := some { kind := .load, status := 0, door := 0, since := s.cycle, deadline := none, pc := p.pc, ext := ext, nan := p.nan1 } }
      else s.setProc k q

/-- Store (R123). -/
def State.storeGo (s : State) (k : Nat) (p : Proc) (ext : Bool) (a : BitVec 5) (z : StSize) (va : Word)
    (t : Touch) : State :=
  s.access k p ext va (stBytes z) .write fun s ga leaf =>
    ((s.combineAt (placeOf k) ga).post (placeOf k) (accessAgent s (placeOf k) ga) (some (ownOf k p t))
      (writeBody ga (leBytes (stBytes z) (p.rg a).toNat) leaf)).setProc k (p.over ext)

/-- An access to host memory that has no full/empty bits or atomics traps PROT with this detail (R128,
R139); otherwise `go`. -/
def State.notHost (s : State) (k : Nat) (p : Proc) (va : Word) (ga : Nat) (go : State) : State :=
  match rangeOf (gaPa ga) with
  | .host => s.trap k p false 6 1 va
  | .hbm _ | .tier2 _ | .scratch _ | .control | .none => go

/-- A request to the home of a word. -/
def atomReq (k : Nat) (p : Proc) (ga : Nat) (leaf va : Word) (op : AtomOp) (t : Touch) (retries : Nat)
    (deadline : Option Nat) : AtomReq :=
  { ga := ga, va := va, op := op, own := ownOf k p t, retries := retries, deadline := deadline,
    dropTrap := p.dropTrap, core := placeOf k, pois := leafPois leaf }

def State.sendAtom (s : State) (r : AtomReq) : State := s.post r.core (homeAgent r.ga) (some r.own) (.atomic r)

/-- The two results of RECV: in one register, they are a free value (log 24), written at issue. -/
def State.twoResults (s : State) (p : Proc) (a b : BitVec 5) : State × Proc × BitVec 5 × BitVec 5 :=
  if a = b ∧ a ≠ 0 then ({ s with free := s.free + 1 }, p.wg a (Config.freeWord s.free), 0, 0) else (s, p, a, b)

/-- A producer that fills later goes on; under DROPTRAP it waits for its fill (R122, R139). -/
def State.produced (s : State) (k : Nat) (p q : Proc) : State :=
  if p.dropTrap then
    s.setProc k { q.advance with
      wait := some { kind := .load, status := 0, door := 0, since := s.cycle, deadline := none, pc := p.pc, ext := false
                     nan := p.nan1 } }
  else s.setProc k q.advance

end Sys2Proof.Machine
end

