-- ==== Sys2Proof/Machine/Vector.lean ====
section
/-! DEFINITION. The vector instructions on registers: majors 0x1F to 0x24, 0x26 and 0x27 (R176 to R188, R195,
R196). -/

namespace Sys2Proof.Machine

/-- A vector instruction: sources, a v destination, its new contents (R177). -/
def vecTo (srcs : List RegRef) (a : BitVec 5) (f : Proc → VReg) (s : State) : Out :=
  issue { srcs := srcs, dsts := [.v a] } (fun k p s => s.fin k (p.wv a (f p))) s

/-- An element operation of one source, under a mask (R89, R176). -/
def vec1 (a b : BitVec 5) (k : BitVec 3) (ty : Ty) (f : NumMode → Nat → Nat) (s : State) : Out :=
  vecTo [.v b] a (fun p => vMasked ty.bytes (p.rk k) (p.rv a) fun j => f p.mode (getEl ty.bytes (p.rv b) j)) s

/-- Of two sources. -/
def vec2 (a b c : BitVec 5) (k : BitVec 3) (ty : Ty) (f : NumMode → Nat → Nat → Nat) (s : State) : Out :=
  vecTo [.v b, .v c] a (fun p => vMasked ty.bytes (p.rk k) (p.rv a) fun j =>
    f p.mode (getEl ty.bytes (p.rv b) j) (getEl ty.bytes (p.rv c) j)) s

/-- Of a source and a count in g (R181). -/
def vecCount (a b c : BitVec 5) (k : BitVec 3) (ty : Ty) (f : Nat → Nat → Nat) (s : State) : Out :=
  vecTo [.v b, .g c] a (fun p => vMasked ty.bytes (p.rk k) (p.rv a) fun j =>
    f (getEl ty.bytes (p.rv b) j) (p.rg c).toNat) s

/-- A fused multiply-add, which also reads its destination (R179). -/
def vecFma (sub : Bool) (a b c : BitVec 5) (k : BitVec 3) (ty : Ty) (s : State) : Out :=
  vecTo [.v b, .v c, .v a] a (fun p => vMasked ty.bytes (p.rk k) (p.rv a) fun j =>
    elFma sub ty p.mode (getEl ty.bytes (p.rv a) j) (getEl ty.bytes (p.rv b) j) (getEl ty.bytes (p.rv c) j)) s

/-- A compare (R182). -/
def vecCmp (a : BitVec 3) (b c : BitVec 5) (k : BitVec 3) (ty : Ty) (f : Bool → Nat → Nat → Bool) (s : State) : Out :=
  issue { srcs := [.v b, .v c] } (fun key p s =>
    s.fin key (p.wk a (maskBuild (elCount ty.bytes) fun j =>
      (p.rk k).getLsbD j && f p.nan1 (getEl ty.bytes (p.rv b) j) (getEl ty.bytes (p.rv c) j)))) s

/-- An operation on masks (R183). -/
def maskTo (a : BitVec 3) (f : Proc → Word) (s : State) : Out :=
  issue {} (fun k p s => s.fin k (p.wk a (f p))) s

/-- A reduction (R186). -/
def vecRed (a b : BitVec 5) (f : Proc → Word) (s : State) : Out := execG [.v b] a false f s

/-- A permute: element `j` of the result from its index (R188). -/
def vecPerm (srcs : List RegRef) (a : BitVec 5) (k : BitVec 3) (ty : Ty) (f : Proc → Nat → Nat) (s : State) : Out :=
  vecTo srcs a (fun p => vMasked ty.bytes (p.rk k) (p.rv a) (f p)) s

/-- VADD (R179). -/
def execVadd (a b c : BitVec 5) (k : BitVec 3) (ty : Ty) (s : State) : Out :=
  vec2 a b c k ty (elAdd ty) s

/-- VSUB (R179). -/
def execVsub (a b c : BitVec 5) (k : BitVec 3) (ty : Ty) (s : State) : Out :=
  vec2 a b c k ty (elSub ty) s

/-- VMUL (R179). -/
def execVmul (a b c : BitVec 5) (k : BitVec 3) (ty : Ty) (s : State) : Out :=
  vec2 a b c k ty (elMul ty) s

/-- VFMA (R179). -/
def execVfma (a b c : BitVec 5) (k : BitVec 3) (ty : Ty) (s : State) : Out :=
  vecFma false a b c k ty s

/-- VFMS (R179). -/
def execVfms (a b c : BitVec 5) (k : BitVec 3) (ty : Ty) (s : State) : Out :=
  vecFma true a b c k ty s

/-- VMIN (R180). -/
def execVmin (a b c : BitVec 5) (k : BitVec 3) (ty : Ty) (s : State) : Out :=
  vec2 a b c k ty (elMin ty) s

/-- VMAX (R180). -/
def execVmax (a b c : BitVec 5) (k : BitVec 3) (ty : Ty) (s : State) : Out :=
  vec2 a b c k ty (elMax ty) s

/-- VABS (R180). -/
def execVabs (a b : BitVec 5) (k : BitVec 3) (ty : Ty) (s : State) : Out :=
  vec1 a b k ty (fun _ => elAbs ty) s

/-- VNEG (R180). -/
def execVneg (a b : BitVec 5) (k : BitVec 3) (ty : Ty) (s : State) : Out :=
  vec1 a b k ty (fun _ => elNeg ty) s

/-- VADDS (R179). -/
def execVadds (a b c : BitVec 5) (k : BitVec 3) (ty : Ty) (s : State) : Out :=
  vec2 a b c k ty (fun _ => elAdds ty) s

/-- VSUBS (R179). -/
def execVsubs (a b c : BitVec 5) (k : BitVec 3) (ty : Ty) (s : State) : Out :=
  vec2 a b c k ty (fun _ => elSubs ty) s

/-- VMULH (R179). -/
def execVmulh (a b c : BitVec 5) (k : BitVec 3) (ty : Ty) (s : State) : Out :=
  vec2 a b c k ty (fun _ => elMulh ty) s

/-- VABSD (R179). -/
def execVabsd (a b c : BitVec 5) (k : BitVec 3) (ty : Ty) (s : State) : Out :=
  vec2 a b c k ty (fun _ => elAbsd ty) s

/-- VDIV (R179). -/
def execVdiv (a b c : BitVec 5) (k : BitVec 3) (ty : Ty) (s : State) : Out :=
  vec2 a b c k ty (elDiv ty) s

/-- VSQRT (R179). -/
def execVsqrt (a b : BitVec 5) (k : BitVec 3) (ty : Ty) (s : State) : Out :=
  vec1 a b k ty (elFn FVal.sqrt ty) s

/-- VAND (R181). -/
def execVand (a b c : BitVec 5) (k : BitVec 3) (ty : Ty) (s : State) : Out :=
  vec2 a b c k ty (fun _ x y => x &&& y) s

/-- VOR (R181). -/
def execVor (a b c : BitVec 5) (k : BitVec 3) (ty : Ty) (s : State) : Out :=
  vec2 a b c k ty (fun _ x y => x ||| y) s

/-- VXOR (R181). -/
def execVxor (a b c : BitVec 5) (k : BitVec 3) (ty : Ty) (s : State) : Out :=
  vec2 a b c k ty (fun _ x y => x ^^^ y) s

/-- VANDN (R181). -/
def execVandn (a b c : BitVec 5) (k : BitVec 3) (ty : Ty) (s : State) : Out :=
  vec2 a b c k ty (fun _ x y => x &&& elNot (8 * ty.bytes) y) s

/-- VNOT (R181). -/
def execVnot (a b : BitVec 5) (k : BitVec 3) (ty : Ty) (s : State) : Out :=
  vec1 a b k ty (fun _ => elNot (8 * ty.bytes)) s

/-- VSHL (R181). -/
def execVshl (a b c : BitVec 5) (k : BitVec 3) (ty : Ty) (s : State) : Out :=
  vec2 a b c k ty (fun _ => elShl (8 * ty.bytes)) s

/-- VSHR (R181). -/
def execVshr (a b c : BitVec 5) (k : BitVec 3) (ty : Ty) (s : State) : Out :=
  vec2 a b c k ty (fun _ => elShr (8 * ty.bytes)) s

/-- VSRA (R181). -/
def execVsra (a b c : BitVec 5) (k : BitVec 3) (ty : Ty) (s : State) : Out :=
  vec2 a b c k ty (fun _ => elSra ty) s

/-- VROL (R181). -/
def execVrol (a b c : BitVec 5) (k : BitVec 3) (ty : Ty) (s : State) : Out :=
  vec2 a b c k ty (fun _ => elRol (8 * ty.bytes)) s

/-- VSHLG (R181). -/
def execVshlg (a b c : BitVec 5) (k : BitVec 3) (ty : Ty) (s : State) : Out :=
  vecCount a b c k ty (elShl (8 * ty.bytes)) s

/-- VSHRG (R181). -/
def execVshrg (a b c : BitVec 5) (k : BitVec 3) (ty : Ty) (s : State) : Out :=
  vecCount a b c k ty (elShr (8 * ty.bytes)) s

/-- VSRAG (R181). -/
def execVsrag (a b c : BitVec 5) (k : BitVec 3) (ty : Ty) (s : State) : Out :=
  vecCount a b c k ty (elSra ty) s

/-- VROLG (R181). -/
def execVrolg (a b c : BitVec 5) (k : BitVec 3) (ty : Ty) (s : State) : Out :=
  vecCount a b c k ty (elRol (8 * ty.bytes)) s

/-- VCLZ (R181). -/
def execVclz (a b : BitVec 5) (k : BitVec 3) (ty : Ty) (s : State) : Out :=
  vec1 a b k ty (fun _ => clzN (8 * ty.bytes)) s

/-- VPOPC (R181). -/
def execVpopc (a b : BitVec 5) (k : BitVec 3) (ty : Ty) (s : State) : Out :=
  vec1 a b k ty (fun _ => popN (8 * ty.bytes)) s

/-- VCTZ (R181). -/
def execVctz (a b : BitVec 5) (k : BitVec 3) (ty : Ty) (s : State) : Out :=
  vec1 a b k ty (fun _ => ctzN (8 * ty.bytes)) s

/-- VCMP.EQ (R182). -/
def execVcmpEq (a : BitVec 3) (b c : BitVec 5) (k : BitVec 3) (ty : Ty) (s : State) : Out :=
  vecCmp a b c k ty (elEq ty) s

/-- VCMP.NE (R182). -/
def execVcmpNe (a : BitVec 3) (b c : BitVec 5) (k : BitVec 3) (ty : Ty) (s : State) : Out :=
  vecCmp a b c k ty (fun m x y => !(elEq ty m x y)) s

/-- VCMP.LT (R182). -/
def execVcmpLt (a : BitVec 3) (b c : BitVec 5) (k : BitVec 3) (ty : Ty) (s : State) : Out :=
  vecCmp a b c k ty (elLt ty) s

/-- VCMP.LE (R182). -/
def execVcmpLe (a : BitVec 3) (b c : BitVec 5) (k : BitVec 3) (ty : Ty) (s : State) : Out :=
  vecCmp a b c k ty (fun m x y => elLt ty m x y || elEq ty m x y) s

/-- VCMP.UN (R182). -/
def execVcmpUn (a : BitVec 3) (b c : BitVec 5) (k : BitVec 3) (ty : Ty) (s : State) : Out :=
  vecCmp a b c k ty (elUn ty) s

/-- VSEL (R183). -/
def execVsel (a b c : BitVec 5) (k : BitVec 3) (ty : Ty) (s : State) : Out :=
  vecTo [.v b, .v c] a (fun p => vBuild ty.bytes fun j =>
    if (p.rk k).getLsbD j then getEl ty.bytes (p.rv b) j else getEl ty.bytes (p.rv c) j) s

/-- KAND (R183). -/
def execKand (a b c : BitVec 3) (s : State) : Out :=
  maskTo a (fun p => p.rk b &&& p.rk c) s

/-- KOR (R183). -/
def execKor (a b c : BitVec 3) (s : State) : Out :=
  maskTo a (fun p => p.rk b ||| p.rk c) s

/-- KXOR (R183). -/
def execKxor (a b c : BitVec 3) (s : State) : Out :=
  maskTo a (fun p => p.rk b ^^^ p.rk c) s

/-- KNOT (R183). -/
def execKnot (a b : BitVec 3) (s : State) : Out :=
  maskTo a (fun p => ~~~(p.rk b)) s

/-- KMOVG (R183). -/
def execKmovg (a : BitVec 5) (b : BitVec 3) (s : State) : Out :=
  execG [] a false (fun p => p.rk b) s

/-- KMOVK (R183). -/
def execKmovk (a : BitVec 3) (b : BitVec 5) (s : State) : Out :=
  issue { srcs := [.g b] } (fun k p s => s.fin k (p.wk a (p.rg b))) s

/-- KPOPC (R183). -/
def execKpopc (a : BitVec 5) (b : BitVec 3) (s : State) : Out :=
  execG [] a false (fun p => BitVec.ofNat 64 (popN 64 (p.rk b).toNat)) s

/-- KFIRST (R183). -/
def execKfirst (a : BitVec 5) (b : BitVec 3) (s : State) : Out :=
  execG [] a false (fun p => BitVec.ofNat 64 (ctzN 64 (p.rk b).toNat)) s

/-- VCVT (R184, R185). -/
def execVcvt (a b : BitVec 5) (rtz : Bool) (src : Ty) (k : BitVec 3) (ty : Ty) (q : BitVec 3) (sat : Bool) (s : State) : Out :=
  vecTo [.v b] a (fun p =>
    let md := if rtz then { p.mode with rm := .rtz } else p.mode
    vConvert src ty md q.toNat sat (p.rk k) (p.rv a) (p.rv b)) s

/-- VREDSUM (R186). -/
def execVredsum (a b : BitVec 5) (k : BitVec 3) (ty : Ty) (s : State) : Out :=
  vecRed a b (fun p => redResult ty (redCanon ty p.mode
    ((treeReduce (elAdd ty p.mode) 6 (leaves ty (p.rk k) (p.rv b))).getD 0))) s

/-- VREDMIN (R187). -/
def execVredmin (a b : BitVec 5) (k : BitVec 3) (ty : Ty) (s : State) : Out :=
  vecRed a b (fun p => redResult ty (redCanon ty p.mode
    ((treeReduce (elMin ty p.mode) 6 (leaves ty (p.rk k) (p.rv b))).getD (redMinEmpty ty p.mode)))) s

/-- VREDMAX (R187). -/
def execVredmax (a b : BitVec 5) (k : BitVec 3) (ty : Ty) (s : State) : Out :=
  vecRed a b (fun p => redResult ty (redCanon ty p.mode
    ((treeReduce (elMax ty p.mode) 6 (leaves ty (p.rk k) (p.rv b))).getD (redMaxEmpty ty p.mode)))) s

/-- VREDAND (R186). -/
def execVredand (a b : BitVec 5) (k : BitVec 3) (ty : Ty) (s : State) : Out :=
  vecRed a b (fun p => redTree ty (p.rk k) (p.rv b) (· &&& ·) (2 ^ (8 * ty.bytes) - 1)) s

/-- VREDOR (R186). -/
def execVredor (a b : BitVec 5) (k : BitVec 3) (ty : Ty) (s : State) : Out :=
  vecRed a b (fun p => redTree ty (p.rk k) (p.rv b) (· ||| ·) 0) s

/-- VREDXOR (R186). -/
def execVredxor (a b : BitVec 5) (k : BitVec 3) (ty : Ty) (s : State) : Out :=
  vecRed a b (fun p => redTree ty (p.rk k) (p.rv b) (· ^^^ ·) 0) s

/-- VREDSUMW (R186). -/
def execVredsumw (a b : BitVec 5) (k : BitVec 3) (ty : Ty) (s : State) : Out :=
  vecRed a b (fun p => redSumW ty p.mode (p.rk k) (p.rv b)) s

/-- VPERM (R188). -/
def execVperm (a b c : BitVec 5) (k : BitVec 3) (ty : Ty) (s : State) : Out :=
  vecPerm [.v b, .v c] a k ty (fun p j =>
    getEl ty.bytes (p.rv b) (getEl ty.bytes (p.rv c) j % elCount ty.bytes)) s

/-- VPERMX (R188). -/
def execVpermx (a b c : BitVec 5) (k : BitVec 3) (ty : Ty) (s : State) : Out :=
  vecPerm [.v b, .v c, .v a] a k ty (fun p j =>
    let i := getEl ty.bytes (p.rv c) j % (2 * elCount ty.bytes)
    if i < elCount ty.bytes then getEl ty.bytes (p.rv b) i else getEl ty.bytes (p.rv a) (i - elCount ty.bytes)) s

/-- VSLDN (R188). -/
def execVsldn (a b c : BitVec 5) (k : BitVec 3) (ty : Ty) (s : State) : Out :=
  vecPerm [.v b, .g c] a k ty (fun p j =>
    if j + (p.rg c).toNat < elCount ty.bytes then getEl ty.bytes (p.rv b) (j + (p.rg c).toNat) else 0) s

/-- VSLUP (R188). -/
def execVslup (a b c : BitVec 5) (k : BitVec 3) (ty : Ty) (s : State) : Out :=
  vecPerm [.v b, .g c] a k ty (fun p j =>
    if (p.rg c).toNat ≤ j then getEl ty.bytes (p.rv b) (j - (p.rg c).toNat) else getEl ty.bytes (p.rv a) j) s

/-- VCOMP (R188). -/
def execVcomp (a b : BitVec 5) (k : BitVec 3) (ty : Ty) (s : State) : Out :=
  vecTo [.v b] a (fun p => vCompress ty.bytes (p.rk k) (p.rv b)) s

/-- VEXPD (R188). -/
def execVexpd (a b : BitVec 5) (k : BitVec 3) (ty : Ty) (s : State) : Out :=
  vecTo [.v b] a (fun p => vExpand ty.bytes (p.rk k) (p.rv a) (p.rv b)) s

/-- VZIPL (R188). -/
def execVzipl (a b c : BitVec 5) (k : BitVec 3) (ty : Ty) (s : State) : Out :=
  vecPerm [.v b, .v c] a k ty (fun p j =>
    getEl ty.bytes (if j % 2 = 0 then p.rv b else p.rv c) (j / 2)) s

/-- VZIPH (R188). -/
def execVziph (a b c : BitVec 5) (k : BitVec 3) (ty : Ty) (s : State) : Out :=
  vecPerm [.v b, .v c] a k ty (fun p j =>
    getEl ty.bytes (if j % 2 = 0 then p.rv b else p.rv c) (elCount ty.bytes / 2 + j / 2)) s

/-- VUZPE (R188). -/
def execVuzpe (a b c : BitVec 5) (k : BitVec 3) (ty : Ty) (s : State) : Out :=
  vecPerm [.v b, .v c] a k ty (fun p j =>
    if j < elCount ty.bytes / 2 then getEl ty.bytes (p.rv b) (2 * j) else getEl ty.bytes (p.rv c) (2 * j - elCount ty.bytes)) s

/-- VUZPO (R188). -/
def execVuzpo (a b c : BitVec 5) (k : BitVec 3) (ty : Ty) (s : State) : Out :=
  vecPerm [.v b, .v c] a k ty (fun p j =>
    if j < elCount ty.bytes / 2 then getEl ty.bytes (p.rv b) (2 * j + 1) else getEl ty.bytes (p.rv c) (2 * j + 1 - elCount ty.bytes)) s

/-- VREV (R188). -/
def execVrev (a b : BitVec 5) (k : BitVec 3) (ty : Ty) (s : State) : Out :=
  vecPerm [.v b] a k ty (fun p j => getEl ty.bytes (p.rv b) (elCount ty.bytes - 1 - j)) s

/-- VRCP (R195). -/
def execVrcp (a b : BitVec 5) (k : BitVec 3) (ty : Ty) (s : State) : Out :=
  vec1 a b k ty (elFn FVal.rcp ty) s

/-- VRSQ (R195). -/
def execVrsq (a b : BitVec 5) (k : BitVec 3) (ty : Ty) (s : State) : Out :=
  vec1 a b k ty (elFn FVal.rsq ty) s

/-- VEXP2 (R195). -/
def execVexp2 (a b : BitVec 5) (k : BitVec 3) (ty : Ty) (s : State) : Out :=
  vec1 a b k ty (elFn FVal.exp2 ty) s

/-- VLOG2 (R195). -/
def execVlog2 (a b : BitVec 5) (k : BitVec 3) (ty : Ty) (s : State) : Out :=
  vec1 a b k ty (elFn FVal.log2 ty) s

/-- VBCAST (R196). -/
def execVbcast (a b : BitVec 5) (k : BitVec 3) (ty : Ty) (s : State) : Out :=
  vecPerm [.g b] a k ty (fun p _ => (p.rg b).toNat % 2 ^ (8 * ty.bytes)) s

/-- VINS (R196). -/
def execVins (a b c : BitVec 5) (ty : Ty) (s : State) : Out :=
  vecTo [.g b, .g c] a (fun p => vBuild ty.bytes fun j =>
    if j = (p.rg c).toNat % elCount ty.bytes then (p.rg b).toNat % 2 ^ (8 * ty.bytes) else getEl ty.bytes (p.rv a) j) s

/-- VEXT (R196). -/
def execVext (a b c : BitVec 5) (ty : Ty) (s : State) : Out :=
  execG [.v b, .g c] a false (fun p => elToG ty (getEl ty.bytes (p.rv b) ((p.rg c).toNat % elCount ty.bytes))) s

/-- VMOV (R196). -/
def execVmov (a b : BitVec 5) (k : BitVec 3) (ty : Ty) (s : State) : Out :=
  vec1 a b k ty (fun _ x => x) s

/-- VIOTA (R196). -/
def execViota (a : BitVec 5) (k : BitVec 3) (ty : Ty) (s : State) : Out :=
  vecPerm [] a k ty (fun _ j => j) s

/-- VSPLAT (R196). -/
def execVsplat (a b c : BitVec 5) (k : BitVec 3) (ty : Ty) (s : State) : Out :=
  vecPerm [.v b, .g c] a k ty (fun p _ => getEl ty.bytes (p.rv b) ((p.rg c).toNat % elCount ty.bytes)) s

end Sys2Proof.Machine
end

