-- ==== Sys2Proof/Machine/BlockFormat.lean ====
section
/-! DEFINITION. Block-format instructions: major 0x2E (R236 to R242). -/

namespace Sys2Proof.Machine

/-- The sources among `bs` that are undescribed blocks (R241), by position. -/
def undescribed (bs : List VReg) : List Nat :=
  (List.range bs.length).filter fun i => (blockN (bs.getD i 0)).isNone

/-- An instruction on blocks: every undescribed source is counted, and under DROPTRAP traps POISON in place of
the result (R241, R411). -/
def State.blockOp (s : State) (k : Nat) (p : Proc) (a : BitVec 5) (srcs : List VReg) (res : VReg) : State :=
  let bad := undescribed srcs
  let s := bad.foldl (fun s _ => s.countCore (placeOf k) 4) s
  match p.dropTrap, bad with
  | true, i :: _ => s.trap k p false 7 3 (BitVec.ofNat 64 i)
  | _, _ => s.fin k (p.wv a res)

/-- BFPX (R238). -/
def execBfpx (a b c : BitVec 5) (k : BitVec 3) (ty : Ty) (s : State) : Out :=
  issue { srcs := [.v b, .g c], dsts := [.v a] } (fun n p s =>
    s.blockOp n p a [p.rv b] (bfpExpand ty p.mode (p.rk k) (p.rv a) (p.rv b) (p.rg c).toNat)) s

/-- BFPSCL (R240). -/
def execBfpscl (a b c : BitVec 5) (s : State) : Out :=
  issue { srcs := [.v b, .g c], dsts := [.v a] } (fun n p s =>
    s.blockOp n p a [p.rv b] (bfpScale p.mode (p.rv b) (p.rg c).toInt)) s

/-- BFPQ (R239). -/
def execBfpq (a b c : BitVec 5) (n : BitVec 4) (s : State) : Out :=
  issue { srcs := [.v b, .v c], dsts := [.v a] } (fun k p s =>
    s.blockOp k p a [p.rv b, p.rv c] (bfpAdd n.toNat p.mode (p.rv b) (p.rv c))) s

/-- The registers that BFPCVT reads (R237). -/
def cvtRegs (b : BitVec 5) (ty : Ty) (n : Nat) : List (BitVec 5) :=
  (List.range ((bfpCount n + elCount ty.bytes - 1) / elCount ty.bytes)).map fun i => b + BitVec.ofNat 5 i

/-- BFPCVT (R237). -/
def execBfpcvt (a b : BitVec 5) (ty : Ty) (n : BitVec 4) (s : State) : Out :=
  issue { srcs := (cvtRegs b ty n.toNat).map .v, dsts := [.v a] } (fun k p s =>
    s.fin k (p.wv a (bfpConvert ty n.toNat p.mode fun i => p.rv (b + BitVec.ofNat 5 i)))) s

end Sys2Proof.Machine
end

