-- ==== Sys2Proof/Machine/Flags.lean ====
section
/-! DEFINITION. Status and result words: the machine has no flags; what an instruction reports it writes in
a status word (R136, R157, R208, R213, R218, R220, R232). -/

namespace Sys2Proof.Machine

/-- The status word of JWAIT that returns OK, and of one that times out (R157). -/
def joinStatus (j : Join) : Word := BitVec.ofNat 64 (j.canc.toNat + j.flt.toNat * 2 ^ 16)
def joinTimeout : Word := BitVec.ofNat 64 (stTimeout * 2 ^ 32)

/-- The status word of THALO (R172): the first code other than OK, the door, and the SKIP bits. -/
def haloStatus (codes : List Nat) (door skip : Nat) : Word :=
  let code := (codes.find? (· != stOk)).getD stOk
  BitVec.ofNat 64 (code + 256 * door + 65536 * skip)

/-- The result word of an engine command (R218). -/
def nodeResult (id code : Nat) : Word := BitVec.ofNat 64 (id + 65536 * code)

/-- The status word of a node (R220): CODE and DROP, and for NPOLL its STATE. -/
def nodeStatus (status : Nat) (drop : Bool) (st : Nat) : Word :=
  BitVec.ofNat 64 (status + (if drop then 256 else 0) + 512 * st)

def nodeState (n : Node) : Nat :=
  match n.st with
  | .waiting => 0
  | .launched => 1
  | .done => 2

/-- The result word of RRES (R210). -/
def reserveWord (seq : BitVec 16) : Word := BitVec.ofNat 64 (seq.toNat * 65536)

/-- The two forms of RSTAT (R213). -/
def ringWord (r : Ring) (mine : Bool) : Word :=
  BitVec.ofNat 64 (r.head.toNat + r.rtail.toNat * 2 ^ 16 + r.ptail.toNat * 2 ^ 32 + r.logcap * 2 ^ 48 +
    (if mine then 2 ^ 51 else 0))

def ringMapWord (r : Ring) : Word := BitVec.ofNat 64 (r.map.toNat + r.base * 2 ^ 32)

/-- The counters of a slot as MSTAT returns them (R232). -/
def slotWord (a : AccSlot) : Word := BitVec.ofNat 64 (a.ovf + a.nan * 2 ^ 16 + a.sat * 2 ^ 32 + a.pois * 2 ^ 48)

end Sys2Proof.Machine
end

