-- ==== Sys2Proof/Machine/Crypto.lean ====
section
/-! DEFINITION. The algorithms that R1 names: SHA-512, Ed25519, X25519, AES-256 in XTS and in GCM, by their published
definitions (FIPS 180-4, RFC 8032, RFC 7748, FIPS 197, IEEE 1619, SP 800-38D; log 7). -/

namespace Sys2Proof.Machine

/-! ### SHA-512 -/

/-- The round constants, and the words the digest starts from. -/
def sha512K0 : List Word :=
  [0x428A2F98D728AE22, 0x7137449123EF65CD, 0xB5C0FBCFEC4D3B2F, 0xE9B5DBA58189DBBC,
   0x3956C25BF348B538, 0x59F111F1B605D019, 0x923F82A4AF194F9B, 0xAB1C5ED5DA6D8118,
   0xD807AA98A3030242, 0x12835B0145706FBE, 0x243185BE4EE4B28C, 0x550C7DC3D5FFB4E2,
   0x72BE5D74F27B896F, 0x80DEB1FE3B1696B1, 0x9BDC06A725C71235, 0xC19BF174CF692694,
   0xE49B69C19EF14AD2, 0xEFBE4786384F25E3, 0x0FC19DC68B8CD5B5, 0x240CA1CC77AC9C65]
def sha512K1 : List Word :=
  [0x2DE92C6F592B0275, 0x4A7484AA6EA6E483, 0x5CB0A9DCBD41FBD4, 0x76F988DA831153B5,
   0x983E5152EE66DFAB, 0xA831C66D2DB43210, 0xB00327C898FB213F, 0xBF597FC7BEEF0EE4,
   0xC6E00BF33DA88FC2, 0xD5A79147930AA725, 0x06CA6351E003826F, 0x142929670A0E6E70,
   0x27B70A8546D22FFC, 0x2E1B21385C26C926, 0x4D2C6DFC5AC42AED, 0x53380D139D95B3DF,
   0x650A73548BAF63DE, 0x766A0ABB3C77B2A8, 0x81C2C92E47EDAEE6, 0x92722C851482353B]
def sha512K2 : List Word :=
  [0xA2BFE8A14CF10364, 0xA81A664BBC423001, 0xC24B8B70D0F89791, 0xC76C51A30654BE30,
   0xD192E819D6EF5218, 0xD69906245565A910, 0xF40E35855771202A, 0x106AA07032BBD1B8,
   0x19A4C116B8D2D0C8, 0x1E376C085141AB53, 0x2748774CDF8EEB99, 0x34B0BCB5E19B48A8,
   0x391C0CB3C5C95A63, 0x4ED8AA4AE3418ACB, 0x5B9CCA4F7763E373, 0x682E6FF3D6B2B8A3,
   0x748F82EE5DEFB2FC, 0x78A5636F43172F60, 0x84C87814A1F0AB72, 0x8CC702081A6439EC]
def sha512K3 : List Word :=
  [0x90BEFFFA23631E28, 0xA4506CEBDE82BDE9, 0xBEF9A3F7B2C67915, 0xC67178F2E372532B,
   0xCA273ECEEA26619C, 0xD186B8C721C0C207, 0xEADA7DD6CDE0EB1E, 0xF57D4F7FEE6ED178,
   0x06F067AA72176FBA, 0x0A637DC5A2C898A6, 0x113F9804BEF90DAE, 0x1B710B35131C471B,
   0x28DB77F523047D84, 0x32CAAB7B40C72493, 0x3C9EBE0A15C9BEBC, 0x431D67C49C100D4C,
   0x4CC5D4BECB3E42B6, 0x597F299CFC657E2A, 0x5FCB6FAB3AD6FAEC, 0x6C44198C4A475817]
def sha512Start : List Word :=
  [0x6A09E667F3BCC908, 0xBB67AE8584CAA73B, 0x3C6EF372FE94F82B, 0xA54FF53A5F1D36F1,
   0x510E527FADE682D1, 0x9B05688C2B3E6C1F, 0x1F83D9ABFB41BD6B, 0x5BE0CD19137E2179]

/-- A number as `n` big-endian bytes, and back. -/
def beBytes (n x : Nat) : List Byte := (leBytes n x).reverse
def beNat (bs : List Byte) : Nat := leNat bs.reverse

/-- A message padded to blocks of 128 bytes. -/
def sha512Pad (m : List Byte) : List Byte :=
  m ++ 0x80 :: List.replicate ((128 - (m.length + 17) % 128) % 128) 0 ++ beBytes 16 (8 * m.length)

/-- The message schedule, latest word first. -/
def sha512Words : Nat → List Word → List Word
  | 0, ws => ws
  | n + 1, ws =>
    let a := ws.getD 14 0
    let b := ws.getD 1 0
    let s0 := a.rotateRight 1 ^^^ a.rotateRight 8 ^^^ a >>> 7
    let s1 := b.rotateRight 19 ^^^ b.rotateRight 61 ^^^ b >>> 6
    sha512Words n ((s1 + ws.getD 6 0 + s0 + ws.getD 15 0) :: ws)

/-- One round on the eight working words. -/
def sha512Round (v : List Word) (kw : Word × Word) : List Word :=
  match v with
  | [a, b, c, d, e, f, g, h] =>
    let s1 := e.rotateRight 14 ^^^ e.rotateRight 18 ^^^ e.rotateRight 41
    let ch := (e &&& f) ^^^ (~~~e &&& g)
    let t1 := h + s1 + ch + kw.1 + kw.2
    let s0 := a.rotateRight 28 ^^^ a.rotateRight 34 ^^^ a.rotateRight 39
    let maj := (a &&& b) ^^^ (a &&& c) ^^^ (b &&& c)
    [t1 + (s0 + maj), a, b, c, d + t1, e, f, g]
  | _ => v

/-- One block. -/
def sha512Block (v : List Word) (b : List Byte) : List Word :=
  let ws := (List.range 16).map fun i => (BitVec.ofNat 64 (beNat ((b.drop (8 * i)).take 8)) : Word)
  let kw := (sha512K0 ++ sha512K1 ++ sha512K2 ++ sha512K3).zip (sha512Words 64 ws.reverse).reverse
  List.zipWith (· + ·) v (kw.foldl sha512Round v)

/-- SHA-512. -/
@[irreducible] def sha512 (m : List Byte) : List Byte :=
  let p := sha512Pad m
  ((List.range (p.length / 128)).foldl (fun v i => sha512Block v ((p.drop (128 * i)).take 128)) sha512Start).flatMap fun w =>
    beBytes 8 w.toNat

/-! ### Ed25519 and X25519 -/

/-- The field of 2^255 - 19: powers, inverses, and the order of the base point. -/
def edP : Nat := 2 ^ 255 - 19
def edL : Nat := 2 ^ 252 + 27742317777372353535851937790883648493
def powMod (m : Nat) : Nat → Nat → Nat → Nat
  | 0, _, _ => 1
  | fuel + 1, b, e =>
    let r := powMod m fuel (b * b % m) (e / 2)
    if e % 2 = 1 then b * r % m else r
def edInv (x : Nat) : Nat := powMod edP 256 x (edP - 2)
def edSub (x y : Nat) : Nat := (x + edP - y % edP) % edP
def edD : Nat := edSub 0 (121665 * edInv 121666)

/-- The sum of two points. -/
def edAdd (p q : Nat × Nat) : Nat × Nat :=
  let t := edD * (p.1 * q.1 % edP) % edP * (p.2 * q.2 % edP) % edP
  ((p.1 * q.2 + q.1 * p.2) * edInv ((1 + t) % edP) % edP, (p.2 * q.2 + p.1 * q.1) * edInv (edSub 1 t) % edP)

/-- A multiple of a point; `fuel` bits of the factor. -/
def edMul : Nat → Nat → Nat × Nat → Nat × Nat
  | 0, _, _ => (0, 1)
  | fuel + 1, n, p =>
    let r := edMul fuel (n / 2) (edAdd p p)
    if n % 2 = 1 then edAdd p r else r

/-- A point from its y and the lowest bit of its x. -/
def edRecover (y sign : Nat) : Option (Nat × Nat) :=
  if edP ≤ y then none
  else
    let u := edSub (y * y) 1
    let v := (edD * (y * y % edP) + 1) % edP
    let xx := u * edInv v % edP
    let x := powMod edP 256 xx ((edP + 3) / 8)
    let x := if x * x % edP = xx then x else x * powMod edP 256 2 ((edP - 1) / 4) % edP
    if x * x % edP ≠ xx ∨ (x = 0 ∧ sign = 1) then none else some (if x % 2 = sign then x else edP - x, y)

def edBase : Nat × Nat := ((edRecover (4 * edInv 5 % edP) 0).getD (0, 1))

/-- The 32 bytes of a point, and back. -/
def edEncode (p : Nat × Nat) : List Byte := leBytes 32 (p.2 + p.1 % 2 * 2 ^ 255)
def edDecode (bs : List Byte) : Option (Nat × Nat) :=
  if bs.length = 32 then edRecover (leNat bs % 2 ^ 255) (leNat bs / 2 ^ 255) else none

/-- A secret number from 32 bytes. -/
def edClamp (n : Nat) : Nat := n % 2 ^ 254 / 8 * 8 + 2 ^ 254

/-- The Ed25519 public key of a private key of 32 bytes. -/
@[irreducible] def edPublic (key : List Byte) : List Byte := edEncode (edMul 256 (edClamp (leNat ((sha512 key).take 32))) edBase)

/-- The Ed25519 signature of a message. -/
@[irreducible] def edSign (key m : List Byte) : List Byte :=
  let h := sha512 key
  let a := edClamp (leNat (h.take 32))
  let r := leNat (sha512 (h.drop 32 ++ m)) % edL
  let R := edEncode (edMul 256 r edBase)
  let k := leNat (sha512 (R ++ edEncode (edMul 256 a edBase) ++ m)) % edL
  R ++ leBytes 32 ((r + k * a) % edL)

/-- Whether an Ed25519 signature of a message verifies. -/
@[irreducible] def edVerify (pub m sig : List Byte) : Bool :=
  let n := leNat (sig.drop 32)
  match edDecode pub, edDecode (sig.take 32) with
  | some A, some R =>
    sig.length == 64 && decide (n < edL) &&
      edMul 256 n edBase == edAdd R (edMul 256 (leNat (sha512 (sig.take 32 ++ pub ++ m)) % edL) A)
  | _, _ => false

/-- One bit of the ladder of X25519, from the highest; the points as (x, z). -/
def xLadder (u : Nat) : Nat → Nat → (Nat × Nat) × (Nat × Nat) → (Nat × Nat) × (Nat × Nat)
  | 0, _, r => r
  | i + 1, k, (p, q) =>
    let set := k / 2 ^ i % 2 = 1
    let (p, q) := if set then (q, p) else (p, q)
    let a := (p.1 + p.2) % edP
    let b := edSub p.1 p.2
    let e := edSub (a * a) (b * b)
    let da := edSub q.1 q.2 * a % edP
    let cb := (q.1 + q.2) * b % edP
    let x3 := (da + cb) * (da + cb) % edP
    let d := edSub da cb
    let p' := (a * a % edP * (b * b) % edP, e * (a * a + 121665 * e) % edP)
    let q' := (x3, u * (d * d % edP) % edP)
    xLadder u i k (if set then (q', p') else (p', q'))

/-- X25519 of a private key of 32 bytes and a point. -/
@[irreducible] def x25519 (key point : List Byte) : List Byte :=
  let u := leNat point % 2 ^ 255 % edP
  let r := (xLadder u 255 (edClamp (leNat key)) ((1, 0), (u, 1))).1
  leBytes 32 (r.1 * edInv r.2 % edP)

/-- The X25519 public key of a private key. -/
@[irreducible] def xPublic (key : List Byte) : List Byte := x25519 key (leBytes 32 9)

/-! ### AES-256 -/

/-- Products in the field of AES. -/
def aesTwice (x : Byte) : Byte := x <<< 1 ^^^ (if x.getLsbD 7 then 0x1B else 0)
def aesTimes : Nat → Byte → Byte → Byte
  | 0, _, _ => 0
  | n + 1, x, y => (if y.getLsbD 0 then x else 0) ^^^ aesTimes n (aesTwice x) (y >>> 1)
def aesPower (x : Byte) : Nat → Byte
  | 0 => 1
  | n + 1 => aesTimes 8 x (aesPower x n)

/-- The S-box: the inverse, and an affine map. -/
def aesSub (x : Byte) : Byte :=
  let i := aesPower x 254
  i ^^^ i.rotateLeft 1 ^^^ i.rotateLeft 2 ^^^ i.rotateLeft 3 ^^^ i.rotateLeft 4 ^^^ 0x63

def xorBytes (a b : List Byte) : List Byte := List.zipWith (· ^^^ ·) a b

/-- The key schedule of AES-256, words of 4 bytes, latest first; `i` counts the words made so far. -/
def aesExpand : Nat → Nat → Byte → List (List Byte) → List (List Byte)
  | 0, _, _, ws => ws
  | n + 1, i, rc, ws =>
    let t := ws.getD 0 []
    let t := if i % 8 = 0 then xorBytes ((t.drop 1 ++ t.take 1).map aesSub) [rc, 0, 0, 0]
      else if i % 8 = 4 then t.map aesSub else t
    aesExpand n (i + 1) (if i % 8 = 0 then aesTwice rc else rc) (xorBytes (ws.getD 7 []) t :: ws)

/-- The round keys of a key of 32 bytes. -/
def aesKeys (key : List Byte) : List (List Byte) :=
  let ws := (aesExpand 52 8 1 ((List.range 8).map fun i => (key.drop (4 * i)).take 4).reverse).reverse
  (List.range 15).map fun i => ((ws.drop (4 * i)).take 4).flatten

def aesShift (b : List Byte) : List Byte := (List.range 16).map fun i => b.getD ((i + 4 * (i % 4)) % 16) 0

def aesMix (b : List Byte) : List Byte :=
  (List.range 16).map fun i =>
    let at_ (j : Nat) : Byte := b.getD (i / 4 * 4 + (i + j) % 4) 0
    aesTwice (at_ 0) ^^^ (aesTwice (at_ 1) ^^^ at_ 1) ^^^ at_ 2 ^^^ at_ 3

/-- AES-256 on a block of 16 bytes. -/
@[irreducible] def aesBlock (key b : List Byte) : List Byte :=
  let ks := aesKeys key
  let b := (List.range 13).foldl (fun b i => xorBytes (aesMix (aesShift (b.map aesSub))) (ks.getD (i + 1) []))
    (xorBytes b (ks.getD 0 []))
  xorBytes (aesShift (b.map aesSub)) (ks.getD 14 [])

/-- The tweak of the next block of an XTS data unit. -/
def xtsTwice (t : Nat) : Nat := (2 * t % 2 ^ 128) ^^^ (if 2 ^ 127 ≤ t then 0x87 else 0)

/-- AES-256-XTS of whole blocks. -/
def xtsBlocks (key : List Byte) : Nat → Nat → List Byte → List Byte
  | 0, _, _ => []
  | n + 1, t, m =>
    let w := leBytes 16 t
    xorBytes (aesBlock key (xorBytes (m.take 16) w)) w ++ xtsBlocks key n (xtsTwice t) (m.drop 16)

/-- AES-256-XTS of a data unit of whole blocks under a pair of keys and a unit number. -/
@[irreducible] def aesXts (key1 key2 : List Byte) (unit : Nat) (m : List Byte) : List Byte :=
  xtsBlocks key1 (m.length / 16) (leNat (aesBlock key2 (leBytes 16 unit))) m

/-- The product of GHASH, whose numbers have bit 0 highest. -/
def ghashTimes : Nat → Nat → Nat → Nat → Nat
  | 0, _, _, z => z
  | n + 1, x, v, z =>
    ghashTimes n x ((v / 2) ^^^ (if v % 2 = 1 then 0xE1 * 2 ^ 120 else 0)) (if x / 2 ^ n % 2 = 1 then z ^^^ v else z)

def ghash (h : Nat) (bs : List Byte) : Nat :=
  (List.range (bs.length / 16)).foldl (fun y i => ghashTimes 128 (y ^^^ beNat ((bs.drop (16 * i)).take 16)) h 0) 0

def gcmPad (m : List Byte) : List Byte := m ++ List.replicate ((16 - m.length % 16) % 16) 0

/-- AES-256-GCM with a nonce of 12 bytes: what is sent, and its tag. -/
@[irreducible] def aesGcm (key nonce aad m : List Byte) : List Byte × List Byte :=
  let ctr (i : Nat) : List Byte := aesBlock key (nonce ++ beBytes 4 (i + 1))
  let c := xorBytes m ((List.range (m.length / 16 + 1)).flatMap fun i => ctr (i + 1))
  let s := ghash (beNat (aesBlock key (List.replicate 16 0)))
    (gcmPad aad ++ gcmPad c ++ beBytes 8 (8 * aad.length) ++ beBytes 8 (8 * m.length))
  (c, xorBytes (beBytes 16 s) (ctr 0))

end Sys2Proof.Machine
end

