-- ==== Sys2Proof/Machine/Scalar.lean ====
section
/-! DEFINITION. Scalar arithmetic, immediates, branches and jumps: majors 0x01 to 0x14 (R109 to R120). -/

namespace Sys2Proof.Machine

/-- Major 0x01 with two sources (R109). -/
def exec2 (a b c : BitVec 5) (f : Word → Word → Word) (s : State) : Out :=
  execG [.g b, .g c] a false (fun p => f (p.rg b) (p.rg c)) s

/-- Major 0x01 with one source (R109). -/
def exec1 (a b : BitVec 5) (f : Word → Word) (s : State) : Out :=
  execG [.g b] a false (fun p => f (p.rg b)) s

/-- Integer division as R57 states it: by zero the quotient is all-ones and the remainder the dividend; the
most negative number by -1 gives itself, remainder 0. -/
def divS (x y : Word) : Word := if y = 0 then BitVec.allOnes 64 else BitVec.ofInt 64 (Int.tdiv x.toInt y.toInt)
def remS (x y : Word) : Word := if y = 0 then x else BitVec.ofInt 64 (Int.tmod x.toInt y.toInt)
def divU (x y : Word) : Word := if y = 0 then BitVec.allOnes 64 else BitVec.ofNat 64 (x.toNat / y.toNat)
def remU (x y : Word) : Word := if y = 0 then x else BitVec.ofNat 64 (x.toNat % y.toNat)

/-- Bits 127:64 of a product (R109). -/
def mulHS (x y : Word) : Word := BitVec.ofInt 64 (x.toInt * y.toInt / 2 ^ 64)
def mulHU (x y : Word) : Word := BitVec.ofNat 64 (x.toNat * y.toNat / 2 ^ 64)

/-- Shifts by C[5:0] (R109). -/
def cnt (c : Word) : Nat := c.toNat % 64

/-- A truth value in a register. -/
def truth (b : Bool) : Word := if b then 1 else 0

/-- BREV and BSWAP (R109). -/
def revBits (x : Word) : Word := BitVec.ofNat 64 (packEls 1 ((List.range 64).map fun j => if x.getLsbD (63 - j) then 1 else 0))
def revBytes (x : Word) : Word := BitVec.ofNat 64 (packEls 8 ((List.range 8).map fun j => field x (8 * (7 - j)) 8))

/-- ADD (R109). -/
def execAdd (a b c : BitVec 5) (s : State) : Out := exec2 a b c (fun x y => x + y) s

/-- SUB (R109). -/
def execSub (a b c : BitVec 5) (s : State) : Out := exec2 a b c (fun x y => x - y) s

/-- AND (R109). -/
def execAnd (a b c : BitVec 5) (s : State) : Out := exec2 a b c (fun x y => x &&& y) s

/-- OR (R109). -/
def execOr (a b c : BitVec 5) (s : State) : Out := exec2 a b c (fun x y => x ||| y) s

/-- XOR (R109). -/
def execXor (a b c : BitVec 5) (s : State) : Out := exec2 a b c (fun x y => x ^^^ y) s

/-- ANDN (R109). -/
def execAndn (a b c : BitVec 5) (s : State) : Out := exec2 a b c (fun x y => x &&& ~~~y) s

/-- SHL (R109). -/
def execShl (a b c : BitVec 5) (s : State) : Out := exec2 a b c (fun x y => x <<< cnt y) s

/-- SHR (R109). -/
def execShr (a b c : BitVec 5) (s : State) : Out := exec2 a b c (fun x y => x >>> cnt y) s

/-- SRA (R109). -/
def execSra (a b c : BitVec 5) (s : State) : Out := exec2 a b c (fun x y => x.sshiftRight (cnt y)) s

/-- ROL (R109). -/
def execRol (a b c : BitVec 5) (s : State) : Out := exec2 a b c (fun x y => x.rotateLeft (cnt y)) s

/-- MUL (R109). -/
def execMul (a b c : BitVec 5) (s : State) : Out := exec2 a b c (fun x y => x * y) s

/-- MULH (R109). -/
def execMulh (a b c : BitVec 5) (s : State) : Out := exec2 a b c (fun x y => mulHS x y) s

/-- MULHU (R109). -/
def execMulhu (a b c : BitVec 5) (s : State) : Out := exec2 a b c (fun x y => mulHU x y) s

/-- DIV (R109). -/
def execDiv (a b c : BitVec 5) (s : State) : Out := exec2 a b c (fun x y => divS x y) s

/-- DIVU (R109). -/
def execDivu (a b c : BitVec 5) (s : State) : Out := exec2 a b c (fun x y => divU x y) s

/-- REM (R109). -/
def execRem (a b c : BitVec 5) (s : State) : Out := exec2 a b c (fun x y => remS x y) s

/-- REMU (R109). -/
def execRemu (a b c : BitVec 5) (s : State) : Out := exec2 a b c (fun x y => remU x y) s

/-- MIN (R109). -/
def execMin (a b c : BitVec 5) (s : State) : Out := exec2 a b c (fun x y => if y.slt x then y else x) s

/-- MAX (R109). -/
def execMax (a b c : BitVec 5) (s : State) : Out := exec2 a b c (fun x y => if x.slt y then y else x) s

/-- MINU (R109). -/
def execMinu (a b c : BitVec 5) (s : State) : Out := exec2 a b c (fun x y => if y < x then y else x) s

/-- MAXU (R109). -/
def execMaxu (a b c : BitVec 5) (s : State) : Out := exec2 a b c (fun x y => if x < y then y else x) s

/-- SLT (R109). -/
def execSlt (a b c : BitVec 5) (s : State) : Out := exec2 a b c (fun x y => truth (x.slt y)) s

/-- SLTU (R109). -/
def execSltu (a b c : BitVec 5) (s : State) : Out := exec2 a b c (fun x y => truth (x.ult y)) s

/-- SEQ (R109). -/
def execSeq (a b c : BitVec 5) (s : State) : Out := exec2 a b c (fun x y => truth (x == y)) s

/-- LEA1 (R109). -/
def execLea1 (a b c : BitVec 5) (s : State) : Out := exec2 a b c (fun x y => x + y) s

/-- LEA2 (R109). -/
def execLea2 (a b c : BitVec 5) (s : State) : Out := exec2 a b c (fun x y => x + (y <<< 1)) s

/-- LEA4 (R109). -/
def execLea4 (a b c : BitVec 5) (s : State) : Out := exec2 a b c (fun x y => x + (y <<< 2)) s

/-- LEA8 (R109). -/
def execLea8 (a b c : BitVec 5) (s : State) : Out := exec2 a b c (fun x y => x + (y <<< 3)) s

/-- CLZ (R109). -/
def execClz (a b : BitVec 5) (s : State) : Out := exec1 a b (fun x => BitVec.ofNat 64 (clzN 64 x.toNat)) s

/-- CTZ (R109). -/
def execCtz (a b : BitVec 5) (s : State) : Out := exec1 a b (fun x => BitVec.ofNat 64 (ctzN 64 x.toNat)) s

/-- POPC (R109). -/
def execPopc (a b : BitVec 5) (s : State) : Out := exec1 a b (fun x => BitVec.ofNat 64 (popN 64 x.toNat)) s

/-- BREV (R109). -/
def execBrev (a b : BitVec 5) (s : State) : Out := exec1 a b (fun x => revBits x) s

/-- BSWAP (R109). -/
def execBswap (a b : BitVec 5) (s : State) : Out := exec1 a b (fun x => revBytes x) s

/-- SEXTB (R109). -/
def execSextB (a b : BitVec 5) (s : State) : Out := exec1 a b (fun x => (x.setWidth 8).signExtend 64) s

/-- SEXTH (R109). -/
def execSextH (a b : BitVec 5) (s : State) : Out := exec1 a b (fun x => (x.setWidth 16).signExtend 64) s

/-- SEXTW (R109). -/
def execSextW (a b : BitVec 5) (s : State) : Out := exec1 a b (fun x => (x.setWidth 32).signExtend 64) s

/-- ZEXTB (R109). -/
def execZextB (a b : BitVec 5) (s : State) : Out := exec1 a b (fun x => (x.setWidth 8).setWidth 64) s

/-- ZEXTH (R109). -/
def execZextH (a b : BitVec 5) (s : State) : Out := exec1 a b (fun x => (x.setWidth 16).setWidth 64) s

/-- ZEXTW (R109). -/
def execZextW (a b : BitVec 5) (s : State) : Out := exec1 a b (fun x => (x.setWidth 32).setWidth 64) s

/-- The immediate instructions (R111) by their I-form, on the value of R86 or R87. -/
def immOp (f : Word → Word → Word) (a b : BitVec 5) (imm : Word) (ext : Bool) (s : State) : Out :=
  execG [.g b] a ext (fun p => f (p.rg b) imm) s

/-- The result of ADDI (R111). -/
def addiOf (x y : Word) : Word := x + y

/-- ADDI (R111). -/
def execAddi (a b : BitVec 5) (i : BitVec 16) (s : State) : Out := immOp addiOf a b (i.signExtend 64) false s

/-- The result of ANDI (R111). -/
def andiOf (x y : Word) : Word := x &&& y

/-- ANDI (R111). -/
def execAndi (a b : BitVec 5) (i : BitVec 16) (s : State) : Out := immOp andiOf a b (i.setWidth 64) false s

/-- The result of ORI (R111). -/
def oriOf (x y : Word) : Word := x ||| y

/-- ORI (R111). -/
def execOri (a b : BitVec 5) (i : BitVec 16) (s : State) : Out := immOp oriOf a b (i.setWidth 64) false s

/-- The result of XORI (R111). -/
def xoriOf (x y : Word) : Word := x ^^^ y

/-- XORI (R111). -/
def execXori (a b : BitVec 5) (i : BitVec 16) (s : State) : Out := immOp xoriOf a b (i.setWidth 64) false s

/-- The result of SLTI (R111). -/
def sltiOf (x y : Word) : Word := truth (x.slt y)

/-- SLTI (R111). -/
def execSlti (a b : BitVec 5) (i : BitVec 16) (s : State) : Out := immOp sltiOf a b (i.signExtend 64) false s

/-- The result of SLTIU (R111). -/
def sltiuOf (x y : Word) : Word := truth (x.ult y)

/-- SLTIU (R111). -/
def execSltiu (a b : BitVec 5) (i : BitVec 16) (s : State) : Out := immOp sltiuOf a b (i.setWidth 64) false s

/-- The result of MOVHI (R111). -/
def movhiOf (x y : Word) : Word := x + (y <<< 32)

/-- MOVHI (R111). -/
def execMovhi (a b : BitVec 5) (i : BitVec 16) (s : State) : Out := immOp movhiOf a b (i.signExtend 64) false s

/-- The result of MULI (R111). -/
def muliOf (x y : Word) : Word := x * y

/-- MULI (R111). -/
def execMuli (a b : BitVec 5) (i : BitVec 16) (s : State) : Out := immOp muliOf a b (i.signExtend 64) false s

/-- SHI by kind and count (R112). -/
def shiOf (kind : BitVec 2) (n : BitVec 6) (x : Word) : Word :=
  match kind.toNat with
  | 0 => x <<< n.toNat
  | 1 => x >>> n.toNat
  | 2 => x.sshiftRight n.toNat
  | _ => x.rotateLeft n.toNat

/-- SHI (R112), kind 0. -/
def execShiL (a b : BitVec 5) (n : BitVec 6) (s : State) : Out := exec1 a b (shiOf 0 n) s

/-- SHI (R112), kind 1. -/
def execShiR (a b : BitVec 5) (n : BitVec 6) (s : State) : Out := exec1 a b (shiOf 1 n) s

/-- SHI (R112), kind 2. -/
def execShiA (a b : BitVec 5) (n : BitVec 6) (s : State) : Out := exec1 a b (shiOf 2 n) s

/-- SHI (R112), kind 3. -/
def execShiRol (a b : BitVec 5) (n : BitVec 6) (s : State) : Out := exec1 a b (shiOf 3 n) s

/-- A compare-branch (R114): the target counts from the instruction, or from the EXT word of a pair. -/
def branch (cond : Word → Word → Bool) (a b : BitVec 5) (imm : Word) (ext : Bool) (s : State) : Out :=
  issue { srcs := [.g b, .g a], ext := ext } (fun k p s =>
    s.setProc k (if cond (p.rg a) (p.rg b) then { p with pc := p.pc + 4 * imm } else p.over ext)) s

/-- When BEQ is taken (R114). -/
def beqIf (x y : Word) : Bool := x == y

/-- BEQ (R114). -/
def execBeq (a b : BitVec 5) (i : BitVec 16) (s : State) : Out := branch beqIf a b (i.signExtend 64) false s

/-- When BNE is taken (R114). -/
def bneIf (x y : Word) : Bool := x != y

/-- BNE (R114). -/
def execBne (a b : BitVec 5) (i : BitVec 16) (s : State) : Out := branch bneIf a b (i.signExtend 64) false s

/-- When BLT is taken (R114). -/
def bltIf (x y : Word) : Bool := x.slt y

/-- BLT (R114). -/
def execBlt (a b : BitVec 5) (i : BitVec 16) (s : State) : Out := branch bltIf a b (i.signExtend 64) false s

/-- When BGE is taken (R114). -/
def bgeIf (x y : Word) : Bool := !x.slt y

/-- BGE (R114). -/
def execBge (a b : BitVec 5) (i : BitVec 16) (s : State) : Out := branch bgeIf a b (i.signExtend 64) false s

/-- When BLTU is taken (R114). -/
def bltuIf (x y : Word) : Bool := x.ult y

/-- BLTU (R114). -/
def execBltu (a b : BitVec 5) (i : BitVec 16) (s : State) : Out := branch bltuIf a b (i.signExtend 64) false s

/-- When BGEU is taken (R114). -/
def bgeuIf (x y : Word) : Bool := !x.ult y

/-- BGEU (R114). -/
def execBgeu (a b : BitVec 5) (i : BitVec 16) (s : State) : Out := branch bgeuIf a b (i.signExtend 64) false s

/-- DBNZ (R115) with its offset. -/
def dbnzBy (a : BitVec 5) (imm : Word) (ext : Bool) (s : State) : Out :=
  issue { srcs := [.g a], ext := ext } (fun k p s =>
    let x := p.rg a - 1
    let q := p.wg a x
    s.setProc k (if x ≠ 0 then { q with pc := p.pc + 4 * imm } else q.over ext)) s

/-- DBNZ (R115). -/
def execDbnz (a : BitVec 5) (i : BitVec 16) (s : State) : Out := dbnzBy a (i.signExtend 64) false s

/-- J (R119). -/
def execJ (i : BitVec 26) (s : State) : Out :=
  issue {} (fun k p s => s.setProc k { p with pc := p.pc + 4 * i.signExtend 64 }) s

/-- CALL (R119). -/
def execCall (i : BitVec 26) (s : State) : Out :=
  issue { dsts := [.g 31] } (fun k p s =>
    s.setProc k { p.wg 31 (p.pc + 4) with pc := p.pc + 4 * i.signExtend 64 }) s

/-- A jump through a register (R120): a target that is not word-aligned traps ALIGN and writes no link. -/
def jumpReg (b : BitVec 5) (link : Option (BitVec 5)) (s : State) : Out :=
  issue { srcs := [.g b], dsts := link.toList.map .g } (fun k p s =>
    let t := p.rg b
    if t.toNat % 4 ≠ 0 then s.trap k p false 4 0 t
    else
      s.jump k (match link with | none => p | some a => p.wg a (p.pc + 4)) t) s

/-- JR (R120). -/
def execJr (b : BitVec 5) (s : State) : Out := jumpReg b none s

/-- CALLR (R120). -/
def execCallr (a b : BitVec 5) (s : State) : Out := jumpReg b (some a) s

/-- RET (R120): JR through g31. -/
def execRet (s : State) : Out := jumpReg 31 none s


end Sys2Proof.Machine
end

