-- ==== Sys2Proof/Machine/Memory.lean ====
section
/-! DEFINITION. Loads and stores, synchronised and scratchpad accesses: majors 0x15 to 0x19 (R121 to R134),
and EXT pairs (R87). -/

namespace Sys2Proof.Machine

/-- LD with its offset (R122). -/
def loadAt (a b : BitVec 5) (z : LdSize) (off : Word) (ext : Bool) (s : State) : Out :=
  issue { srcs := [.g b], dsts := [.g a], touch := .plain, ext := ext } (fun k p s =>
    s.loadGo k p ext a z (p.rg b + off) .plain) s

/-- ST with its offset (R123). -/
def storeAt (a b : BitVec 5) (z : StSize) (off : Word) (ext : Bool) (s : State) : Out :=
  issue { srcs := [.g b, .g a], touch := .plain, ext := ext } (fun k p s =>
    s.storeGo k p ext a z (p.rg b + off) .plain) s

/-- LD (R122). -/
def execLd (a b : BitVec 5) (o : BitVec 13) (sz : LdSize) (s : State) : Out :=
  loadAt a b sz (shortOff o (ldBytes sz)) false s

/-- ST (R123). -/
def execSt (a b : BitVec 5) (o : BitVec 13) (sz : StSize) (s : State) : Out :=
  storeAt a b sz (shortOff o (stBytes sz)) false s

/-- LDX (R126). -/
def execLdx (a b c : BitVec 5) (sz : LdSize) (s : State) : Out :=
  issue { srcs := [.g b, .g c], dsts := [.g a], touch := .plain } (fun k p s =>
    s.loadGo k p false a sz (p.rg b + p.rg c) .plain) s

/-- STX (R126). -/
def execStx (a b c : BitVec 5) (sz : StSize) (s : State) : Out :=
  issue { srcs := [.g b, .g c, .g a], touch := .plain } (fun k p s =>
    s.storeGo k p false a sz (p.rg b + p.rg c) .plain) s

/-- LDA (R127): an acquire (log 5). -/
def execLda (a b : BitVec 5) (scope : Scope) (sz : LdSize) (s : State) : Out :=
  issue { scope := scope, srcs := [.g b], dsts := [.g a], touch := .acquire } (fun k p s =>
    s.loadGo k p false a sz (p.rg b) .acquire) s

/-- STL (R127): a release; it combines the lines of its scope (R141, R354, log 5). -/
def execStl (a b : BitVec 5) (scope : Scope) (sz : StSize) (s : State) : Out :=
  issue { scope := scope, srcs := [.g b, .g a], touch := .release } (fun k p s =>
    s.storeGo k p false a sz (p.rg b) .release) s

/-- FERETRY's N (R48). -/
def feRetry (p : Proc) : Nat := field p.feretry 0 8

/-- LDS and LDF (R128): both registers are empty until the home answers. -/
def syncLoad (a b c : BitVec 5) (t : Bool) (kind : Access) (op : AtomOp) (s : State) : Out :=
  issue { srcs := [.g b], dsts := [.g a, .g c], touch := .acquire } (fun k p s =>
    let va := p.rg b
    s.access k p false va 8 kind fun s ga leaf =>
      s.notHost k p va ga
        ((s.sendAtom (atomReq k p ga leaf va op .acquire (feRetry p) (deadlineOf s k p t))).produced k p
          ((p.eg a).eg c))) s

/-- LDS (R128). -/
def execLds (a b c : BitVec 5) (t : Bool) (s : State) : Out := syncLoad a b c t .write (.lds a c) s

/-- LDF (R128). -/
def execLdf (a b c : BitVec 5) (t : Bool) (s : State) : Out := syncLoad a b c t .read (.ldf a c) s

/-- STS (R128). -/
def execSts (a b c : BitVec 5) (t : Bool) (s : State) : Out :=
  issue { srcs := [.g b, .g a], dsts := [.g c], touch := .release } (fun k p s =>
    let va := p.rg b
    s.access k p false va 8 .write fun s ga leaf =>
      s.notHost k p va ga
        ((s.sendAtom (atomReq k p ga leaf va (.sts a c (p.rg a)) .release (feRetry p) (deadlineOf s k p t))).fin k
          (p.eg c))) s

/-- FEGET (R126, R130): waits for its answer (R137). -/
def execFeget (a b : BitVec 5) (s : State) : Out :=
  issue { srcs := [.g b], dsts := [.g a], touch := .acquire } (fun k p s =>
    let va := p.rg b
    s.access k p false va 8 .read fun s ga leaf =>
      s.notHost k p va ga
        ((s.sendAtom (atomReq k p ga leaf va (.feget a) .acquire 0 none)).waitIn k p .home a 0 none)) s

/-- FESET (R126, R130). -/
def execFeset (a b : BitVec 5) (s : State) : Out :=
  issue { srcs := [.g b, .g a], touch := .release } (fun k p s =>
    let va := p.rg b
    s.access k p false va 8 .write fun s ga leaf =>
      s.notHost k p va ga
        ((s.sendAtom (atomReq k p ga leaf va (.feset ((p.rg a).getLsbD 0)) .release 0 none)).fin k p)) s

/-- The recall of those lines (R141): every core sends its copies. -/
def State.recallSpad (s : State) (pl : Nat) : State := s.cores.foldl (fun s (c : Nat × Core) => s.combineIf c.1 (·.onSpad pl)) s

/-- Whether an access of the process to the scratchpad of its core through the aperture is not yet performed, also one that
has been refused and goes out again, or a reduction there. -/
def spadWaits (s : State) (k gen : Nat) : Bool :=
  (s.net.any fun m =>
    m.own.any (fun o => o.p == k && o.gen == gen) &&
      (m.dst == agentHome (spadHome (placeOf k)) || (match m.body with | .refused r => homeOf r.ga == spadHome (placeOf k) | _ => false))) ||
    spadReduced s (placeOf k)

/-- A process without scratchpad traps PROT (R132). Scratchpad accesses of a process stay in order, those through the
aperture too, and a parked one to a common word, of the words at `gas` (R133, R361); reductions there are recalled first
(R349). -/
def State.withSpad (s : State) (k : Nat) (p : Proc) (ext : Bool) (val : Word) (go : State) (gas : List Nat := []) : State :=
  if p.splog = 0 then s.trap k p ext 6 6 val
  else if spadWaits s k p.gen || gas.any (feWaits s k p.gen) then (s.recallSpad (placeOf k)).stallOn k p .order none
  else go

/-- A fill that a core sends to its own process. -/
def State.selfFill (s : State) (k : Nat) (p : Proc) (ws : List RegWrite) : State :=
  s.post (placeOf k) (placeOf k) none (.fill { (endFill k p.gen 0) with writes := ws, ends := none })

/-- SPL with its offset (R132): read now, filled within 4 cycles (R133). -/
def splAt (a b : BitVec 5) (z : LdSize) (off : Word) (ext : Bool) (s : State) : Out :=
  issue { srcs := [.g b], dsts := [.g a], touch := .plain, ext := ext } (fun k p s =>
    s.withSpad k p ext (p.rg b + off)
      (let o := scratchOff p (p.rg b) off (ldBytes z)
       (s.selfFill k p [.g a (ldExtend z (spadNat s k p o (ldBytes z)))]).setProc k ((p.eg a).over ext))
      (gas := [spadGa k p (scratchOff p (p.rg b) off (ldBytes z))])) s

/-- Writes bytes at an offset of an allocation and sets their words full (R132, R133). -/
def State.spadPut (s : State) (k : Nat) (p : Proc) (o : Nat) (bs : List Byte) : State :=
  (s.putBytes (spadGa k p o) bs).fillWords (spadGa k p o) bs.length

/-- SPS with its offset (R132). -/
def spsAt (a b : BitVec 5) (z : StSize) (off : Word) (ext : Bool) (s : State) : Out :=
  issue { srcs := [.g b, .g a], touch := .plain, ext := ext } (fun k p s =>
    s.withSpad k p ext (p.rg b + off)
      ((s.spadPut k p (scratchOff p (p.rg b) off (stBytes z)) (leBytes (stBytes z) (p.rg a).toNat)).setProc k
        (p.over ext))
      (gas := [spadGa k p (scratchOff p (p.rg b) off (stBytes z))])) s

/-- SPL (R132). -/
def execSpl (a b : BitVec 5) (o : BitVec 13) (sz : LdSize) (s : State) : Out :=
  splAt a b sz (shortOff o (ldBytes sz)) false s

/-- SPS (R132). -/
def execSps (a b : BitVec 5) (o : BitVec 13) (sz : StSize) (s : State) : Out :=
  spsAt a b sz (shortOff o (stBytes sz)) false s

/-- A pair that no word carries traps ILLEGAL as its short form does (R83, R87). -/
def badPair (detail : Nat) (x : BitVec 26) (f : IForm) (a b : BitVec 5) (i : BitVec 16) (s : State) : Out :=
  run s fun k p => s.trap k p true 1 detail (encI f.major a b i ++ encJ 0x3E x)

/-- EXT_PAIR (R87): the I-form on the 42-bit immediate. -/
def execExtPair (x : BitVec 26) (f : IForm) (a b : BitVec 5) (i : BitVec 16) (s : State) : Out :=
  let imm := extImm x i
  match f with
  | .addi => immOp addiOf a b imm true s
  | .andi => immOp andiOf a b imm true s
  | .ori => immOp oriOf a b imm true s
  | .xori => immOp xoriOf a b imm true s
  | .slti => immOp sltiOf a b imm true s
  | .sltiu => immOp sltiuOf a b imm true s
  | .shi => execG [.g b] a true (fun p => shiOf (i.extractLsb' 6 2) (i.extractLsb' 0 6) (p.rg b)) s
  | .movhi => immOp movhiOf a b imm true s
  | .muli => immOp muliOf a b imm true s
  | .beq => branch beqIf a b imm true s
  | .bne => branch bneIf a b imm true s
  | .blt => branch bltIf a b imm true s
  | .bge => branch bgeIf a b imm true s
  | .bltu => branch bltuIf a b imm true s
  | .bgeu => branch bgeuIf a b imm true s
  | .dbnz => dbnzBy a imm true s
  | .ld =>
    match LdSize.ofCode (i.extractLsb' 0 3) with
    | some z => loadAt a b z (longOff x i (ldBytes z)) true s
    | none => badPair 6 x f a b i s
  | .st =>
    match StSize.ofCode (i.extractLsb' 0 3) with
    | some z => storeAt a b z (longOff x i (stBytes z)) true s
    | none => badPair 6 x f a b i s
  | .spl =>
    match LdSize.ofCode (i.extractLsb' 0 3) with
    | some z => splAt a b z (longOff x i (ldBytes z)) true s
    | none => badPair 6 x f a b i s
  | .sps =>
    match StSize.ofCode (i.extractLsb' 0 3) with
    | some z => spsAt a b z (longOff x i (stBytes z)) true s
    | none => badPair 6 x f a b i s

end Sys2Proof.Machine
end

