-- ==== Sys2Proof/Machine/Ports.lean ====
section
/-! DEFINITION. What a home does (R128, R129, R139, R141, R146 to R149, R370 to R373): reads, writes, atomic
and synchronised operations, monitors, barrier steps and combines, the parking list and the budget. -/

namespace Sys2Proof.Machine

/-- Completes the scratchpad monitors of a core whose condition holds (R146). -/
def monHolds (cond : MonCond) (x cmp : Word) : Bool :=
  match cond with
  | .eq => x == cmp
  | .geu => decide (cmp.toNat ≤ x.toNat)
  | .ne => x != cmp

def State.testMonS (s : State) (pl : Nat) : State :=
  (s.procsAt pl).foldl (fun s e =>
    match e.2.wait with
    | some { kind := .monS w cond cmp, .. } =>
      if monHolds cond (BitVec.ofNat 64 (spadNat s e.1 e.2 w 8)) cmp then s.finishWait e.1 0 else s
    | _ => s) s

/-- An answer of a home to a requester. -/
def State.answer (s : State) (r : AtomReq) (f : Fill) : State :=
  s.post (homeAgent r.ga) r.core none (.fill f)

/-- The fill of a producer: under DROPTRAP it also ends the wait (R122). -/
def prodFill (r : AtomReq) (ws : List RegWrite) : Fill :=
  { (endFill r.own.p r.own.gen 0) with writes := ws, ends := if r.dropTrap then some 0 else none }

/-- The fill of an instruction that waits for its result (R137). -/
def waitFill (r : AtomReq) (x : Word) : Fill := endFill r.own.p r.own.gen x

/-- The POISON trap of a request under DROPTRAP (R411): its registers keep their contents. -/
def trapFill (r : AtomReq) (keep : List RegRef) : Fill :=
  { (endFill r.own.p r.own.gen 0) with writes := keep.map .keep, ends := none, cause := some { code := 7, detail := 1, tval := r.va } }

/-- Whether a request meets poison (R125, R345, R384), and whether it does so on a failed pseudo-channel. -/
def AtomReq.bad (s : State) (r : AtomReq) : Bool := r.pois || s.bad r.ga
def AtomReq.failed (s : State) (r : AtomReq) : Bool := (s.homeAt r.ga).failed

/-- Whether a request comes through the aperture into the allocation of a sealed space from another space (R450). -/
def AtomReq.hidden (s : State) (r : AtomReq) : Bool := sealedFrom s r.ga (some r.own.asid)

/-- The two results of one instruction: in one register, a free value (log 24). -/
def bothWrites (s : State) (a c : BitVec 5) (x y : Word) : List RegWrite :=
  if a = c ∧ a ≠ 0 then [.g a (Config.freeWord s.free)] else [.g a x, .g c y]

/-- The value an atomic returns (R139): MINU and MAXU zero-extend. -/
def amoResult (op : Nat) (w : Bool) (old : Word) : Word :=
  if !w then old else if op = 6 ∨ op = 7 then (old.setWidth 32).setWidth 64 else (old.setWidth 32).signExtend 64

/-- Fields of a group record at its address (R147). -/
def groupWord (s : State) (ga i : Nat) : Nat := memNat s.mem (ga + 8 * i) 8
def State.setGroup (s : State) (ga i v : Nat) : State := s.putBytes (ga + 8 * i) (leBytes 8 (v % 2 ^ 64))
def groupMembers (s : State) (ga : Nat) : Nat := groupWord s ga 0 % 2 ^ 32
def State.setMembers (s : State) (ga v : Nat) : State :=
  s.setGroup ga 0 (groupWord s ga 0 / 2 ^ 32 * 2 ^ 32 + v % 2 ^ 32)

/-- Complete(r) (R148). -/
def State.completePhase (s : State) (ga : Nat) : State :=
  let m := groupMembers s ga
  let d := groupWord s ga 3
  (((s.setGroup ga 2 (groupWord s ga 2 + 1)).setMembers ga (m + 2 ^ 64 - d)).setGroup ga 1 0).setGroup ga 3 0

/-- ARRIVE, after the counts of R148. -/
def State.arrive (s : State) (ga : Nat) : State :=
  let s := s.setGroup ga 1 (groupWord s ga 1 + 1)
  if groupMembers s ga ≤ groupWord s ga 1 then s.completePhase ga else s

/-- GLEAVE (R148). -/
def State.leaveGroup (s : State) (ga : Nat) : State :=
  let m := groupMembers s ga
  let s := if 0 < m then s.setMembers ga (m - 1) else s
  if 0 < groupWord s ga 1 ∧ groupMembers s ga ≤ groupWord s ga 1 then s.completePhase ga else s

/-- Whether a request can be performed now: its word is in the right state (R128), also on a poisoned line, or its
condition holds or its line is poisoned (R146, R148); on a failed pseudo-channel every request can (R384), and in a sealed
allocation, which reads 0, every one but a monitor or barrier wait that 0 does not satisfy (R450). -/
def AtomReq.ready (s : State) (r : AtomReq) : Bool :=
  if r.hidden s then
    match r.op with
    | .monw _ cond cmp => monHolds cond 0 cmp
    | .barWait _ ph => ph != 0
    | .lds _ _ | .ldf _ _ | .sts _ _ _ | .amo _ _ _ _ _ | .feget _ | .feset _ | .gjoin _ | .gleave | .arrive _ | .drop _ => true
  else r.failed s ||
    match r.op with
    | .lds _ _ | .ldf _ _ => s.full r.ga
    | .sts _ _ _ => !s.full r.ga
    | .monw _ cond cmp => r.bad s || monHolds cond (BitVec.ofNat 64 (memNat s.mem r.ga 8)) cmp
    | .barWait _ ph => r.bad s || groupWord s r.ga 2 != ph.toNat
    | .amo _ _ _ _ _ | .feget _ | .feset _ | .gjoin _ | .gleave | .arrive _ | .drop _ => true

/-- Performs a request at a poisoned word (R128, R139, R146, R150, R384): data 0 or status OK, counted. Of STS, FEGET and
FESET at a poisoned line of a port that has not failed the spec says less: the model drops the data of an STS, answers OK
and leaves the bit as it stands, and performs FEGET and FESET on the bit and counts nothing (log 25). -/
def State.performBad (s : State) (r : AtomReq) : State :=
  let c (s : State) : State := s.countHome r.ga 0
  match r.op with
  | .amo _ _ a _ _ => (c s).answer r (if r.dropTrap then trapFill r [.g a] else prodFill r [.g a 0])
  | .lds a st => ((c s).putFull r.ga false).answer r
      (if r.dropTrap then trapFill r [.g a, .g st] else prodFill r (bothWrites s a st 0 0))
  | .ldf a st => (c s).answer r (if r.dropTrap then trapFill r [.g a, .g st] else prodFill r (bothWrites s a st 0 0))
  | .sts _ st _ => (s.countHome r.ga (if (s.homeAt r.ga).failed then 0 else 1)).answer r
      { (prodFill r [.g st 0]) with ends := none }
  | .feget _ => if r.failed s then (c s).answer r (waitFill r 0) else s.answer r (waitFill r (if s.full r.ga then 1 else 0))
  | .feset b => if r.failed s then c s else s.putFull r.ga b
  | .monw _ _ _ => (c s).answer r (if r.dropTrap then trapFill r [] else waitFill r 0)
  | .gjoin a => (c s).answer r (if r.dropTrap then trapFill r [.g a] else waitFill r 0)
  | .gleave => if r.dropTrap then (c s).answer r (trapFill r []) else c s
  | .arrive a => (c s).answer r (if r.dropTrap then trapFill r [.g a] else waitFill r 0)
  | .drop a => (c s).answer r (if r.dropTrap then trapFill r [.g a] else waitFill r 0)
  | .barWait _ _ => (c s).answer r (if r.dropTrap then trapFill r [] else waitFill r 0)

/-- Performs a request whose word is in the right state, as one indivisible step (R128, R139, R146, R148). A CAS that
succeeds writes the old value back, extended from its size, as the pseudocode of R139 has it; its prose says that the
value is written back only when the compare fails (log 81). -/
def State.performGood (s : State) (r : AtomReq) : State :=
  let free1 (s : State) (a c : BitVec 5) : State := if a = c ∧ a ≠ 0 then { s with free := s.free + 1 } else s
  match r.op with
  | .amo op w a opnd cmp =>
    let n := if w then 4 else 8
    let old : Word := BitVec.ofNat 64 (memNat s.mem r.ga n)
    let eq := old.toNat == cmp.toNat % 2 ^ (8 * n)
    let s := if op = 9 ∧ !eq then s else s.putBytes r.ga (leBytes n (amoApply op w old opnd).toNat)
    (s.putFull r.ga true).answer r (prodFill r [.g a (amoResult op w old)])
  | .lds a c =>
    (free1 (s.putFull r.ga false) a c).answer r
      (prodFill r (bothWrites s a c (BitVec.ofNat 64 (memNat s.mem r.ga 8)) 0))
  | .ldf a c =>
    (free1 s a c).answer r (prodFill r (bothWrites s a c (BitVec.ofNat 64 (memNat s.mem r.ga 8)) 0))
  | .sts _ c d =>
    ((s.putBytes r.ga (leBytes 8 d.toNat)).putFull r.ga true).answer r { (prodFill r [.g c 0]) with ends := none }
  | .feget _ => s.answer r (waitFill r (if s.full r.ga then 1 else 0))
  | .feset b => s.putFull r.ga b
  | .monw _ _ _ => s.answer r (waitFill r 0)
  | .gjoin _ =>
    let m := groupMembers s r.ga
    let s := s.fillWords r.ga 64
    if m = 2 ^ 32 - 1 then s.answer r (waitFill r (BitVec.allOnes 64))
    else (s.setMembers r.ga (m + 1)).answer r (waitFill r (BitVec.ofNat 64 (groupWord s r.ga 2)))
  | .gleave =>
    let s := (s.fillWords r.ga 64).leaveGroup r.ga
    if r.dropTrap then s.answer r (waitFill r 0) else s
  | .arrive _ =>
    ((s.fillWords r.ga 64).arrive r.ga).answer r (waitFill r (BitVec.ofNat 64 (groupWord s r.ga 2)))
  | .drop _ =>
    (((s.fillWords r.ga 64).setGroup r.ga 3 (groupWord s r.ga 3 + 1)).arrive r.ga).answer r
      (waitFill r (BitVec.ofNat 64 (groupWord s r.ga 2)))
  | .barWait _ _ => (s.fillWords r.ga 64).answer r (waitFill r 0)

/-- Performs a request that the aperture hides (R450): it reads 0, with status OK, and writes nothing (log 101). -/
def State.performHidden (s : State) (r : AtomReq) : State :=
  match r.op with
  | .amo _ _ a _ _ => s.answer r (prodFill r [.g a 0])
  | .lds a st | .ldf a st => s.answer r (prodFill r (bothWrites s a st 0 0))
  | .sts _ st _ => s.answer r { (prodFill r [.g st 0]) with ends := none }
  | .feset _ => s
  | .gleave => if r.dropTrap then s.answer r (waitFill r 0) else s
  | .feget _ | .monw _ _ _ | .gjoin _ | .arrive _ | .drop _ | .barWait _ _ => s.answer r (waitFill r 0)

/-- Performs a request at its home (R129, R138). -/
def State.perform (s : State) (r : AtomReq) : State :=
  if r.hidden s then s.performHidden r else if r.bad s then s.performBad r else s.performGood r

/-- Serves the parked requests of a home that `sel` names and that can now be performed, in parking order
(R129). -/
def State.serve (s : State) (h : Nat) (sel : AtomReq → Bool) : Nat → State
  | 0 => s
  | fuel + 1 =>
    match (s.home h).parked.find? fun r => sel r && r.ready s with
    | none => s
    | some r =>
      (((s.modHome h fun x => { x with parked := x.parked.erase r }).perform r).serve h sel fuel)

/-- Whether a parked request waits for its word to be full, to be empty, or watches its line. -/
def AtomOp.wantsFull (o : AtomOp) : Bool := match o with | .lds _ _ | .ldf _ _ => true | _ => false
def AtomOp.wantsEmpty (o : AtomOp) : Bool := match o with | .sts _ _ _ => true | _ => false
def AtomOp.watches (o : AtomOp) : Bool := match o with | .monw _ _ _ | .barWait _ _ => true | _ => false

/-- The first request of a kind parked on a word (R129). -/
def parkedOn (s : State) (ga : Nat) (f : AtomOp → Bool) : Option AtomReq :=
  (s.homeAt ga).parked.find? fun r => r.ga / 8 == ga / 8 && f r.op

/-- A parked request is served: it leaves the list and is performed. -/
def State.unpark (s : State) (r : AtomReq) : State :=
  (s.modHome (homeOf r.ga) fun x => { x with parked := x.parked.erase r }).perform r

/-- A word became full (R129): each parked LDF is served, and the first LDS ends the walk. -/
def State.walkFull (s : State) (ga : Nat) : Nat → State
  | 0 => s
  | fuel + 1 =>
    match parkedOn s ga AtomOp.wantsFull with
    | none => s
    | some r =>
      match r.op with
      | .lds _ _ => s.unpark r
      | _ => (s.unpark r).walkFull ga fuel

/-- A word became empty (R129): the first parked STS fills it, and the walk goes on as above. -/
def State.walkEmpty (s : State) (ga : Nat) : State :=
  match parkedOn s ga AtomOp.wantsEmpty with
  | none => s
  | some r => (s.unpark r).walkFull ga (s.homeAt ga).parked.length

/-- What the words of an access do to the requests parked on them, when the access changed their bits (R124, R129): `old`
is the state before it. -/
def State.rewoken (s old : State) (ga n : Nat) : State :=
  (List.range ((ga % 8 + n + 7) / 8)).foldl (fun s i =>
    let w := ga / 8 * 8 + 8 * i
    match old.full w, s.full w with
    | false, true => s.walkFull w (s.homeAt w).parked.length
    | true, false => s.walkEmpty w
    | true, true | false, false => s) s

/-- The monitors and barrier waits of the lines of an access are tested (R146, R148), and those of a scratchpad. -/
def State.tested (s : State) (ga n : Nat) : State :=
  let s := s.serve (homeOf ga) (fun r => r.op.watches && decide (r.ga / 64 ≥ ga / 64 ∧ r.ga / 64 ≤ (ga + n - 1) / 64))
    (s.homeAt ga).parked.length
  match rangeOf (gaPa ga) with
  | .scratch c => s.testMonS (gaDev ga * 1024 + c)
  | .hbm _ | .tier2 _ | .host | .control | .none => s

/-- After an access of `n` bytes, which began in the state `old`: serves the requests parked on its words, and tests the
monitors and barrier waits of its lines (R124, R129, R146, R148). -/
def State.wrote (s old : State) (ga n : Nat) : State := (s.rewoken old ga n).tested ga n

/-- Combines a line into its home, one indivisible step per word (R141); at a poisoned or failed home it is
dropped and counted. With no element it only has the home serve what is parked there. -/
def State.combineLine (s : State) (l : RedLine) : State :=
  if l.els.isEmpty then s.serve (homeOf (l.line * 64)) (fun r => r.ga / 64 == l.line) (2 * (s.homeAt (l.line * 64)).parked.length)
  else if s.bad (l.line * 64) then s.countHome (l.line * 64) 1
  else if l.barred s then s
  else l.els.foldl (fun s e => (s.combineEl l e).wrote s (l.line * 64 + l.bytes * e.1) l.bytes) s

/-- Recalls a line: every update-only copy is combined, those on their way before those that the cores hold, which come
in ascending core id (R141, R354). -/
def State.recall (s : State) (line : Nat) : State :=
  match copiesOf s line with
  | [] => s
  | ls => ls.foldl (fun s l => s.combineLine l) (s.uncopied line)

/-- What a memory port stores for a line of a page of a sealed space: one XTS data unit with the tweak PA[43:6]; and the
TAG beside it (R355, R450). What a program reads is the plain line, `State.mem`. -/
def sealedLine (keyId pa : Nat) (line : List Byte) : List Byte :=
  aesXts (exactly 32 (Config.pageKey keyId 0)) (exactly 32 (Config.pageKey keyId 1)) (pa / 64) line
def sealedTag (keyId pa : Nat) (line : List Byte) : List Byte :=
  (sha512 (exactly 32 (Config.pageKey keyId 2) ++ leBytes 8 (pa / 64) ++ sealedLine keyId pa line)).take 2

/-- The fill of a read (R121, R122, R190). -/
def readFill (p gen n : Nat) (t : Target) (va : Word) (drop bad : Bool) (data : Nat) : Fill :=
  let z := endFill p gen 0
  match t with
  | .g a sz =>
    if bad && drop then { z with writes := [.keep (.g a)], ends := none, cause := some { code := 7, detail := 1, tval := va } }
    else { z with writes := [.g a (ldExtend sz (if bad then 0 else data))], ends := if drop then some 0 else none }
  | .v reg e j =>
    { z with ends := none, el := some (reg, e, j, (if bad then 0 else data) % 2 ^ (8 * n), if bad then some va else none) }

/-- PORT_READ (R370): the line is recalled; a poisoned line reads 0 and is counted. -/
def execPortRead (n : Nat) (s : State) : Out :=
  match s.arriving n with
  | some { dst := dst, src := src, own := some o, body := .read ga sz t va drop pois line, .. } =>
    match s.charge ga sz with
    | none => .next (s.holdPort ga n)
    | some s =>
      let s := (s.took n).recall (ga / 64)
      let bad := pois || s.bad ga
      let s := if bad then s.countHome ga 0 else s
      let data := if sealedFrom s ga (some o.asid) then 0 else memNat s.mem ga sz
      let s := match line with
        | some (pl, via) =>
          if bad then s
          else s.modCore pl fun c =>
            let x : RoLine :=
              { data := BitVec.ofNat 512 (memNat s.mem (ga / 64 * 64) 64)
                via := via :: (((mget c.roLines (ga / 64)).map RoLine.via).getD []) }
            { c with roLines := keepLine 2048 c.roLines (ga / 64) x }
        | none => s
      .next (s.post dst src none (.fill (readFill o.p o.gen sz t va drop bad data)))
  | _ => .next s

/-- PORT_WRITE (R370): dropped and counted at a poisoned line; else performed, every word full, and the
requests parked there served. -/
def execPortWrite (n : Nat) (s : State) : Out :=
  match s.arriving n with
  | some { own := o, body := .write ga bs pois, .. } =>
    match s.charge ga bs.length with
    | none => .next (s.holdPort ga n)
    | some s =>
      let s := s.took n
      if pois || s.bad ga then .next (s.countHome ga 1)
      else if sealedFrom s ga (o.map (·.asid)) then .next s
      else .next (((s.putBytes ga bs).fillWords ga bs.length).wrote s ga bs.length)
  | _ => .next s

/-- Parks a request, or counts an overflow and lets the requester repeat (R129). -/
def State.parkReq (s : State) (r : AtomReq) : State :=
  let h := homeOf r.ga
  if (s.byOwn r.own.p r.own.gen).isNone then s
  else if (s.home h).parked.length < 256 then s.modHome h fun x => { x with parked := x.parked ++ [r] }
  else (s.countHome r.ga 2).post (homeAgent r.ga) r.core (some r.own) (.refused { r with retries := 0 })

/-- PORT_ATOMIC (R370): performs the request, or refuses it while retries are left, or parks it (R129). -/
def execPortAtomic (n : Nat) (s : State) : Out :=
  match s.arriving n with
  | some { body := .atomic r, .. } =>
    match s.charge r.ga 8 with
    | none => .next (s.holdPort r.ga n)
    | some s =>
      let s := (s.took n).recall (r.ga / 64)
      if r.ready s then .next ((s.perform r).wrote s r.ga 64)
      else if pastDeadline s r.deadline || r.retries ≠ 0 then
        .next (s.post (homeAgent r.ga) r.core (some r.own) (.refused r))
      else .next (s.parkReq r)
  | _ => .next s

/-- What a timed request that expires writes (R128, R137): the destination keeps its contents. Where LDS or LDF names one
register for both, which the spec leaves open, the status is written (log 24). -/
def timeoutFill (r : AtomReq) : Fill :=
  match r.op with
  | .lds a c | .ldf a c => prodFill r [.keep (.g a), .g c 1]
  | .sts _ c _ => { (prodFill r [.g c 1]) with ends := none }
  | .monw _ _ _ | .barWait _ _ | .amo _ _ _ _ _ | .feget _ | .feset _ | .gjoin _ | .gleave | .arrive _ | .drop _ =>
    waitFill r (BitVec.ofNat 64 stTimeout)

/-- FE_REFUSAL (R129): the requester repeats the request, or a timed one expires. -/
def execFeRefusal (n : Nat) (s : State) : Out :=
  match s.arriving n with
  | some { body := .refused r, .. } =>
    let s := s.took n
    if (s.byOwn r.own.p r.own.gen).isNone then .next s
    else if pastDeadline s r.deadline then .next (s.applyFill r.core (timeoutFill r))
    else .next (s.sendAtom { r with retries := r.retries - 1 })
  | _ => .next s

/-- PORT_COMBINE (R370). -/
def execPortCombine (n : Nat) (s : State) : Out :=
  match s.arriving n with
  | some { body := .combine l, .. } =>
    match (if l.els.isEmpty then some s else s.charge (l.line * 64) 64) with
    | none => .next (s.holdPort (l.line * 64) n)
    | some s => .next ((s.took n).combineLine l)
  | _ => .next s

/-- PORT_RECALL (R141): a port recalls every core's copy of a line. -/
def execPortRecall (home line : Nat) (s : State) : Out :=
  if homeOf (line * 64) = home then .next (s.recall line) else .next s

/-- An access of the host to a word of device memory, at its home (R443): one to a page of a sealed space is refused and
counted at the serving core, and a read of it answers all-ones with poison; a write sets the word full. -/
def State.cxl (s : State) (src ga : Nat) (wr : Option (List Byte)) : State :=
  if sealedPage s ga then
    let s := s.count (gaDev ga) 6 (coreOf src - 768) 1 1
    match wr with
    | none => { s with hostData := BitVec.allOnes 64, hostPoison := true }
    | some _ => s
  else
    let s := s.recall (ga / 64)
    match wr with
    | none =>
      if s.bad ga then { s.countHome ga 0 with hostData := 0, hostPoison := false }
      else { s with hostData := BitVec.ofNat 64 (memNat s.mem ga 8), hostPoison := false }
    | some bs =>
      if s.bad ga then s.countHome ga 1 else ((s.putBytes ga bs).putFull ga true).wrote s ga 8

/-- PORT_HOST (R370): an access to host memory at the service core (R343), or an access of the host to device memory at its
home (R443). -/
def execPortHost (n : Nat) (s : State) : Out :=
  match s.arriving n with
  | some { src := src, dst := dst, own := o, body := .host ga sz wr t drop pois, .. } =>
    if rangeOf (gaPa ga) ≠ .host then
      match s.charge ga sz with
      | none => .next (s.holdPort ga n)
      | some s => .next ((s.took n).cxl src ga wr)
    else
    let s := s.took n
    match wr, t, o with
    | some bs, _, _ => .next (if pois then s.countHome ga 1 else s.putBytes ga bs)
    | none, some (t, va), some o =>
      let s := if pois then s.countHome ga 0 else s
      .next (s.post dst src none (.fill (readFill o.p o.gen sz t va drop pois (memNat s.mem ga sz))))
    | none, _, _ => .next s
  | _ => .next s

/-- The millisecond of TIMEB in which a home stands (R373). -/
def homeMs (s : State) (home : Nat) : Nat := s.timebOf (home / 2048) / 1000000

/-- The die of a home. -/
def homeDie (home : Nat) : Nat := if home % 2048 < 768 then home % 2048 / 192 else home % 2048 % 4

/-- The budget that comes into force at a port (R373): that of the arbiter, lowered while the port's die is hot (R458), and
never below 4 MiB; while the arbiter is out of service the last one stays in force (R455). -/
def budgetOf (s : State) (home budget : Nat) : Nat :=
  let dev := home / 2048
  let out := (mget (s.device dev).parts (7 * 4096)).any fun x => !x.inService
  match (if out then (s.home home).budget else none) with
  | some b => b
  | none =>
    let b := if (mget (s.device dev).hot (homeDie home)).isSome then min budget (Config.hotBudget home (homeMs s home)) else budget
    max b (4 * 2 ^ 20)

/-- BUDGET_BOUNDARY (R373): TIMEB has passed a multiple of a millisecond: a new budget is in force, less what was
borrowed, and the time that requests were held is counted. -/
def execBudgetBoundary (home budget : Nat) (s : State) : Out :=
  let x := s.home home
  let b := budgetOf s home budget
  if homeMs s home ≤ x.ms then .next s
  else
    let s := match x.heldSince with
      | none => s
      | some t => s.count (home / 2048) 2 (home % 2048) 3 (s.timeb - t)
    .next (s.setHome home
      { x with budget := some b, left := b - x.borrowed, borrowed := 0, heldSince := none, ms := homeMs s home })

end Sys2Proof.Machine
end

