-- ==== Sys2Proof/Machine/Sync.lean ====
section
/-! DEFINITION. Atomics, reductions, delegation, fences, monitors and barriers: majors 0x1A and 0x1B
(R138 to R150). -/

namespace Sys2Proof.Machine

/-- The ordering of an atomic (R140). -/
def ordTouch (o : AtomOrd) : Touch :=
  match o with
  | .relaxed => .plain
  | .aq => .acquire
  | .rl => .release
  | .ar => .both

/-- AMO and CAS (R139); `d` selects 8 bytes. -/
def atomic (op : Nat) (a b c : BitVec 5) (o : AtomOrd) (d : Bool) (s : State) : Out :=
  issue { srcs := if op = 9 then [.g b, .g c, .g a] else [.g b, .g c], dsts := [.g a], touch := ordTouch o } (fun k p s =>
    let va := p.rg b
    s.access k p false va (if d then 8 else 4) .write fun s ga leaf =>
      s.notHost k p va ga
        ((s.sendAtom (atomReq k p ga leaf va (.amo op (!d) a (p.rg c) (p.rg a)) (ordTouch o) 0 none)).produced k p
          (p.eg a))) s

/-- Atomic operation 0 of R138. -/
def execAmoAdd (a b c : BitVec 5) (o : AtomOrd) (d : Bool) (s : State) : Out := atomic 0 a b c o d s

/-- Atomic operation 1 of R138. -/
def execAmoAnd (a b c : BitVec 5) (o : AtomOrd) (d : Bool) (s : State) : Out := atomic 1 a b c o d s

/-- Atomic operation 2 of R138. -/
def execAmoOr (a b c : BitVec 5) (o : AtomOrd) (d : Bool) (s : State) : Out := atomic 2 a b c o d s

/-- Atomic operation 3 of R138. -/
def execAmoXor (a b c : BitVec 5) (o : AtomOrd) (d : Bool) (s : State) : Out := atomic 3 a b c o d s

/-- Atomic operation 4 of R138. -/
def execAmoMin (a b c : BitVec 5) (o : AtomOrd) (d : Bool) (s : State) : Out := atomic 4 a b c o d s

/-- Atomic operation 5 of R138. -/
def execAmoMax (a b c : BitVec 5) (o : AtomOrd) (d : Bool) (s : State) : Out := atomic 5 a b c o d s

/-- Atomic operation 6 of R138. -/
def execAmoMinu (a b c : BitVec 5) (o : AtomOrd) (d : Bool) (s : State) : Out := atomic 6 a b c o d s

/-- Atomic operation 7 of R138. -/
def execAmoMaxu (a b c : BitVec 5) (o : AtomOrd) (d : Bool) (s : State) : Out := atomic 7 a b c o d s

/-- Atomic operation 8 of R138. -/
def execAmoSwap (a b c : BitVec 5) (o : AtomOrd) (d : Bool) (s : State) : Out := atomic 8 a b c o d s

/-- Atomic operation 9 of R138. -/
def execCas (a b c : BitVec 5) (o : AtomOrd) (d : Bool) (s : State) : Out := atomic 9 a b c o d s

/-- Updates a reduction line of a core (R141): a line held under another operation or size, or for another space, is combined first;
with 64 lines in use, the one least recently used is. -/
def State.reduce (s : State) (pl ga op : Nat) (w : Bool) (x : Word) (leaf : Nat × Nat × Nat) : State :=
  let n := if w then 4 else 8
  let line := ga / 64
  let i := ga % 64 / n
  let ls := (s.core pl).redLines
  let same (l : RedLine) : Bool := l.line == line && l.op == op && l.w == w && l.via.all (·.1 == leaf.1)
  let out := ls.filter fun l => l.line == line && !same l
  let keep := ls.filter fun l => l.line != line
  let cur := (ls.find? same).getD { line := line, op := op, w := w, els := [] }
  let x := if w then (x.setWidth 32).setWidth 64 else x
  let v := match mget cur.els i with
    | none => x
    | some y => redApply op w y x
  let new := { cur with els := mset cur.els i v, via := if cur.via.contains leaf then cur.via else leaf :: cur.via }
  let evict := keep.drop 63
  (out ++ evict).foldl (fun s l => s.post pl (homeAgent (l.line * 64)) none (.combine l))
    (s.modCore pl fun c => { c with redLines := new :: keep.take 63 })

/-- RED (R141). Through a leaf with POIS = 1 the spec does not say when the dropped update counts: the model drops it as it
issues, and counts one poison write for each RED (log 100). -/
def reduction (op : Nat) (b c : BitVec 5) (d : Bool) (s : State) : Out :=
  issue { srcs := [.g b, .g c], touch := .plain } (fun k p s =>
    let va := p.rg b
    s.access k p false va (if d then 8 else 4) .write fun s ga leaf =>
      s.notHost k p va ga
        (if lineWaits s k p.gen ga then s.stallOn k p .order none
         else
           let s := if leafPois leaf then s.countHome ga 1 else s.reduce (placeOf k) ga op (!d) (p.rg c) (viaLeaf s (placeOf k) p.asid va)
           s.fin k p)) s

/-- redAdd (R141). -/
def execRedAdd (b c : BitVec 5) (d : Bool) (s : State) : Out := reduction 0 b c d s

/-- redFadd (R141). -/
def execRedFadd (b c : BitVec 5) (d : Bool) (s : State) : Out := reduction 1 b c d s

/-- redMin (R141). -/
def execRedMin (b c : BitVec 5) (d : Bool) (s : State) : Out := reduction 2 b c d s

/-- redMax (R141). -/
def execRedMax (b c : BitVec 5) (d : Bool) (s : State) : Out := reduction 3 b c d s

/-- DELEG (R142). The spec gives neither the access kind nor the alignment of its address: the model translates it as a
READ of one byte (log 82). -/
def execDeleg (a b c : BitVec 5) (s : State) : Out :=
  issue { srcs := [.g b, .g c, .g 4, .g 5, .g 6, .g 7], dsts := [.g a], touch := .release } (fun k p s =>
    let va := p.rg b
    s.access k p false va 1 .read fun s ga _ =>
      match rangeOf (gaPa ga) with
      | .hbm core =>
        let pl := gaDev ga * 1024 + core
        let call : Call :=
          { words := [va, p.rg c, p.rg 4, p.rg 5, p.rg 6, p.rg 7], numctl := 0, p := k, gen := p.gen, reg := a,
            asid := p.asid, prio := p.eff }
        (s.post (placeOf k) pl none (.deleg pl call)).fin k (p.eg a)
      | .tier2 _ | .scratch _ | .host | .control | .none => s.trap k p false 6 2 va) s

/-- FENCE (R145): kind bits RR, RW, WR and WW from bit 0. It waits for the reads where RR or RW is set and for the writes
where WR or WW is set, of every later access alike (log 5); WR or WW combines the lines of its scope (R141). -/
def execFence (scope : Scope) (kinds : BitVec 4) (s : State) : Out :=
  issue { scope := scope
          fence := if kinds = 0 then none else some (kinds.extractLsb' 0 2 != 0, kinds.extractLsb' 2 2 != 0) }
    (fun k p s => s.fin k p) s

/-- The condition codes of MONW (R146). -/
def monCode (n : MonCond) : BitVec 2 :=
  match n with
  | .eq => 0
  | .geu => 1
  | .ne => 2

/-- MONW (R146): the slot is given up at once. -/
def execMonw (a b c : BitVec 5) (t : Bool) (n : MonCond) (mem : Bool) (s : State) : Out :=
  issue { srcs := [.g b, .g c], dsts := [.g a], touch := .acquire, noRoutine := true,
          word := encR 0x1B a b c (BitVec.ofBool t ++ 1#5 ++ 0#2 ++ monCode n ++ BitVec.ofBool mem) } (fun k p s =>
    let va := p.rg b
    if mem then
      s.access k p false va 1 .read fun s ga leaf =>
        s.notHost k p va ga
          (((s.sendAtom (atomReq k p (ga / 8 * 8) leaf va (.monw a n (p.rg c)) .acquire 0 (deadlineOf s k p t))).waitIn k p
            .home a 0 (deadlineOf s k p t)).block k)
    else
      s.withSpad k p false va
        (let o := scratchOff p va 0 8
         if monHolds n (BitVec.ofNat 64 (spadNat s k p o 8)) (p.rg c) then s.fin k (p.wg a 0)
         else (s.waitIn k p (.monS o n (p.rg c)) a 0 (deadlineOf s k p t)).block k)
        (gas := [spadGa k p (scratchOff p va 0 8)])) s

/-- A group instruction that waits for its answer (R147, R148). -/
def groupOp (op : AtomOp) (a b : BitVec 5) (t : Touch) (kind : Access) (tok : List RegRef) (deadline : Nat → Proc → State → Option Nat)
    (word : IWord) (mk : Proc → AtomOp) (s : State) : Out :=
  issue { srcs := .g b :: tok, dsts := [.g a], touch := t, noRoutine := true, word := word } (fun k p s =>
    let va := p.rg b
    s.access k p false va 64 kind fun s ga leaf =>
      s.notHost k p va ga
        (let r := atomReq k p ga leaf va (mk p) t 0 (deadline k p s)
         if op = .gleave then
           if p.dropTrap then (s.sendAtom r).waitIn k p .load 0 0 none else (s.sendAtom r).fin k p
         else (s.sendAtom r).waitIn k p .home a 0 (deadline k p s))) s

/-- GJOIN (R148). -/
def execGjoin (a b : BitVec 5) (s : State) : Out :=
  groupOp (.gjoin a) a b .plain .write [] (fun _ _ _ => none) (encR 0x1B a b 0 0x040) (fun _ => .gjoin a) s

/-- GLEAVE (R148). -/
def execGleave (b : BitVec 5) (s : State) : Out :=
  groupOp .gleave 0 b .plain .write [] (fun _ _ _ => none) (encR 0x1B 0 b 0 0x060) (fun _ => .gleave) s

/-- BAR.ARRIVE (R148), a release. -/
def execBarArrive (a b : BitVec 5) (s : State) : Out :=
  groupOp (.arrive a) a b .release .write [] (fun _ _ _ => none) (encR 0x1B a b 0 0x080) (fun _ => .arrive a) s

/-- BAR.DROP (R148), a release. -/
def execBarDrop (a b : BitVec 5) (s : State) : Out :=
  groupOp (.drop a) a b .release .write [] (fun _ _ _ => none) (encR 0x1B a b 0 0x0A0) (fun _ => .drop a) s

/-- BAR.WAIT (R148), an acquire. -/
def execBarWait (a b c : BitVec 5) (t : Bool) (s : State) : Out :=
  groupOp (.barWait a 0) a b .acquire .read [.g c] (fun k p s => deadlineOf s k p t)
    (encR 0x1B a b c (BitVec.ofBool t ++ 0x0C0#10)) (fun p => .barWait a (p.rg c)) s

end Sys2Proof.Machine
end

