-- ==== Sys2Proof/Machine/Process.lean ====
section
/-! DEFINITION. Creating, ending and joining processes: major 0x1C (R151 to R158), placement (R296, R297),
steals (R308 to R310) and child ends (R311). -/

namespace Sys2Proof.Machine

/-- Fields of a task-type entry (R98). -/
def ttEntry (e : BitVec 512) : Word := e.extractLsb' 0 64
def ttSplog (e : BitVec 512) : Nat := (e.extractLsb' 128 8).toNat
def ttPrio (e : BitVec 512) : Nat := (e.extractLsb' 136 8).toNat
def ttPlace (e : BitVec 512) : Nat := (e.extractLsb' 144 8).toNat
def ttFlag (e : BitVec 512) (i : Nat) : Bool := e.getLsbD (152 + i)
def ttTarget (e : BitVec 512) : Nat := (e.extractLsb' 160 16).toNat
def ttInit (e : BitVec 512) : Nat := (e.extractLsb' 176 16).toNat
def ttTvec (e : BitVec 512) : Word := e.extractLsb' 192 64

/-- The placement set (R296), in ascending core id. -/
def placeSet (e : BitVec 512) : List Nat :=
  match ttPlace e with
  | 0 => [ttTarget e]
  | 1 => (List.range 8).map (· + 8 * ttTarget e)
  | 2 => (List.range 192).map (· + 192 * ttTarget e)
  | _ => List.range 768

/-- Inserts a core by distance, before those as far away (R297). -/
def insertBy (at_ : Nat) (c : Nat) : List Nat → List Nat
  | [] => [c]
  | x :: r => if dist at_ c ≤ dist at_ x then c :: x :: r else x :: insertBy at_ c r

/-- The cores of a set in the order of R297, from the issuing core (a service core counts from 192 d). -/
def spawnOrder (core : Nat) (set : List Nat) : List Nat :=
  let from_ := if core < 768 then core else 192 * (core - 768)
  let rest := (set.filter (· != core)).foldr (fun c l => insertBy from_ c l) []
  if set.contains core then core :: rest else rest

/-- The bytes of a new unit save area (R27, R252): m0 to m7 zero and full, an empty yard with clock words of DIV 2. -/
def State.newArea (s : State) (ga : Nat) : State :=
  ((s.zero ga 0x3000).putBytes (ga + 0x28A0) (List.replicate 4 (leBytes 8 2)).flatten).putBytes (ga + 0x2900) [0xFF]

/-- The channel of a d63: a message send end at the memory server of a core (R21, log 27). -/
def serverChan (pl k gen asid : Nat) : Chan :=
  { typ := .message, cap := 0, ety := none, rows := 0, rowb := 0, asid := asid, q := [], rwait := none, nextr := 0,
    win := .none, pend := [], stamps := [], recv := .server pl, send := .proc k gen 63, nexts := 0, credit := 0,
    stamp := 1, sstate := .opened, rflag := false, rclosed := false, stage := 0, moving := false, held := [],
    closing := none, copying := false }

/-- The doors of a process at creation (R20 to R22): d62 and d63, the send ends to the fault channel of its space and to its
memory server. The send ends of one fault channel are told apart by `fid`. -/
def fixedDoors (fault server : Nat) : Map Door :=
  [(62, { chan := fault, isSend := true, bindCap := false, marks := 0, fid := server }),
   (63, { chan := server, isSend := true, bindCap := false, marks := 0 })]

/-- A reserved process of a core and space (R142, R337, log 21), with its d62 and d63 (R21). -/
def State.reserve (s : State) (pl asid : Nat) (kind : ProcKind) : State :=
  if (s.procsAt pl).any fun e => e.2.asid == asid && e.2.kind == kind then s
  else
    match freeEntry s pl true with
    | none => s
    | some e =>
      let c := s.core pl
      let gen := nextGen ((mget c.gens e).getD 0)
      let prio := if kind = .inbox then (mget c.inboxPrio asid).getD 6 else 0
      let d63 := s.nextChan
      let p : Proc :=
        { Proc.reset with
          gen := gen, kind := kind, asid := asid, prior := BitVec.ofNat 64 (0x10001 * prio), run := .blocked, started := true
          doors := fixedDoors (s.space asid).faultChan d63 }
      let s := ({ s with nextChan := d63 + 1 } : State).setChan d63 (serverChan pl (pl * 4096 + e) gen asid)
      (s.setCore pl { c with gens := mset c.gens e gen }).setProc (pl * 4096 + e) p

/-- The new process of a task record (R152, R35). -/
def childProc (c : Child) (e : BitVec 512) (gen base usa : Nat) : Proc :=
  let sup := ttFlag e 3
  { Proc.reset with
    gen := gen
    pc := ttEntry e
    pstat := BitVec.ofNat 64 ((if sup then 1 else 0) + (if c.autop then 16 else 0) + (if c.dropTrap then 32 else 0))
    numctl := c.numctl
    epol := c.epol
    tvec := if ttTvec e ≠ 0 then ttTvec e else c.tvec
    prior := BitVec.ofNat 64 (0x10001 * ttPrio e)
    g := ((Vector.replicate 32 (0 : Word)).set 1 c.g1).set 2 c.parent |>.set 3 (BitVec.ofNat 64 c.ttype)
    asid := c.asid
    ttype := c.ttype
    maxPrio := ttPrio e
    tile := ttFlag e 1
    yard := ttFlag e 2
    splog := ttSplog e
    spBase := base
    usa := usa
    parent := c.parent
    join := c.join }

/-- Why a core cannot take a process for want of a context (R299): the counter, and a ring-page note. -/
def State.cannotSpill (s : State) (pl asid : Nat) (spawner : Word) (why : SpillRoom) : State :=
  match why with
  | .ok _ => s
  | .full => s.countCore pl 1
  | .unmapped slot =>
    let base := match mget (s.core pl).ovring asid with | none => 0 | some (b, _) => b
    let va := base + BitVec.ofNat 64 (4096 * slot)
    (s.countCore pl 2).faultToSpace pl asid
      (faultWords 5 1 5 false spawner va (BitVec.ofNat 64 (coreOf pl)) (s.timebOf (devOf pl)) 0 0 0)

/-- Makes room for a process of priority `prio` (R299): whether it must be written to the ring itself. -/
def State.makeRoom (s : State) (pl asid prio : Nat) (spawner : Word) : State × Option (Option Nat) :=
  match spillPlan s pl asid prio with
  | .none => (s, some none)
  | .self slot => (s, some (some slot))
  | .victim k slot => (s.spill k slot, some none)
  | .cannot a why => (s.cannotSpill pl a spawner why, none)

/-- Whether a core is fenced for a space (R404), or out of service (R455). -/
def coreClosed (s : State) (pl asid : Nat) : Bool :=
  (s.core pl).fenced.contains asid || (mget (s.device (devOf pl)).parts (coreOf pl)).any (fun x => !x.inService)

/-- Enters a process in the table of a core and makes it READY (R294, R297). -/
def State.enter (s : State) (pl e gen : Nat) (p : Proc) (ring : Option Nat) : State :=
  let k := pl * 4096 + e
  let c := s.nextChan
  let q := { p with
    doors := fixedDoors (s.space p.asid).faultChan c
    spilled := ring.map fun i => (p.asid, i) }
  let s := { s with nextChan := c + 1 }
  let s := (s.setChan c (serverChan pl k gen p.asid)).modCore pl fun x => { x with gens := mset x.gens e gen }
  let s := s.setProc k q
  let s := match ring with
    | none => s
    | some slot => s.putRecord k q (p.asid, slot)
  s.makeReady k

/-- Creates the child of a task record on a core that can take it (R152, R296), by the task-type entry that the SPAWN
read (R295): its handle, or none. -/
def State.create (s : State) (pl : Nat) (c : Child) : State × Option Word :=
  let e := c.entry
  let unit := ttFlag e 1 || ttFlag e 2
  match coreClosed s pl c.asid, freeEntry s pl false, freeBlock s pl (ttSplog e),
      (if unit then freeArea s pl c.asid else some 0) with
  | false, some en, some base, some usa =>
    match s.makeRoom pl c.asid (ttPrio e) c.parent with
    | (s, none) => (s, none)
    | (s, some ring) =>
      let gen := nextGen ((mget (s.core pl).gens en).getD 0)
      let s := (s.reserve pl c.asid .inbox).reserve pl c.asid .deleg
      let s := if ttSplog e = 0 then s else s.zero (scratchGa pl base) (2 ^ ttSplog e)
      let s := if unit then s.newArea usa else s
      (s.enter pl en gen (childProc c e gen base usa) ring, some (handleOf (pl * 4096 + en) gen))
  | _, _, _, _ => (s, none)

/-- The answer of a SPAWN: the handle in its B register and the status (R152). -/
def spawnFill (o : Own) (b : BitVec 5) (st : Nat) (h : Word) : Fill :=
  { (endFill o.p o.gen (BitVec.ofNat 64 st)) with writes := [.g b h] }

/-- The B register of a SPAWN in progress. -/
def spawnReg (s : State) (o : Own) : BitVec 5 :=
  match s.byOwn o.p o.gen with
  | none => 0
  | some p =>
    match p.wait with
    | some { kind := .spawn b _, .. } => b
    | _ => 0

/-- Sends the task record on to the next core of its order, or answers FULL and counts it (R152, R297). -/
def State.spawnNext (s : State) (from_ : Nat) (c : Child) (o : Own) : State :=
  match c.order with
  | core :: rest => s.post from_ (devOf (placeOf o.p) * 1024 + core) none
      (.childCreate (devOf (placeOf o.p) * 1024 + core) { c with order := rest } o)
  | [] =>
    (s.countCore (placeOf o.p) 0).post from_ (placeOf o.p) none (.fill (spawnFill o (spawnReg s o) stFull 0))

/-- The oldest request in a mailbox whose thief lies in a set (R309). -/
def stealFor (s : State) (pl : Nat) (set : List Nat) : Option Steal :=
  (s.core pl).mailbox.find? fun r => set.contains (coreOf r.thief) && decide (s.timeb < r.expires)

/-- Whether a core could take the child (R296), without doing so. -/
def canTake (s : State) (pl : Nat) (c : Child) : Bool := (s.create pl c).2.isSome

/-- SPAWN (R152). Its two results are written in the order of the rule's pseudocode, which in one register leaves 0. -/
def execSpawn (a b c : BitVec 5) (n : BitVec 2) (s : State) : Out :=
  issue { srcs := [.g b, .g c], dsts := [.g a], touch := .release, quiet := true, noRoutine := true,
          word := encR 0x1C a b c (0#9 ++ n) } (fun k p s =>
    let pl := placeOf k
    let kind := p.rg b
    let arg := p.rg c
    let (p, a, b) := if a = b then (p.wg a 0, 0, 0) else (p, a, b)
    let bad (st : Nat) (s : State) : State := s.fin k ((p.wg b 0).wg a (BitVec.ofNat 64 st))
    let types := (s.space p.asid).types
    let t := kind.toNat
    match (if t < 4096 then types[t]? else none) with
    | none => bad stBadType s
    | some e =>
      if ttFlag e 3 && !p.smode then bad stBadType s
      else if ((p.joins[n.toNat]?).getD { count := 0, canc := 0, flt := 0 }).count = BitVec.allOnes 32 then
        bad stFull (s.countCore pl 0)
      else
        let child : Child :=
          { asid := p.asid, ttype := t, g1 := arg &&& 0xFFFFFFFFFFFF, parent := selfHandle k p, join := n.toNat,
            autop := p.autop, dropTrap := p.dropTrap, numctl := p.numctl, epol := p.epol, tvec := p.tvec,
            order := spawnOrder (coreOf pl) (placeSet e), victim := none, entry := e }
        let own := ownOf k p .none
        let s := s.waitIn k p (.spawn b n.toNat) a 0 none
        match (if ttFlag e 0 && child.order.head? == some (coreOf pl) && canTake s pl child then stealFor s pl (placeSet e)
               else none) with
        | some r =>
          let s := s.modCore pl fun x => { x with mailbox := x.mailbox.erase r }
          let s := s.modCore r.thief fun x => { x with stealOut := none, stealTried := 0 }
          s.post pl r.thief none (.stealTask r.thief { child with victim := some pl } own)
        | none => s.spawnNext pl child own) s

/-- CHILD_CREATION (R297): a core enters the child, or the record goes on to the next core. -/
def execChildCreation (n : Nat) (s : State) : Out :=
  match s.arriving n with
  | some { body := .childCreate pl c o, .. } =>
    let s := s.took n
    match s.create pl c with
    | (s, some h) => .next (s.post pl (placeOf o.p) none (.fill (spawnFill o (spawnReg s o) 0 h)))
    | (s, none) => .next (s.spawnNext pl c o)
  | _ => .next s

/-- STEAL_ARRIVAL (R309): the thief creates the child, or returns the record. -/
def execStealArrival (n : Nat) (s : State) : Out :=
  match s.arriving n with
  | some { body := .stealTask pl c o, .. } =>
    let s := s.took n
    match s.create pl c with
    | (s, some h) =>
      let s := (s.countCore pl 13).countCore (c.victim.getD pl) 12
      .next (s.post pl (placeOf o.p) none (.fill (spawnFill o (spawnReg s o) 0 h)))
    | (s, none) => .next (s.post pl (placeOf o.p) none (.stealBack (placeOf o.p) c o))
  | _ => .next s

/-- STEAL_RETURNED (R309): the victim creates the child. -/
def execStealReturned (n : Nat) (s : State) : Out :=
  match s.arriving n with
  | some { body := .stealBack pl c o, .. } => .next (((s.took n).countCore pl 15).spawnNext pl { c with victim := none } o)
  | _ => .next s

/-- The next victim of a thief among `ring`, after the last one tried (R308). -/
def nextVictim (ring : List Nat) (last : Nat) : Option Nat :=
  match ring.find? fun c => decide (last < c) with
  | some c => some c
  | none => ring.head?

/-- The cores a thief tries: the rest of its shed, then the rest of its die (R308). -/
def shedRing (core : Nat) : List Nat := (List.range 8).map (· + core / 8 * 8) |>.filter (· != core)
def dieRing (core : Nat) : List Nat := (List.range 192).map (· + core / 192 * 192) |>.filter fun c => c / 8 != core / 8

/-- STEAL_REQUEST (R308): an idle core posts to its next victim's mailbox; a full mailbox refuses. -/
def execStealRequest (place : Nat) (s : State) : Out :=
  let c := s.core place
  let core := coreOf place
  if c.stealOut.isSome || !c.idle || decide (s.timeb < c.idleSince.getD 0 + 1000) || decide (768 ≤ core) then .next s
  else
    let inShed := decide (c.stealTried < 7)
    match nextVictim (if inShed then shedRing core else dieRing core) (if inShed then c.stealVictim else c.stealDie) with
    | none => .next s
    | some v =>
      let tried := if c.stealTried + 1 ≥ 191 then 0 else c.stealTried + 1
      let c := { c with stealTried := tried, stealVictim := if inShed then v else c.stealVictim,
                        stealDie := if inShed then c.stealDie else v }
      let vp := devOf place * 1024 + v
      if (s.core vp).mailbox.length < 8 then
        let r : Steal := { thief := place, expires := s.timeb + 10000 }
        .next ((s.setCore place { c with stealOut := some (vp, r.expires) }).modCore vp fun x =>
          { x with mailbox := x.mailbox ++ [r] })
      else .next (s.setCore place c)

/-- STEAL_EXPIRY (R308, R310): the expired requests of a mailbox go. -/
def execStealExpiry (place : Nat) (s : State) : Out :=
  let gone := (s.core place).mailbox.filter fun r => decide (r.expires ≤ s.timeb)
  let s := s.modCore place fun c => { c with mailbox := c.mailbox.filter fun r => decide (s.timeb < r.expires) }
  .next (gone.foldl (fun s r => (s.countCore r.thief 14).modCore r.thief fun c => { c with stealOut := none }) s)

/-- The end of a process by EXIT (R153): it waits for the pushes in flight toward its windows, then retires; its
scratchpad is freed, or kept (R155). -/
def State.exit (s : State) (k : Nat) (p : Proc) (keep : Option Retained) : State :=
  if p.doors.any fun d => !d.2.isSend && pushesOn s d.2.chan then s.stallOn k p .order none
  else
    let t := (s.clocked k p).endProc k .normal none keep.isSome
    match keep with
    | none => t
    | some r => t.modCore (placeOf k) fun c => { c with retained := c.retained ++ [r] }

/-- EXIT (R153): it gives up the scratchpad and its windows, so that it waits for an open NWAIT (R221, R341, R342, log 95). -/
def execExit (s : State) : Out :=
  issue { touch := .release, noRoutine := true, exits := true, word := encR 0x1C 0 0 0 0x020 } (fun k p s => s.exit k p none) s

/-- EXIT.R (R155): the allocation is kept for a suitable successor. -/
def execExitR (b : BitVec 5) (s : State) : Out :=
  issue { srcs := [.g b], touch := .release, noRoutine := true, exits := true, word := encR 0x1C 0 b 0 0x021 } (fun k p s =>
    let ok := match s.byHandle (p.rg b) with
      | some (j, q) => placeOf j == placeOf k && j != k && q.splog == p.splog && p.splog != 0 && !q.started
      | none => false
    s.exit k p (if ok then
        some { base := p.spBase, log := p.splog, succ := handleKey (p.rg b), gen := handleGen (p.rg b), upTo := s.timeb + 1000000 }
      else none)) s

/-- EXIT_RETAIN_TIMEOUT (R155): allocations kept for 1 ms are freed. -/
def execExitRetainTimeout (place : Nat) (s : State) : Out :=
  let gone := (s.core place).retained.filter fun r => decide (r.upTo < s.timeb)
  let s := s.modCore place fun c => { c with retained := c.retained.filter fun r => decide (s.timeb ≤ r.upTo) }
  .next (gone.foldl (fun s r => s.zero (scratchGa place r.base) (2 ^ r.log)) s)

/-- YIELD (R156). -/
def execYield (s : State) : Out :=
  issue { noRoutine := true, word := encR 0x1C 0 0 0 0x040 } (fun k p s => ((s.fin k p).detach k).makeReady k) s

/-- PRIO (R156). -/
def execPrio (b : BitVec 5) (s : State) : Out :=
  issue { srcs := [.g b], noRoutine := true, word := encR 0x1C 0 b 0 0x060 } (fun k p s =>
    let v := min (field (p.rg b) 0 4) (if p.smode then 11 else p.maxPrio)
    (s.fin k ((p.setBase v).setEff v)).settle (placeOf k)) s

/-- The counters of a join after it was reported (R23, R157). -/
def Proc.clearJoin (p : Proc) (n : Nat) : Proc :=
  { p with joins := p.joins.setIfInBounds n { ((p.joins[n]?).getD { count := 0, canc := 0, flt := 0 }) with canc := 0, flt := 0 } }

def Proc.joinAt (p : Proc) (n : Nat) : Join := (p.joins[n]?).getD { count := 0, canc := 0, flt := 0 }

/-- JWAIT (R157): the slot is given up at once. -/
def execJwait (a : BitVec 5) (t : Bool) (n : BitVec 2) (s : State) : Out :=
  issue { dsts := [.g a], noRoutine := true, word := encR 0x1C a 0 0 (BitVec.ofBool t ++ 4#5 ++ 0#3 ++ n) } (fun k p s =>
    let j := p.joinAt n.toNat
    if j.count = 0 then s.fin k ((p.clearJoin n.toNat).wg a (joinStatus j))
    else (s.waitIn k p (.join n.toNat) a 0 (deadlineOf s k p t)).block k) s

/-- SELF (R156). -/
def execSelf (a : BitVec 5) (s : State) : Out :=
  issue { dsts := [.g a] } (fun k p s => s.fin k (p.wg a (selfHandle k p))) s

/-- A counter that saturates at 0xFFFF (R23). -/
def satInc (x : BitVec 16) : BitVec 16 := if x = BitVec.allOnes 16 then x else x + 1

/-- CHILD_END (R311): the parent's counter, and its JWAIT. -/
def execChildEnd (n : Nat) (s : State) : Out :=
  match s.arriving n with
  | some { body := .childEnd parent j kind, .. } =>
    let s := s.took n
    match s.byHandle parent with
    | none => .next s
    | some (k, _) =>
      let s := s.modLive k fun p =>
        let x := p.joinAt j
        let y : Join := { count := x.count - 1, canc := if kind = 1 then satInc x.canc else x.canc,
                          flt := if kind = 2 then satInc x.flt else x.flt }
        { p with joins := p.joins.setIfInBounds j y }
      match s.live k with
      | none => .next s
      | some p =>
        match p.wait with
        | some { kind := .join i, .. } =>
          if i = j ∧ (p.joinAt j).count = 0 then
            .next ((s.modLive k fun p => p.clearJoin j).finishWait k (joinStatus (p.joinAt j)))
          else .next s
        | _ => .next s
  | _ => .next s

end Sys2Proof.Machine
end

