-- ==== Sys2Proof/Machine/HostPort.lean ====
section
/-! DEFINITION. What the device says to its host: MSI-X vectors and window responses (R435 to R438, R444), and the
services of parts under way (R455). -/

namespace Sys2Proof.Machine

/-- The MSI-X table at reset: every vector masked, every other bit 0 (log 32). -/
def resetVectors : List Byte := (List.replicate 64 (List.replicate 12 0 ++ [1, 0, 0, 0])).flatten

/-- The MSI-X table of a device: that of reset until the host writes it (R435). -/
def Device.vectors (x : Device) : List Byte := if x.msix.isEmpty then resetVectors else x.msix

/-- Whether an MSI-X vector is masked: bit 0 of the fourth word of its table entry (log 32). -/
def vectorMasked (x : Device) (v : Nat) : Bool := (x.vectors.getD (16 * v + 12) 0).getLsbD 0

/-- Signals an MSI-X vector (R444): a masked one is left pending (log 32). -/
def State.signal (s : State) (dev v : Nat) : State :=
  let x := s.device dev
  if vectorMasked x v then s.setDevice dev { x with msiPending := setBit x.msiPending v true }
  else
    let key := dev * 64 + v
    { s with signals := mset s.signals key ((mget s.signals key).getD 0 + 1) }

/-- The response to the request of a window (R437, R438): status, tag and results; BUSY clears, DONE is set and the
vector of the window is signalled. -/
def State.respond (s : State) (win st : Nat) (res : List Word) : State :=
  let w := s.window win
  let rsp := BitVec.ofNat 64 (st + 65536 * w.tag) :: (List.range 7).map fun i => res.getD i 0
  (s.setWindow win { w with rsp := rsp, busy := false, done := true }).signal (win / 4) (win % 4)

/-- Moves of ends that a window asks for (R438) are owned by the window: key 2^40 + window. -/
def hostOwner (win : Nat) : Own := { p := 2 ^ 40 + win, gen := 0, acq := false, rel := false }
def ownPlace (p : Nat) : Nat := if p < 2 ^ 40 then placeOf p else (p - 2 ^ 40) / 4 * 1024 + 768 + (p - 2 ^ 40) % 4

/-- The end of a bind: the status of the instruction, or the response of the window. -/
def State.bindDone (s : State) (src : Nat) (own : Own) (code door : Nat) : State :=
  if own.p < 2 ^ 40 then s.post src (placeOf own.p) none (.fill (endFill own.p own.gen (statusWord code door)))
  else s.respond (own.p - 2 ^ 40) code []

/-- A part as it stands: before anything changed it, with its images as delivered and in service (R447, log 35). -/
def State.part (s : State) (dev kind inst : Nat) : Part :=
  (mget (s.device dev).parts (kind * 4096 + inst)).getD
    { slotA := Config.factorySlot dev kind inst false, slotB := Config.factorySlot dev kind inst true, activeB := false,
      digest := List.replicate 64 0, inService := true }

def State.setPart (s : State) (dev kind inst : Nat) (x : Part) : State :=
  let d := s.device dev
  s.setDevice dev { d with parts := mset d.parts (kind * 4096 + inst) x }

/-- Whether a part is in service (R455). -/
def inService (s : State) (dev kind inst : Nat) : Bool :=
  match mget (s.device dev).parts (kind * 4096 + inst) with
  | none => true
  | some x => x.inService

/-- Puts a part in or out of service. -/
def State.setService (s : State) (dev kind inst : Nat) (b : Bool) : State :=
  s.setPart dev kind inst { s.part dev kind inst with inService := b }

/-- The word of host memory at a host address of a device's host (R343: PA[39:0]). -/
def hostGa (dev h : Nat) : Nat := gaOf dev (0x30000000000 + h % 2 ^ 40)

/-- Bytes of host memory. -/
def hostBytes (s : State) (dev h n : Nat) : List Byte := memBytes s.mem (hostGa dev h) n
def State.hostPut (s : State) (dev h : Nat) (bs : List Byte) : State := { s with mem := memPut s.mem (hostGa dev h) bs }

/-- HEAD and TAIL of the ring of an endpoint (R441): 32-bit counts that wrap. -/
def HostEp.headAt (e : HostEp) : Nat := e.base + 64 * 2 ^ e.logs
def hostHead (s : State) (dev : Nat) (e : HostEp) : Nat := leNat (hostBytes s dev e.headAt 4)
def hostTail (s : State) (dev : Nat) (e : HostEp) : Nat := leNat (hostBytes s dev (e.headAt + 8) 4)

end Sys2Proof.Machine
end

