-- ==== Sys2Proof/Machine/Channels.lean ====
section
/-! DEFINITION. The record of a channel and its steps (R313, R314, R319 to R332), rounds, ALT, and the landing
of pushes in windows (R235, R328, R330). -/

namespace Sys2Proof.Machine

/-- The words of a v register and a v register of words. -/
def vWords (v : VReg) : List Word := (List.range 8).map fun i => v.extractLsb' (64 * i) 64
def wordsV (ws : List Word) : VReg := BitVec.ofNat 512 (packEls 64 (ws.map (·.toNat)))

/-- Whether a door is a counted receive end (R313). -/
def countedEnd (s : State) (d : Door) : Bool :=
  !d.isSend &&
    match mget s.chans d.chan with
    | none => false
    | some x =>
      x.typ != .window && !isFaultChan s d.chan &&
        (match x.send with
         | .hostEp _ => false
         | .proc _ _ _ | .server _ | .coll _ _ | .service _ | .gone => true)

/-- The round edges a process passes now (R313): ROUND advances and every marker count falls by 1. -/
def roundEdges (s : State) (p : Proc) : Nat → Proc
  | 0 => p
  | fuel + 1 =>
    let c := p.doors.filter fun d => countedEnd s d.2
    if c.isEmpty || c.any (fun d => d.2.marks == 0) then p
    else
      roundEdges s
        { p with
          round := (p.round + 1) &&& 0xFFFFFFFF
          doors := p.doors.map fun d => if countedEnd s d.2 then (d.1, { d.2 with marks := d.2.marks - 1 }) else d }
        fuel

/-- A process enters a round: a move or halt that waits for the edge takes effect before anything is matched
(R288). -/
def State.enterRound (s : State) (k : Nat) (p q : Proc) : State := (s.putProc k p q).haltFor k (·.edge)

/-- Whether a process is halted by a supervisor: its receives take nothing (R288). -/
def Proc.frozen (p : Proc) : Bool := p.sup.any (·.halted)

/-- The test of R313 at a process: one edge at a time while a supervisor waits for it, and none while it is halted. -/
def State.roundTest (s : State) (k : Nat) : State :=
  match s.live k with
  | none => s
  | some p =>
    if p.frozen then s
    else
    let q := roundEdges s p (if p.sup.any fun r => r.edge && !r.halted then 1 else 256)
    if q.round = p.round then s else s.enterRound k p q

/-- Records a marker taken at a door (R313); one that stands at an end outside the set of the process is only taken. -/
def State.takeMarker (s : State) (k door : Nat) : State :=
  (s.modLive k fun p =>
    match mget p.doors door with
    | none => p
    | some d =>
      if countedEnd s d then { p with doors := mset p.doors door { d with marks := min (d.marks + 1) 255 } } else p).roundTest k

/-- Whether a door's items stand behind a marker of a round that the process has not entered (R314). -/
def markHolds (s : State) (d : Door) : Bool := d.marks != 0 && countedEnd s d

/-- NANMODE as it stood when the instruction issued in which a process waits (R36). -/
def Proc.nanHeld (p : Proc) : Bool := p.wait.elim p.nan1 (·.nan)

/-- The register writes and the trap of an item taken (R160, R333). -/
def itemFill (p : Proc) (r : RecvOp) (i : Item) : Fill :=
  let dst : RegWrite := match r.file with
    | .g => .g r.dst (i.words.headD 0)
    | .v => .v r.dst (wordsV i.words)
  { (endFill r.p r.gen (statusWord stOk r.door)) with
    writes := [dst]
    cause := if i.nan1 = p.nanHeld then none else some { code := 8, detail := 1, tval := truth i.nan1 } }

/-- The end of a receive without an item: the destination keeps its contents (R137). -/
def recvEnd (r : RecvOp) (code : Nat) : Fill :=
  let keep : List RegWrite := match r.tile, r.file with
    | some _, _ => []
    | none, .g => [.keep (.g r.dst)]
    | none, .v => [.keep (.v r.dst)]
  { (endFill r.p r.gen (statusWord code r.door)) with writes := keep }

/-- Returns a slot token (R325). -/
def State.token (s : State) (c : Nat) (x : Chan) : State :=
  if x.cap = 0 then s else s.post (agentChan c) (agentSend c) none (.slotToken c)

/-- The receive is over at the record. -/
def Chan.served (x : Chan) (q : List Entry) : Chan := { x with q := q, rwait := none, rflag := false }

/-- A matched or staged transfer: no deadline ends its wait any more (R171). -/
def State.toCopy (s : State) (k c : Nat) : State :=
  s.modProc k fun p =>
    match p.wait with
    | none => p
    | some w => { p with wait := some { w with kind := .copy c } }

/-- A receive whose sender has gone waits at the record again, under its own deadline. -/
def State.toWait (s : State) (k gen c : Nat) : State :=
  match s.byOwn k gen with
  | none => s
  | some p =>
    match p.wait with
    | some w => if w.kind = .copy c then s.setProc k { p with wait := some { w with kind := .recv c, withdrawn := false } } else s
    | none => s

/-- The record serves the receive in RWAIT from the head of its queue (R321, R325). -/
def State.pump (s : State) (c : Nat) : Nat → State
  | 0 => s
  | fuel + 1 =>
    match mget s.chans c with
    | none => s
    | some x =>
      match x.rwait with
      | none => s
      | some r =>
        match s.byOwn r.p r.gen with
        | none => s.setChan c (x.served x.q)
        | some p =>
          let behind := (mget p.doors r.door).any (markHolds s)
          if p.frozen || x.moving then s
          else
            match x.q with
            | .marker :: q => ((s.setChan c { x with q := q }).takeMarker r.p r.door).pump c fuel
            | [] => s.setChan c { x with rflag := true }
            | e :: q =>
              if behind then s
              else
                let pl := placeOf r.p
                match e with
                | .item i =>
                  match r.tile with
                  | none => (((s.setChan c { x.served q with nextr := x.nextr + 1 }).token c x).applyFill pl (itemFill p r i))
                  | some _ =>
                    ((s.setChan c { x.served q with nextr := x.nextr + 1, copying := true }).toCopy r.p c).post
                      (agentChan c) (agentChan c) none (.tileLanded c 0 0 (some r) i)
                | .offer i sp sg =>
                  ((s.setChan c { x.served q with nextr := x.nextr + 1 }).applyFill pl (itemFill p r i)).post
                    (agentChan c) (offerFrom c sp sg) none (.ack c sp sg stOk)
                | .tileOffer sp sg _ =>
                  if (mget s.procs sp).any (·.frozen) then s
                  else ((s.setChan c { x.served q with nextr := x.nextr + 1, copying := true }).toCopy r.p c).post
                    (agentChan c) (placeOf sp) none (.tileGo c sp sg r)
                | .token => (s.setChan c (x.served x.q)).applyFill pl (recvEnd r stPoisoned)
                | .lost _ => ((s.setChan c { x.served q with nextr := x.nextr + 1 }).token c x).applyFill pl (recvEnd r stDropped)
                | .close => (s.setChan c (x.served x.q)).applyFill pl (recvEnd r stClosed)
                | .marker => s

/-- Whether a door of an ALT is ready (R161), and the code it gives: POISONED where an error token stands at the
head (R162, log 28). -/
def altReady (s : State) (d : Door) : Option Nat :=
  match mget s.chans d.chan with
  | none => some stOk
  | some x =>
    if x.typ = .window then none
    else if d.isSend then
      if x.rclosed || x.sstate != .opened || d.poisoned || (if x.cap = 0 then x.rflag else x.credit != 0) then some stOk else none
    else if markHolds s d then none
    else
      match x.q with
      | [] => none
      | .marker :: _ => none
      | .token :: _ => some stPoisoned
      | .item _ :: _ | .offer _ _ _ :: _ | .tileOffer _ _ _ :: _ | .lost _ :: _ | .close :: _ => some stOk

/-- Takes the markers at the heads of the receive ends in a mask (R161, R313). -/
def State.altMarkers (s : State) (k : Nat) (mask : Word) : Nat → State
  | 0 => s
  | fuel + 1 =>
    match mget s.procs k with
    | none => s
    | some p =>
      if p.frozen then s
      else
        match p.doors.find? fun (d : Nat × Door) =>
            mask.getLsbD d.1 && !d.2.isSend &&
              (match mget s.chans d.2.chan with | some { q := .marker :: _, .. } => true | _ => false) with
        | none => s
        | some d =>
          ((s.modChan d.2.chan fun x => { x with q := x.q.drop 1 }).takeMarker k d.1).altMarkers k mask fuel

/-- The first ready door of a mask after the rotor (R161). -/
def altPick (s : State) (p : Proc) (mask : Word) : Option (Nat × Nat) :=
  ((List.range 64).map fun i => (p.rotor + 1 + i) % 64).findSome? fun i =>
    if !mask.getLsbD i then none
    else
      match mget p.doors i with
      | none => none
      | some d => (altReady s d).map fun code => (i, code)

/-- Tests the ALT a process waits in (R161, R331). -/
def State.altTest (s : State) (k : Nat) : State :=
  match mget s.procs k with
  | none => s
  | some p =>
    match p.wait with
    | some { kind := .alt mask, .. } =>
      let s := s.altMarkers k mask 4096
      match s.live k with
      | none => s
      | some p =>
        if p.frozen then s
        else
          match altPick s p mask with
          | none => s
          | some (i, code) => (s.modLive k fun p => { p with rotor := i }).finishWait k (doorWord code i)
    | _ => s

/-- The receives of a process are served and its ALT is tested: a round edge may free other doors of it (R314). -/
def State.holderEvent (s : State) (k : Nat) : State :=
  let s := match mget s.procs k with
    | none => s
    | some p => p.doors.foldl (fun s (d : Nat × Door) => if d.2.isSend then s else s.pump d.2.chan 300) s
  s.altTest k

/-- The processes that hold the ends of a channel. -/
def endHolders (x : Chan) : List Nat :=
  (match x.recv with | .proc k _ _ => [k] | _ => []) ++ (match x.send with | .proc k _ _ => [k] | _ => [])

/-- After a change at a channel: its receive is served, and the ALTs of its holders are tested; a round edge may
free other doors of a process (R314). -/
def State.chanEvent (s : State) (c : Nat) : State :=
  match mget s.chans c with
  | none => s
  | some x =>
    let s := s.pump c (x.q.length + 2)
    (endHolders x).foldl (fun s k => s.holderEvent k) s

/-- Appends an entry to a record, or holds it behind a copy (R334). -/
def State.toRecord (s : State) (c : Nat) (e : Entry) : State :=
  match mget s.chans c with
  | none => s
  | some x =>
    if x.moving then s.setChan c { x with held := x.held ++ [e] }
    else if x.rclosed then s.ackOffers c stClosed [e]
    else (s.setChan c { x with q := x.q ++ [x.recv.dated s.cycle e] }).chanEvent c

/-- Returns a slot token on the channel of an endpoint (R325). -/
def State.tokenOf (s : State) (c : Option Nat) : State :=
  match c.bind fun c => (mget s.chans c).map fun x => (c, x) with
  | none => s
  | some (c, x) => s.token c x

/-- Changes an endpoint, if it is registered. -/
def State.modEp (s : State) (ep : Nat) (f : HostEp → HostEp) : State :=
  match mget s.hostEps ep with
  | none => s
  | some e => { s with hostEps := mset s.hostEps ep (f e) }

/-- The service core of an endpoint writes the items that wait into its ring while there is room, and signals its
vector (R442); the SENDs whose items the host's HEAD has passed complete. -/
def State.feedEndpoint (s : State) (ep : Nat) : Nat → State
  | 0 => s
  | fuel + 1 =>
    match mget s.hostEps ep with
    | none => s
    | some e =>
      let dev := ep / 1024
      let head := hostHead s dev e
      let tail := hostTail s dev e
      let put (s : State) (i : Item) : State :=
        let s := (s.hostPut dev (e.base + 64 * (tail % 2 ^ e.logs)) ((unpackWords i.words ++ List.replicate 64 0).take 64)).hostPut
          dev (e.headAt + 8) (leBytes 4 (tail + 1))
        if e.vec = 0 then s else s.signal dev e.vec
      match e.pend with
      | [] => s
      | .close :: rest =>
        let s := s.modEp ep fun e => { e with pend := rest, chan := none }
        (match e.chan with | none => s | some c => s.closeRecv c)
      | x :: rest =>
        if (tail + 2 ^ 32 - head) % 2 ^ 32 = 2 ^ e.logs then s
        else
          let s := s.modEp ep fun e => { e with pend := rest }
          match x with
          | .item i =>
            ((put s i).tokenOf e.chan).feedEndpoint ep fuel
          | .offer i p g => ((put s i).modEp ep fun e => { e with acks := e.acks ++ [(p, g, tail)] }).feedEndpoint ep fuel
          | .lost _ => (s.tokenOf e.chan).feedEndpoint ep fuel
          | .tileOffer _ _ _ | .marker | .token | .close => s.feedEndpoint ep fuel

/-- The rendezvous SENDs whose items HEAD has passed complete (R442). -/
def State.ackEndpoint (s : State) (ep : Nat) : State :=
  match mget s.hostEps ep with
  | none => s
  | some e =>
    let head := hostHead s (ep / 1024) e
    let passed (a : Nat × Nat × Nat) : Bool := decide ((head + 2 ^ 32 - (a.2.2 + 1)) % 2 ^ 32 < 2 ^ 31)
    (e.acks.filter passed).foldl (fun s a =>
      s.post (agentChan (e.chan.getD 0)) (offerFrom (e.chan.getD 0) a.1 a.2.1) none (.ack (e.chan.getD 0) a.1 a.2.1 stOk))
      (s.modEp ep fun e => { e with acks := e.acks.filter fun a => !passed a })

/-- An item or offer reaches a host endpoint (R442). -/
def State.toEndpoint (s : State) (ep : Nat) (i : Entry) : State :=
  ((s.modEp ep fun e => { e with pend := e.pend ++ [i] }).feedEndpoint ep 4096).ackEndpoint ep

/-- The service core of a to-device endpoint reads items from HEAD to TAIL and delivers them in order, writing HEAD after
each (R442): a buffered channel while it has credit, a rendezvous channel one offer at a time. -/
def State.fromHost (s : State) (ep : Nat) : Nat → State
  | 0 => s
  | fuel + 1 =>
    match mget s.hostEps ep with
    | none => s
    | some e =>
      match e.chan.bind fun c => (mget s.chans c).map fun x => (c, x) with
      | none => s
      | some (c, x) =>
        let dev := ep / 1024
        let head := hostHead s dev e
        if head = hostTail s dev e ∨ x.rclosed then s
        else
          let ws := packWords (hostBytes s dev (e.base + 64 * (head % 2 ^ e.logs)) (if e.isMsg then 64 else 8))
          let i : Item := { words := ws, nan1 := false, seq := x.nexts }
          let free := if x.cap = 0 then
              x.q.isEmpty && !s.net.any fun m => match m.body with | .offer d _ => d == c | _ => false
            else x.credit != 0
          if !free then s
          else
            let s := s.hostPut dev e.headAt (leBytes 4 (head + 1))
            if x.cap = 0 then s.post (agentSend c) (agentChan c) none (.offer c (.offer i 0 0))
            else
              ((s.setChan c { x with credit := x.credit - 1, nexts := (x.nexts + 1) % 2 ^ 32 }).post (agentSend c) (agentChan c) none
                (.item c i)).fromHost ep fuel

/-- The items of a to-device endpoint that waited for a slot or for the item before them. -/
def State.hostGoesOn (s : State) (c : Nat) : State :=
  (s.hostEps.filter fun (e : Nat × HostEp) => !e.2.toHost && e.2.chan == some c).foldl (fun s e => s.fromHost e.1 4096) s

/-- A fault door that a service core holds counts and discards what reaches it (R22); its slot token or acknowledgement goes
back, and a lost entry gives its token too (R325). -/
def State.discard (s : State) (dev c : Nat) (x : Chan) (e : Entry) : State :=
  match e with
  | .item _ => (s.count dev 6 0 2 1).token c x
  | .offer _ p gen | .tileOffer p gen _ => (s.count dev 6 0 2 1).post (agentChan c) (offerFrom c p gen) none (.ack c p gen stOk)
  | .lost _ => s.token c x
  | .marker | .token | .close => s

/-- An entry reaches a record, or the endpoint or the service core that holds the receive end. -/
def State.control (s : State) (c : Nat) (e : Entry) : State :=
  match mget s.chans c with
  | none => s
  | some x =>
    match x.recv with
    | .hostEp ep => s.toEndpoint ep e
    | .service dev => s.discard dev c x e
    | .proc _ _ _ | .server _ | .coll _ _ | .gone => s.toRecord c e

/-- RECORD_OFFER (R321). -/
def execRecordOffer (n : Nat) (s : State) : Out :=
  match s.arriving n with
  | some { body := .offer c e, .. } =>
    let s := s.took n
    .next (s.control c e)
  | _ => .next s

/-- RECORD_ITEM (R325). The items of a deadlock report come one behind the other and set EVPEND bit 26 of the holder
(R318). -/
def execRecordItem (n : Nat) (s : State) : Out :=
  match s.arriving n with
  | some { body := .item c i, .. } => .next ((s.took n).control c (.item i))
  | some { body := .deadlock c is, .. } =>
    let s := s.took n
    let s := match (mget s.chans c).map (·.recv) with
      | some (.proc k _ _) => s.setEvent k 26
      | _ => s
    .next (is.foldl (fun s i => s.control c (.item i)) s)
  | _ => .next s

/-- RECORD_MARKER (R313). -/
def execRecordMarker (n : Nat) (s : State) : Out :=
  match s.arriving n with
  | some { body := .marker c, .. } => .next ((s.took n).control c .marker)
  | _ => .next s

/-- RECORD_ERROR_TOKEN (R332). -/
def execRecordErrorToken (n : Nat) (s : State) : Out :=
  match s.arriving n with
  | some { body := .token c, .. } => .next ((s.took n).control c .token)
  | _ => .next s

/-- RECORD_CLOSE (R166). -/
def execRecordClose (n : Nat) (s : State) : Out :=
  match s.arriving n with
  | some { body := .close c, .. } => .next ((s.took n).control c .close)
  | _ => .next s

/-- RECORD_RECEIVE (R321). -/
def execRecordReceive (n : Nat) (s : State) : Out :=
  match s.arriving n with
  | some { body := .recv c r, .. } =>
    let s := s.took n
    match mget s.chans c with
    | none => .next (s.applyFill (placeOf r.p) (recvEnd r stClosed))
    | some x => .next ((s.setChan c { x with rwait := some r }).chanEvent c)
  | _ => .next s

/-- RECORD_WITHDRAWAL (R321, R324): what is already matched stays matched. -/
def execRecordWithdrawal (n : Nat) (s : State) : Out :=
  match s.arriving n with
  | some { dst := dst, body := .withdraw c k gen isSend, .. } =>
    let s := s.took n
    match mget s.chans c with
    | none => .next s
    | some x =>
      if isSend then
        let pending := match x.recv with
          | .hostEp ep => (match mget s.hostEps ep with | none => [] | some e => e.pend)
          | _ => []
        if pending.any fun e => e.isOfferOf k gen then
          let s := { s with hostEps := s.hostEps.map fun (e : Nat × HostEp) =>
            (e.1, { e.2 with pend := e.2.pend.filter fun o => !(o.isOfferOf k gen) }) }
          .next (s.post dst (placeOf k) none (.ack c k gen stTimeout))
        else if (x.q ++ x.held).any fun e => e.isOfferOf k gen then
          .next ((s.setChan c { x with q := x.q.filter (fun e => !e.isOfferOf k gen)
                                       held := x.held.filter (fun e => !e.isOfferOf k gen) }).post
            dst (placeOf k) none (.ack c k gen stTimeout))
        else .next s
      else
        match x.rwait with
        | some r =>
          if r.p = k ∧ r.gen = gen then
            .next ((s.setChan c (x.served x.q)).applyFill (placeOf k) (recvEnd r stTimeout))
          else .next s
        | none => .next s
  | _ => .next s

/-- A rendezvous item has gone: the next one has the next sequence number (R320). -/
def State.sentOne (s : State) (c : Nat) : State :=
  s.modChan c fun x => if x.cap = 0 then { x with nexts := (x.nexts + 1) % 2 ^ 32 } else x

/-- SEND_ACK (R322): the sender completes, or an ALT learns that the peer has closed (R331). -/
def execSendAck (n : Nat) (s : State) : Out :=
  match s.arriving n with
  | some { body := .ack c k gen code, .. } =>
    let s := s.took n
    let s := if code = stOk then s.sentOne c else s
    match s.byOwn k gen with
    | none => .next (s.hostGoesOn c)
    | some p =>
      match p.wait with
      | some { kind := .offer x _, door := d, .. } =>
        if x = c then .next (s.finishWait k (statusWord code d)) else .next s
      | some { kind := .credit x _ _, door := d, .. } | some { kind := .copy x, door := d, .. } =>
        if x = c then .next (s.finishWait k (statusWord code d)) else .next s
      | some { kind := .alt _, .. } => .next (s.altTest k)
      | _ => .next s
  | _ => .next s

/-- Sends an item of a buffered channel by a send end: one credit, the next sequence number (R325); a tile goes to its
staging slot, on another device by the links (R326, R418); `nan`: NANMODE when the instruction issued (R333). -/
def State.sendItem (s : State) (e : Door) (k : Nat) (p : Proc) (nan : Bool) (x : Chan) (ws : List Word) (tile : Option Nat) : State :=
  let c := e.chan
  let s := s.setChan c { x with credit := x.credit - 1, nexts := (x.nexts + 1) % 2 ^ 32 }
  match tile with
  | none =>
    s.post (sendAgent s e) (agentChan c) none (.item c { words := ws, nan1 := nan, seq := x.nexts, sender := some (k, p.gen) })
  | some off =>
    let s := s.spadSeen (placeOf k)
    let data := packWords (spadBytes s k p (regionOff x off) x.tileBytes)
    s.post (agentSend c) (agentChan c) none (.tileLanded c k p.gen none { words := data, nan1 := nan, seq := x.nexts })

/-- A SEND that waits for CREDIT goes on once there is some (R325), unless its process is halted. -/
def State.serveCredit (s : State) (c : Nat) : State :=
  match mget s.chans c, creditWaiters s c with
  | some x, (k, p) :: _ =>
    if x.credit = 0 ∨ p.frozen then s
    else
      match p.wait with
      | some { kind := .credit _ ws tile, door := d, .. } =>
        let s := s.sendItem ((mget p.doors d).getD (p.sendDoor c)) k p p.nanHeld x ws tile
        (match tile with
         | none => s.finishWait k (statusWord stOk d)
         | some _ => s.toCopy k c)
      | _ => s
  | _, _ => s

/-- Whether a send end has closed, by CHCLOSE, POISON or the end of its process (R418). -/
def Chan.shut (x : Chan) : Bool := x.sstate != .opened || x.send == .gone

/-- SLOT_TOKEN (R325): CREDIT rises by 1, and a SEND waiting for it goes on; a send end that has closed discards it (R418).
The send ends of a fault door, of which there are many, close one by one (R22). -/
def execSlotToken (n : Nat) (s : State) : Out :=
  match s.arriving n with
  | some { body := .slotToken c, .. } =>
    let s := s.took n
    if (mget s.chans c).any Chan.shut && !isFaultChan s c then .next s
    else
      .next ((((s.modChan c fun x => { x with credit := min (x.credit + 1) x.cap }).serveCredit c).hostGoesOn c).chanEvent c)
  | _ => .next s

/-- TILE_GO (R323): the sender's copy path starts; if the sender has ended, the receive returns to the record. -/
def execTileGo (n : Nat) (s : State) : Out :=
  match s.arriving n with
  | some { body := .tileGo c k gen r, .. } =>
    let s := s.took n
    match s.byOwn k gen, mget s.chans c with
    | some p, some x =>
      .next ((s.toCopy k c).copyTile c x k p r)
    | _, _ =>
      .next (((s.modChan c fun x => { x with copying := false }).toWait r.p r.gen c).post (agentChan c) (agentChan c) none (.recv c r))
  | _ => .next s

/-- Ends the wait of a sender whose copy has landed. -/
def State.copySent (s : State) (k gen c : Nat) : State :=
  match s.byOwn k gen with
  | none => s
  | some p =>
    match p.wait with
    | some { kind := .copy x, door := d, .. } => if x = c then (s.sentOne c).finishWait k (statusWord stOk d) else s
    | _ => s

/-- The sender learns that its copy has landed: on one device at once, across the links by an acknowledgement (R323, R418). -/
def State.tellCopied (s : State) (k gen c pl : Nat) : State :=
  if keyDev k = devOf pl then s.copySent k gen c else s.post pl (placeOf k) none (.ack c k gen stOk)

/-- A tile has been written into its staging slot, and its item stands in the queue; a process that waits for it in a SENDT
is told, a collective unit sends none back (R326, R418). -/
def State.stagedItem (s : State) (c k gen : Nat) (x : Chan) (i : Item) : State :=
  let s := if x.rclosed then s else s.putStage x i.seq (exactly x.tileBytes (unpackWords i.words))
  let s := s.control c (.item { i with words := [] })
  if gen = 0 then s
  else
  match holderDev x.recv with
  | none => s.copySent k gen c
  | some d => if keyDev k = d then s.copySent k gen c else s.post (agentChan c) (placeOf k) none (.ack c k gen stOk)

/-- TILE_COPY_LANDED (R323, R326): into the receiver's region, or into the staging slot. -/
def execTileCopyLanded (n : Nat) (s : State) : Out :=
  match s.arriving n with
  | some { body := .tileLanded c k gen r i, .. } =>
    let s := s.took n
    match mget s.chans c with
    | none => .next (s.copySent k gen c)
    | some x =>
      match r with
      | none =>
        .next (s.stagedItem c k gen x i)
      | some r =>
        match s.byOwn r.p r.gen with
        | none => .next ((s.modChan c fun y => { y with copying := false }).tellCopied k gen c (placeOf r.p))
        | some p =>
          let bs := if x.cap = 0 then (unpackWords i.words).take x.tileBytes
            else stageOf s x i.seq
          let off := regionOff x (r.tile.getD 0)
          let s := (List.range bs.length).foldl (fun s j =>
            let ga := spadGa r.p p (off + j)
            (s.putBytes ga [bs.getD j 0]).putFull ga true) s
          let s := (s.modChan c fun y => { y with copying := false }).testMonS (placeOf r.p)
          let s := (s.token c x).applyFill (placeOf r.p)
            { (itemFill p r { i with words := [] }) with writes := [] }
          .next ((s.tellCopied k gen c (placeOf r.p)).chanEvent c)
  | _ => .next s

/-- A direction of a THALO has an outcome (R172): with the last one the instruction completes. -/
def State.haloDone (s : State) (k gen dir code : Nat) : State :=
  match s.byOwn k gen with
  | none => s
  | some p =>
    match p.wait with
    | some w =>
      match w.kind with
      | .halo codes skip =>
        let codes := listSet codes dir code
        if codes.contains 255 then s.modProc k fun p => { p with wait := some { w with kind := .halo codes skip } }
        else s.finishWait k (haloStatus codes w.door skip)
      | _ => s
    | none => s

/-- Writes the stamps that nothing holds back any more (R235), finishes their nodes, and lets a waiting WINCLOSE
go on (R168). -/
def State.flushStamps (s : State) (c : Nat) : Nat → State
  | 0 => s
  | fuel + 1 =>
    match mget s.chans c with
    | none => s
    | some x =>
      match x.stamps with
      | { v := v, ga := some ga, node := node } :: rest =>
        let s := ((s.setChan c { x with stamps := rest }).putBytes ga (leBytes 8 v)).putFull ga true
        let s := match node with
          | none => s
          | some (pl, id) => s.post (agentChan c) pl none (.nodeDone pl (id % 64) (id / 64) stOk false)
        let s := match x.recv with
          | .proc k _ _ => s.testMonS (placeOf k)
          | .hostEp _ | .server _ | .coll _ _ | .service _ | .gone => s
        s.flushStamps c fuel
      | _ =>
        match x.closing with
        | some (k, gen) =>
          if x.landing then s
          else
            let s := (s.setChan c { x with closing := none }).withdraw c
            match s.byOwn k gen with
            | none => s
            | some p => s.finishWait k (statusWord stOk (match p.wait with | some w => w.door | none => 0))
        | none => s

/-- A push that is refused or fails (R235, R328): its stamp is retired and whoever waits is told. -/
def State.refusePush (s : State) (p : Push) (code : Nat) : State :=
  let s := match p.stamp with
    | none => s
    | some (v, _) =>
      (s.modChan p.chan fun x => { x with stamps := x.stamps.filter fun (t : Stamp) => t.v != v }).flushStamps p.chan 4096
  let s := match p.node with
    | none => s
    | some (pl, id) => s.post (agentChan p.chan) pl none (.nodeDone pl (id % 64) (id / 64) code false)
  match p.waiter with
  | none => s
  | some (k, gen, dir) => s.haloDone k gen dir code

/-- A push reaches a window's end (R328): it lands whole (log 29), waits for a window, or is refused. -/
def State.landPush (s : State) (p : Push) : State :=
  match mget s.chans p.chan with
  | none => s.refusePush p stClosed
  | some x =>
    match x.rclosed, x.win, x.recv with
    | true, _, _ => s.refusePush p stClosed
    | false, .none, _ => s.setChan p.chan { x with pend := x.pend ++ [p] }
    | false, .withdrawn, _ => s.refusePush p stClosed
    | false, .opened base size, .proc k gen _ =>
      match s.byOwn k gen with
      | none => s.refusePush p stClosed
      | some q =>
        if size < p.need then s.refusePush p stFull
        else
          let s := s.spadPut k q (base + p.off) p.bytes
          let s := match p.halo with
            | none => s
            | some i =>
              let o := base + size - 32 + 8 * i
              s.spadPut k q o (leBytes 8 ((spadNat s k q o 8 + 1) % 2 ^ 64))
          let s := match p.stamp with
            | some (v, o) =>
              (s.modChan p.chan fun x => { x with stamps := x.stamps.map fun (t : Stamp) =>
                if t.v = v then { t with ga := some (spadGa k q (base + o)), node := p.node } else t }).flushStamps p.chan 4096
            | none =>
              match p.node with
              | none => s
              | some (pl, id) => s.post (agentChan p.chan) pl none (.nodeDone pl (id % 64) (id / 64) stOk false)
          let s := match p.waiter with
            | none => s
            | some (w, g, dir) => s.haloDone w g dir stOk
          s.testMonS (placeOf k)
    | false, .opened _ _, _ => s.refusePush p stClosed

/-- WINDOW_PUSH (R328). -/
def execWindowPush (n : Nat) (s : State) : Out :=
  match s.arriving n with
  | some { body := .winPush p, .. } => .next ((s.took n).landPush p)
  | _ => .next s

/-- Draws the next stamp value of a window send end (R235). -/
def State.drawStamp (s : State) (c : Nat) : State × Nat :=
  match mget s.chans c with
  | none => (s, 0)
  | some x => (s.setChan c { x with stamp := x.stamp + 1, stamps := x.stamps ++ [{ v := x.stamp, ga := none, node := none }] }, x.stamp)

/-- FAULT_MESSAGE_RELEASE (R401): the messages a core holds leave when their channel admits them. -/
def execFaultMessageRelease (place : Nat) (s : State) : Out :=
  let held := (s.core place).faultMsgs
  .next (held.foldl (fun s e => s.faultSend place e) (s.modCore place fun c => { c with faultMsgs := [] }))

end Sys2Proof.Machine
end

