-- ==== Sys2Proof/Machine/Doors.lean ====
section
/-! DEFINITION. The instructions on doors: majors 0x1D and 0x1E (R159 to R173), and the steps of rebinding an
end (R334 to R336) and of a lost entry (R327). -/

namespace Sys2Proof.Machine

/-- A door of the process in the direction asked, or the trap DOOR (R20). -/
def State.withDoor (s : State) (k : Nat) (p : Proc) (d : BitVec 6) (send : Option Bool) (go : Door → State) : State :=
  match mget p.doors d.toNat with
  | none => s.trap k p false 9 0 (d.setWidth 64)
  | some x => if send = some (!x.isSend) then s.trap k p false 9 0 (d.setWidth 64) else go x

/-- In U mode d62 and d63 are closed to CHCLOSE, CHBIND and WINOPEN (R21). -/
def State.notFixed (s : State) (k : Nat) (p : Proc) (d : BitVec 6) (go : State) : State :=
  if !p.smode && decide (62 ≤ d.toNat) then s.trap k p false 9 0 (d.setWidth 64) else go

/-- The instruction completes with a status word (R136). -/
def State.status (s : State) (k : Nat) (p : Proc) (a : BitVec 5) (code door : Nat) : State :=
  s.fin k (p.wg a (statusWord code door))

/-- Whether the register file of a word or message item suits a channel (R160). -/
def itemSuits (x : Chan) (f : ItemFile) : Bool :=
  match x.typ, f with
  | .word, .g => true
  | .message, .v => true
  | .word, .v | .message, .g | .tile, _ | .window, _ => false

/-- Sends an item, or waits for the receiver or for a slot (R160, R321, R325). -/
def State.sendGo (s : State) (k : Nat) (p : Proc) (a : BitVec 5) (d : Nat) (t : Bool) (e : Door) (x : Chan)
    (ws : List Word) (tile : Option Nat) : State :=
  let c := e.chan
  if x.sstate ≠ .opened ∨ x.rclosed ∨ e.poisoned then s.status k p a stClosed d
  else if x.cap = 0 then
    let o : Entry := match tile with
      | none => .offer { words := ws, nan1 := p.nan1, seq := x.nexts } k p.gen
      | some _ => .tileOffer k p.gen p.nan1
    (s.post (sendAgent s e) (agentChan c) none (.offer c o)).waitIn k p (.offer c tile) a d (deadlineOf s k p t)
  else if x.credit = 0 then s.waitIn k p (.credit c ws tile) a d (deadlineOf s k p t)
  else
    match tile with
    | none => (s.sendItem e k p p.nan1 x ws none).status k p a stOk d
    | some _ => (s.sendItem e k p p.nan1 x ws tile).waitIn k p (.copy c) a d (deadlineOf s k p t)

/-- SEND (R160). A channel orders the accesses of a process to host memory too, so what it releases it releases at SYSTEM
scope (R174, R319, R364); so do the other instructions on channels. -/
def execSend (a b : BitVec 5) (f : ItemFile) (d : BitVec 6) (t : Bool) (s : State) : Out :=
  issue { scope := .system, srcs := [match f with | .g => .g b | .v => .v b], dsts := [.g a], touch := .release, quiet := true,
          noRoutine := true,
          word := encR 0x1D a b (match f with | .g => 0 | .v => 1) (d ++ BitVec.ofBool t ++ 0#4) } (fun k p s =>
    s.withDoor k p d (some true) fun e =>
      match mget s.chans e.chan with
      | none => s.status k p a stClosed d.toNat
      | some x =>
        if !itemSuits x f then s.status k p a stBadType d.toNat
        else
          let ws := match f with
            | .g => [p.rg b]
            | .v => vWords (p.rv b)
          s.sendGo k p a d.toNat t e x ws none) s

/-- The doors attached to external inputs of the yard of its owner or of a displaced holder (R251). -/
def attachedDoors (s : State) (k : Nat) (p : Proc) : List Nat :=
  let c := s.core (placeOf k)
  let bs : List Byte :=
    if c.yardOwner = some k then c.yard.attach else if c.displaced.contains k then memBytes s.mem (p.usa + 0x28F8) 8 else []
  (bs.filter fun b => b.getLsbD 7).map fun b => b.toNat % 64

/-- RECV (R160). -/
def execRecv (a b : BitVec 5) (f : ItemFile) (d : BitVec 6) (t : Bool) (s : State) : Out :=
  issue { scope := .system, dsts := [.g a, match f with | .g => .g b | .v => .v b], touch := .both, quiet := true, noRoutine := true,
          word := encR 0x1D a b (match f with | .g => 0 | .v => 1) (d ++ BitVec.ofBool t ++ 1#4) } (fun k p s =>
    s.withDoor k p d (some false) fun e =>
      match mget s.chans e.chan with
      | none => s.status k p a stClosed d.toNat
      | some x =>
        if !itemSuits x f || (attachedDoors s k p).contains d.toNat then s.status k p a stBadType d.toNat
        else
          let (s, p, a, b) := match f with
            | .g => s.twoResults p a b
            | .v => (s, p, a, b)
          let q := match f with
            | .g => p.eg b
            | .v => p.ev b
          let r : RecvOp := { p := k, gen := p.gen, file := f, dst := b, status := a, door := d.toNat, tile := none }
          (s.post (placeOf k) (agentChan e.chan) none (.recv e.chan r)).waitIn k q (.recv e.chan) a d.toNat
            (deadlineOf s k p t)) s

/-- ALT (R161). -/
def execAlt (a b : BitVec 5) (t : Bool) (s : State) : Out :=
  issue { srcs := [.g b], dsts := [.g a], noRoutine := true, word := encR 0x1D a b 0 (0#6 ++ BitVec.ofBool t ++ 2#4) }
    (fun k p s =>
      let mask := p.rg b
      if mask = 0 then s.status k p a stTimeout 0
      else
        match (List.range 64).find? fun i => mask.getLsbD i && (mget p.doors i).isNone with
        | some i => s.trap k p false 9 0 (BitVec.ofNat 64 i)
        | none =>
          match (attachedDoors s k p).find? fun i => mask.getLsbD i with
          | some i => s.status k p a stBadType i
          | none => (s.waitIn k p (.alt mask) a 0 (deadlineOf s k p t)).altTest k) s

/-- Closes the end at a door and unbinds it (R166), once the pushes that its window has accepted have landed (R168); the
test of R313 is made again. -/
def State.closeDoor (s : State) (k : Nat) (p : Proc) (a : BitVec 5) (d : Nat) (e : Door) : State :=
  if !e.isSend && (mget s.chans e.chan).any Chan.landing then s.stallOn k p .order none
  else
  let gone : Bool := match mget s.chans e.chan with
    | none => true
    | some x => if e.isSend then x.rclosed else x.send == .gone
  let s := s.fin k ({ p with doors := mdel p.doors d }.wg a (statusWord (if gone then stClosed else stOk) d))
  if e.isSend then s.closeSend e.chan else ((s.closeRecv e.chan).roundTest k).holderEvent k

/-- POISON (R162). -/
def execPoison (a : BitVec 5) (d : BitVec 6) (s : State) : Out :=
  issue { scope := .system, dsts := [.g a], touch := .release, quiet := true, noRoutine := true,
          word := encR 0x1D a 0 0 (d ++ 3#5) } (fun k p s =>
    s.withDoor k p d (some true) fun e =>
      match mget s.chans e.chan with
      | none => s.status k p a stClosed d.toNat
      | some x =>
        if x.typ = .window then s.closeDoor k p a d.toNat e
        else if x.rclosed then s.status k p a stClosed d.toNat
        else (s.status k p a stOk d.toNat).poisonDoor k d.toNat e) s

/-- The send ends that MARK marks (R163). -/
def marked (s : State) (d : Nat × Door) : Bool :=
  d.2.isSend && decide (d.1 < 62) && !isFaultChan s d.2.chan &&
    match mget s.chans d.2.chan with
    | none => false
    | some x =>
      x.typ != .window && x.sstate == .opened && !x.rclosed &&
        (match x.recv with
         | .hostEp _ | .server _ => false
         | .proc _ _ _ | .coll _ _ | .service _ | .gone => true)

/-- MARK (R163): a process without counted receive ends enters the next round. -/
def execMark (a : BitVec 5) (s : State) : Out :=
  issue { scope := .system, dsts := [.g a], touch := .release, quiet := true, noRoutine := true, word := encR 0x1D a 0 0 4 } (fun k p s =>
    let s := p.doors.foldl (fun s (d : Nat × Door) =>
      if marked s d then s.post (agentSend d.2.chan) (agentChan d.2.chan) none (.marker d.2.chan) else s) s
    let q := (p.wg a 0).advance
    if p.doors.any fun d => countedEnd s d.2 then s.setProc k q
    else s.enterRound k p { q with round := (q.round + 1) &&& 0xFFFFFFFF }) s

/-- The shape of a channel descriptor (R164). -/
structure ChanShape where
  rdoor : Nat
  typ : ChanType
  cap : Nat
  ety : Option Ty
  rows : Nat
  rowb : Nat
  deriving DecidableEq, Repr

/-- The fields of a channel descriptor, if they lie in the ranges of R164. -/
def chanShape (w : Word) : Option ChanShape :=
  let cap := field w 8 7
  let ety := field w 16 4
  let rows := field w 20 13
  let rowb := field w 33 16
  let zero := !w.getLsbD 15 && field w 49 15 == 0
  let plain := zero && ety == 0 && rows == 0 && rowb == 0
  let z (t : ChanType) : ChanShape := { rdoor := field w 0 6, typ := t, cap := cap, ety := none, rows := 0, rowb := 0 }
  match field w 6 2 with
  | 0 => if plain && decide (cap ≤ 64) then some (z .word) else none
  | 1 => if plain && decide (cap ≤ 64) then some (z .message) else none
  | 2 =>
    match Ty.ofCode (BitVec.ofNat 4 ety) with
    | none => none
    | some ty =>
      if zero ∧ ety ≤ 13 ∧ cap ≤ 64 ∧ 1 ≤ rows ∧ rows ≤ 4096 ∧ 1 ≤ rowb ∧ rowb ≤ 32768 ∧ rowb % ty.bytes = 0 ∧
          rows * rowb ≤ 2 ^ 19 then
        some { rdoor := field w 0 6, typ := .tile, cap := cap, ety := some ty, rows := rows, rowb := rowb }
      else none
  | _ => if plain && cap == 0 then some (z .window) else none

/-- The marker count of a receive end bound now (R313). -/
def bindMarks (s : State) (p : Proc) : Nat :=
  if p.doors.any fun d => countedEnd s d.2 && d.2.marks != 0 then 1 else 0

/-- The channel records that a core holds (R164). -/
def recordsAt (s : State) (pl : Nat) : Nat := (s.chans.filter fun e => recordPlace e.2 == some pl).length

/-- Whether an address lies in the home memory of a core. -/
def homeMemory (pl ga : Nat) : Bool := gaDev ga == devOf pl && rangeOf (gaPa ga) == .hbm (coreOf pl)

/-- Allocates bytes of the memory granted to a space in the home memory of a core (R164, log 17): its global
address. Blocks given back are used first. -/
def State.grantBytes (s : State) (pl asid n : Nat) : Option (State × Nat) :=
  let x := s.space asid
  let n := grantSize n
  match x.spare.find? fun g => homeMemory pl g.1 && decide (n ≤ g.2) with
  | some g =>
    let rest := if g.2 = n then [] else [(g.1 + n, g.2 - n)]
    some (s.setSpace asid { x with spare := x.spare.erase g ++ rest }, g.1)
  | none =>
  match x.granted.find? fun g =>
      g.1 == devOf pl && rangeOf g.2.1 == .hbm (coreOf pl) && decide (g.2.2.2 + n ≤ g.2.1 + g.2.2.1) with
  | none => none
  | some g =>
    some (s.setSpace asid { x with granted := x.granted.map fun h => if h = g then (g.1, g.2.1, g.2.2.1, g.2.2.2 + n) else h },
      gaOf g.1 g.2.2.2)

/-- A new channel between two ends. -/
def newChan (w : ChanShape) (asid stage : Nat) (send recv : Holder) : Chan :=
  { typ := w.typ, cap := w.cap, ety := w.ety, rows := w.rows, rowb := w.rowb, asid := asid, q := [], rwait := none,
    nextr := 0, win := .none, pend := [], stamps := [], recv := recv, send := send, nexts := 0, credit := w.cap,
    stamp := 1, sstate := .opened, rflag := false, rclosed := false, stage := stage, moving := false, held := [],
    closing := none, copying := false }

/-- CHNEW (R164). -/
def execChnew (a b : BitVec 5) (d : BitVec 6) (s : State) : Out :=
  issue { srcs := [.g b], dsts := [.g a], noRoutine := true, word := encR 0x1D a b 0 (d ++ 5#5) } (fun k p s =>
    let rdoor := field (p.rg b) 0 6
    if (mget p.doors d.toNat).isSome then s.trap k p false 9 0 (d.setWidth 64)
    else if (mget p.doors rdoor).isSome ∨ rdoor = d.toNat then s.trap k p false 9 0 (BitVec.ofNat 64 rdoor)
    else
      match chanShape (p.rg b) with
      | none => s.status k p a stBadType d.toNat
      | some w =>
        let need := if w.typ = .tile then w.cap * w.rows * w.rowb else 0
        match (if need = 0 then some (s, 0) else s.grantBytes (placeOf k) p.asid need) with
        | none => s.status k p a stFull d.toNat
        | some (s', stage) =>
          if 8192 ≤ recordsAt s (placeOf k) then s.status k p a stFull d.toNat
          else
            let c := s'.nextChan
            let marks := if w.typ = .window then 0 else bindMarks s p
            let doors := mset (mset p.doors d.toNat { chan := c, isSend := true, bindCap := true, marks := 0 }) w.rdoor
              { chan := c, isSend := false, bindCap := true, marks := marks }
            ({ s' with nextChan := c + 1 }.setChan c
              (newChan w p.asid stage (.proc k p.gen d.toNat) (.proc k p.gen w.rdoor))).status k { p with doors := doors } a stOk
                d.toNat) s

/-- CHCLOSE (R166). -/
def execChclose (a : BitVec 5) (d : BitVec 6) (s : State) : Out :=
  issue { scope := .system, dsts := [.g a], touch := .release, quiet := true, noRoutine := true,
          word := encR 0x1D a 0 0 (d ++ 7#5) } (fun k p s =>
    s.notFixed k p d (s.withDoor k p d none fun e => s.closeDoor k p a d.toNat e)) s

/-- Whether an end of a space may lie on another device: a route, and for a sealed space a session (R423,
R429). -/
def reachable (s : State) (dev to_ asid : Nat) : Bool :=
  dev == to_ ||
    ((mget (s.device dev).routes to_).getD 0 != 0 &&
      (!(s.space asid).sealed || s.sessions.any fun (x : Session) => x.asid == asid && x.devA == min dev to_ && x.devB == max dev to_))

/-- The reserved process of a kind and space at a place. -/
def reserved (s : State) (pl asid : Nat) (kind : ProcKind) : Option (Nat × Proc) :=
  (s.procsAt pl).find? fun e => e.2.asid == asid && e.2.kind == kind

/-- The scope of an instruction of the process that issues, toward a core (R167): SYSTEM for another device. -/
def towardCore (s : State) (b : BitVec 5) : Scope :=
  match mget s.procs s.cur with
  | none => .device
  | some p => if field (p.rg b) 52 12 = keyDev s.cur then .device else .system

/-- AMSG (R167): word 1 is the sender's handle. -/
def execAmsg (a b c : BitVec 5) (t : Bool) (s : State) : Out :=
  issue { scope := towardCore s b, srcs := [.g b, .v c], dsts := [.g a], touch := .release, quiet := true, noRoutine := true,
          word := encR 0x1D a b c (0#6 ++ BitVec.ofBool t ++ 8#4) } (fun k p s =>
    let pl := field (p.rg b) 42 22 / 1024 * 1024 + field (p.rg b) 42 10
    let here := inService s (devOf pl) 0 (coreOf pl) && (reserved s pl p.asid .inbox).isSome
    if !here || !reachable s (keyDev k) (devOf pl) p.asid then s.status k p a stClosed 0
    else
      let ws := listSet (vWords (p.rv c)) 1 (selfHandle k p)
      let call : Call := { words := ws, numctl := p.numctl, p := k, gen := p.gen, reg := a, asid := p.asid, prio := p.eff }
      (s.post (placeOf k) pl none (.inbox pl call)).waitIn k p (.amsg pl ws) a 0 (deadlineOf s k p t)) s

/-- WINOPEN (R168, R328): the pushes that wait for it meet the window. -/
def execWinopen (a b c : BitVec 5) (d : BitVec 6) (s : State) : Out :=
  issue { scope := .system, srcs := [.g b, .g c], dsts := [.g a], touch := .release, noRoutine := true,
          word := encR 0x1D a b c (d ++ 9#5) } (fun k p s =>
    s.notFixed k p d (s.withDoor k p d (some false) fun e =>
      let size := (p.rg c).toNat
      match mget s.chans e.chan with
      | none => s.status k p a stClosed d.toNat
      | some x =>
        if x.typ ≠ .window ∨ size < 6 ∨ p.splog < size then s.status k p a stBadType d.toNat
        else
          match x.win with
          | .opened _ _ => s.status k p a stFull d.toNat
          | .none | .withdrawn =>
            let base := scratchOff p (p.rg b) 0 (2 ^ size)
            let s := s.setChan e.chan { x with win := .opened base (2 ^ size), pend := [] }
            (x.pend.foldl (fun s q => s.post (agentSend e.chan) (agentChan e.chan) none (.winPush q)) s).status k p a stOk
              d.toNat)) s

/-- WINCLOSE (R168): waits until every accepted push has its stamp. -/
def execWinclose (a : BitVec 5) (d : BitVec 6) (s : State) : Out :=
  issue { dsts := [.g a], touch := .acquire, noRoutine := true, word := encR 0x1D a 0 0 (d ++ 10#5) } (fun k p s =>
    s.withDoor k p d (some false) fun e =>
      match mget s.chans e.chan with
      | none => s.status k p a stClosed d.toNat
      | some x =>
        match x.typ, x.win with
        | .window, .opened _ _ =>
          if x.landing then
            (s.setChan e.chan { x with closing := some (k, p.gen) }).waitIn k p (.winclose e.chan) a d.toNat none
          else (s.withdraw e.chan).status k p a stOk d.toNat
        | _, _ => s.status k p a stBadType d.toNat) s

/-- SENDT (R171). -/
def execSendt (a b : BitVec 5) (d : BitVec 6) (t : Bool) (s : State) : Out :=
  issue { scope := .system, srcs := [.g b], dsts := [.g a], touch := .release, noRoutine := true,
          word := encR 0x1E a b 0 (d ++ BitVec.ofBool t ++ 0#4) } (fun k p s =>
    s.withDoor k p d (some true) fun e =>
      s.withSpad k p false (p.rg b)
        (match mget s.chans e.chan with
         | none => s.status k p a stClosed d.toNat
         | some x =>
           if x.typ ≠ .tile then s.status k p a stBadType d.toNat
           else s.sendGo k p a d.toNat t e x [] (some ((p.rg b).toNat % 2 ^ p.splog)))) s

/-- RECVT (R171). -/
def execRecvt (a b : BitVec 5) (d : BitVec 6) (t : Bool) (s : State) : Out :=
  issue { scope := .system, srcs := [.g b], dsts := [.g a], touch := .both, noRoutine := true,
          word := encR 0x1E a b 0 (d ++ BitVec.ofBool t ++ 1#4) } (fun k p s =>
    s.withDoor k p d (some false) fun e =>
      s.withSpad k p false (p.rg b)
        (match mget s.chans e.chan with
         | none => s.status k p a stClosed d.toNat
         | some x =>
           if x.typ ≠ .tile then s.status k p a stBadType d.toNat
           else
             let r : RecvOp := { p := k, gen := p.gen, file := .g, dst := 0, status := a, door := d.toNat,
                                 tile := some ((p.rg b).toNat % 2 ^ p.splog) }
             (s.post (placeOf k) (agentChan e.chan) none (.recv e.chan r)).waitIn k p (.recv e.chan) a d.toNat
               (deadlineOf s k p t))) s

/-- The shape of a halo (R172): bytes per row, rows, border rows, border bytes. -/
def haloShape (w : Word) : Option (Nat × Nat × Nat × Nat) :=
  let rowb := field w 0 16
  let rows := field w 16 13
  let h := field w 32 8
  let cw := field w 40 8
  if 8 ≤ rowb ∧ rowb ≤ 32768 ∧ rowb % 8 = 0 ∧ 1 ≤ rows ∧ rows ≤ 4096 ∧ field w 29 3 = 0 ∧ 1 ≤ h ∧ h ≤ rows ∧ 1 ≤ cw ∧
      8 * cw ≤ rowb ∧ field w 48 16 = 0 then
    some (rowb, rows, h, 8 * cw)
  else none

/-- Whether a core lies at the package edge of a direction (R172): N, E, S, W. -/
def atEdge (core dir : Nat) : Bool :=
  decide (core < 768) &&
    match dir with
    | 0 => coreY core == 0
    | 1 => coreX core == 23
    | 2 => coreY core == 31
    | _ => coreX core == 0

/-- The bytes of the region that a direction pushes (R172). -/
def haloBytes (s : State) (k : Nat) (p : Proc) (base : Nat) (sh : Nat × Nat × Nat × Nat) (dir : Nat) : List Byte :=
  let (rowb, rows, h, cw) := sh
  match dir with
  | 0 => spadBytes s k p base (h * rowb)
  | 1 => ((List.range rows).map fun r => spadBytes s k p (base + r * rowb + rowb - cw) cw).flatten
  | 2 => spadBytes s k p (base + (rows - h) * rowb) (h * rowb)
  | _ => ((List.range rows).map fun r => spadBytes s k p (base + r * rowb) cw).flatten

/-- The counter that a direction advances in the receiver (R172). -/
def haloCounter (dir : Nat) : Nat :=
  match dir with
  | 0 => 2
  | 1 => 3
  | 2 => 0
  | _ => 1

/-- Pushes one direction (R172): its code, 255 while the push travels. -/
def State.haloPush (s : State) (k : Nat) (p : Proc) (d base : Nat) (sh : Nat × Nat × Nat × Nat) (dir : Nat) :
    State × Nat :=
  match mget p.doors (d + dir) with
  | none => (s.countCore (placeOf k) 5, stOk)
  | some e =>
    match mget s.chans e.chan with
    | none => (s, stClosed)
    | some x =>
      if x.typ ≠ .window then (s, stBadType)
      else
        let bs := haloBytes s k p base sh dir
        (s.post (agentSend e.chan) (agentChan e.chan) none
          (.winPush { chan := e.chan, off := 0, bytes := bs, need := bs.length + 32, stamp := none,
                      halo := some (haloCounter dir), node := none, waiter := some (k, p.gen, dir) }), 255)

/-- THALO (R172). The spec does not give the alignment of the region's offset: the model aligns it down to 8 bytes, the unit
of the shape (log 48). R84 takes DOOR before PROT, and the table R173 lists 'no scratchpad' before the unbound door, as R233
lists NODEERR before DOOR: the model's choice is the order of R84, here, in SENDT and RECVT, and in DRAIN and COPY (log 102). -/
def execThalo (a b c : BitVec 5) (d : BitVec 6) (t : Bool) (s : State) : Out :=
  issue { scope := .system, srcs := [.g b, .g c], dsts := [.g a], touch := .release, noRoutine := true,
          word := encR 0x1E a b c (d ++ BitVec.ofBool t ++ 2#4) } (fun k p s =>
    let bad := (List.range 4).find? fun i =>
      match mget p.doors (d.toNat + i) with
      | none => !atEdge (coreOf (placeOf k)) i
      | some e => !e.isSend
    match bad with
    | some i => s.trap k p false 9 0 (BitVec.ofNat 64 (d.toNat + i))
    | none =>
      s.withSpad k p false (p.rg b)
        (match haloShape (p.rg c) with
         | none => s.status k p a stBadType d.toNat
         | some sh =>
           let base := scratchOff p (p.rg b) 0 8
           let skip := (List.range 4).foldl (fun n i =>
             n + (if (mget p.doors (d.toNat + i)).isNone then 2 ^ i else 0)) 0
           let (s, codes) := (List.range 4).foldl (fun (r : State × List Nat) i =>
             let (s, code) := r.1.haloPush k p d.toNat base sh i
             (s, r.2 ++ [code])) (s, [])
           if codes.contains 255 then
             s.waitIn k p (.halo codes skip) a d.toNat (deadlineOf s k p t)
           else s.fin k (p.wg a (haloStatus codes d.toNat skip)))) s

/-- Whether a collective binding has this role, for a send or a receive end (R430). -/
def roleExists (b : Coll) (role : Nat) (isSend : Bool) : Bool :=
  if b.fanout then (role == 0 && !isSend) || (decide (2 ≤ role ∧ role < 2 + b.nout) && isSend)
  else (role == 0 && !isSend) || (role == 1 && !isSend && !b.head) || (role == 2 && isSend)

/-- Whether an end of a channel may take a role (R432). -/
def roleSuits (s : State) (b : Coll) (role : Nat) (isSend : Bool) (x : Chan) : Bool :=
  roleExists b role isSend && (mget b.roles role).isNone && b.asid == x.asid && decide (1 ≤ x.cap) &&
    (match x.typ with
     | .word | .message => true
     | .tile => x.ety == some b.ety && decide (x.cap * x.rows * x.rowb ≤ 2 ^ 20)
     | .window => false) &&
    b.roles.all fun (r : Nat × Nat) =>
      match mget s.chans r.2 with
      | none => true
      | some y => y.typ == x.typ && y.rows == x.rows && y.rowb == x.rowb

/-- The key of a binding id (R430), if its other bits are 0. -/
def bindingKey (id : Word) : Option Nat :=
  if field id 5 11 = 0 ∧ field id 20 32 = 0 then some (field id 52 12 * 512 + field id 16 4 * 32 + field id 0 5) else none

/-- Whether an endpoint takes an end of a channel (R442, log 41): a to-host endpoint the receive end, a to-device one the
send end, so that a process's send end is bound to a to-host endpoint. -/
def endpointSuits (e : HostEp) (isSend : Bool) (x : Chan) : Bool :=
  e.chan.isNone && e.toHost != isSend &&
    (match x.typ with
     | .word => !e.isMsg
     | .message => e.isMsg
     | .tile | .window => false)

/-- Whether the end of a channel may lie on a device (R423): it and the device of the peer end reach each other, and the
issuer reaches it. -/
def endReaches (s : State) (k : Nat) (x : Chan) (isSend : Bool) (dev : Nat) : Bool :=
  reachable s (keyDev k) dev x.asid &&
    match holderDev (if isSend then x.recv else x.send) with
    | none => true
    | some d => reachable s d dev x.asid && reachable s dev d x.asid

/-- What a new binding asks (R165): the holder that takes the end, or a status. `isSend` is the moved end. -/
def bindHolder (s : State) (k : Nat) (p : Proc) (x : Chan) (isSend : Bool) (kind : Nat) (tgt : Word) (tdoor : Nat) :
    Except Nat Holder :=
  match kind with
  | 0 =>
    if !p.smode && decide (62 ≤ tdoor) then .error stBadType
    else
      match s.byHandle tgt with
      | none => .error stClosed
      | some (t, q) =>
        if !endReaches s k x isSend (keyDev t) then .error stClosed
        else if (mget q.doors tdoor).isSome then .error stBadType
        else .ok (.proc t q.gen tdoor)
  | 1 =>
    match (if tgt.toNat < 1024 then mget s.hostEps (keyDev k * 1024 + tgt.toNat) else none) with
    | none => .error stBadType
    | some e =>
      if !endpointSuits e isSend x then .error stBadType
      else if !endReaches s k x isSend (keyDev k) then .error stClosed
      else .ok (.hostEp (keyDev k * 1024 + tgt.toNat))
  | 2 =>
    if 768 ≤ tgt.toNat then .error stBadType
    else if !((x.typ = .message ∧ !isSend) ∨ (x.typ = .window ∧ isSend)) then .error stBadType
    else if !endReaches s k x isSend (keyDev k) then .error stClosed
    else .ok (.server (keyDev k * 1024 + tgt.toNat))
  | _ =>
    match bindingKey tgt with
    | none => .error stBadType
    | some b =>
      match mget s.colls b with
      | none => .error stBadType
      | some c =>
        if !endReaches s k x isSend (b / 512) then .error stClosed
        else if roleSuits s c tdoor isSend x then .ok (.coll b tdoor) else .error stBadType

/-- The place of a holder. -/
def holderPlace (h : Holder) : Option Nat :=
  match h with
  | .proc p _ _ => some (placeOf p)
  | .server pl => some pl
  | .service d => some (d * 1024 + 768)
  | .hostEp _ | .coll _ _ | .gone => none

/-- The agent that receives the copy of an end (R334 step 2). -/
def holderAgent (h : Holder) (dev : Nat) : Nat := (holderPlace h).getD (dev * 1024 + 768)

/-- The direction of a push that a THALO of a process waits for, if it is one. -/
def Push.dirOf (p : Push) (k gen : Nat) : Option Nat :=
  match p.waiter with
  | some (q, g, dir) => if q = k ∧ g = gen then some dir else none
  | none => none

/-- The pushes of a message on a channel. -/
def Msg.pushOn (m : Msg) (c : Nat) : Option Push :=
  match m.body with
  | .winPush p => if p.chan = c then some p else none
  | _ => none

/-- The directions of a THALO whose pushes on a channel no window has taken yet (R335). -/
def haloDirs (s : State) (c : Nat) (x : Chan) (k gen : Nat) : List Nat :=
  (x.pend ++ s.net.filterMap (·.pushOn c) ++
      (s.links.map fun (l : Nat × Link) => l.2.queue.filterMap (·.msg.pushOn c)).flatten).filterMap (·.dirOf k gen)

/-- Takes back the pushes of a THALO on a channel, and ends those directions CLOSED (R335). -/
def State.closeHalo (s : State) (c : Nat) (x : Chan) (k gen : Nat) : State :=
  let out (m : Msg) : Bool := (m.pushOn c).any fun p => (p.dirOf k gen).isSome
  (haloDirs s c x k gen).foldl (fun s dir => s.haloDone k gen dir stClosed)
    { s with
      net := s.net.filter fun m => !out m
      links := s.links.map fun (l : Nat × Link) => (l.1, { l.2 with queue := l.2.queue.filter fun e => !out e.msg })
      chans := mset s.chans c { x with pend := x.pend.filter fun p => (p.dirOf k gen).isNone } }

/-- What the old holder of a moving end still does with it (R335). -/
inductive Quiet where
  | free
  | busy
  | closes (door : Nat)
  deriving DecidableEq, Repr

/-- The operation of the old holder on an end (R335): none, one already matched or copying, or one that ends
CLOSED. -/
def quietOf (s : State) (c : Nat) (x : Chan) (isSend : Bool) : Quiet :=
  match (if isSend then x.send else x.recv) with
  | .proc k gen door =>
    match s.byOwn k gen with
    | none => .free
    | some p =>
      match p.wait with
      | none => .free
      | some w =>
        match w.kind with
        | .offer y _ =>
          if isSend && y == c then
            (if (x.q ++ x.held).any (·.isOfferOf k gen) ||
                s.net.any (fun m => match m.body with | .offer z e => z == c && e.isOfferOf k gen | _ => false)
             then .closes door else .busy)
          else .free
        | .credit y _ _ => if isSend && y == c then .closes door else .free
        | .recv y =>
          if !isSend && y == c then
            (if x.rwait.isSome ||
                s.net.any (fun m => match m.body with | .recv z r => z == c && r.p == k && r.gen == gen | _ => false)
             then .closes door else .busy)
          else .free
        | .copy y => if y = c then .busy else .free
        | .winclose y => if !isSend && y == c then .busy else .free
        | .halo _ _ => if isSend && !(haloDirs s c x k gen).isEmpty then .closes door else .free
        | .alt mask => if mask.getLsbD door then .closes door else .free
        | _ => .free
  | .hostEp _ | .server _ | .coll _ _ | .service _ | .gone => .free

/-- Ends the old holder's unmatched operation with CLOSED (R335). -/
def State.quiesce (s : State) (c : Nat) (x : Chan) (isSend : Bool) (door : Nat) : State :=
  match (if isSend then x.send else x.recv) with
  | .proc k gen _ =>
    if isSend && x.typ == .window then s.closeHalo c x k gen
    else if isSend then
      let s := { s with net := s.net.filter fun m =>
        match m.body with | .offer z e => !(z == c && e.isOfferOf k gen) | _ => true }
      let s := s.setChan c { x with q := x.q.filter (fun e => !e.isOfferOf k gen)
                                    held := x.held.filter (fun e => !e.isOfferOf k gen) }
      s.finishWait k (statusWord stClosed door)
    else
      let s := { s with net := s.net.filter fun m =>
        match m.body with | .recv z r => !(z == c && r.p == k && r.gen == gen) | _ => true }
      match x.rwait with
      | some r => (s.setChan c (x.served x.q)).applyFill (placeOf k) (recvEnd r stClosed)
      | none => s.finishWait k (statusWord stClosed door)
  | .hostEp _ | .server _ | .coll _ _ | .service _ | .gone => s

/-- Starts a move of an end (R334 steps 1 and 2): the issuer waits, a record forwards what reaches it. -/
def State.startBind (s : State) (k : Nat) (p : Proc) (a : BitVec 5) (d c : Nat) (x : Chan) (isSend cap : Bool)
    (to_ : Holder) : State :=
  let s := if isSend then s else s.setChan c { x with moving := true }
  (s.post (placeOf k) (holderAgent to_ (keyDev k)) none (.recordCopy c isSend to_ d cap (ownOf k p .none))).waitIn k p
    (.bind c) a d none

/-- The peer of a receive end has become a host endpoint: the end leaves the set of R313, its marks go, and the test is made
again. -/
def State.leavesSet (s : State) (c : Nat) : State :=
  match (mget s.chans c).map fun x => x.recv with
  | some (Holder.proc k _ d) =>
    ((s.modLive k fun p => { p with doors := p.doors.map fun e => if e.1 = d then (d, { e.2 with marks := 0 }) else e }).roundTest
      k).holderEvent k
  | _ => s

/-- Puts an end in its new holder's table; a to-host endpoint takes what the record holds, and a to-device endpoint sends
what its host has written (R442). -/
def State.installEnd (s : State) (h : Holder) (e : Door) : State :=
  let c := e.chan
  match h with
  | .proc t _ d =>
    s.modLive t fun q =>
      { q with reported := false
               doors := mset q.doors d { e with marks := if countedEnd s e then bindMarks s q else 0 } }
  | .hostEp n =>
    (match mget s.hostEps n with
     | none => s
     | some ep =>
       let s := { s with hostEps := mset s.hostEps n { ep with chan := some c } }
       if e.isSend then (s.leavesSet c).fromHost n 4096
       else
         match mget s.chans c with
         | none => s
         | some x => x.q.foldl (fun s i => s.toEndpoint n i) (s.setChan c { x with q := [] }))
  | .coll b role =>
    (match mget s.colls b with
     | none => s
     | some x => { s with colls := mset s.colls b { x with roles := mset x.roles role c } })
  | .server _ | .service _ | .gone => s

/-- Moves a send end of a fault door, of which there are many (R22), to any holder that may take it (R21). -/
def State.moveFaultEnd (s : State) (src door : Nat) (to_ : Holder) (cap : Bool) (e : Door) : State :=
  (s.modLive src fun p => { p with doors := mdel p.doors door, reported := false }).installEnd to_ { e with bindCap := cap }

/-- A bind of the end at door `sd` of process `src` (R165). -/
def State.bindGo (s : State) (k : Nat) (p : Proc) (a : BitVec 5) (d : Nat) (src sd : Nat) (e : Door) (kind : Nat)
    (tgt : Word) (tdoor : Nat) (capb : Bool) : State :=
  let cap := if p.smode then capb else e.bindCap
  match mget s.chans e.chan with
  | none => s.status k p a stClosed d
  | some x =>
    match bindHolder s k p x e.isSend kind tgt tdoor with
    | .error st => s.status k p a st d
    | .ok h =>
      if e.isSend && isFaultChan s e.chan then
        let s := s.moveFaultEnd src sd h cap e
        let s := s.chanEvent e.chan
        match mget s.procs k with
        | none => s
        | some p => s.status k p a stOk d
      else if x.copying || x.moving || quietOf s e.chan x e.isSend == .busy then s.stallOn k p .order none
      else
        match quietOf s e.chan x e.isSend with
        | .closes door =>
          let s := s.quiesce e.chan x e.isSend door
          (match mget s.chans e.chan with
           | none => s.status k p a stClosed d
           | some x => s.startBind k p a d e.chan x e.isSend cap h)
        | .free | .busy => s.startBind k p a d e.chan x e.isSend cap h

/-- CHBIND (R165), the register form. -/
def execChbind (a b c : BitVec 5) (d : BitVec 6) (s : State) : Out :=
  let word := encR 0x1D a b c (d ++ 6#5)
  issue { scope := .system, srcs := [.g b, .g c], dsts := [.g a], touch := .release, quiet := true, noRoutine := true,
          word := word } (fun k p s =>
    s.notFixed k p d (s.withDoor k p d none fun e =>
      let w := p.rg c
      if !p.smode && !e.bindCap then s.trap k p false 2 0 (word.setWidth 64)
      else if field w 6 2 ≠ 0 ∨ field w 10 6 ≠ 0 ∨ field w 17 47 ≠ 0 then s.status k p a stBadType d.toNat
      else s.bindGo k p a d.toNat k d.toNat e (field w 8 2) (p.rg b) (field w 0 6) (w.getLsbD 16))) s

/-- A word that an instruction reads at issue, at its home: the line is recalled and charged, and a poisoned one reads 0 and
is counted (R125, R349, log 87). -/
def State.issueRead (s : State) (p : Proc) (ga : Nat) (leaf : Word) : State × Word :=
  let t := s.readDone ga 8
  if leafPois leaf || s.bad ga then (t.countHome ga 0, 0)
  else if sealedFrom s ga (some p.asid) then (t, 0)
  else (t, BitVec.ofNat 64 (readNat s ga 8))

/-- Reads `n` words from an address, each on its own page (R351): the words, or the fault of the lowest one; none where a read
must still wait: for an earlier synchronised store of the process, for an earlier access of its core, or at its home. -/
def State.issueWords (s : State) (k : Nat) (p : Proc) (va : Word) : Nat → State × Except (Option (Nat × Nat × Word)) (List Word)
  | 0 => (s, .ok [])
  | n + 1 =>
    match translate s (placeOf k) p.asid p.smode va .read with
    | (s, .fault c d) => (s, .error (some (c, d, va)))
    | (s, .wait) => (s, .error none)
    | (s, .ok ga leaf) =>
      if feWaits s k p.gen ga || readWaits s (placeOf k) ga 8 then (s.readHeld ga 8, .error none)
      else
        let (s, x) := s.issueRead p ga leaf
        match s.issueWords k p (va + 8) n with
        | (s, .error e) => (s, .error e)
        | (s, .ok xs) => (s, .ok (x :: xs))

/-- CHBIND.D (R165): its descriptor is read at issue, word by word. -/
def execChbindD (a b : BitVec 5) (s : State) : Out :=
  issue { scope := .system, srcs := [.g b], dsts := [.g a], needS := true, touch := .both, noRoutine := true,
          word := encR 0x1D a b 0 0x016 } (fun k p s =>
    let va := p.rg b
    if va.toNat % 8 ≠ 0 then s.trap k p false 4 0 va
    else
    match s.issueWords k p va 4 with
    | (s, .error (some (c, d, at_))) => s.trap k p false c d at_
    | (s, .error none) => s.stallOn k p .order none
    | (s, .ok ws) =>
      let w (o : Nat) : Word := ws.getD o 0
      let h := w 1
      if 64 ≤ field h 0 8 ∨ 64 ≤ field h 8 8 ∨ 4 ≤ field h 16 8 ∨ 2 ≤ field h 24 8 ∨ field h 32 32 ≠ 0 ∨ w 3 ≠ 0 then
        s.status k p a stBadType 0
      else
        match (if w 0 = 0 then some (k, p) else s.byHandle (w 0)) with
        | none => s.status k p a stClosed 0
        | some (src, q) =>
          match mget q.doors (field h 0 8) with
          | none => s.status k p a stBadType 0
          | some e => s.bindGo k p a 0 src (field h 0 8) e (field h 16 8) (w 2) (field h 8 8) (h.getLsbD 24)) s

/-- Whether a target can still take an end when the copy arrives (R334): OK or a status. -/
def targetCode (s : State) (h : Holder) (x : Chan) (isSend : Bool) : Nat :=
  match h with
  | .proc t gen d =>
    match s.byOwn t gen with
    | none => stClosed
    | some q => if (mget q.doors d).isSome then stBadType else stOk
  | .hostEp n =>
    match mget s.hostEps n with
    | none => stBadType
    | some e => if endpointSuits e isSend x then stOk else stBadType
  | .coll b role =>
    match mget s.colls b with
    | none => stBadType
    | some c => if roleSuits s c role isSend x then stOk else stBadType
  | .server _ | .service _ | .gone => stOk

/-- The end of a door has moved: the door stays bound until the old place is free (R334 step 4), and what uses it
meanwhile meets no channel; the test of R313 is made again. -/
def State.leaveEnd (s : State) (h : Holder) (isSend : Bool) : State :=
  match h with
  | .proc k _ d =>
    let s := s.modLive k fun p =>
      { p with doors := mset p.doors d { chan := 0, isSend := isSend, bindCap := false, marks := 0 }, reported := false }
    if isSend then s else (s.roundTest k).holderEvent k
  | .hostEp _ | .server _ | .coll _ _ | .service _ | .gone => s

/-- The old place of a moved end is free, and its door is unbound (R334 step 4). -/
def State.dropEnd (s : State) (h : Holder) : State :=
  match h with
  | .proc k gen d =>
    (match s.byOwn k gen with
     | none => s
     | some _ => s.modLive k fun p => if (mget p.doors d).any (·.chan == 0) then { p with doors := mdel p.doors d } else p)
  | .hostEp _ | .server _ | .coll _ _ | .service _ | .gone => s

/-- The staging slots of a tile channel move to the home memory of the core that its receive end has moved to (R326); where
no room is granted there, they stay (log 86). A collective unit takes them into its own SRAM (R432). -/
def State.moveStage (s : State) (c : Nat) : State :=
  match mget s.chans c with
  | none => s
  | some x =>
    if x.stageBytes = 0 then s
    else
      match x.recv with
      | .coll _ _ =>
        if x.stage = 0 then s
        else
          let slot (i : Nat) : List Byte := memBytes s.mem (x.stage + i * x.tileBytes) x.tileBytes
          (((List.range x.cap).foldl (fun s i => s.putStage x i (slot i)) s).giveBack x.asid x.stage x.stageBytes).setChan c
            { x with stage := 0 }
      | .proc _ _ _ | .hostEp _ | .server _ | .service _ | .gone =>
        match recordPlace x with
        | none => s
        | some pl =>
          if homeMemory pl x.stage then s
          else
            match s.grantBytes pl x.asid x.stageBytes with
            | none => s
            | some (s, ga) =>
              ((s.putBytes ga (memBytes s.mem x.stage x.stageBytes)).giveBack x.asid x.stage x.stageBytes).setChan c
                { x with stage := ga }

/-- RECORD_COPY (R334 step 2): the end is installed at its new place with what the record held, and what
reached the old place meanwhile follows it in order. -/
def execRecordCopy (n : Nat) (s : State) : Out :=
  match s.arriving n with
  | some { src := src, dst := dst, body := .recordCopy c isSend h d cap own, .. } =>
    let s := s.took n
    match mget s.chans c with
    | none => .next (s.bindDone dst own stClosed d)
    | some x =>
      let code := targetCode s h x isSend
      let old := if isSend then x.send else x.recv
      let code := if old = .gone then stClosed else code
      if code ≠ stOk then
        let s := if isSend then s else s.setChan c { x with moving := false, q := x.q ++ x.held, held := [] }
        .next ((s.chanEvent c).bindDone dst own code d)
      else
        match quietOf s c x isSend with
        | .busy => .next (s.post src dst none (.recordCopy c isSend h d cap own))
        | .closes door => .next ((s.quiesce c x isSend door).post src dst none (.recordCopy c isSend h d cap own))
        | .free =>
          if x.copying then .next (s.post src dst none (.recordCopy c isSend h d cap own))
          else
            let x := if isSend then { x with send := h }
              else { x with recv := h, moving := false, q := x.q ++ x.held, held := [] }
            let s := (((s.setChan c x).fixPath c).leaveEnd old isSend).installEnd h { chan := c, isSend := isSend, bindCap := cap, marks := 0 }
            let s := if isSend then s else s.moveStage c
            let peer := if isSend then x.recv else x.send
            let s := s.post dst ((holderPlace peer).getD (ownPlace own.p)) none (.announce c old own)
            .next (s.chanEvent c)
  | _ => .next s

/-- REBIND_ANNOUNCE (R334 step 3): the peer end is told, and acknowledges to the old place. -/
def execRebindAnnounce (n : Nat) (s : State) : Out :=
  match s.arriving n with
  | some { dst := dst, body := .announce c old own, .. } =>
    .next ((s.took n).post dst (ownPlace own.p) none (.announceAck c old own))
  | _ => .next s

/-- REBIND_ACK (R334 step 4): the old door is unbound, and CHBIND completes OK. -/
def execRebindAck (n : Nat) (s : State) : Out :=
  match s.arriving n with
  | some { body := .announceAck c old own, .. } =>
    let s := (s.took n).dropEnd old
    match s.byOwn own.p own.gen with
    | none => .next (if own.p < 2 ^ 40 then s else s.bindDone 0 own stOk 0)
    | some p =>
      match p.wait with
      | some { kind := .bind y, door := d, .. } =>
        if y = c then .next (s.finishWait own.p (statusWord stOk d)) else .next s
      | _ => .next s
  | _ => .next s

end Sys2Proof.Machine
end

