-- ==== Sys2Proof/Machine/Fetch.lean ====
section
/-! DEFINITION. Fetching (R88, R280, R346): the words at a process's PC, what the decoder makes of them, and
which process issues next (R303). -/

namespace Sys2Proof.Machine

/-- The line of an instruction fetch: from the core's instruction cache, else by a READ at its home (R370), and then kept
(R280, R352, log 6). A poisoned line reads zero and is counted (log 23), and so does the allocation of another, sealed space
(R450). None where the READ must wait at its home: it is made again (log 83). -/
def fetchLine (s : State) (pl asid ga : Nat) : State × Option VReg :=
  let line := ga / 64
  match mget (s.core pl).icache line with
  | some x => (s, some x)
  | none =>
    if readWaits s pl (line * 64) 64 then (s.readHeld (line * 64) 64, none)
    else
    let s := s.readDone (line * 64) 64
    if s.bad ga then (s.countHome ga 0, some 0)
    else if sealedFrom s ga (some asid) then (s, some 0)
    else
      let x : VReg := BitVec.ofNat 512 (memNat s.mem (line * 64) 64)
      match rangeOf (gaPa ga) with
      | .hbm _ | .tier2 _ => (s.modCore pl fun c => { c with icache := keepLine 1024 c.icache line x }, some x)
      | .scratch _ | .host | .control | .none => (s, some x)

/-- What the fetch of one word gives: the word, the cause and detail of the fetch fault, or a read that must wait. -/
inductive FetchedWord where
  | word (w : IWord)
  | fault (code detail : Nat)
  | wait
  deriving DecidableEq, Repr

/-- One word at a virtual address. -/
def fetchWord (s : State) (k : Nat) (p : Proc) (va : Word) : State × FetchedWord :=
  match translate s (placeOf k) p.asid p.smode va .exec with
  | (s, .fault c d) => (s, .fault c d)
  | (s, .wait) => (s, .wait)
  | (s, .ok ga leaf) =>
    if leafPois leaf then (s.countHome ga 0, .word 0)
    else
      match fetchLine s (placeOf k) p.asid ga with
      | (s, none) => (s, .wait)
      | (s, some x) => (s, .word (BitVec.ofNat 32 (x.toNat >>> (8 * (ga % 64)))))

/-- What a fetch gives: an instruction of the decoder, a word that is none (R83), a fetch fault, or a read that must wait. -/
inductive Fetched where
  | instr (i : Instr)
  | illegal (detail : Nat) (tval : Word) (ext : Bool)
  | fault (code detail : Nat) (va : Word) (ext : Bool)
  | wait
  deriving DecidableEq, Repr

/-- The instruction at the PC of a process. The tile and yard declarations are checked before the fields of
a word of majors 0x28 and 0x2C (R27, log 11). -/
noncomputable def fetch (s : State) (k : Nat) (p : Proc) : State × Fetched :=
  match fetchWord s k p p.pc with
  | (s, .fault c d) => (s, .fault c d p.pc false)
  | (s, .wait) => (s, .wait)
  | (s, .word w) =>
    let maj := w.extractLsb' 26 6
    if (maj = 0x28 ∧ !p.tile) ∨ (maj = 0x2C ∧ !p.yard) then (s, .illegal 7 1 false)
    else
      match decode1 w with
      | .ok i => (s, .instr i)
      | .ill d => (s, .illegal d (w.setWidth 64) false)
      | .ext x =>
        match fetchWord s k p (p.pc + 4) with
        | (s, .fault c d) => (s, .fault c d (p.pc + 4) true)
        | (s, .wait) => (s, .wait)
        | (s, .word w2) =>
          match decodePair x w2 with
          | .ok i => (s, .instr i)
          | .ill d => (s, .illegal d (w2 ++ w) true)
          | .ext _ => (s, .illegal 5 (w2 ++ w) true)

/-- The asynchronous cause that a process takes first at its next instruction boundary (R38, R398): code, TVAL. EVPEND bit
24 follows the level of the timer (R49); with TVEC = 0 the events stay pending (R397). -/
def asyncCause (s : State) (dev : Nat) (p : Proc) : Option (Nat × Word) :=
  let on (i : Nat) : Bool := (p.pstat.getLsbD (24 + i) || (i == 0 && timerLevel s dev p)) && p.pstat.getLsbD (16 + i)
  if p.kind != .normal || (p.smode && p.evmask == 0) then none
  else
    match p.yardTrap with
    | some (overrun, v) => some (if overrun then 0x0C else 0x0D, v)
    | none =>
      if p.tvec = 0 then none
      else if on 0 then some (0x18, p.timecmp)
      else if on 1 then some (0x19, p.sigVal)
      else if on 2 then some (0x1A, 0)
      else none

/-- Whether the next instruction of a process in a slot can issue (R303): one that is to be halted issues none before (R410). -/
def runnable (s : State) (k : Nat) (p : Proc) : Bool :=
  p.isRunning && p.wait.isNone && p.haltReq == 0 &&
    (match p.stall with
     | none => true
     | some x =>
       match x.kind with
       | .reg r => regFull s k p r
       | .order => true
       | .tclaim => (s.core (placeOf k)).tileOwner == some k
       | .yclaim => pastDeadline s x.deadline || (s.core (placeOf k)).yardOwner == some k
       | .tswap _ _ => pastDeadline s x.deadline)

/-- The slot a process runs in, numbered over all cores: place * 8 + slot. -/
def turnOf (e : Nat × Proc) : Nat :=
  match e.2.run with
  | .running i => placeOf e.1 * 8 + i
  | .ready | .blocked | .halted => 0

/-- The process in the first of the slots. -/
def firstTurn (l : List (Nat × Proc)) : Option (Nat × Proc) :=
  l.foldl (fun best e =>
    match best with
    | none => some e
    | some b => if turnOf e < turnOf b then some e else some b) none

/-- Whether the PC of a process stands at an EXT pair (R88), as an event taken there reports (R397). -/
def atPair (s : State) (k : Nat) (p : Proc) : Bool :=
  match (fetchWord s k p p.pc).2 with
  | .fault _ _ => false
  | .wait =>
    (match xlateAt s (placeOf k) p.asid p.smode p.pc .exec with
     | .ok ga _ => readNat s ga 4 / 2 ^ 26 == 0x3E
     | .fault _ _ | .wait => false)
  | .word w => w.extractLsb' 26 6 == 0x3E

/-- Whether a process in a slot stands at an instruction boundary with an asynchronous cause to take (R38, R398), and is not
to be halted there (R410). -/
def interrupted (s : State) (k : Nat) (p : Proc) : Bool :=
  p.isRunning && p.wait.isNone && p.haltReq == 0 && (asyncCause s (keyDev k) p).isSome

/-- The process that issues next, or takes an asynchronous trap instead: the slots take turns, so each one of a core issues
once in any 8 issues of that core (R303). -/
def pick (s : State) : Option (Nat × Proc) :=
  let rs := s.procs.filter fun e => runnable s e.1 e.2 || interrupted s e.1 e.2
  match firstTurn (rs.filter fun e => decide (s.turn < turnOf e)) with
  | some e => some e
  | none => firstTurn rs

end Sys2Proof.Machine
end

