-- ==== Sys2Proof/Machine/Servers.lean ====
section
/-! DEFINITION. The reserved processes of a core: the inbox with its handlers (R167, R337, R338) and the
delegation server with its routines (R142). -/

namespace Sys2Proof.Machine

/-- The messages an inbox holds: those waiting and the one its handler serves (R337). -/
def inboxLoad (s : State) (pl asid : Nat) : Nat :=
  ((mget (s.core pl).inbox asid).getD []).length +
    (match reserved s pl asid .inbox with | some (_, p) => (if p.serving.isSome then 1 else 0) | none => 0)

/-- INBOX_MESSAGE (R167, R337): 64 messages; a full inbox keeps the sender waiting. -/
def execInboxMessage (n : Nat) (s : State) : Out :=
  match s.arriving n with
  | some { src := src, dst := dst, body := .inbox pl c, .. } =>
    let s := s.took n
    let end_ (s : State) (code : Nat) : State :=
      s.post pl (placeOf c.p) none (.fill (endFill c.p c.gen (statusWord code 0)))
    if !inService s (devOf pl) 0 (coreOf pl) || (reserved s pl c.asid .inbox).isNone then .next (end_ s stClosed)
    else
      if 64 ≤ inboxLoad s pl c.asid then .next (s.post src dst none (.inbox pl c))
      else
        .next (end_ (s.modCore pl fun x => { x with inbox := mset x.inbox c.asid ((mget x.inbox c.asid).getD [] ++ [c]) }) stOk)
  | _ => .next s

/-- A reserved process as a handler or routine starts: every register zero and full but those given. -/
def Proc.asRoutine (p : Proc) (c : Call) (entry : Word) (args : List Word) (v0 : VReg) (prio : Nat) : Proc :=
  { p with
    pc := entry, pstat := 0, numctl := c.numctl, epol := 0, gFull := BitVec.allOnes 32, vFull := BitVec.allOnes 32
    tmo := 0, tvec := 0, tcause := 0, tval := 0, tpc := 0, tstat := 0, qnt := 0, feretry := 0, timecmp := 0, swapsq := 0
    round := 0, joins := Vector.replicate 4 { count := 0, canc := 0, flt := 0 }, rotor := 0
    g := Vector.ofFn fun i =>
      if i.val = 31 then returnPoint else if 1 ≤ i.val ∧ i.val ≤ 7 then args.getD (i.val - 1) 0 else 0
    k := Vector.replicate 8 0
    v := (Vector.replicate 32 (0 : VReg)).set 0 v0
    wait := none, stall := none, vfills := [], nwaits := [], nodeTraps := []
    prior := setField (setField p.prior 0 4 prio) 16 4 prio
    serving := some (c.p, c.gen, c.reg) }

/-- Starts a reserved process on a call; a misaligned address ends it at once (log 26). -/
def State.startRoutine (s : State) (k : Nat) (p q : Proc) : State :=
  if q.pc.toNat % 4 ≠ 0 then (s.setProc k q).endRoutine k q 4 0 q.pc p.pc false
  else (s.setProc k q).makeReady k

/-- HANDLER_DISPATCH (R337). -/
def execHandlerDispatch (place asid : Nat) (s : State) : Out :=
  match (mget (s.core place).inbox asid).getD [], reserved s place asid .inbox with
  | c :: rest, some (k, p) =>
    if p.serving.isSome || p.run == .halted then .next s
    else
      let s := s.modCore place fun x => { x with inbox := if rest.isEmpty then mdel x.inbox asid else mset x.inbox asid rest }
      let prio := (mget (s.core place).inboxPrio asid).getD 6
      .next (s.startRoutine k p (p.asRoutine c (c.words.headD 0) (c.words.drop 1) (wordsV c.words) prio))
  | _, _ => .next s

/-- DELEG_REQUEST (R142): a queue of 64; a request that finds it full is counted and repeated. At a core fenced
for the space the request ends as a trap in its routine would (R404). -/
def execDelegRequest (n : Nat) (s : State) : Out :=
  match s.arriving n with
  | some { src := src, dst := dst, own := o, body := .deleg pl c, .. } =>
    let s := s.took n
    if coreClosed s pl c.asid then
      .next ((s.countCore pl 6).post pl (placeOf c.p) none
        (.fill { (endFill c.p c.gen 0) with writes := [.g c.reg 0], ends := none }))
    else
      let q := (mget (s.core pl).delegs c.asid).getD []
      if 64 ≤ q.length then .next ((s.countCore pl 7).post src dst o (.deleg pl c))
      else .next (s.modCore pl fun x => { x with delegs := mset x.delegs c.asid (q ++ [c]) })
  | _ => .next s

/-- DELEG_ROUTINE_START (R142). -/
def execDelegRoutineStart (place asid : Nat) (s : State) : Out :=
  match (mget (s.core place).delegs asid).getD [] with
  | c :: rest =>
    let s := s.reserve place asid .deleg
    match reserved s place asid .deleg with
    | some (k, p) =>
      if p.serving.isSome || p.run == .halted then .next s
      else
        let s := s.modCore place fun x =>
          { x with delegs := if rest.isEmpty then mdel x.delegs asid else mset x.delegs asid rest }
        let w (i : Nat) : Word := c.words.getD i 0
        .next (s.startRoutine k p (p.asRoutine c (w 1) [w 0, handleOf c.p c.gen, 0, w 2, w 3, w 4, w 5] 0 c.prio))
    | none => .next s
  | [] => .next s

end Sys2Proof.Machine
end

