-- ==== Sys2Proof/Machine/Events.lean ====
section
/-! DEFINITION. What the scheduler of a core does by itself: asynchronous traps (R398), timers (R49), fills
(R19), deadlines (R137), slots, swaps, starvation and quanta (R300 to R307), halts (R406), deadlock probes
(R316 to R318) and the watchdog (R403, R404). -/

namespace Sys2Proof.Machine

/-- TAKE_ASYNC_TRAP (R398): at an instruction boundary, while the process holds a slot and is not to be halted there (R410). -/
def execTakeAsyncTrap (proc : Nat) (s : State) : Out :=
  match mget s.procs proc with
  | none => .next s
  | some p =>
    if !p.isRunning || p.wait.isSome || p.haltReq != 0 then .next s
    else
      match asyncCause s (keyDev proc) p with
      | none => .next s
      | some (code, v) =>
        let s := if code = 0x0C ∨ code = 0x0D then s.setProc proc { p with yardTrap := none } else s
        .next (s.takeTrap proc code 0 v p.pc true (atPair s proc p))

/-- TIMER_EVENT (R49): TIMEB has reached TIMECMP. -/
def execTimerEvent (proc : Nat) (s : State) : Out :=
  match s.live proc with
  | none => .next s
  | some p => if timerLevel s (keyDev proc) p && !p.pstat.getLsbD 24 then .next (s.setEvent proc 24) else .next s

/-- Expires the parked requests of a process whose timers have passed (R129). -/
def State.expireParked (s : State) (k gen : Nat) : State :=
  let late (r : AtomReq) : Bool := r.own.p == k && r.own.gen == gen && pastDeadline s r.deadline
  let gone := (s.homes.map fun (h : Nat × Home) => h.2.parked.filter late).flatten
  let s := { s with homes := s.homes.map fun (h : Nat × Home) =>
    (h.1, { h.2 with parked := h.2.parked.filter fun r => !(late r) }) }
  gone.foldl (fun s r => s.post (homeAgent r.ga) r.core none (.fill (timeoutFill r))) s

/-- Expires the timed NWAITs of a process (R221). -/
def State.expireNodes (s : State) (k gen : Nat) : State :=
  let pl := placeOf k
  (s.core pl).nodes.foldl (fun s (e : Nat × Node) =>
    if e.2.live && e.2.owner == k && e.2.ogen == gen then
      let late := e.2.waiters.filter fun w => pastDeadline s w.2
      late.foldl (fun s w => s.applyFill pl
          { (endFill k gen 0) with writes := [.g w.1 (BitVec.ofNat 64 stTimeout)], ends := none,
                                   node := some (w.1, e.1 + e.2.gen * 64) })
        (s.modCore pl fun c =>
          { c with nodes := mset c.nodes e.1 { e.2 with waiters := e.2.waiters.filter fun w => !(pastDeadline s w.2) } })
    else s) s

/-- Whether a direction of a THALO waits at a window end for its window (R172). -/
def haloWaits (s : State) (k gen dir : Nat) : Bool :=
  s.chans.any fun (c : Nat × Chan) => c.2.pend.any fun q => q.waiter == some (k, gen, dir)

/-- Withdraws the pushes of a THALO that have found no window (R172); those on their way go on. -/
def State.expireHalo (s : State) (k gen : Nat) : State :=
  (List.range 4).foldl (fun s dir =>
    if haloWaits s k gen dir then
      ({ s with
        chans := s.chans.map fun (c : Nat × Chan) =>
          (c.1, { c.2 with pend := c.2.pend.filter fun q => q.waiter != some (k, gen, dir) }) } : State).haloDone k gen dir stTimeout
    else s) s

/-- Takes an active message that has not reached its inbox out of the network and the links. -/
def State.unsend (s : State) (k gen : Nat) : State :=
  let mine (m : Msg) : Bool := match m.body with | .inbox _ c => c.p == k && c.gen == gen | _ => false
  { s with
    net := s.net.filter fun m => !mine m
    links := s.links.map fun (l : Nat × Link) => (l.1, { l.2 with queue := l.2.queue.filter fun e => !mine e.msg }) }

/-- Whether a process still waits in a ring for an entry (R210). -/
def ringWaits (s : State) (pl i k gen : Nat) : Bool :=
  match ((s.core pl).rings[i]?).getD none with
  | none => false
  | some r => r.waiters.contains (k, gen)

/-- The deadline of a wait has passed: what is decided at a record is withdrawn there, what is decided at the
core ends with TIMEOUT (R137, R324). A wait that has been answered stays, and its answer completes it. -/
def State.expireWait (s : State) (k : Nat) (p : Proc) (w : Wait) : State :=
  let out := s.finishWait k (statusWord stTimeout w.door)
  let off (s : State) : State := s.modProc k fun p => { p with wait := some { w with withdrawn := true } }
  if w.withdrawn then s
  else
  match w.kind with
  | .offer c _ =>
    (off s).post (sendAgent s ((mget p.doors w.door).getD (p.sendDoor c))) (agentChan c) none (.withdraw c k p.gen true)
  | .recv c => (off s).post (placeOf k) (agentChan c) none (.withdraw c k p.gen false)
  | .credit _ _ _ => out
  | .alt _ => s.finishWait k (statusWord stTimeout 0)
  | .monS _ _ _ => s.finishWait k (statusWord stTimeout 0)
  | .join _ => s.finishWait k joinTimeout
  | .amsg _ _ =>
    if s.unsend k p.gen = s then s else (s.unsend k p.gen).finishWait k (statusWord stTimeout 0)
  | .halo _ _ => s.expireHalo k p.gen
  | .rres pl i =>
    if !ringWaits s pl i k p.gen then s
    else
    let s := s.modCore pl fun c =>
      match (c.rings[i]?).getD none with
      | none => c
      | some r => { c with rings := c.rings.setIfInBounds i (some { r with waiters := r.waiters.filter (· != (k, p.gen)) }) }
    s.finishWait k (BitVec.ofNat 64 stTimeout)
  | .ystop _ | .wfe => s.finishWait k (BitVec.ofNat 64 stTimeout)
  | .home | .copy _ | .spawn _ _ | .bind _ | .winclose _ | .matrix | .preempt _ | .tlbinv _ | .ecall | .load => s

/-- WAIT_DEADLINE (R137): a stalled claim or swap issues again and sees its deadline. -/
def execWaitDeadline (proc : Nat) (s : State) : Out :=
  match s.live proc with
  | none => .next s
  | some p =>
    let s := (s.expireParked proc p.gen).expireNodes proc p.gen
    match p.wait, p.stall with
    | some w, _ => if pastDeadline s w.deadline then .next (s.expireWait proc p w) else .next s
    | none, some x => if pastDeadline s x.deadline then .next (s.wake proc) else .next s
    | none, none => .next s

/-- Whether a stall gives up its slot (R304). -/
def StallKind.givesUp (x : StallKind) : Bool :=
  match x with
  | .reg _ | .tswap _ _ | .yclaim => true
  | .order | .tclaim => false

/-- SLOT_GIVE_UP (R304): a wait that goes on has held the slot for 64 cycles. -/
def execSlotGiveUp (proc : Nat) (s : State) : Out :=
  match mget s.procs proc with
  | none => .next s
  | some p =>
    let since := match p.wait, p.stall with
      | some w, _ => some w.since
      | none, some x => if x.kind.givesUp then some x.since else none
      | none, none => none
    match since with
    | none => .next s
    | some t => if p.isRunning && !runnable s proc p && decide (t + 64 ≤ s.cycle) then .next (s.block proc) else .next s

/-- Whether a process is spilled. -/
def isSpilled (s : State) (k : Nat) : Bool :=
  match mget s.procs k with
  | none => false
  | some p => !p.resident

/-- SPILL_SWAP (R301): the spilled READY process that stands first in the ready order. -/
def execSpillSwap (place : Nat) (s : State) : Out :=
  let order := (s.core place).readyOrder
  match order.find? (isSpilled s) with
  | none => .next s
  | some k =>
    if !contextsFull s place then .next ((s.unspill k).settle place)
    else
      let after := (order.drop ((order.findIdx? (· == k)).getD 0 + 1))
      let victim := match spillVictim s place with
        | some (v, q) => if q.run = .blocked ∨ after.contains v then some v else none
        | none => none
      match victim with
      | some v => .next ((s.swapIn k (some v)).settle place)
      | none => .next s

/-- STARVATION_RAISE (R306). -/
def execStarvationRaise (proc : Nat) (s : State) : Out :=
  match mget s.procs proc with
  | none => .next s
  | some p =>
    if p.run = .ready ∧ p.eff < 11 ∧ p.eff < p.prioBase + (s.timeb - p.readySince) / 64000 then
      .next (((s.modLive proc fun p => p.setEff (p.eff + 1)).enqueue proc false).settle (placeOf proc))
    else .next s

/-- QUANTUM_EXPIRY (R307). -/
def execQuantumExpiry (proc : Nat) (s : State) : Out :=
  match mget s.procs proc with
  | none => .next s
  | some p =>
    if p.isRunning ∧ p.haltReq = 0 ∧ p.quantSince + field p.qnt 0 32 ≤ s.timeb then
      let rival := (s.core (placeOf proc)).readyOrder.any fun k =>
        match mget s.procs k with
        | none => false
        | some r => r.resident && decide (p.prioBase ≤ r.eff)
      .next (s.setProc proc (if rival then { p with haltReq := 2 } else { p with quantSince := s.timeb }))
    else .next s

/-- PREEMPTION_HALT (R405 to R408). -/
def execPreemptionHalt (proc : Nat) (s : State) : Out :=
  match mget s.procs proc with
  | none => .next s
  | some p =>
    if p.isRunning ∧ p.haltReq ≠ 0 then .next ((s.leaveSlot proc (p.haltReq == 1)).preempted proc stOk) else .next s

/-- Whether a process is hard-blocked (R316): BLOCKED, or stalled in its slot. -/
def hardBlocked (p : Proc) : Bool :=
  (p.run == .blocked || p.isRunning) &&
  match p.wait with
  | none => false
  | some w =>
    w.deadline.isNone &&
      (match w.kind with
       | .offer _ _ | .credit _ _ _ | .recv _ | .copy _ | .alt _ => true
       | .monS _ _ _ | .home | .join _ | .spawn _ _ | .bind _ | .winclose _ | .halo _ _ | .amsg _ _
       | .rres _ _ | .matrix | .ystop _ | .wfe | .preempt _ | .tlbinv _ | .ecall | .load => false)

/-- The process that holds the other end of a channel. -/
def peerOf (s : State) (c : Nat) (sends : Bool) : List Nat :=
  match mget s.chans c with
  | none => []
  | some x =>
    match (if sends then x.recv else x.send) with
    | .proc k _ _ => [k]
    | .hostEp _ | .server _ | .coll _ _ | .service _ | .gone => []

/-- The peers a hard-blocked process waits on (R316). -/
def waitsOn (s : State) (p : Proc) : List Nat :=
  match p.wait with
  | none => []
  | some w =>
    match w.kind with
    | .offer c _ => peerOf s c true
    | .credit c _ _ => peerOf s c true
    | .recv c => peerOf s c false
    | .copy c => peerOf s c ((mget p.doors w.door).any (·.isSend))
    | .alt mask => ((p.doors.filter fun d => mask.getLsbD d.1).map fun d => peerOf s d.2.chan d.2.isSend).flatten
    | _ => []

/-- Forwards a probe, whose path ends with process `k`, to the peers of `k` (R317). -/
def State.forward (s : State) (k : Nat) (p : Proc) (origin : Nat) (path : List Nat) : State :=
  let alt := path.any fun j =>
    match (mget s.procs j).bind (·.wait) with
    | some { kind := .alt _, .. } => true
    | _ => false
  (waitsOn s p).foldl (fun s q =>
    let go := q = origin ∨ ((mget s.procs q).any hardBlocked && !path.contains q)
    if go then
      s.post (placeOf k) (placeOf q) none (.probe { origin := origin, path := path, alt := alt, toKey := q })
    else s) s

/-- Sends a deadlock report to the fault door of a space (R318), and sets the reported bits. -/
def State.reportCycle (s : State) (k : Nat) (p : Proc) (path : List Nat) (alt : Bool) : State :=
  let pl := placeOf k
  let n := path.length
  let parts := (n + 6) / 7
  let serial := (s.core pl).report
  let handles := path.map fun j => handleOf j ((mget s.procs j).elim 0 (·.gen))
  let s := s.modCore pl fun c => { c with report := (serial + 1) % 2 ^ 24 }
  let s := path.foldl (fun s j => s.modProc j fun q => { q with reported := true }) s
  let items := (List.range parts).map fun i =>
    let w0 : Word := BitVec.ofNat 64 (0x1A + n * 2 ^ 8 + (if alt then 2 ^ 16 else 0) + i * 2 ^ 24 + parts * 2 ^ 32 + serial * 2 ^ 40)
    w0 :: (List.range 7).map fun j => handles.getD (7 * i + j) 0
  s.faultSend pl { chan := (s.space p.asid).faultChan, src := coreSender pl, items := items, report := true }

/-- Since when a process that is hard-blocked has been so (R316): since it began to wait, or with a wait that its halt or
its move has kept, since it came back to a slot or resumed where it was; or since its last probe (R317). -/
def hardStart (p : Proc) : Nat := max (max ((p.wait.elim 0 (·.since)) * 5 / 9) p.slotSince) (p.hardSince.getD 0)

/-- DEADLOCK_PROBE (R317): 100 µs after the process became hard-blocked, and every 100 µs. -/
def execDeadlockProbe (proc : Nat) (s : State) : Out :=
  match mget s.procs proc with
  | none => .next s
  | some p =>
    let start := hardStart p
    if hardBlocked p && !p.reported && decide (start + 100000 ≤ s.timeb) then
      let q := { p with hardSince := some s.timeb }
      .next ((s.setProc proc q).forward proc q proc [proc])
    else .next s

/-- PROBE_FORWARD (R317): back at its origin a probe has found a cycle, reported if the origin has the lowest
handle. -/
def execProbeForward (n : Nat) (s : State) : Out :=
  match s.arriving n with
  | some { body := .probe r, .. } =>
    let s := s.took n
    match mget s.procs r.toKey with
    | none => .next s
    | some p =>
      if !hardBlocked p then .next s
      else if r.toKey = r.origin then
        if r.path.all (fun j => decide (r.origin ≤ j)) && !p.reported then .next (s.reportCycle r.origin p r.path r.alt)
        else .next s
      else if 64 ≤ r.path.length then .next (s.countCore (placeOf r.toKey) 11)
      else .next (s.forward r.toKey p r.origin (r.path ++ [r.toKey]))
  | _ => .next s

/-- A watchdog clock of a core: its time, and the last limit acted on (R403). -/
def wdogClock (s : State) (pl asid q : Nat) : Option (Nat × Nat) :=
  match mget (s.core pl).wdog (asid * 16 + q) with
  | none => none
  | some (t, acted) => some (s.timeb - t, acted)

/-- The limit T1, T2 or T3 of a space in nanoseconds (R54). -/
def wdogLimit (s : State) (asid i : Nat) : Nat := field (s.space asid).wdog (8 + 16 * (i - 1)) 16 * 1000

/-- Whether a limit is reached now and not yet acted on (R404). -/
def wdogDue (s : State) (pl asid q i : Nat) : Bool :=
  match wdogClock s pl asid q with
  | none => false
  | some (t, acted) => (s.space asid).wdog.getLsbD 0 && decide (acted < i) && decide (wdogLimit s asid i ≤ t)

def State.wdogActed (s : State) (pl asid q i : Nat) : State :=
  match mget (s.core pl).wdog (asid * 16 + q) with
  | none => s
  | some (t, _) => s.modCore pl fun c => { c with wdog := mset c.wdog (asid * 16 + q) (t, i) }

/-- Loads a READY process into a slot just freed. -/
def State.loadInto (s : State) (pl i k : Nat) : State :=
  match mget s.procs k with
  | none => s
  | some p =>
    (s.setProc k { p.setEff p.prioBase with run := .running i, slotSince := s.timeb, quantSince := s.timeb }).modCore pl
      fun c => { c.deq k with slots := c.slots.setIfInBounds i (some k) }

/-- Whether a process is one of a queue of a space (R403). -/
def ofQueue (s : State) (asid q k : Nat) : Bool :=
  match mget s.procs k with
  | none => false
  | some p => p.asid == asid && p.prioBase == q && p.kind == .normal

/-- WATCHDOG_T1 (R404): the slot of lowest EFF goes to the first READY process of the queue. Its process goes to the head of
its queue, or to the tail where its quantum or a PREEMPT has already asked for its halt (R405, R408). -/
def execWatchdogT1 (place asid queue : Nat) (s : State) : Out :=
  if !wdogDue s place asid queue 1 then .next s
  else
    let s := (s.wdogActed place asid queue 1).countCore place 16
    let c := s.core place
    match c.readyOrder.find? (ofQueue s asid queue), lowestSlot s c with
    | some k, some (v, q) =>
      match q.run with
      | .running i =>
        if c.slots.toList.any (·.isNone) then .next (s.settle place)
        else
          let s := s.setProc v { q with stall := none, haltReq := 0, readySince := s.timeb, blockedSince := s.timeb,
                                        run := if q.wait.isSome then .blocked else .ready }
          let s := s.detach v
          let s := if q.wait.isSome then s else s.enqueue v (q.haltReq != 2)
          let s := if isSpilled s k then s.swapIn k (if contextsFull s place then some v else none) else s
          .next ((s.loadInto place i k).preempted v stOk)
      | .ready | .blocked | .halted => .next s
    | _, _ => .next s

/-- WATCHDOG_T2 (R404): kills the process of the queue that has waited longest, held ones first. -/
def execWatchdogT2 (place asid queue : Nat) (s : State) : Out :=
  if !wdogDue s place asid queue 2 then .next s
  else
    let s := (s.wdogActed place asid queue 2).countCore place 16
    let mine := (s.procsAt place).filter fun e =>
      e.2.kind == .normal && e.2.asid == asid && e.2.prioBase == queue && (e.2.held || e.2.run == .ready)
    let best := mine.foldl (fun (b : Option (Nat × Proc)) e =>
      match b with
      | none => some e
      | some o =>
        if (e.2.held && !o.2.held) || (e.2.held == o.2.held && decide (e.2.readySince < o.2.readySince)) then some e
        else some o) none
    match best with
    | none => .next s
    | some (k, p) =>
      .next (s.endProc k .killed (some (faultWords 0x16 1 4 false (handleOf k p.gen) 0 p.pc (s.timebOf (devOf place)) p.pstat p.round p.tstat)) false)

/-- WATCHDOG_T3 (R404): the core is fenced for the space, and its processes are halted, handlers and routines too. -/
def execWatchdogT3 (place asid queue : Nat) (s : State) : Out :=
  if !wdogDue s place asid queue 3 then .next s
  else
    let s := s.wdogActed place asid queue 3
    let s := s.modCore place fun c => { c with fenced := sadd c.fenced asid }
    let s := (s.procsAt place).foldl (fun s e =>
      if e.2.asid = asid then ((s.modProc e.1 fun p => { p with stall := none }).parkIn e.1).preempted e.1 stOk else s) s
    .next (s.faultToSpace place asid (faultWords 0x16 2 4 false 0 0 (BitVec.ofNat 64 (coreOf place)) (s.timebOf (devOf place)) 0 0 0))

end Sys2Proof.Machine
end

