-- ==== Sys2Proof/Machine/Rings.lean ====
section
/-! DEFINITION. Operand rings and the requests to the matrix unit: majors 0x29 and 0x2A (R206 to R215, R232). -/

namespace Sys2Proof.Machine

/-- The key of the matrix unit of a core's shed, and the core's index in the shed (R3, R223). -/
def shedKey (pl : Nat) : Nat := devOf pl * 128 + coreOf pl / 8
def shedIdx (pl : Nat) : Nat := coreOf pl % 8
/-- The core of index `c` of a shed. -/
def shedPlace (sh c : Nat) : Nat := sh / 128 * 1024 + sh % 128 * 8 + c

/-- The place and ring that a reference of 5 bits names for a core (R207). -/
def ringPlace (pl ref : Nat) : Nat := pl - shedIdx pl + ref % 8
def ringNo (ref : Nat) : Nat := ref / 8 % 4

def State.ring (s : State) (pl i : Nat) : Option Ring := ((s.core pl).rings[i]?).getD none
def State.setRing (s : State) (pl i : Nat) (r : Ring) : State :=
  s.modCore pl fun c => { c with rings := c.rings.setIfInBounds i (some r) }

/-- Entries of a ring, and the slot of a sequence number (R206). -/
def Ring.cap (r : Ring) : Nat := 2 ^ r.logcap
def Ring.slot (r : Ring) (q : BitVec 16) : Nat := q.toNat % r.cap

/-- Whether RTAIL = HEAD + CAP (R210). -/
def Ring.isFull (r : Ring) : Bool := (r.rtail - r.head).toNat == r.cap

/-- Whether an entry is reserved and not yet published (R211). -/
def Ring.pending (r : Ring) (q : BitVec 16) : Bool :=
  decide ((q - r.ptail).toNat < (r.rtail - r.ptail).toNat) && !r.map.getLsbD (r.slot q)

/-- PTAIL advances over every contiguous published entry (R211). -/
def Ring.settle (r : Ring) : Nat → Ring
  | 0 => r
  | fuel + 1 =>
    if r.map.getLsbD (r.slot r.ptail) && r.ptail != r.rtail then
      ({ r with map := setBit r.map (r.slot r.ptail) false, ptail := r.ptail + 1 } : Ring).settle fuel
    else r

/-- Publishes a pending entry (R211). -/
def Ring.publish (r : Ring) (q : BitVec 16) (poison : Bool) : Ring :=
  ({ r with map := setBit r.map (r.slot q) true, poisoned := setBit r.poisoned (r.slot q) poison } : Ring).settle 32

/-- Serves the RRES that wait, while there is room (R210). -/
def State.serveRing (s : State) (pl i : Nat) : Nat → State
  | 0 => s
  | fuel + 1 =>
    match s.ring pl i with
    | none => s
    | some r =>
      match r.waiters with
      | [] => s
      | (k, gen) :: rest =>
        if (s.byOwn k gen).isNone then (s.setRing pl i { r with waiters := rest }).serveRing pl i fuel
        else if r.isFull then s
        else
          ((s.setRing pl i { r with waiters := rest, rtail := r.rtail + 1 }).post pl (placeOf k) none
            (.fill (endFill k gen (reserveWord r.rtail)))).serveRing pl i fuel

/-- RCFG (R209). -/
def execRcfg (a b : BitVec 5) (n : BitVec 2) (s : State) : Out :=
  issue { srcs := [.g b], dsts := [.g a], touch := .plain } (fun k p s =>
    let w := p.rg b
    let base := field w 0 6
    let logcap := field w 8 3
    if field w 6 2 ≠ 0 ∨ field w 11 53 ≠ 0 ∨ logcap < 1 ∨ 5 < logcap ∨ p.splog = 0 ∨
        2 ^ p.splog < (base + 2 ^ logcap) * 8192 then
      s.status k p a stBadType 0
    else if (s.ring (placeOf k) n.toNat).isSome then s.status k p a stFull 0
    else
      (s.setRing (placeOf k) n.toNat
        { owner := k, ogen := p.gen, asid := p.asid, base := base, logcap := logcap, head := 0, ptail := 0, rtail := 0,
          map := 0, poisoned := 0, taken := false, waiters := [] }).status k p a stOk 0) s

/-- What a ring reference reaches (R207, R215): the ring, or the status that stands for it. -/
def ringAt (s : State) (k : Nat) (p : Proc) (w : Word) : Nat ⊕ (Nat × Nat × Ring) :=
  if 32 ≤ w.toNat then .inl stBadType
  else
    let pl := ringPlace (placeOf k) w.toNat
    match s.ring pl (ringNo w.toNat) with
    | none => .inl stClosed
    | some r => if r.asid = p.asid then .inr (pl, ringNo w.toNat, r) else .inl stBadType

/-- RRES (R210). -/
def execRres (a b : BitVec 5) (t : Bool) (s : State) : Out :=
  issue { srcs := [.g b], dsts := [.g a], touch := .acquire } (fun k p s =>
    match ringAt s k p (p.rg b) with
    | .inl code => s.status k p a code 0
    | .inr (pl, i, r) =>
      if r.isFull || !r.waiters.isEmpty then
        (s.setRing pl i { r with waiters := r.waiters ++ [(k, p.gen)] }).waitIn k p (.rres pl i) a 0 (deadlineOf s k p t)
      else (s.setRing pl i { r with rtail := r.rtail + 1 }).fin k (p.wg a (reserveWord r.rtail))) s

/-- RPUB (R211): a release at SHED scope. -/
def execRpub (a b c : BitVec 5) (s : State) : Out :=
  issue { scope := .shed, srcs := [.g b, .g c], dsts := [.g a], touch := .release } (fun k p s =>
    if field (p.rg c) 17 47 ≠ 0 then s.status k p a stBadType 0
    else
      match ringAt s k p (p.rg b) with
      | .inl code => s.status k p a code 0
      | .inr (pl, i, r) =>
        let q := (p.rg c).setWidth 16
        if r.pending q then (s.setRing pl i (r.publish q ((p.rg c).getLsbD 16))).status k p a stOk 0
        else s.trap k p false 0x0E 0 (q.setWidth 64)) s

/-- A snapshot of a ring (R213): 0 where no ring of the space answers. -/
def ringState (a b : BitVec 5) (f : Ring → Nat → Proc → Word) (s : State) : Out :=
  issue { srcs := [.g b], dsts := [.g a], touch := .plain } (fun k p s =>
    match ringAt s k p (p.rg b) with
    | .inl _ => s.fin k (p.wg a 0)
    | .inr (_, _, r) => s.fin k (p.wg a (f r k p))) s

/-- RSTAT (R213). -/
def execRstat (a b : BitVec 5) (s : State) : Out :=
  ringState a b (fun r k p => ringWord r (r.owner == k && r.ogen == p.gen)) s

/-- RSTAT.MAP (R213). -/
def execRstatMap (a b : BitVec 5) (s : State) : Out := ringState a b (fun r _ _ => ringMapWord r) s

/-- RRST (R214). -/
def execRrst (a : BitVec 5) (n : BitVec 2) (s : State) : Out :=
  issue { dsts := [.g a], touch := .plain } (fun k p s =>
    match s.ring (placeOf k) n.toNat with
    | none => s.status k p a stClosed 0
    | some r =>
      if r.owner = k ∧ r.ogen = p.gen then (s.unring (placeOf k) n.toNat).status k p a stOk 0
      else s.status k p a stBadType 0) s

/-- Appends to the queue of a core into its matrix unit (R224). -/
def State.toMatrix (s : State) (pl : Nat) (e : QEntry) : State :=
  let x := s.shed (shedKey pl)
  let q := (x.queues[shedIdx pl]?).getD []
  if x.out then s.setShed (shedKey pl) { x with kept := x.kept ++ [(shedIdx pl, e)] }
  else s.setShed (shedKey pl) { x with queues := x.queues.setIfInBounds (shedIdx pl) (q ++ [e]) }

/-- MSTAT and MSTAT.CLR (R232): performed at the head of the queue. -/
def slotStat (a b : BitVec 5) (clr : Bool) (s : State) : Out :=
  issue { srcs := [.g b], dsts := [.g a], touch := .plain } (fun k p s =>
    (s.toMatrix (placeOf k) (.mstat k p.gen a (field (p.rg b) 0 3) clr)).waitIn k p .matrix a 0 none) s

/-- MSTAT (R232). -/
def execMstat (a b : BitVec 5) (s : State) : Out := slotStat a b false s

/-- MSTAT.CLR (R232). -/
def execMstatClr (a b : BitVec 5) (s : State) : Out := slotStat a b true s

/-- MZERO (R232): performed at the head of the queue. -/
def execMzero (a b : BitVec 5) (s : State) : Out :=
  issue { srcs := [.g b], dsts := [.g a], touch := .plain } (fun k p s =>
    (s.toMatrix (placeOf k) (.mzero k p.gen a (p.rg b))).waitIn k p .matrix a 0 none) s

/-- MWGT (R232). -/
def execMwgt (a b c : BitVec 5) (s : State) : Out :=
  issue { needS := true, srcs := [.g b, .g c], dsts := [.g a], touch := .plain, word := encR 0x2A a b c 0x040 } (fun k p s =>
    let x := s.shed (shedKey (placeOf k))
    let i := field (p.rg b) 0 3
    (s.setShed (shedKey (placeOf k)) { x with weights := x.weights.setIfInBounds i (max 1 (field (p.rg c) 0 4)) }).fin k
      (p.wg a (BitVec.ofNat 64 ((x.weights[i]?).getD 1)))) s

end Sys2Proof.Machine
end

