-- ==== Sys2Proof/Machine/Parts.lean ====
section
/-! DEFINITION. The parts that carry firmware: images (R446), boot (R447), activation and taking parts out of service
(R454, R455), and the counters (R457). -/

namespace Sys2Proof.Machine

/-- The field of `n` bytes at an offset. -/
def imgField (b : List Byte) (off n : Nat) : Nat := leNat ((b.drop off).take n)

/-- The digest of an image (R446). -/
def imageDigest (b : List Byte) : List Byte := sha512 (b.take 64 ++ b.drop 128)

/-- The minimum SVN of a kind (R446). -/
def minSvn (s : State) (dev kind : Nat) : Nat := (mget (s.device dev).minSvn kind).getD (Config.factorySvn dev kind)

/-- The image a slot holds: its header and body (R446). -/
def slotImage (b : List Byte) : List Byte := b.take (128 + imgField b 12 4)

/-- Whether an image is valid for a kind (R446). -/
def imageValid (s : State) (dev kind : Nat) (slot : List Byte) : Bool :=
  let b := slotImage slot
  decide (128 ≤ b.length) && imgField b 0 4 == 0x4D524946 && imgField b 4 1 == kind && imgField b 5 1 == 0 &&
    decide (2 ^ 20 ≤ imgField b 12 4 ∧ imgField b 12 4 ≤ 2 ^ 24) && b.length == 128 + imgField b 12 4 &&
    (b.drop 16).take 48 == List.replicate 48 0 &&
    edVerify Config.firmwareKey (imageDigest b) ((b.drop 64).take 64) && decide (minSvn s dev kind ≤ imgField b 6 2)

/-- The active and the inactive slot. -/
def Part.active (x : Part) : List Byte := if x.activeB then x.slotB else x.slotA
def Part.inactive (x : Part) : List Byte := if x.activeB then x.slotA else x.slotB
def Part.setInactive (x : Part) (b : List Byte) : Part := if x.activeB then { x with slotA := b } else { x with slotB := b }

/-- How many instances a kind has (R445). -/
def kindCount (kind : Nat) : Nat := [768, 96, 772, 12, 12, 16, 4, 1, 4, 1, 1].getD kind 0

/-- The kinds that carry a firmware image (R445). -/
def carriesImage (kind : Nat) : Bool := decide (2 ≤ kind ∧ kind ≤ 7) || kind == 10

/-- The home of a memory port or tier-2 server. -/
def portHome (dev inst : Nat) : Nat := dev * 2048 + inst

/-- Whether the image that an instance runs, or would boot from its active slot, is valid as things stand (R446, R448,
log 106). -/
def hasImage (s : State) (dev kind inst : Nat) : Bool := imageValid s dev kind (s.part dev kind inst).active

/-- Counts at a link port (R457 kind 5). -/
def State.countLink (s : State) (dev port idx : Nat) : State := s.count dev 5 port idx 1

/-- The paths of channels that leave a device by a port go by another (R424, R428). -/
def State.repathChans (s : State) (dev i : Nat) : State :=
  { s with chans := s.chans.map fun (c : Nat × Chan) =>
      (c.1, { c.2 with path := c.2.path.map fun h =>
        if h.1 / 4096 = dev ∧ h.2 = i ∧ (s.link (dev * 16 + routePort s dev (h.1 % 4096))).up = true
        then (h.1, routePort s dev (h.1 % 4096)) else h }) }

/-- The firmware moves the paths of the ports of a device that are down to usable ports (R424, R428): what waits there goes
along in its order, and a channel's later entries stay behind it. -/
def State.repath (s : State) (dev : Nat) : State :=
  (List.range 16).foldl (fun s i =>
    let l := dev * 16 + i
    if (s.link l).up then s
    else
      let x := s.link l
      x.queue.foldl (fun s e =>
        let j := dev * 16 + routePort s dev e.toKey
        let y := s.link j
        if y.up then
          s.setLink j { y with queue := y.queue ++ [{ e with tries := 0, sentAt := none, left := flitsOf s e.msg, ackLost := false }] }
        else
          let z := s.link l
          s.setLink l { z with queue := z.queue ++ [e] }) ((s.setLink l { x with queue := [] }).repathChans dev i)) s

/-! ### Service -/

/-- Whether a leaf of a table tree maps part of a range of physical addresses; `n` counts the levels left. -/
def treeMaps (s : State) (dev lo len : Nat) : Nat → Nat → Nat → Bool
  | 0, _, _ => false
  | n + 1, level, t =>
    (List.range 1024).any fun i =>
      let e : Word := BitVec.ofNat 64 (readNat s (gaOf dev t + 8 * i) 8)
      e.getLsbD 0 &&
        (if e.getLsbD 5 then decide (leafBase e < lo + len ∧ lo < leafBase e + 2 ^ levelBits level)
         else treeMaps s dev lo len n (level + 1) (leafBase e))

/-- The physical range that a memory port or tier-2 server serves (R343). -/
def portRange (inst : Nat) : Nat × Nat :=
  if inst < 768 then (inst * 2 ^ 30, 2 ^ 30) else (0x10000000000 + (inst - 768) * 2 ^ 38, 2 ^ 38)

/-- Whether a space has a page at a port. -/
def Space.mapsPort (s : State) (x : Space) (dev inst : Nat) : Bool :=
  x.live &&
    match mget x.roots dev with
    | none => false
    | some t => treeMaps s dev (portRange inst).1 (portRange inst).2 4 1 t

/-- Whether a page is mapped at a port by any space (R455). -/
def portMapped (s : State) (dev inst : Nat) : Bool := s.spaces.any fun (a : Nat × Space) => a.2.mapsPort s dev inst

/-- The firmware reports a port to the supervisors of every space that has pages there (R384, R455, log 70). -/
def State.notifyPort (s : State) (dev inst : Nat) : State :=
  { s with spaces := s.spaces.map fun (a : Nat × Space) =>
      (a.1, if a.2.mapsPort s dev inst then { a.2 with notices := sadd a.2.notices (portHome dev inst) } else a.2) }

/-- A pseudo-channel is failed (R384, R444, R447). -/
def State.failPort (s : State) (dev inst : Nat) : State :=
  ((s.notifyPort dev inst).setHome (portHome dev inst) { s.home (portHome dev inst) with failed := true, badSegs := [] }).signal dev 6

/-- Whether what a part still holds at its take-out has run to its end (R455). -/
def partIdle (s : State) (dev kind inst : Nat) : Bool :=
  match kind with
  | 0 => !(s.procsAt (dev * 1024 + inst)).any fun e => e.2.kind == .normal
  | 1 =>
    let x := s.shed (dev * 128 + inst)
    x.busy.isNone && x.queues.toList.all (·.isEmpty)
  | 2 => !portMapped s dev inst && !(s.procsAt (dev * 1024 + inst)).any fun e => e.2.spilled.isSome
  | 3 => (s.base (dev * 12 + inst)).out.getD 0 == 0
  | 4 => (s.base (dev * 12 + inst)).bredOut.getD 0 == 0
  | _ => true

/-- A link port goes down, and its paths move (R428): vector 5 (R444). -/
def State.linkDown (s : State) (dev port : Nat) : State :=
  let x := s.link (dev * 16 + port)
  if !x.up then s else (((s.setLink (dev * 16 + port) { x with up := false, downAt := s.timeb }).repath dev).signal dev 5)

/-- A link port comes up, with its 8 lanes (log 33), and what waits may go by it (R428): vector 5 (R444). -/
def State.linkUp (s : State) (dev port : Nat) : State :=
  let x := s.link (dev * 16 + port)
  if x.up || x.peer.isNone then s
  else (((s.setLink (dev * 16 + port) { x with up := true, lanes := 8 }).repath dev).signal dev 5)

/-- A shed is taken out: its queues keep their 16 entries each, and what waits outside them is kept apart (R224, R455). -/
def Shed.close (x : Shed) : Shed :=
  if x.out then x
  else
  { x with
    out := true
    queues := Vector.ofFn fun i => ((x.queues[i.val]?).getD []).take 16
    kept := ((List.range 8).map fun i => (((x.queues[i]?).getD []).drop 16).map fun e => (i, e)).flatten }

/-- A part is taken out: it accepts nothing new (R455). Cores and the paths of links are moved by their own steps. -/
def State.takeOut (s : State) (dev kind inst : Nat) : State :=
  let s := s.setService dev kind inst false
  match kind with
  | 1 => s.setShed (dev * 128 + inst) (s.shed (dev * 128 + inst)).close
  | 2 => s.notifyPort dev inst
  | 3 =>
    let b := s.base (dev * 12 + inst)
    s.setBase (dev * 12 + inst) { b with out := some (b.out.getD (min 256 b.queries.length)) }
  | 4 =>
    let b := s.base (dev * 12 + inst)
    s.setBase (dev * 12 + inst) { b with bredOut := some (b.bredOut.getD (min 64 b.jobs.length)) }
  | 5 => s.linkDown dev inst
  | _ => s

/-- Boots an instance from its active slot, or from the other (R447). -/
def State.bootPart (s : State) (dev kind inst : Nat) : State :=
  let x := s.part dev kind inst
  let start (x : Part) : State :=
    s.setPart dev kind inst { x with digest := imageDigest (slotImage x.active), inService := true }
  if imageValid s dev kind x.active then start x
  else if imageValid s dev kind x.inactive then start { x with activeB := !x.activeB }
  else
    let s := ((s.setPart dev kind inst { x with digest := List.replicate 64 0 }).count dev 9 0 1 1).takeOut dev kind inst
    if kind = 2 then s.failPort dev inst else s

/-- Domain bring-up of a device (R422, R423): its cables and its routes. -/
def State.bringUp (s : State) (dev : Nat) : State :=
  let s := (List.range 16).foldl (fun s i =>
    let p := Config.cable dev i
    s.setLink (dev * 16 + i) { s.link (dev * 16 + i) with peer := p, up := p.isSome && inService s dev 5 i }) s
  let x := s.device dev
  s.setDevice dev
    { x with on := true
             serial := Config.serial dev
             routes := (List.range 4096).foldl (fun m d =>
               if Config.route dev d = 0 then m else mset m d (Config.route dev d).toNat) [] }

/-- POWER_ON (R447): TIMEB starts at 0 (R47); the Grestra core first, then the parts in the order of R447, then domain bring-up. Without a valid
Grestra image the device stays down. -/
def execPowerOn (dev : Nat) (s : State) : Out :=
  if (s.device dev).on then .next s
  else
    let s := (s.setDevice dev { s.device dev with t0 := s.cycle }).bootPart dev 10 0
    if !inService s dev 10 0 then .next s
    else
      let s := ([7, 6, 2, 4, 3, 5] : List Nat).foldl (fun s kind =>
        (List.range (kindCount kind)).foldl (fun s i => s.bootPart dev kind i) s) s
      .next (s.bringUp dev)

/-- A part is returned to service (R455); one without a valid image stays out (R447, log 106). -/
def State.putBack (s : State) (dev kind inst : Nat) : State :=
  if carriesImage kind && !hasImage s dev kind inst then s
  else
  let s := s.setService dev kind inst true
  match kind with
  | 0 => s.settle (dev * 1024 + inst)
  | 1 =>
    let x := s.shed (dev * 128 + inst)
    let y := x.kept.foldl (fun (x : Shed) e =>
      { x with queues := x.queues.setIfInBounds e.1 (((x.queues[e.1]?).getD []) ++ [e.2]) }) { x with out := false, kept := [] }
    s.setShed (dev * 128 + inst) y
  | 2 =>
    let h := portHome dev inst
    if (s.home h).failed then
      ({ s.setHome h { s.home h with failed := false, badSegs := [], badCrc := [] } with
          spaces := s.spaces.map fun (a : Nat × Space) => (a.1, { a.2 with notices := sdel a.2.notices h }) } : State).signal dev 6
    else s
  | 3 => s.setBase (dev * 12 + inst) { s.base (dev * 12 + inst) with out := none }
  | 4 => s.setBase (dev * 12 + inst) { s.base (dev * 12 + inst) with bredOut := none }
  | 5 => s.linkUp dev inst
  | _ => s

/-- Activates the inactive slot of an instance (R454): whether it was valid. -/
def State.activate (s : State) (dev kind inst : Nat) (raise : Bool) : State × Bool :=
  let x := s.part dev kind inst
  if !imageValid s dev kind x.inactive then (s, false)
  else
    let svn := imgField x.inactive 6 2
    let s := if raise then
        s.setDevice dev { s.device dev with minSvn := mset (s.device dev).minSvn kind (max svn (minSvn s dev kind)) }
      else s
    let y := { x with activeB := !x.activeB }
    (s.setPart dev kind inst
      (if kind = 10 then y else { y with digest := imageDigest (slotImage y.active) }), true)

/-- A service goes as far as it can: a take-out answers when the part is idle, an activation then boots the inactive
slot, returns the part and goes on to its next instance (R454, R455). -/
def State.advanceService (s : State) (dev : Nat) (v : Servicing) : Nat → State
  | 0 => s
  | fuel + 1 =>
    if !partIdle s dev v.kind v.inst then s
    else
      let drop (s : State) (w : List Servicing) : State :=
        s.setDevice dev { s.device dev with services := w ++ (s.device dev).services.filter (· != v) }
      if !v.activate then
        let s := if v.kind = 2 && !(s.home (portHome dev v.inst)).failed then s.failPort dev v.inst else s
        (drop s []).respond v.win stOk []
      else
        let (s, ok) := (s.activate dev v.kind v.inst v.raise)
        let s := s.putBack dev v.kind v.inst
        let st := if ok then v.st else stBadType
        match v.rest with
        | [] => (drop s []).respond v.win st []
        | i :: rest =>
          let w := { v with inst := i, rest := rest, st := st }
          ((drop s [w]).takeOut dev v.kind i).advanceService dev w fuel

/-- Every service of a device goes as far as it can. -/
def State.progress (s : State) (dev : Nat) : State :=
  (s.device dev).services.foldl (fun s v => s.advanceService dev v 800) s

/-- PORT_TAKEOUT_COMPLETE (R455). -/
def execPortTakeoutComplete (home : Nat) (s : State) : Out :=
  .next (((s.device (home / 2048)).services.filter fun v => v.kind == 2 && v.inst == home % 2048).foldl
    (fun s v => s.advanceService (home / 2048) v 800) s)

/-! ### Counters -/

/-- The indices of a kind's counters (R457), and those that are gauges. -/
def counterCount (kind : Nat) : Nat := [17, 0, 9, 0, 0, 8, 3, 0, 3, 2, 0].getD kind 0
def isGauge (kind idx : Nat) : Bool :=
  (kind == 2 && idx == 8) || (kind == 5 && idx == 7) || (kind == 8 && (idx == 0 || idx == 2)) || (kind == 9 && idx == 0)

/-- Reads a counter or gauge by its selector, with CLR (R457): none outside the table. -/
def State.readCounter (s : State) (dev : Nat) (w : Word) : Option (State × Word) :=
  let idx := field w 0 8
  let inst := field w 8 12
  let kind := field w 20 4
  if field w 25 39 ≠ 0 ∨ kindCount kind ≤ inst ∨ counterCount kind ≤ idx then none
  else if isGauge kind idx then
    some (s, match kind with
      | 2 => BitVec.ofNat 64 (s.home (portHome dev inst)).left
      | 5 => BitVec.ofNat 64 (s.link (dev * 16 + inst)).lanes
      | _ => Config.gauge kind (dev * 4096 + inst) idx (s.timebOf dev))
  else
    let key := counterKey dev kind inst idx
    let v := (mget s.counters key).getD 0
    some (if w.getLsbD 24 then { s with counters := mdel s.counters key } else s, BitVec.ofNat 64 v)

end Sys2Proof.Machine
end

