-- ==== Sys2Proof/Machine/Search.lean ====
section
/-! DEFINITION. The search algorithm of the stack base as a function of memory (R262 to R268): descriptors,
distances, keys and the search over one node set. -/

namespace Sys2Proof.Machine

/-- What an engine reads of a virtual range: bytes, the poisoned words it met (R268, R380), the lines it read and an
address of each page it translated, and the address that faults, if one does. -/
structure Gathered where
  bytes : List Byte
  bad : List Nat
  lines : List Nat
  vas : List Word
  fault : Option Word
  deriving DecidableEq, Repr

def Gathered.nothing : Gathered := { bytes := [], bad := [], lines := [], vas := [], fault := none }

/-- Puts before a list what its head does not repeat. -/
def consNew [DecidableEq α] (x : α) (l : List α) : List α := if l.head? = some x then l else x :: l

def Gathered.append (a b : Gathered) : Gathered :=
  { bytes := a.bytes ++ b.bytes, bad := a.bad ++ b.bad, lines := a.lines ++ b.lines, vas := a.vas ++ b.vas
    fault := if a.fault.isSome then a.fault else b.fault }

/-- Words [va, va + 8 n) of a space, each as its home gives it (R349), up to a translation or protection fault. -/
def fetchWords (s : State) (pl asid : Nat) (smode : Bool) (va : Word) : Nat → Gathered
  | 0 => Gathered.nothing
  | n + 1 =>
    match xlateAt s pl asid smode va .read with
    | .fault _ _ | .wait => { Gathered.nothing with vas := [va], fault := some va }
    | .ok ga leaf =>
      let r := fetchWords s pl asid smode (va + 8) n
      let bad := leafPois leaf || s.bad ga
      let zero := bad || sealedFrom s ga (some asid)
      { r with
        bytes := (if zero then List.replicate 8 0 else readBytes s ga 8) ++ r.bytes
        bad := if bad then ga :: r.bad else r.bad
        lines := consNew (ga / 64) r.lines
        vas := if r.vas.head?.any fun (x : Word) => x.toNat / 65536 == va.toNat / 65536 then r.vas else va :: r.vas }

/-- Bytes [va, va + n) from any address, through the words that hold them. -/
def fetchBytes (s : State) (pl asid : Nat) (smode : Bool) (va : Word) (n : Nat) : Gathered :=
  let lo := va.toNat % 8
  let r := fetchWords s pl asid smode (va - BitVec.ofNat 64 lo) ((lo + n + 7) / 8)
  { r with bytes := (r.bytes.drop lo).take n }

/-- The walks of a read (R346), one after another. -/
def State.walkAll (s : State) (pl asid : Nat) : List Word → Except Nat State
  | [] => .ok s
  | va :: rest =>
    match s.walked pl asid va with
    | .error ga => .error ga
    | .ok s => s.walkAll pl asid rest

/-- What such a read of an engine leaves: its walks are made (R346), its lines are read at their homes (R370, R373), and the
poisoned words counted there (R125, R380); or the address at which it must wait. -/
def State.gathered (s : State) (src pl asid : Nat) (g : Gathered) : Except Nat State :=
  match s.walkAll pl asid g.vas with
  | .error ga => .error ga
  | .ok s =>
    match s.readAll src (g.lines.map fun l => (l * 64, 64)) with
    | .error ga => .error ga
    | .ok s => .ok (g.bad.foldl (fun s ga => s.countHome ga 0) s)

/-- The same for a node that launches, which does not wait: where a home holds requests, it gives the same data at once, and
the time alone differs (R373, log 83). -/
def State.fetched (s : State) (src pl asid : Nat) (g : Gathered) : State :=
  match s.gathered src pl asid g with
  | .ok t => t
  | .error _ => g.bad.foldl (fun s ga => s.countHome ga 0) (g.lines.foldl (fun s l => s.readDone (l * 64) 64) s)

/-- What such a read leaves that the firmware makes, whose accesses are neither held nor charged (R373). -/
def State.firmFetched (s : State) (pl asid : Nat) (g : Gathered) : State :=
  let s := g.vas.foldl (fun s va => s.firmWalked pl asid va) s
  g.bad.foldl (fun s ga => s.countHome ga 0) (g.lines.foldl (fun s l => s.firmRead (l * 64) 64) s)

/-- Field of `n` bytes at an offset of a block of bytes. -/
def bytesAt (bs : List Byte) (o n : Nat) : Nat := leNat ((bs.drop o).take n)

/-- Type codes of R90 that a vector may have (R262). -/
def searchTy (c : Nat) : Option Ty :=
  match c with
  | 8 => some .e4m3
  | 9 => some .e5m2
  | 11 => some .bf16
  | 12 => some .fp32
  | 14 => some .bfp
  | _ => none

/-- Bytes of a vector of DIM elements whose first 64 bytes are `first` (R263). -/
def vectorBytes (t : Ty) (dim : Nat) (first : List Byte) : Nat :=
  match t with
  | .bfp =>
    match blockN (BitVec.ofNat 512 (leNat (first.take 64))) with
    | none => 64
    | some n => (dim + bfpCount n - 1) / bfpCount n * 64
  | _ => dim * t.bytes

/-- The elements of a vector, and whether an undescribed block was read (R263). -/
def vectorEls (t : Ty) (nan1 : Bool) (dim : Nat) (bs : List Byte) : List FVal × Bool :=
  match t with
  | .bfp =>
    let blk (i : Nat) : VReg := BitVec.ofNat 512 (bytesAt bs (64 * i) 64)
    match blockN (blk 0) with
    | none => (List.replicate dim (.fin false 0 0), true)
    | some n =>
      let cnt := bfpCount n
      let blocks := (List.range ((dim + cnt - 1) / cnt)).map blk
      (((blocks.map fun b =>
          (List.range cnt).map fun i => if blockN b = some n then blockEl nan1 b i else .fin false 0 0).flatten).take dim,
        blocks.any fun b => blockN b != some n)
  | _ => ((List.range dim).map fun i => tyReadF t nan1 (bytesAt bs (i * t.bytes) t.bytes), false)

/-- One term of a distance (R264). -/
def distTerm (metric : Nat) (q x : FVal) : FVal :=
  if metric = 0 then
    let d := q.add .rne x.negate
    d.mul d
  else (q.mul x).negate

/-- Dist (R264): groups of 16 elements, one rounding each. -/
def distGroups (metric : Nat) (acc : Nat) : List FVal → List FVal → Nat → Nat
  | _, _, 0 => acc
  | qs, xs, n + 1 =>
    let terms := List.zipWith (distTerm metric) (qs.take 16) (xs.take 16)
    distGroups metric (tyWriteF .fp32 rneMode (exactGroup (tyReadF .fp32 false acc) terms)) (qs.drop 16) (xs.drop 16) n

def dist32 (metric dim : Nat) (q x : List FVal) : Nat := distGroups metric 0 q x ((dim + 15) / 16)

/-- The order of keys (R264): by distance, NaN last, then by id. -/
def keyLt (a b : Nat × Nat) : Bool :=
  let x := tyReadF .fp32 false a.1
  let y := tyReadF .fp32 false b.1
  if x.isNan || y.isNan then
    if x.isNan && y.isNan then decide (a.2 < b.2) else y.isNan
  else if x.eqv y then decide (a.2 < b.2)
  else x.lt y

/-- Insert(S, x) of R265: a set in rising key order with a capacity. -/
def keyAdd (x : Nat × Nat) : List (Nat × Nat) → List (Nat × Nat)
  | [] => [x]
  | y :: r => if keyLt x y then x :: y :: r else if keyLt y x then y :: keyAdd x r else y :: r

def keyInsert (cap : Nat) (l : List (Nat × Nat)) (x : Nat × Nat) : List (Nat × Nat) := (keyAdd x l).take cap

/-- A shard of a graph (R263). -/
structure Shard where
  first : Nat
  last : Nat
  base : Word
  stack : Nat
  deriving DecidableEq, Repr

/-- A query: its two descriptors and its vector as read at launch (R262, R263, R379). -/
structure QueryInfo where
  gdesc : Word
  qoff : Nat
  dim : Nat
  ty : Ty
  metric : Nat
  k : Nat
  v : Nat
  ef : Nat
  forget : Bool
  isSharded : Bool
  doff : Nat
  entries : List Nat
  door : Nat
  nnodes : Nat
  recsz : Nat
  nboff : Nat
  shards : List Shard
  deriving DecidableEq, Repr

def bytesZero (bs : List Byte) (o n : Nat) : Bool := ((bs.drop o).take n).all (· == 0)

/-- The query descriptor (R262): none for a value outside its set. -/
def queryOf (d : List Byte) : Option QueryInfo :=
  let f (o n : Nat) : Nat := bytesAt d o n
  match searchTy (f 0x0E 1) with
  | none => none
  | some ty =>
    let entries := (List.range (f 0x15 1)).map fun i => f (0x20 + 4 * i) 4
    if f 0 8 % 64 = 0 ∧ f 8 4 % 64 = 0 ∧ 1 ≤ f 0x0C 2 ∧ f 0x0C 2 ≤ 2048 ∧ f 0x0F 1 ≤ 1 ∧ 1 ≤ f 0x10 1 ∧ f 0x10 1 ≤ 64 ∧
        8 ≤ f 0x11 1 ∧ f 0x11 1 ≤ 13 ∧ f 0x10 1 ≤ f 0x12 2 ∧ f 0x12 2 ≤ 512 ∧ f 0x14 1 < 4 ∧ 1 ≤ f 0x15 1 ∧ f 0x15 1 ≤ 4 ∧
        f 0x16 1 ≤ 61 ∧ f 0x17 1 = 0 ∧ f 0x18 4 % 8 = 0 ∧ f 0x1C 4 = 0 ∧
        bytesZero d (0x20 + 4 * f 0x15 1) (96 - 4 * f 0x15 1) = true then
      some
        { gdesc := BitVec.ofNat 64 (f 0 8), qoff := f 8 4, dim := f 0x0C 2, ty := ty, metric := f 0x0F 1, k := f 0x10 1
          v := 2 ^ f 0x11 1, ef := f 0x12 2, forget := f 0x14 1 % 2 == 1, isSharded := f 0x14 1 / 2 == 1, doff := f 0x18 4
          entries := entries, door := f 0x16 1, nnodes := 0, recsz := 0, nboff := 0, shards := [] }
    else none

/-- Whether no two shard ranges overlap (R263). -/
def disjointShards : List Shard → Bool
  | [] => true
  | x :: r => (r.all fun y => decide (x.last < y.first ∨ y.last < x.first ∨ x.last < x.first ∨ y.last < y.first)) && disjointShards r

/-- The graph descriptor for a query (R263): none for a value outside its set. -/
def graphOf (q : QueryInfo) (g : List Byte) : Option QueryInfo :=
  let f (o n : Nat) : Nat := bytesAt g o n
  let n := f 7 1
  let shards := (List.range n).map fun i =>
    { first := f (0x40 + 16 * i) 4, last := f (0x44 + 16 * i) 4
      base := (BitVec.ofNat 56 (f (0x48 + 16 * i) 7)).signExtend 64, stack := f (0x4F + 16 * i) 1 : Shard }
  if f 4 2 = q.dim ∧ searchTy (f 6 1) = some q.ty ∧ 1 ≤ n ∧ n ≤ 12 ∧ f 8 4 % 64 = 0 ∧ f 0x0C 4 % 64 = 0 ∧
      bytesZero g 0x10 48 = true ∧ bytesZero g (0x40 + 16 * n) (192 - 16 * n) = true ∧
      (shards.all fun x => decide (x.stack ≤ 11)) = true ∧ disjointShards shards = true then
    some { q with nnodes := f 0 4, recsz := f 8 4, nboff := f 0x0C 4, shards := shards }
  else none

/-- The shard that holds a node; none for a bad id (R263). -/
def shardOf (q : QueryInfo) (u : Nat) : Option (Nat × Shard) :=
  if q.nnodes ≤ u then none
  else
    ((List.range q.shards.length).zip q.shards).find? fun e => decide (e.2.first ≤ u ∧ u ≤ e.2.last)

/-- The memory a search sees: the place, the space and the mode of its issuer. -/
structure SearchView where
  pl : Nat
  asid : Nat
  smode : Bool
  nan1 : Bool
  deriving DecidableEq, Repr

/-- The address of a record (R263). -/
def recordVa (q : QueryInfo) (u : Nat) : Option Word :=
  (shardOf q u).map fun e => e.2.base + BitVec.ofNat 64 ((u - e.2.first) * q.recsz)

/-- What a search reads of memory. -/
def SearchView.fetch (s : State) (vw : SearchView) (va : Word) (n : Nat) : Gathered := fetchBytes s vw.pl vw.asid vw.smode va n

/-- The stored vector at an address (R263): for block type its first block says how many there are. -/
def recordVector (s : State) (vw : SearchView) (q : QueryInfo) (va : Word) : Gathered :=
  match q.ty with
  | .bfp =>
    let r := vw.fetch s va 64
    if r.fault.isSome then r else r.append (vw.fetch s (va + 64) (vectorBytes .bfp q.dim r.bytes - 64))
  | t => vw.fetch s va (vectorBytes t q.dim [])

/-- Visit(v) (R265): none when the node was visited; a full set ends the search under STOP. -/
def Seek.visit (z : Seek) (q : QueryInfo) (v : Nat) : Option Seek :=
  if z.visited.contains v then none
  else if z.visited.length = q.v then
    if q.forget then some { z with visited := [v], forgets := z.forgets + 1, count := z.count + 1 }
    else some { z with ending := some (stFull, 0) }
  else some { z with visited := v :: z.visited, count := z.count + 1 }

/-- A visited node's distance is taken, and it is inserted (R264, R265): unconditionally for an entry. -/
def Seek.measure (s : State) (vw : SearchView) (q : QueryInfo) (qv : List FVal) (z : Seek) (v : Nat) : Gathered × Seek :=
  match recordVa q v with
  | none => (Gathered.nothing, z)
  | some va =>
    let r := recordVector s vw q va
    let z := { z with drop := z.drop || !r.bad.isEmpty }
    if r.fault.isSome then (r, { z with ending := some (stFault, v) })
    else
      let (xs, drop) := vectorEls q.ty vw.nan1 q.dim r.bytes
      let d := dist32 q.metric q.dim qv xs
      let z := { z with drop := z.drop || drop }
      if z.entries || decide (z.res.length < q.k) || keyLt (d, v) (z.res.getLastD (0, 0)) then
        (r, { z with res := keyInsert q.k z.res (d, v), cand := keyInsert q.ef z.cand (d, v) })
      else (r, z)

/-- The next id is met (R265): a bad id is counted, an id outside the node set is skipped. -/
def Seek.meet (s : State) (vw : SearchView) (q : QueryInfo) (qv : List FVal) (inSet : Nat → Bool) (z : Seek) (v : Nat) :
    Gathered × Seek :=
  if (shardOf q v).isNone then (Gathered.nothing, { z with badIds := z.badIds + 1 })
  else if !z.entries && !inSet v then (Gathered.nothing, z)
  else
    match z.visit q v with
    | none => (Gathered.nothing, z)
    | some z => if z.ending.isSome then (Gathered.nothing, z) else z.measure s vw q qv v

/-- A neighbour block is read (R263): the list goes on into the next of four only while a block's count is 15. A count above
15, of which the spec does not speak, is taken as 15, the most that a block holds: the model's choice (log 103). -/
def Seek.readBlock (s : State) (vw : SearchView) (z : Seek) (u : Nat) (va : Word) (left : Nat) : Gathered × Seek :=
  let r := vw.fetch s va 64
  let z := { z with drop := z.drop || !r.bad.isEmpty, block := none }
  if r.fault.isSome then (r, { z with ending := some (stFault, u) })
  else
    let n := min 15 (bytesAt r.bytes 0 4)
    let ids := z.ids ++ (List.range n).map fun i => bytesAt r.bytes (4 + 4 * i) 4
    if n = 15 ∧ 1 < left then (r, { z with ids := ids, block := some (u, va + 64, left - 1) })
    else (r, { z with todo := ids, ids := [] })

/-- One step of Search (R265), with what it reads: an id is met, a block of neighbours read, or the best candidate
taken. -/
def Seek.next (s : State) (vw : SearchView) (q : QueryInfo) (qv : List FVal) (inSet : Nat → Bool) (z : Seek) :
    Gathered × Seek :=
  match z.todo, z.block, z.cand with
  | v :: rest, _, _ => ({ z with todo := rest } : Seek).meet s vw q qv inSet v
  | [], some (u, va, left), _ => z.readBlock s vw u va left
  | [], none, [] => (Gathered.nothing, { z with ending := some (stOk, 0) })
  | [], none, (d, u) :: rest =>
    if q.k ≤ z.res.length ∧ keyLt (z.res.getLastD (0, 0)) (d, u) = true then
      (Gathered.nothing, { z with ending := some (stOk, 0) })
    else
      (Gathered.nothing,
        { z with entries := false, cand := rest
                 block := (recordVa q u).map fun va => (u, va + BitVec.ofNat 64 q.nboff, 4) })

/-- A search at its start: its entries are still to be met. -/
def Seek.start (entries : List Nat) : Seek :=
  { visited := [], cand := [], res := [], forgets := 0, badIds := 0, count := 0, drop := false
    todo := entries, entries := true, block := none, ids := [], ending := none }

end Sys2Proof.Machine
end

