-- ==== Sys2Proof/Machine/Nodes.lean ====
section
/-! DEFINITION. The node table (R216 to R222): engine commands, launching and finishing of nodes, NWAIT, NPOLL and
NFREE, and the copy path (R234, R235); QSEARCH and BRED as engine commands (R261 to R270). -/

namespace Sys2Proof.Machine

/-- The 16-bit id of a node (R216), and its parts. -/
def nodeId (i gen : Nat) : Nat := i + 64 * gen
def idIndex (id : Nat) : Nat := id % 64
def idGen (id : Nat) : Nat := id / 64 % 1024

def State.node (s : State) (pl i : Nat) : Option Node := mget (s.core pl).nodes i
def State.setNode (s : State) (pl i : Nat) (n : Node) : State :=
  s.modCore pl fun c => { c with nodes := mset c.nodes i n }

/-- The live node that an id names (R217, R221). -/
def State.nodeOf (s : State) (pl id : Nat) : Option Node :=
  match s.node pl (idIndex id) with
  | none => none
  | some n => if n.live && n.gen == idGen id && n.gen != 0 then some n else none

/-- Retires a stamp value: later stamps of the door are not held (R235). -/
def State.retireStamp (s : State) (c v : Nat) : State :=
  (s.modChan c fun x => { x with stamps := x.stamps.filter fun (t : Stamp) => t.v != v }).flushStamps c 4096

/-- Draws the stamp of a node that pushes into a window when it launches (R235). -/
def State.nodeStamp (s : State) (pl i : Nat) : State :=
  match s.node pl i with
  | none => s
  | some n =>
    let (s, v) := s.drawStamp n.chan
    s.setNode pl i { n with stamp := some v }

/-- The source bytes of a COPY (R234); zeros once the owner has ended (log 39). -/
def copySource (s : State) (n : Node) : List Byte :=
  let len := 8 * field n.cmd 20 17
  match s.byOwn n.owner n.ogen with
  | none => List.replicate len 0
  | some p => spadBytes (s.spadSeen (placeOf n.owner)) n.owner p (field n.cmd 0 19 / 8 * 8) len

/-- The stack a port sits under (R370), and the key of the engines of a stack. -/
def stackKey (dev stack : Nat) : Nat := dev * 12 + stack

/-- The key of the merge of a node (R380). -/
def mergeKey (pl i : Nat) : Nat := pl * 64 + i

/-- The whole query descriptor, graph descriptor and vector of a SEARCH node, as held in `Node.data`. -/
def queryData (d : List Byte) : Option QueryInfo := (queryOf (d.take 128)).bind fun q => graphOf q ((d.drop 128).take 256)

/-- Starts the queries of a SEARCH node (R379). -/
def State.startQueries (s : State) (pl i gen : Nat) (q : QueryInfo) : State :=
  let dev := devOf pl
  let add (s : State) (stack shard : Nat) (whole : Bool) : State :=
    let b := s.base (stackKey dev stack)
    s.setBase (stackKey dev stack)
      { b with queries := b.queries ++ [{ place := pl, node := i, ngen := gen, shard := shard, whole := whole }] }
  let left := if q.isSharded then q.shards.length else 1
  let s := { s with merges := mset s.merges (mergeKey pl i) { left := left, reports := [] } }
  if q.isSharded then
    ((List.range q.shards.length).zip q.shards).foldl (fun s e => add s e.2.stack e.1 false) s
  else add s (coreOf pl / 64) 0 true

/-- Launches a SEARCH node (R262, R263, R267, R379): the code with which it finishes at once, if it does. -/
def State.launchSearch (s : State) (pl i : Nat) (n : Node) : State × Option Nat :=
  match s.byOwn n.owner n.ogen with
  | none => (s, some stBadType)
  | some p =>
    let off := field n.cmd 0 19 / 64 * 64
    let s := s.spadSeen (placeOf n.owner)
    let d := spadBytes s n.owner p off 128
    match mget p.doors (bytesAt d 0x16 1) with
    | none => (s, some stBadType)
    | some e =>
      if !(e.isSend && (mget s.chans e.chan).any (·.typ == .window)) then (s, some stBadType)
      else
        let (s, v) := s.drawStamp e.chan
        let stop (s : State) (code : Nat) : State × Option Nat := (s.retireStamp e.chan v, some code)
        match queryOf d with
        | none => stop s stBadType
        | some q =>
          let g := fetchBytes s pl n.asid n.smode q.gdesc 256
          let s := s.fetched (agentHome (devOf pl * 2048 + coreOf pl)) pl n.asid g
          if g.fault.isSome then stop s stFault
          else
            match graphOf q g.bytes with
            | none => stop s stBadType
            | some q =>
              let len := vectorBytes q.ty q.dim (spadBytes s n.owner p q.qoff 64)
              let data := d ++ g.bytes ++ spadBytes s n.owner p q.qoff len
              let s := s.setNode pl i { n with data := data, chan := e.chan, stamp := some v, drop := n.drop || !g.bad.isEmpty }
              (s.startQueries pl i n.gen q, none)

/-- The parameter block of a BRED (R269): none for a bad field. -/
def bredJob (b : List Byte) : Option BredJob :=
  let f (o n : Nat) : Nat := bytesAt b o n
  let nsrc := f 0 1
  let ty : Option Ty := if f 1 1 = 11 then some .bf16 else if f 1 1 = 12 then some .fp32 else none
  match ty with
  | none => none
  | some t =>
    if 2 ≤ nsrc ∧ nsrc ≤ 8 ∧ f 2 2 = 0 ∧ 1 ≤ f 4 4 ∧ f 4 4 ≤ 16777216 ∧ f 8 8 % 64 = 0 ∧ f 0x10 8 % 8 = 0 ∧
        bytesZero b (0x20 + 4 * nsrc) (32 - 4 * nsrc) = true then
      some
        { place := 0, node := 0, ngen := 0, asid := 0, smode := false, nsrc := nsrc, ty := t, count := f 4 4
          dest := BitVec.ofNat 64 (f 8 8), flag := BitVec.ofNat 64 (f 0x10 8), fval := BitVec.ofNat 64 (f 0x18 8)
          offs := (List.range nsrc).map fun i => (BitVec.ofNat 32 (f (0x20 + 4 * i) 4)).toInt
          chunk := 0, got := [], asked := false, writes := 0, drop := false }
    else none

/-- The stack whose reduction unit serves a destination (R381): none in host memory. -/
def bredStack (ga : Nat) : Option Nat :=
  match rangeOf (gaPa ga) with
  | .hbm c => some (c / 64)
  | .tier2 d => some (3 * d)
  | .scratch c => some (c / 64)
  | .host | .control | .none => none

/-- Launches a BRED node (R270, R381). -/
def State.launchBred (s : State) (pl i : Nat) (n : Node) : State × Option Nat :=
  let b := fetchWords s pl n.asid n.smode n.cmd 8
  let s := s.fetched (agentHome (devOf pl * 2048 + coreOf pl)) pl n.asid b
  if b.fault.isSome then (s, some stFault)
  else
    match bredJob b.bytes with
    | none => (s, some stBadType)
    | some j =>
      let x := xlateAt s pl n.asid n.smode j.dest .write
      let s := match s.walked pl n.asid j.dest with | .ok t => t | .error _ => s
      match x with
      | .fault _ _ | .wait => (s, some stFault)
      | .ok ga _ =>
        match bredStack ga with
        | none => (s, some stFault)
        | some st =>
          let key := stackKey (devOf pl) st
          let x := s.base key
          ((s.setNode pl i { n with data := b.bytes }).setBase key
            { x with jobs := x.jobs ++ [{ j with place := pl, node := i, ngen := n.gen, asid := n.asid, smode := n.smode }] },
           none)

/-- Launches a node (R217, R224, R234, R235): the code with which it finishes at once, if it does. -/
def State.launchNode (s : State) (pl i : Nat) : State × Option Nat :=
  match s.node pl i with
  | none => (s, none)
  | some n =>
    let n := { n with st := .launched }
    let s := s.setNode pl i n
    match n.kind with
    | .cmu => (s.toMatrix pl (.node i), none)
    | .drain => ((s.nodeStamp pl i).toMatrix pl (.node i), none)
    | .copy =>
      let s := (s.spadSeen (placeOf n.owner)).setNode pl i { n with data := copySource s n }
      let s := if n.cmd.getLsbD 19 then s else s.nodeStamp pl i
      (s.modCore pl fun c => { c with copyQ := c.copyQ ++ [i] }, none)
    | .search => s.launchSearch pl i n
    | .bred => s.launchBred pl i n

/-- A node is DONE (R217, R220 to R222): it goes to the NWAITs that wait, is freed if DETACHED, or stays. -/
def State.endNode (s : State) (pl i : Nat) (n : Node) (code : Nat) (drop : Bool) : State :=
  let id := nodeId i n.gen
  let done := { n with st := .done, status := code, drop := drop, data := [], waiters := [], preds := [] }
  if n.detached then s.setNode pl i { done with live := false }
  else
    match n.waiters with
    | [] => s.setNode pl i done
    | w :: rest =>
      let fill (s : State) (reg : BitVec 5) (x : Word) : State :=
        s.applyFill pl { (endFill n.owner n.ogen 0) with writes := [.g reg x], ends := none, node := some (reg, id) }
      let s := s.setNode pl i { done with live := false }
      let s := if drop && n.dropTrap then
          s.modProc n.owner fun p => if p.gen = n.ogen then { p with nodeTraps := p.nodeTraps ++ [(w.1, id, false)] } else p
        else s
      rest.foldl (fun s r => fill s r.1 (BitVec.ofNat 64 stBadType)) (fill s w.1 (nodeStatus code drop 0))

/-- Finishes nodes of a core one after another: a node (index, code, DROP) tells its successors, which launch or
are cancelled (R217). Of several that one node releases, the spec gives no order: the model's choice is that of the node
table (log 104). -/
def State.finishNodes (s : State) (pl : Nat) : Nat → List (Nat × Nat × Bool) → State
  | 0, _ => s
  | _, [] => s
  | fuel + 1, (i, code, drop) :: rest =>
    match s.node pl i with
    | none => s.finishNodes pl fuel rest
    | some n =>
      if !n.live || n.st == .done then s.finishNodes pl fuel rest
      else
        let id := nodeId i n.gen
        let s := s.endNode pl i n code drop
        let succ := (s.core pl).nodes.filter fun (e : Nat × Node) =>
          e.2.live && e.2.st == .waiting && e.2.preds.contains id
        if code ≠ stOk then s.finishNodes pl fuel (rest ++ succ.map fun e => (e.1, stCancelled, false))
        else
          let (s, more) := succ.foldl (fun (r : State × List (Nat × Nat × Bool)) e =>
            let ps := e.2.preds.filter (· != id)
            let s := r.1.setNode pl e.1 { e.2 with preds := ps }
            if !ps.isEmpty then (s, r.2)
            else
              match s.launchNode pl e.1 with
              | (s, none) => (s, r.2)
              | (s, some c) => (s, r.2 ++ [(e.1, c, false)])) (s, [])
          s.finishNodes pl fuel (rest ++ more)

/-- The predecessor ids of a command (R217). -/
def predIds (w : Word) : List Nat := ((List.range 4).map fun i => field w (16 * i) 16).filter (· != 0)

/-- The lowest free entry of a node table (log 21), with the generation its next node gets. -/
def freeNode (s : State) (pl : Nat) : Option (Nat × Nat) :=
  (List.range 64).findSome? fun i =>
    match s.node pl i with
    | none => some (i, 1)
    | some n => if n.live then none else some (i, if 1023 ≤ n.gen then 1 else n.gen + 1)

/-- The id that the next node of a core gets; 0 where the table is full. -/
def nextId (s : State) (pl : Nat) : Nat :=
  match freeNode s pl with
  | some (i, gen) => nodeId i gen
  | none => 0

/-- Whether a predecessor id is that of the node itself or of another process's node (R217). -/
def foreignNode (s : State) (k : Nat) (p : Proc) (id : Nat) : Bool :=
  id == nextId s (placeOf k) ||
    (match s.nodeOf (placeOf k) id with
     | none => false
     | some n => n.owner != k || n.ogen != p.gen)

/-- The live predecessors of a command, in the order of their ids (R217). -/
def livePreds (s : State) (k : Nat) (preds : Word) : List (Nat × Node) :=
  (predIds preds).filterMap fun id => (s.nodeOf (placeOf k) id).map fun n => (id, n)

/-- Whether a predecessor has already failed, and those not yet DONE. -/
def predFailed (l : List (Nat × Node)) : Bool := l.any fun e => e.2.st == .done && e.2.status != stOk
def predsPending (l : List (Nat × Node)) : List Nat := ((l.filter fun e => e.2.st != .done).map (·.1)).dedup

/-- The node that a command makes (R217). -/
def newNode (k : Nat) (p : Proc) (kind : NodeKind) (cmd : Word) (l : List (Nat × Node)) (chan gen : Nat) : Node :=
  { gen := gen, live := true, owner := k, ogen := p.gen, asid := p.asid, kind := kind, st := .waiting
    detached := false, cmd := cmd, preds := predsPending l, status := stOk, drop := false
    dropTrap := p.dropTrap, numctl := p.numctl, smode := p.smode, steps := 0, stamp := none, chan := chan
    data := [], reset := false, waiters := [] }

/-- A node just made goes on (R217): it is cancelled after a failed predecessor, waits while one is pending, and
launches else. -/
def State.beginNode (s : State) (pl i : Nat) (l : List (Nat × Node)) : State :=
  if predFailed l then s.finishNodes pl 256 [(i, stCancelled, false)]
  else if !(predsPending l).isEmpty then s
  else
    match s.launchNode pl i with
    | (s, none) => s
    | (s, some c) => s.finishNodes pl 256 [(i, c, false)]

/-- An engine command (R216 to R219): NODEERR for a predecessor of another process or the node itself, then
BADTYPE, then FULL; else the node is allocated, and launches when nothing is pending. -/
def State.command (s : State) (k : Nat) (p : Proc) (a : BitVec 5) (kind : NodeKind) (cmd preds : Word) (ok : Bool)
    (chan : Nat) : State :=
  match (predIds preds).find? (foreignNode s k p) with
  | some id => s.trap k p false 0x0F 0 (BitVec.ofNat 64 id)
  | none =>
    if !ok then s.fin k (p.wg a (nodeResult 0 stBadType))
    else
      match freeNode s (placeOf k) with
      | none => (s.countCore (placeOf k) 3).fin k (p.wg a (nodeResult 0 stFull))
      | some (i, gen) =>
        ((s.setNode (placeOf k) i (newNode k p kind cmd (livePreds s k preds) chan gen)).fin k
          (p.wg a (nodeResult (nodeId i gen) stOk))).beginNode (placeOf k) i (livePreds s k preds)

/-- The command word of NODE.CMU is within R227. -/
def cmuOk (w : Word) : Bool :=
  let aty := field w 4 4
  let bty := field w 8 4
  let pair := (aty == 11 && bty == 11) || (aty == 10 && bty == 10) || (aty == 14 && bty == 14) ||
    ((aty == 8 || aty == 9) && (bty == 8 || bty == 9))
  pair && !w.getLsbD 3 && field w 12 5 != field w 17 5 && field w 22 2 == 0 && field w 24 16 != 0 && field w 40 24 == 0

/-- Rows of a DRAIN (R231). -/
def drainRows (w : Word) : Nat := if field w 24 7 = 0 then 128 else field w 24 7

/-- The command word of NODE.DRAIN is within R231; its bit 23, which no row of the table names, is ignored (log 88). -/
def drainOk (w : Word) : Bool :=
  decide (8 ≤ field w 4 4 ∧ field w 4 4 ≤ 12 ∧ field w 14 2 = 0 ∧ field w 16 7 + drainRows w ≤ 128 ∧ field w 31 1 = 0 ∧
    field w 32 20 % 8 = 0 ∧ field w 52 12 = 0)

/-- The command word of NODE.COPY is within R234. -/
def copyOk (w : Word) : Bool :=
  let len := field w 20 17
  field w 60 4 == 0 &&
    (if w.getLsbD 19 then len == 1024 && !w.getLsbD 42 && !w.getLsbD 59 else decide (1 ≤ len ∧ len ≤ 65536))

/-- The window send end a command names, or the trap DOOR (R231, R234). -/
def State.windowDoor (s : State) (k : Nat) (p : Proc) (d : Nat) (go : Nat → State) : State :=
  match mget p.doors d with
  | none => s.trap k p false 9 0 (BitVec.ofNat 64 d)
  | some e =>
    if e.isSend && (mget s.chans e.chan).all (·.typ == .window) then go e.chan
    else s.trap k p false 9 0 (BitVec.ofNat 64 d)

/-- NODE.CMU (R227). -/
def execNodeCmu (a b c : BitVec 5) (s : State) : Out :=
  issue { scope := .shed, srcs := [.g b, .g c], dsts := [.g a], touch := .release } (fun k p s =>
    s.command k p a .cmu (p.rg b) (p.rg c) (cmuOk (p.rg b)) 0) s

/-- The scope of a command whose window door is a field of its word (R219): SYSTEM when the door is bound off the device. -/
def towardDoor (s : State) (b : BitVec 5) (door : Word → Option Nat) : Scope :=
  match mget s.procs s.cur with
  | none => .device
  | some p =>
    match (((door (p.rg b)).bind fun d => mget p.doors d).bind fun e => mget s.chans e.chan).bind fun x => holderDev x.recv with
    | none => .device
    | some d => if d = keyDev s.cur then .device else .system

/-- NODE.DRAIN (R231). -/
def execNodeDrain (a b c : BitVec 5) (s : State) : Out :=
  issue { scope := towardDoor s b fun w => some (field w 8 6), srcs := [.g b, .g c], dsts := [.g a], touch := .release } (fun k p s =>
    s.windowDoor k p (field (p.rg b) 8 6) fun ch => s.command k p a .drain (p.rg b) (p.rg c) (drainOk (p.rg b)) ch) s

/-- NODE.COPY (R234). -/
def execNodeCopy (a b c : BitVec 5) (s : State) : Out :=
  issue { scope := towardDoor s b fun w => if w.getLsbD 19 then none else some (field w 37 6), srcs := [.g b, .g c], dsts := [.g a], touch := .release } (fun k p s =>
    let w := p.rg b
    let go (ch : Nat) : State :=
      s.withSpad k p false (BitVec.ofNat 64 (field w 0 19)) (s.command k p a .copy w (p.rg c) (copyOk w) ch)
    if w.getLsbD 19 then go 0 else s.windowDoor k p (field w 37 6) go) s

/-- QSEARCH (R261). -/
def execQsearch (a b c : BitVec 5) (s : State) : Out :=
  issue { srcs := [.g b, .g c], dsts := [.g a], touch := .release } (fun k p s =>
    s.withSpad k p false (p.rg b)
      (s.command k p a .search (p.rg b) (p.rg c) (field (p.rg b) 19 45 == 0) 0)) s

/-- BRED (R261, R269). -/
def execBred (a b c : BitVec 5) (s : State) : Out :=
  issue { srcs := [.g b, .g c], dsts := [.g a], touch := .release } (fun k p s =>
    s.command k p a .bred (p.rg b) (p.rg c) (field (p.rg b) 0 6 == 0) 0) s

/-- A node as its issuer's id finds it (R221, R222): another process's node traps, a stale id or a node the
issuer has detached is none. -/
def State.withNode (s : State) (k : Nat) (p : Proc) (id : Nat) (stale : State) (go : Node → State) : State :=
  match s.nodeOf (placeOf k) id with
  | none => stale
  | some n =>
    if n.owner ≠ k ∨ n.ogen ≠ p.gen then s.trap k p false 0x0F 0 (BitVec.ofNat 64 id)
    else if n.detached then stale
    else go n

/-- NWAIT (R221): an acquire of the node's effects, which itself touches no memory, scratchpad or engine (log 47). -/
def execNwait (a b : BitVec 5) (t : Bool) (s : State) : Out :=
  issue { srcs := [.g b], dsts := [.g a], touch := .acquire, quiet := true } (fun k p s =>
    let id := field (p.rg b) 0 16
    let i := idIndex id
    s.withNode k p id (s.status k p a stBadType 0) fun n =>
      if n.st = .done then
        let p := if n.drop && n.dropTrap then { p with nodeTraps := p.nodeTraps ++ [(a, id, false)] } else p
        (s.setNode (placeOf k) i { n with live := false }).fin k (p.wg a (nodeStatus n.status n.drop 0))
      else
        let d := deadlineOf s k p t
        if pastDeadline s d then s.status k p a stTimeout 0
        else
          (s.setNode (placeOf k) i { n with waiters := n.waiters ++ [(a, d)] }).fin k
            { p.eg a with nwaits := p.nwaits ++ [(a, id)] }) s

/-- NPOLL (R222): an acquire of the node's effects once it is DONE. -/
def execNpoll (a b : BitVec 5) (s : State) : Out :=
  issue { srcs := [.g b], dsts := [.g a], touch := .acquire, quiet := true } (fun k p s =>
    let id := field (p.rg b) 0 16
    s.withNode k p id (s.fin k (p.wg a (nodeStatus stBadType false 3))) fun n =>
      let drop := n.st == .done && n.drop
      let p := if drop && n.dropTrap then { p with nodeTraps := p.nodeTraps ++ [(a, id, true)] } else p
      s.fin k (p.wg a (nodeStatus (if n.st = .done then n.status else stOk) drop (nodeState n)))) s

/-- NFREE (R222): an NWAIT that still waits for the node is filled with BADTYPE (log 30). -/
def execNfree (a b : BitVec 5) (s : State) : Out :=
  issue { srcs := [.g b], dsts := [.g a] } (fun k p s =>
    let pl := placeOf k
    let id := field (p.rg b) 0 16
    s.withNode k p id (s.status k p a stBadType 0) fun n =>
      n.waiters.foldl (fun s w => s.applyFill pl
          { (endFill k p.gen 0) with writes := [.g w.1 (BitVec.ofNat 64 stBadType)], ends := none, node := some (w.1, id) })
        ((s.setNode pl (idIndex id) n.detach).status k p a stOk 0)) s

/-- NODE_FINISH (R217): the engine's word that a node is done; a COPY frees the copy path. -/
def execNodeFinish (n : Nat) (s : State) : Out :=
  match s.arriving n with
  | some { body := .nodeDone pl i gen code drop, .. } =>
    let s := s.took n
    match s.node pl i with
    | none => .next s
    | some x =>
      if !x.live || x.gen != gen then .next s
      else
        let s := s.modCore pl fun c => { c with copyQ := c.copyQ.filter (· != i) }
        .next ((s.finishNodes pl 256 [(i, if code ≠ stOk then code else x.status, drop || x.drop)]).progress (devOf pl))
  | _ => .next s

/-- Tells a core that a node of its is done. -/
def State.tellNode (s : State) (src pl i gen code : Nat) (drop : Bool) : State :=
  s.post src pl none (.nodeDone pl i gen code drop)

/-- Writes the entry of a ring and publishes it (R234). -/
def State.fillEntry (s : State) (pl i : Nat) (r : Ring) (q : BitVec 16) (bs : List Byte) : State :=
  let s := match mget s.procs r.owner with
    | none => s
    | some o => s.spadPut r.owner o ((r.base + r.slot q) * 8192) bs
  (s.setRing pl i (r.publish q false)).testMonS pl

/-- COPY_RUN (R234): the node at the head of the copy path runs, its payload whole (log 29). -/
def execCopyRun (place : Nat) (s : State) : Out :=
  match (s.core place).copyQ with
  | [] => .next s
  | i :: _ =>
    match s.node place i with
    | none => .next s
    | some n =>
      if n.steps ≠ 0 then .next s
      else
        let s := s.setNode place i { n with steps := 1 }
        if n.cmd.getLsbD 19 then
          let ref := field n.cmd 37 5
          let q : BitVec 16 := BitVec.ofNat 16 (field n.cmd 43 16)
          let pl := ringPlace place ref
          match s.ring pl (ringNo ref) with
          | none => .next (s.tellNode place place i n.gen stClosed false)
          | some r =>
            if r.asid = n.asid ∧ r.pending q = true then
              .next ((s.fillEntry pl (ringNo ref) r q n.data).tellNode place place i n.gen stOk false)
            else .next (s.tellNode place place i n.gen stBadType false)
        else
          let doff := 8 * field n.cmd 43 17
          .next (s.post (agentSend n.chan) (agentChan n.chan) none
            (.winPush { chan := n.chan, off := doff, bytes := n.data, need := doff + n.data.length + 8
                        stamp := n.stamp.map fun v => (v, doff + n.data.length), halo := none
                        node := some (place, nodeId i n.gen), waiter := none }))

end Sys2Proof.Machine
end

