-- ==== Sys2Proof/Machine/TileUnit.lean ====
section
/-! DEFINITION. The tile unit: major 0x28 (R198 to R205), and the claim that moves it between processes. -/

namespace Sys2Proof.Machine

/-- The m registers of the tile unit at a place. -/
def Core.rm (c : Core) (n : BitVec 3) : Tile := c.m[n.toNat]'n.isLt

/-- Writes and fills an m register of the unit. -/
def State.wm (s : State) (pl : Nat) (n : BitVec 3) (t : Tile) : State :=
  s.modCore pl fun c => { c with m := c.m.set n.toNat t n.isLt, mFull := setBit c.mFull n.toNat true }

/-- Marks an m register empty (R16). -/
def State.em (s : State) (pl : Nat) (n : BitVec 3) : State :=
  s.modCore pl fun c => { c with mFull := setBit c.mFull n.toNat false }

/-- The offset of row `i` of a tile in scratchpad (R200, R201). -/
def rowOff (p : Proc) (b c : BitVec 5) (i : Nat) : Nat := scratchOff p (p.rg b + BitVec.ofNat 64 i * p.rg c) 0 8

/-- The words of a tile in scratchpad. -/
def rowWords (k : Nat) (p : Proc) (b c : BitVec 5) : List Nat :=
  (List.range 16).flatMap fun i => (List.range 8).map fun j => spadGa k p (rowOff p b c i + 8 * j)

/-- TLD (R200): read now, filled within 20 cycles. -/
def execTld (a : BitVec 3) (b c : BitVec 5) (s : State) : Out :=
  issue { unit := .tile, srcs := [.g b, .g c], dsts := [.m a], touch := .plain } (fun k p s =>
    s.withSpad k p false (p.rg b)
      (let t : Tile := Vector.ofFn fun i => BitVec.ofNat 512 (spadNat s k p (rowOff p b c i.val) 64)
       ((s.selfFill k p [.m a t]).em (placeOf k) a).fin k p)
      (gas := rowWords k p b c)) s

/-- TST (R200): rows in ascending order, every word set full. -/
def execTst (a : BitVec 3) (b c : BitVec 5) (s : State) : Out :=
  issue { unit := .tile, srcs := [.g b, .g c, .m a], touch := .plain } (fun k p s =>
    s.withSpad k p false (p.rg b)
      (let t := (s.core (placeOf k)).rm a
       ((List.range 128).foldl (fun s i =>
         s.spadPut k p (rowOff p b c (i / 8) + i % 8 * 8)
           (leBytes 8 (getEl 8 ((t[i / 8]?).getD 0) (i % 8)))) s).fin k p)
      (gas := rowWords k p b c)) s

/-- TLDT (R201): a transposed block. -/
def execTldt (a : BitVec 3) (b c : BitVec 5) (ty : Ty) (s : State) : Out :=
  issue { unit := .tile, srcs := [.g b, .g c], dsts := [.m a], touch := .plain } (fun k p s =>
    s.withSpad k p false (p.rg b)
      (let e := ty.bytes
       let t : Tile := Vector.ofFn fun r => vBuild e fun i => spadNat s k p (rowOff p b c i + r.val * e) e
       ((s.selfFill k p [.m a t]).em (placeOf k) a).fin k p)
      (gas := rowWords k p b c)) s

/-- The swap square of SWAPSQ: side, anchor column and row (R50). -/
def swapSide (w : Word) : Nat := 2 ^ (field w 0 2 + 1)

/-- The partner of a core in a square (R202): none where the square is invalid or the core outside it. -/
def swapPartner (w : Word) (core : Nat) : Option Nat :=
  let side := swapSide w
  let ax := field w 8 5
  let ay := field w 16 5
  let x := coreX core
  let y := coreY core
  if !w.getLsbD 31 then none
  else if 24 < ax + side ∨ 32 < ay + side ∨ 768 ≤ core then none
  else if x < ax ∨ ax + side ≤ x ∨ y < ay ∨ ay + side ≤ y then none
  else some (coreAt (ax + y - ay) (ay + x - ax))

/-- Completes one side of an exchange: the status, and FMTMODE where the NANMODE bits differ (R202). -/
def State.swapEnd (s : State) (k : Nat) (p : Proc) (c : BitVec 5) (partner : Proc) : State :=
  let s := s.modLive k fun q => { (q.wg c 0).advance with stall := none, wait := none }
  let s := if p.nan1 = partner.nan1 then s else s.takeTrap k 8 2 (truth partner.nan1) p.pc false false
  s.wake k

/-- TSWAP and TSWAP.T (R202): `old` is the deadline of the swap already waiting. -/
def swap (a : BitVec 3) (c : BitVec 5) (timed : Bool) (old : Option (Option Nat)) (s : State) : Out :=
  issue { unit := .tile, srcs := [.m a], dsts := [.g c], touch := .both, quiet := true } (fun k p s =>
    let pl := placeOf k
    match swapPartner p.swapsq (coreOf pl) with
    | none => s.fin k (p.wg c (BitVec.ofNat 64 stBadType))
    | some core =>
      if core = coreOf pl then s.fin k (p.wg c 0)
      else
        let ppl := devOf pl * 1024 + core
        let other := match (s.core ppl).tileOwner with
          | none => none
          | some j =>
            match s.live j with
            | none => none
            | some q =>
              match q.stall with
              | some { kind := .tswap m st, .. } => if q.swapsq = p.swapsq then some (j, q, m, st) else none
              | _ => none
        match other with
        | some (j, q, m, st) =>
          let mine := (s.core pl).rm a
          let theirs := (s.core ppl).rm m
          (((s.wm pl a theirs).wm ppl m mine).swapEnd k p c q).swapEnd j q st p
        | none =>
          let d := old.getD (deadlineOf s k p timed)
          if pastDeadline s d then s.fin k (p.wg c (BitVec.ofNat 64 stTimeout))
          else s.stallOn k p (.tswap a c) d) s

/-- The deadline of the swap in which the issuing process waits. -/
def swapDeadline (s : State) : Option (Option Nat) :=
  match (mget s.procs s.cur).bind (·.stall) with
  | some { kind := .tswap _ _, deadline := d, .. } => some d
  | _ => none

/-- TSWAP (R202). -/
def execTswap (a : BitVec 3) (c : BitVec 5) (s : State) : Out := swap a c false none s

/-- TSWAP.T (R202). -/
def execTswapT (a : BitVec 3) (c : BitVec 5) (s : State) : Out := swap a c true (swapDeadline s) s

/-- The product of R203: `acc` holds 16 × 16 FP32 elements. -/
def tileProduct (ty : Ty) (nan1 : Bool) (acc x y : Tile) : Tile :=
  Vector.ofFn fun i =>
    let row := rowVals ty nan1 (x[i.val]'i.isLt)
    vBuild 4 fun j => exactGroupAdd (getEl 4 (acc[i.val]'i.isLt) j) row (rowVals ty nan1 ((y[j]?).getD 0))

/-- TMMA (R203). -/
def execTmma (a b c : BitVec 3) (ty : Ty) (s : State) : Out :=
  issue { unit := .tile, srcs := [.m b, .m c, .m a], dsts := [.m a] } (fun k p s =>
    let u := s.core (placeOf k)
    (s.wm (placeOf k) a (tileProduct ty p.nan1 (u.rm a) (u.rm b) (u.rm c))).fin k p) s

/-- TZERO (R204). -/
def execTzero (a : BitVec 3) (s : State) : Out :=
  issue { unit := .tile, dsts := [.m a] } (fun k p s => (s.wm (placeOf k) a (Vector.replicate 16 0)).fin k p) s

/-- The conversion of R204. -/
def tileConvert (ty : Ty) (md : NumMode) (x : Tile) : Tile :=
  Vector.ofFn fun r => vBuild ty.bytes fun j =>
    let i := r.val * elCount ty.bytes + j
    if i < 256 then convert .fp32 ty md false (getEl 4 ((x[i / 16]?).getD 0) (i % 16)) else 0

/-- TCVT (R204). -/
def execTcvt (a b : BitVec 3) (ty : Ty) (s : State) : Out :=
  issue { unit := .tile, srcs := [.m b], dsts := [.m a] } (fun k p s =>
    (s.wm (placeOf k) a (tileConvert ty p.mode ((s.core (placeOf k)).rm b))).fin k p) s

/-- Saves the m registers of the unit and their bits to an area, and brings those of another in (R32, R198). -/
def State.saveTiles (s : State) (pl usa : Nat) : State :=
  let c := s.core pl
  (s.putBytes usa (c.m.toList.map tileBytes).flatten).putBytes (usa + 0x2900) [c.mFull]

def State.loadTiles (s : State) (pl usa : Nat) : State :=
  s.modCore pl fun c =>
    { c with m := Vector.ofFn fun i => memTile s (usa + 1024 * i.val), mFull := memGet s.mem (usa + 0x2900) }

/-- When a process began to wait for the tile unit. -/
def claimsTile (p : Proc) : Option Nat :=
  match p.stall with
  | some { kind := .tclaim, since := t, .. } => some t
  | _ => none

/-- The process that has waited longest for the tile unit of a core, other than its owner, the first found on a tie: R198
gives no order among several that wait, and this one is the model's choice (log 40). -/
def tileClaimant (s : State) (place : Nat) : Option (Nat × Proc) :=
  (s.procsAt place).foldl (fun b e =>
    if (s.core place).tileOwner = some e.1 then b
    else
      match claimsTile e.2, b.bind fun (x : Nat × Proc) => claimsTile x.2 with
      | none, _ => b
      | some _, none => some e
      | some t, some u => if t < u then some e else b) none

/-- TILE_CLAIM (R198): the unit goes to the process that waits for it; a swap of the owner is withdrawn. An owner
whose own claim has been served issues its instruction first (log 40). -/
def execTileClaim (place : Nat) (s : State) : Out :=
  match tileClaimant s place with
  | none => .next s
  | some (k, p) =>
    let give (s : State) : State := (s.loadTiles place p.usa).modCore place fun c => { c with tileOwner := some k }
    match (s.core place).tileOwner.bind fun o => (mget s.procs o).map fun q => (o, q) with
    | none => .next (give s)
    | some (o, q) =>
      if q.run != .halted && (claimsTile q).isSome then .next s
      else
        let s := match q.stall with
          | some { kind := .tswap _ _, .. } => (s.modLive o fun q => { q with stall := none }).wake o
          | _ => s
        .next (give (s.saveTiles place q.usa))

end Sys2Proof.Machine
end

