-- ==== Sys2Proof/Machine/Yard.lean ====
section
/-! DEFINITION. The yard (R243 to R260, R388 to R391): patch images, steps, saving and restoring, claims, and the
instructions of major 0x2C. -/

namespace Sys2Proof.Machine

/-- Signed fields of a block of bytes. -/
def bytesNat (bs : List Byte) (o n : Nat) : Nat := leNat ((bs.drop o).take n)
def bytesInt (bs : List Byte) (o n : Nat) : Int := toSigned (8 * n) (bytesNat bs o n)

/-- A number as `n` bytes in two's complement. -/
def intBytes (n : Nat) (x : Int) : List Byte := leBytes n (wrapInt (8 * n) x)

/-- A slot of a cell (R245): its source ID, and -1 or 1, if enabled. -/
def slotOf (x : BitVec 16) : Option (Nat × Int) :=
  if x.getLsbD 11 then some (x.toNat % 1024, if x.getLsbD 10 then -1 else 1) else none

/-- A cell record of a patch image (R246): none where a reserved bit is set or W is no width. -/
def cellOf (bs : List Byte) (k : Nat) : Option YCell :=
  let o := 32 * k
  let cfg : BitVec 32 := BitVec.ofNat 32 (bytesNat bs (o + 8) 4)
  let w := (cfg.extractLsb' 8 6).toNat
  let slots := (List.range 8).map fun i => (BitVec.ofNat 16 (bytesNat bs (o + 0x0C + 2 * i) 2) : BitVec 16)
  let y := bytesInt bs o 4
  let res := bytesInt bs (o + 4) 4
  if cfg &&& ~~~0x00BF3F03#32 = 0 ∧ bytesNat bs (o + 0x1C) 4 = 0 ∧ (slots.all fun x => x.toNat < 4096) = true ∧
      (w = 0 ∨ (4 ≤ w ∧ w ≤ 32)) ∧
      (w = 0 ∨ (y.natAbs < 2 ^ (w - 1) ∧ -(2 ^ (w - 1) : Int) ≤ res ∧ res < 2 ^ (w - 1))) ∧
      ((slots.filterMap slotOf).all fun e => decide (e.1 ≤ 271)) = true then
    some
      { y := y, res := res, w := w, dom := (cfg.extractLsb' 0 2).toNat, odoor := (cfg.extractLsb' 16 6).toNat
        oen := cfg.getLsbD 23, xs := slots.take 4, ys := slots.drop 4, out := 0 }
  else none

/-- The sources of an enabled cell. -/
def YCell.sources (c : YCell) : List Nat := ((c.xs ++ c.ys).filterMap slotOf).map (·.1)

/-- The domain of a source of a patch (R247): of a cell or of a step pulse. -/
def sourceDom (cells : List YCell) (id : Nat) : Option Nat :=
  if id < 256 then (cells[id]?).map (·.dom) else if id < 260 then some (id - 256) else none

/-- The readers of a patch: (source, domain) of every enabled cell. -/
def readersOf (cells : List YCell) : List (Nat × Nat) :=
  (cells.filter fun c => c.w != 0).flatMap fun c => c.sources.map fun i => (i, c.dom)

/-- The cross pairs of a patch, in the order of R247. -/
def crossPairs (cells : List YCell) : List (Nat × Nat) :=
  let rs := readersOf cells
  (List.range 260).flatMap fun id => (List.range 4).filterMap fun d =>
    if rs.contains (id, d) && sourceDom cells id != some d then some (id, d) else none

/-- A patch image under R247, for a loader `p`: its cells and cross pairs. -/
def patchOf (s : State) (p : Proc) (bs : List Byte) : Option (List YCell × List (Nat × Nat)) :=
  match (List.range 256).mapM (cellOf bs) with
  | none => none
  | some cells =>
    let rs := readersOf cells
    let pairs := crossPairs cells
    let portsOk := (List.range 12).all fun i => ((rs.filter fun r => r.1 == 260 + i).map (·.2)).dedup.length ≤ 1
    let doorOk (c : YCell) : Bool :=
      !c.oen ||
        (match mget p.doors c.odoor with
         | none => false
         | some d => d.isSend && c.odoor ≤ 61 &&
            (match mget s.chans d.chan with
             | none => false
             | some x => x.typ == .word && decide (1 ≤ x.cap ∧ x.cap ≤ 64)))
    if portsOk && cells.all doorOk && decide (pairs.length ≤ 32) then some (cells, pairs) else none

/-- The cells as a map: those that are not wholly zero. -/
def cellMap (cells : List YCell) : Map YCell :=
  ((List.range 256).zip cells).filter fun e =>
    e.2.w != 0 || e.2.y != 0 || e.2.res != 0 || e.2.oen || (e.2.xs ++ e.2.ys).any (· != 0)

def Yard.cell (y : Yard) (i : Nat) : YCell :=
  (mget y.cells i).getD
    { y := 0, res := 0, w := 0, dom := 0, odoor := 0, oen := false, xs := [], ys := [], out := 0 }
def Yard.dom (y : Yard) (d : Nat) : YDom := (y.doms[d]?).getD YDom.reset
def Yard.setDom (y : Yard) (d : Nat) (x : YDom) : Yard := { y with doms := y.doms.setIfInBounds d x }
def Yard.running (y : Yard) : Bool := y.doms.toList.any (·.run)

/-- Stops every domain. -/
def Yard.stopAll (y : Yard) : Yard := { y with doms := y.doms.map fun d => { d with run := false } }

/-- The index of the cross counter of a pair. -/
def Yard.pairIx (y : Yard) (id d : Nat) : Option Nat := y.pairs.findIdx? fun e => e == (id, d)

/-- The increment that a slot contributes to a step of domain `d` (R245). -/
def Yard.increment (y : Yard) (d : Nat) (x : BitVec 16) : Int :=
  match slotOf x with
  | none => 0
  | some (id, sign) =>
    let v : Int :=
      match y.pairIx id d with
      | some i => y.cross.getD i 0
      | none =>
        if id < 256 then (y.cell id).out
        else if id < 260 then 1
        else y.ports.getD (id - 260) 0
    sign * v

def Yard.sumSlots (y : Yard) (d : Nat) (l : List (BitVec 16)) : Int := (l.map (y.increment d)).foldl (· + ·) 0

/-- Phase A of a cell (R248): its new RES and out, and whether it overruns. -/
def Yard.phaseA (y : Yard) (d : Nat) (c : YCell) : Int × Int × Bool :=
  let dx := y.sumSlots d c.xs
  if 1 < dx.natAbs then (c.res, 0, true)
  else
    let r := c.res + dx * c.y
    if 2 ^ (c.w - 1) ≤ r then (r - 2 ^ c.w, 1, false)
    else if r < -(2 ^ (c.w - 1) : Int) then (r + 2 ^ c.w, -1, false)
    else (r, 0, false)

/-- Phase B of a cell (R248): its new Y. -/
def Yard.phaseB (y : Yard) (d : Nat) (c : YCell) : Int := toSigned 32 (wrapInt 32 (c.y + y.sumSlots d c.ys))

/-- A count clamped to a range. -/
def clampInt (lo hi x : Int) : Int := max lo (min hi x)

/-- The lowest-numbered enabled cell that reads a cross counter. -/
def Yard.readerOf (y : Yard) (id d : Nat) : Option Nat :=
  (y.cells.find? fun (e : Nat × YCell) => e.2.w != 0 && e.2.dom == d && e.2.sources.contains id).map (·.1)

/-- The outcome of a step: the yard, the overrun and integrand cells, and the cells with an output. -/
structure YStepped where
  yard : Yard
  overruns : List Nat
  integs : List Nat
  deriving DecidableEq, Repr

/-- One step of domain `d` (R248). -/
def Yard.step (y : Yard) (d : Nat) : YStepped :=
  let mine (e : Nat × YCell) : Bool := e.2.w != 0 && e.2.dom == d
  let next (e : Nat × YCell) : Nat × YCell :=
    if mine e then
      let a := y.phaseA d e.2
      (e.1, { e.2 with res := a.1, out := a.2.1, y := y.phaseB d e.2 })
    else e
  let cells := y.cells.map next
  let overs := (y.cells.filter fun e => mine e && (y.phaseA d e.2).2.2).map (·.1)
  let integs := (cells.filter fun e => mine e && decide (2 ^ (e.2.w - 1) ≤ e.2.y.natAbs)).map (·.1)
  let readPorts := (y.cells.filter mine).flatMap fun e => e.2.sources
  let ports := (List.range 12).map fun i => if readPorts.contains (260 + i) then 0 else y.ports.getD i 0
  let outOf (id : Nat) : Int := match mget cells id with | none => 0 | some c => c.out
  let added (i : Nat) : Int :=
    match y.pairs[i]? with
    | none => y.cross.getD i 0
    | some (id, dst) =>
      let old : Int := if dst = d then 0 else y.cross.getD i 0
      if id < 256 then (if (y.cell id).w != 0 && (y.cell id).dom == d then old + outOf id else old)
      else if id - 256 = d then old + 1 else old
  let raw := (List.range 32).map added
  let clamps := ((List.range 32).filter fun i => decide (raw.getD i 0 < -32768 ∨ 32767 < raw.getD i 0)).filterMap fun i =>
    (y.pairs[i]?).bind fun e => y.readerOf e.1 e.2
  let x := y.dom d
  let left := if x.mode = 1 then x.left - 1 else x.left
  { yard := ({ y with cells := cells, ports := ports, cross := raw.map (clampInt (-32768) 32767) } : Yard).setDom d
      { x with steps := x.steps + 1, done := x.done + 1, left := left, run := x.run && !(x.mode == 1 && left == 0) }
    overruns := overs ++ clamps
    integs := integs }

/-- The least of a list. -/
def leastOf (l : List Nat) : Option Nat := l.foldl (fun m x => match m with | none => some x | some y => some (min x y)) none

/-- The cycle in which the next step of a running domain falls due (R249); `start`: the cycle in which TIMEB was 0. -/
def YDom.due (x : YDom) (start : Nat) : Nat :=
  let k := x.done + 1
  if x.mode = 2 then start + (9 * (x.t0 + k * x.div) + 4) / 5 else x.t0 + k * x.div

/-- Whether domain `d` is the one that steps next (R249): due, and none due in an earlier cycle, or in the same cycle
with a lower number. R249 orders only the steps of one cycle: that overdue steps of different cycles run the earlier due
first is the model's choice (log 109). -/
def Yard.turn (y : Yard) (start cycle d : Nat) : Bool :=
  let x := y.dom d
  x.run && decide (x.due start ≤ cycle) && (List.range 4).all fun e =>
    let z := y.dom e
    !z.run || decide (x.due start < z.due start ∨ (x.due start = z.due start ∧ d ≤ e))

/-- Sends the output of a cell, or drops it (R251). -/
def State.yardOut (s : State) (place k d : Nat) (cell : Nat) (out : Int) : State :=
  let y := (s.core place).yard
  let drop := s.modCore place fun c => { c with yard := { c.yard with odrop := min (c.yard.odrop + 1) (2 ^ 32 - 1) } }
  match mget s.procs k with
  | none => s
  | some p =>
    match mget p.doors (y.cell cell).odoor with
    | none => drop
    | some e =>
      match mget s.chans e.chan with
      | none => drop
      | some x =>
        if !e.isSend || e.poisoned || x.rclosed || x.sstate != .opened || x.credit == 0 then drop
        else
          let w : Word := BitVec.ofNat 64 (wrapInt 16 out + cell * 2 ^ 16 + d * 2 ^ 24 + (y.dom d).steps.toNat % 2 ^ 32 * 2 ^ 32)
          s.sendItem e k p p.nan1 x [w] none

/-- Completes a YSTOP.W whose domains have all stopped (R256). -/
def State.yardStopped (s : State) (place k : Nat) : State :=
  match s.live k with
  | none => s
  | some p =>
    match p.wait with
    | some { kind := .ystop mask, .. } =>
      if (List.range 4).any fun d => mask.testBit d && ((s.core place).yard.dom d).run then s else s.finishWait k 0
    | _ => s

/-- Records a fault of a step and stops every domain (R250). -/
def State.yardFault (s : State) (place k : Nat) (r : YStepped) : State :=
  match (leastOf r.overruns).orElse fun _ => leastOf r.integs with
  | none => s
  | some cell =>
    let isOver := !r.overruns.isEmpty
    let y := (s.core place).yard
    let fd := (y.cell cell).dom
    let y := { y.stopAll with ovr := y.ovr || isOver, intg := y.intg || !isOver, fcell := cell, fdom := fd }
    let tval : Word := BitVec.ofNat 64 (cell + fd * 256 + (y.dom fd).steps.toNat % 2 ^ 32 * 2 ^ 32)
    (s.modCore place fun c => { c with yard := y }).modProc k fun p => { p with yardTrap := some (isOver, tval) }

/-- The step of a domain that is due (R248 to R251). -/
def State.yardStep (s : State) (place dom : Nat) : State :=
  let c := s.core place
  match c.yardOwner with
  | none => s
  | some k =>
    if 4 ≤ dom ∨ c.yard.turn (s.device (devOf place)).t0 s.cycle dom = false then s
    else
      let x := c.yard.dom dom
      let late := x.mode = 2 ∧ x.t0 + (x.done + 2) * x.div ≤ s.timebOf (devOf place)
      let r := c.yard.step dom
      let z := r.yard.dom dom
      let y := r.yard.setDom dom { z with late := if late then min (z.late + 1) (2 ^ 32 - 1) else z.late }
      let s := s.modCore place fun c => { c with yard := y }
      let outs := y.cells.filter fun (e : Nat × YCell) => e.2.w != 0 && e.2.dom == dom && e.2.oen && e.2.out != 0
      let s := outs.foldl (fun s (e : Nat × YCell) => s.yardOut place k dom e.1 e.2.out) s
      (s.yardFault place k r).yardStopped place k

/-- YARD_STEP (R248 to R251). -/
def execYardStep (place dom : Nat) (s : State) : Out := .next (s.yardStep place dom)

/-- The domain of the yard of a core whose step is due next (R249). -/
def yardDue (s : State) (place : Nat) : Option Nat :=
  if (s.core place).yardOwner.isNone then none
  else (List.range 4).find? fun d => (s.core place).yard.turn (s.device (devOf place)).t0 s.cycle d

/-- Runs the steps of a yard that are due, one after another. -/
def State.yardSteps (s : State) (place : Nat) : Nat → State
  | 0 => s
  | fuel + 1 => match yardDue s place with | none => s | some d => (s.yardStep place d).yardSteps place fuel

/-- YARD_INPUT_ITEM (R251): an attached input takes the item at the head of its end. -/
def execYardInputItem (place input : Nat) (s : State) : Out :=
  let c := s.core place
  let att := c.yard.attach.getD input 0
  match c.yardOwner with
  | none => .next s
  | some k =>
    if 8 ≤ input ∨ att.getLsbD 7 = false then .next s
    else
      match (mget s.procs k).bind fun p => mget p.doors (att.toNat % 64) with
      | none => .next s
      | some d =>
        match mget s.chans d.chan with
        | none => .next s
        | some x =>
          let add (s : State) (w : Word) : State :=
            s.modCore place fun c =>
              { c with yard := { c.yard with
                  ports := listSet c.yard.ports (4 + input)
                    (clampInt (-32767) 32767 (c.yard.ports.getD (4 + input) 0 + toSigned 16 (field w 0 16))) } }
          if d.isSend || x.moving then .next s
          else
            match x.q with
            | .marker :: q => .next ((s.setChan d.chan { x with q := q }).takeMarker k (att.toNat % 64))
            | .item i :: q =>
              if markHolds s d then .next s
              else .next (((add s (i.words.headD 0)).setChan d.chan { x with q := q, nextr := x.nextr + 1 }).token d.chan x)
            | .offer i p gen :: q =>
              if markHolds s d then .next s
              else
                .next (((add s (i.words.headD 0)).setChan d.chan { x with q := q, nextr := x.nextr + 1 }).post (agentChan d.chan)
                  (offerFrom d.chan p gen) none (.ack d.chan p gen stOk))
            | .lost _ :: q =>
              if markHolds s d then .next s
              else .next ((s.setChan d.chan { x with q := q, nextr := x.nextr + 1 }).token d.chan x)
            | _ => .next s

/-- The clock word of a domain, with the remaining count (R253, R256). -/
def YDom.word (x : YDom) : Nat := x.div + x.mode * 2 ^ 22 + x.left * 2 ^ 32

/-- The status word (R259). -/
def Yard.status (y : Yard) : Word :=
  let run := (List.range 4).foldl (fun n d => n + (if (y.dom d).run then 2 ^ d else 0)) 0
  let b (x : Bool) (i : Nat) : Nat := if x then 2 ^ i else 0
  BitVec.ofNat 64 (run + b y.valid 4 + b y.ovr 8 + b y.intg 9 + b y.cfg 10 + y.fcell * 2 ^ 16 + y.fdom * 2 ^ 24 + y.odrop * 2 ^ 32)

/-- The YSAVE format (R253). -/
def Yard.image (y : Yard) : List Byte :=
  let cells := (List.range 256).map y.cell
  let outs := (List.range 64).map fun i => BitVec.ofNat 8 (packEls 2 ((List.range 4).map fun j =>
    wrapInt 2 (y.cell (4 * i + j)).out))
  (cells.map fun c => intBytes 4 c.y ++ intBytes 4 c.res).flatten ++ outs ++
    (y.cross.map (intBytes 2)).flatten ++ (y.ports.map (intBytes 2)).flatten ++ leBytes 8 y.status.toNat ++
    (y.doms.toList.map fun d => leBytes 8 d.word).flatten ++ (y.doms.toList.map fun d => leBytes 8 d.steps.toNat).flatten ++
    (y.doms.toList.map fun d => leBytes 4 d.late).flatten ++ leBytes 8 y.patch ++ y.attach

/-- The yard that an image and the cells of its patch give (R252, R257): every domain stopped. That R257 checks no OUT
code, RES, clock word or attach byte, and that each is taken as it stands, is the model's reading (log 108). -/
def yardFrom (bs : List Byte) (cells : List YCell) (pairs : List (Nat × Nat)) : Yard :=
  let st : Word := BitVec.ofNat 64 (bytesNat bs 0x898 8)
  let outAt (i : Nat) : Int := toSigned 2 (bytesNat bs (0x800 + i / 4) 1 / 4 ^ (i % 4) % 4)
  let withState (e : Nat × YCell) : YCell :=
    { e.2 with y := bytesInt bs (8 * e.1) 4, res := bytesInt bs (8 * e.1 + 4) 4, out := if e.2.w = 0 then 0 else outAt e.1 }
  { cells := cellMap (((List.range 256).zip cells).map withState)
    pairs := pairs
    cross := (List.range 32).map fun i => bytesInt bs (0x840 + 2 * i) 2
    ports := (List.range 12).map fun i => bytesInt bs (0x880 + 2 * i) 2
    doms := Vector.ofFn fun i =>
      let w := bytesNat bs (0x8A0 + 8 * i.val) 8
      { div := w % 2 ^ 21, mode := w / 2 ^ 22 % 4, left := w / 2 ^ 32, run := false
        steps := BitVec.ofNat 64 (bytesNat bs (0x8C0 + 8 * i.val) 8), late := bytesNat bs (0x8E0 + 4 * i.val) 4, t0 := 0, done := 0 }
    valid := st.getLsbD 4, ovr := st.getLsbD 8, intg := st.getLsbD 9, cfg := st.getLsbD 10
    fcell := field st 16 8, fdom := field st 24 2, odrop := field st 32 32
    patch := bytesNat bs 0x8F0 8 % 2 ^ 19
    attach := (bs.drop 0x8F8).take 8 }

/-- Cells with nothing configured. -/
def blankCells : List YCell := List.replicate 256 (Yard.empty.cell 0)

/-- The bytes of the patch image of a process (R246). -/
def patchBytes (s : State) (k : Nat) (p : Proc) (o : Nat) : List Byte := spadBytes s k p o 8192

/-- The offset of a yard instruction (R254): aligned down to 64. -/
def yardOff (w : Word) : Nat := w.toNat / 64 * 64

/-- Starts a domain of a device on a new grid (R249, R390). -/
def startDom (s : State) (dev : Nat) (x : YDom) : YDom :=
  { x with run := true, t0 := if x.mode = 2 then s.timebOf dev else s.cycle, done := 0 }

/-- The yard that a restore brings back for a process from its save area (R252): the empty yard where VALID is 0; a
failing patch leaves every domain stopped, with CFG set and no cell configured (log 31). -/
def restored (s : State) (k : Nat) (p : Proc) : Yard :=
  let bs := memBytes s.mem (p.usa + 0x2000) 2304
  let run := bytesNat bs 0x898 1 % 16
  let z := yardFrom bs blankCells []
  if !z.valid then
    { Yard.empty with
      doms := z.doms.map fun d => { YDom.reset with div := d.div, mode := d.mode, left := d.left }
      attach := z.attach }
  else
    match patchOf s p (patchBytes s k p z.patch) with
    | none => { z with cfg := true }
    | some (cells, pairs) =>
      let y := yardFrom bs cells pairs
      (List.range 4).foldl (fun (y : Yard) d =>
        if run.testBit d then
          let x := startDom s (keyDev k) (y.dom d)
          let old := p.yardGrid.getD d (x.t0, 0)
          y.setDom d (if x.mode = 2 then { x with t0 := old.1, done := old.2 } else x)
        else y) y

/-- Writes the yard of a core to the save area of a process, with RUN as it stands (R252). -/
def State.saveYard (s : State) (place k : Nat) (p : Proc) (y : Yard) : State :=
  let grid := y.doms.toList.map fun (d : YDom) => (d.t0, d.done)
  let s := (s.putBytes (p.usa + 0x2000) y.image).modProc k fun q => { q with yardGrid := grid }
  s.modCore place fun c => { c with yard := Yard.empty, yardOwner := none }

/-- Whether a process stalls in a yard instruction: a claim, or one on an empty register (R388). -/
def stallsInYard (p : Proc) : Bool := p.stall.any fun x => x.kind == .yclaim || x.yard

/-- Withdraws the yard instruction in which a displaced process waits or stalls: it issues again (R388). -/
def State.withdrawYard (s : State) (k : Nat) : State :=
  match s.live k with
  | none => s
  | some p =>
    match p.wait with
    | some { kind := .ystop _, pc := pc, .. } => (s.modLive k fun q => { q with wait := none, pc := pc }).wake k
    | _ => if stallsInYard p then (s.modLive k fun q => { q with stall := none }).wake k else s

/-- Takes the yard from its owner, who becomes a displaced holder (R252 step 2). -/
def State.displace (s : State) (place : Nat) : State :=
  let c := s.core place
  match c.yardOwner with
  | none => s
  | some o =>
    match mget s.procs o with
    | none => s.modCore place fun c => { c with yardOwner := none, yard := Yard.empty }
    | some q =>
      ((s.saveYard place o q c.yard).modCore place fun c => { c with displaced := c.displaced.filter (· != o) ++ [o] }).withdrawYard o

/-- Gives the yard to a process from its save area (R252 step 3); a claim it waits in is served, and its instruction
issues again as owner. -/
def State.giveYard (s : State) (place k : Nat) : State :=
  match mget s.procs k with
  | none => s
  | some p =>
    let s := s.spadSeen place
    let s := s.modCore place fun c =>
      { c with yardOwner := some k, yard := restored s k p, displaced := c.displaced.filter (· != k) }
    match p.stall with
    | some { kind := .yclaim, .. } => s.wake k
    | _ => s

/-- Whether the owner of the yard keeps a claimant waiting (R252 step 1). -/
def ownerHolds (s : State) (place : Nat) (p : Proc) : Bool :=
  match (s.core place).yardOwner with
  | none => false
  | some o =>
    match mget s.procs o with
    | none => false
    | some q => decide (p.eff < q.prioBase)

/-- Whether a process waits in a yard claim. -/
def claimsYard (p : Proc) : Bool :=
  match p.stall with
  | some { kind := .yclaim, .. } => true
  | _ => false

/-- Whether the owner's own claim has been served and its instruction, of no lower EFF than the claimant's, has not
issued yet (log 40): it does so first. -/
def ownerServed (s : State) (place : Nat) (p : Proc) : Bool :=
  match (s.core place).yardOwner.bind fun o => mget s.procs o with
  | none => false
  | some q => claimsYard q && q.run != .halted && decide (p.eff ≤ q.eff)

/-- YARD_CLAIM_DONE (R252): the claimant of highest EFF, the first found on a tie (log 40), whose claim the owner does not
keep waiting gets the yard; after a release the restore of a displaced holder comes first. The steps that are due run
before the claim stops the yard (R389). -/
def execYardClaimDone (place : Nat) (s : State) : Out :=
  if (s.core place).yardOwner.isNone ∧ (s.core place).displaced.isEmpty = false then .next s
  else
  let waiting := (s.procsAt place).filter fun e =>
    claimsYard e.2 && (s.core place).yardOwner != some e.1 && !ownerHolds s place e.2 && !ownerServed s place e.2
  match waiting.foldl (fun (best : Option (Nat × Proc)) e =>
      match best with
      | none => some e
      | some b => if b.2.eff < e.2.eff then some e else best) none with
  | none => .next s
  | some (k, _) => .next (((s.yardSteps place 4096).displace place).giveYard place k)

/-- YARD_RESTORE (R252): an unowned yard goes back to the displaced holder of highest EFF, the earliest on a tie. -/
def execYardRestore (place : Nat) (s : State) : Out :=
  let c := s.core place
  if c.yardOwner.isSome then .next s
  else
    let effOf (k : Nat) : Nat := match mget s.procs k with | none => 0 | some p => p.eff
    match c.displaced.foldl (fun (best : Option Nat) k =>
        match best with
        | none => some k
        | some b => if effOf b < effOf k then some k else best) none with
    | none => .next s
    | some k => .next (s.giveYard place k)

/-- The stall of a yard claim as it stands, with its deadline. -/
def claimDeadline (s : State) : Option (Option Nat) :=
  match (mget s.procs s.cur).bind (·.stall) with
  | some { kind := .yclaim, deadline := d, .. } => some d
  | _ => none

/-- A yard instruction (R254): as owner it runs; a displaced holder claims first; any other process is answered
`outside`. -/
def yardOp (need : Need) (pre : Nat → Proc → State → (State → State) → State) (outside : Nat → Proc → State → State)
    (body : Nat → Proc → State → Yard → State) (s : State) : Out :=
  issue { need with unit := .yard } (fun k p s =>
    pre k p s fun s =>
      let c := s.core (placeOf k)
      if c.yardOwner = some k then body k p s c.yard
      else if c.displaced.contains k then s.stallOn k p .yclaim none
      else outside k p s) s

/-- No check before the claim. -/
def noPre (_ : Nat) (_ : Proc) (s : State) (go : State → State) : State := go s

/-- A process without scratchpad traps PROT (R254). -/
def spadPre (b : BitVec 5) (k : Nat) (p : Proc) (s : State) (go : State → State) : State :=
  s.withSpad k p false (p.rg b) (go s)

/-- Completes with a code. -/
def State.ycode (s : State) (k : Nat) (p : Proc) (a : BitVec 5) (code : Nat) : State := s.status k p a code 0

/-- The answer CLOSED, and the answer 0, to a process without a yard. -/
def yClosed (a : BitVec 5) (k : Nat) (p : Proc) (s : State) : State := s.ycode k p a stClosed
def yZero (a : BitVec 5) (k : Nat) (p : Proc) (s : State) : State := s.fin k (p.wg a 0)

/-- Replaces the yard of the issuer's core. -/
def State.setYard (s : State) (k : Nat) (y : Yard) : State := s.modCore (placeOf k) fun c => { c with yard := y }

/-- YCLAIM and YCLAIM.T (R252, R255); `old`: the deadline of the claim already waiting. -/
def claimYard (a : BitVec 5) (t : Bool) (old : Option (Option Nat)) (s : State) : Out :=
  issue { unit := .yard, dsts := [.g a] } (fun k p s =>
    if (s.core (placeOf k)).yardOwner = some k then s.ycode k p a stOk
    else
      let d := old.getD (deadlineOf s k p t)
      if ownerHolds s (placeOf k) p && pastDeadline s d then s.ycode k p a stTimeout else s.stallOn k p .yclaim d) s

/-- YCLAIM (R255). -/
def execYclaim (a : BitVec 5) (t : Bool) (s : State) : Out := claimYard a t (claimDeadline s) s

/-- YREL (R255): the state is saved with RUN cleared. -/
def execYrel (a : BitVec 5) (s : State) : Out :=
  yardOp { dsts := [.g a] } noPre (yClosed a) (fun k p s y =>
    (s.saveYard (placeOf k) k p y.stopAll).ycode k { p with yardGrid := [] } a stOk) s

/-- YLOAD (R256). -/
def execYload (a b : BitVec 5) (s : State) : Out :=
  yardOp { srcs := [.g b], dsts := [.g a], touch := .plain } (spadPre b) (yClosed a) (fun k p s y =>
    let off := yardOff (p.rg b) % 2 ^ p.splog
    match y.running, patchOf s p (patchBytes s k p off) with
    | false, some (cells, pairs) =>
      (s.setYard k { Yard.empty with
        cells := cellMap cells, pairs := pairs, attach := y.attach, valid := true, patch := off
        doms := y.doms.map fun d => { d with steps := 0, late := 0 } }).ycode k p a stOk
    | _, _ => s.ycode k p a stBadType) s

/-- A clock word (R256): none outside its values. -/
def clockOf (w : Word) (x : YDom) : Option YDom :=
  let div := field w 0 21
  let mode := field w 22 2
  let n := field w 32 32
  if 2 ≤ div ∧ div ≤ 1048576 ∧ mode < 3 ∧ field w 21 1 = 0 ∧ field w 24 8 = 0 ∧ (if mode = 1 then 1 ≤ n else n = 0) then
    some { x with div := div, mode := mode, left := n }
  else none

/-- YCLK (R256). -/
def execYclk (a b c : BitVec 5) (s : State) : Out :=
  yardOp { srcs := [.g b, .g c], dsts := [.g a] } noPre (yClosed a) (fun k p s y =>
    let d := (p.rg b).toNat
    match (if d < 4 ∧ (y.dom d).run = false then clockOf (p.rg c) (y.dom d) else none) with
    | some x => (s.setYard k (y.setDom d x)).ycode k p a stOk
    | none => s.ycode k p a stBadType) s

/-- YRUN (R256). -/
def execYrun (a b : BitVec 5) (s : State) : Out :=
  yardOp { srcs := [.g b], dsts := [.g a] } noPre (yClosed a) (fun k p s y =>
    let mask := (p.rg b).toNat
    let ds := (List.range 4).filter fun d => mask.testBit d
    if 16 ≤ mask ∨ y.valid = false ∨ (ds.any fun d => (y.dom d).mode == 1 && (y.dom d).left == 0) = true then
      s.ycode k p a stBadType
    else
      (s.setYard k (ds.foldl (fun (y : Yard) d => if (y.dom d).run then y else y.setDom d (startDom s (keyDev k) (y.dom d))) y)).ycode k p a
        stOk) s

/-- YSTOP (R256). -/
def execYstop (a b : BitVec 5) (s : State) : Out :=
  yardOp { srcs := [.g b], dsts := [.g a] } noPre (yClosed a) (fun k p s y =>
    let mask := (p.rg b).toNat
    let ds := (List.range 4).filter fun d => mask.testBit d
    if 16 ≤ mask then s.ycode k p a stBadType
    else (s.setYard k (ds.foldl (fun (y : Yard) d => y.setDom d { y.dom d with run := false }) y)).ycode k p a stOk) s

/-- YSTOP.W (R256). -/
def execYstopW (a b : BitVec 5) (t : Bool) (s : State) : Out :=
  yardOp { srcs := [.g b], dsts := [.g a] } noPre (yClosed a) (fun k p s y =>
    let mask := (p.rg b).toNat
    if 16 ≤ mask then s.ycode k p a stBadType
    else if (List.range 4).any fun d => mask.testBit d && (y.dom d).run then
      s.waitIn k p (.ystop mask) a 0 (deadlineOf s k p t)
    else s.ycode k p a stOk) s

/-- YSAVE (R257). -/
def execYsave (a b : BitVec 5) (s : State) : Out :=
  yardOp { srcs := [.g b], dsts := [.g a], touch := .plain } (spadPre b) (yClosed a) (fun k p s y =>
    let img := y.image
    let s := (List.range 36).foldl (fun s i =>
      s.spadPut k p (yardOff (p.rg b) + 64 * i) ((img.drop (64 * i)).take 64)) s
    (s.testMonS (placeOf k)).ycode k p a stOk) s

/-- YREST (R257). -/
def execYrest (a b : BitVec 5) (s : State) : Out :=
  yardOp { srcs := [.g b], dsts := [.g a], touch := .plain } (spadPre b) (yClosed a) (fun k p s y =>
    let bs := spadBytes s k p (yardOff (p.rg b)) 2304
    let z := yardFrom bs blankCells []
    match !y.running && z.valid, patchOf s p (patchBytes s k p z.patch) with
    | true, some (cells, pairs) => (s.setYard k (yardFrom bs cells pairs)).ycode k p a stOk
    | _, _ => s.ycode k p a stBadType) s

/-- A selector (R258): kind and index; none outside the table. -/
def selector (w : Word) : Option (Nat × Nat) :=
  let i := field w 0 8
  let kind := field w 8 4
  if field w 12 52 ≠ 0 then none
  else
    match kind with
    | 0 | 1 | 2 | 5 | 7 => some (kind, i)
    | 3 => if i < 32 then some (3, i) else none
    | 4 => if i < 12 then some (4, i) else none
    | 6 => if i < 8 then some (6, i) else none
    | _ => none

/-- What YGET returns (R258). -/
def Yard.get (y : Yard) (w : Word) : Word :=
  match selector w with
  | none => 0
  | some (0, i) => BitVec.ofInt 64 (y.cell i).y
  | some (1, i) => BitVec.ofInt 64 (y.cell i).res
  | some (2, i) => (y.dom (i % 4)).steps
  | some (3, i) => BitVec.ofInt 64 (y.cross.getD i 0)
  | some (4, i) => BitVec.ofInt 64 (y.ports.getD i 0)
  | some (5, i) => BitVec.ofNat 64 (y.dom (i % 4)).word
  | some (6, i) => (y.attach.getD i 0).setWidth 64
  | some (7, i) => BitVec.ofNat 64 (y.dom (i % 4)).late
  | some (_, _) => 0

/-- YGET (R258). -/
def execYget (a b : BitVec 5) (s : State) : Out :=
  yardOp { srcs := [.g b], dsts := [.g a] } noPre (yZero a) (fun k p s y => s.fin k (p.wg a (y.get (p.rg b)))) s

/-- Sets a cell, keeping the map free of wholly zero cells. -/
def Yard.setCell (y : Yard) (i : Nat) (c : YCell) : Yard :=
  { y with cells := cellMap ((List.range 256).map fun j => if j = i then c else y.cell j) }

/-- The yard after YSET (R258): none for a value or selector it rejects. -/
def Yard.put (s : State) (p : Proc) (y : Yard) (w v : Word) : Option Yard :=
  let x := v.toInt
  match selector w with
  | some (0, i) =>
    let c := y.cell i
    if (if c.w = 0 then x = 0 else x.natAbs < 2 ^ (c.w - 1)) then some (y.setCell i { c with y := x }) else none
  | some (1, i) =>
    let c := y.cell i
    if (if c.w = 0 then x = 0 else -(2 ^ (c.w - 1) : Int) ≤ x ∧ x < 2 ^ (c.w - 1)) then some (y.setCell i { c with res := x })
    else none
  | some (2, i) => some (y.setDom (i % 4) { y.dom (i % 4) with steps := v })
  | some (3, i) => if -32768 ≤ x ∧ x ≤ 32767 then some { y with cross := listSet y.cross i x } else none
  | some (4, i) => if -32768 ≤ x ∧ x ≤ 32767 then some { y with ports := listSet y.ports i x } else none
  | some (6, i) =>
    let doorOk : Bool :=
      match mget p.doors (v.toNat % 64) with
      | none => false
      | some d => !d.isSend && (mget s.chans d.chan).any (fun (x : Chan) => x.typ == .word)
    if decide (v.toNat < 256) && !v.getLsbD 6 && (!v.getLsbD 7 || doorOk) then
      some { y with attach := listSet y.attach i (v.setWidth 8) }
    else none
  | some (_, _) => none
  | none => none

/-- YSET (R258). -/
def execYset (a b c : BitVec 5) (s : State) : Out :=
  yardOp { srcs := [.g b, .g c], dsts := [.g a] } noPre (yClosed a) (fun k p s y =>
    match y.put s p (p.rg b) (p.rg c) with
    | some z => (s.setYard k z).ycode k p a stOk
    | none => s.ycode k p a stBadType) s

/-- YINJ (R259). -/
def execYinj (a b c : BitVec 5) (s : State) : Out :=
  yardOp { srcs := [.g b, .g c], dsts := [.g a] } noPre (yClosed a) (fun k p s y =>
    let i := (p.rg b).toNat
    if 4 ≤ i then s.ycode k p a stBadType
    else
      let x := y.ports.getD i 0 + (p.rg c).toInt
      let z := clampInt (-32767) 32767 x
      (s.setYard k { y with ports := listSet y.ports i z }).ycode k p a (if z = x then stOk else stFull)) s

/-- YSTAT (R259). -/
def execYstat (a : BitVec 5) (s : State) : Out :=
  yardOp { dsts := [.g a] } noPre (yZero a) (fun k p s y => s.fin k (p.wg a y.status)) s

/-- YSTAT.CLR (R259). -/
def execYstatClr (a : BitVec 5) (s : State) : Out :=
  yardOp { dsts := [.g a] } noPre (yZero a) (fun k p s y =>
    (s.setYard k { y with ovr := false, intg := false, cfg := false, odrop := 0, doms := y.doms.map fun d => { d with late := 0 } }).fin
      k (p.wg a y.status)) s

end Sys2Proof.Machine
end

