-- ==== Sys2Proof/Machine/Moves.lean ====
section
/-! DEFINITION. Moving a process to another core (R287 to R290, R377, R252). -/

namespace Sys2Proof.Machine

/-- A request of a supervisor with code `op` that message `n` brings to its service core: the state without it, the
place, the request and its issuer (R276). A request whose issuer has ended is dropped. -/
def State.supervisor (s : State) (n op : Nat) (go : State → Nat → Svc → Proc → State) : Out :=
  match s.arriving n with
  | some { dst := pl, body := .svc v, .. } =>
    if (v.args.headD 0).toNat ≠ op then .next s
    else
      match s.byOwn v.p v.gen with
      | none => .next (s.took n)
      | some p => .next (go (s.took n) pl v p)
  | _ => .next s

/-- Argument g`i` of a request. -/
def Svc.arg (v : Svc) (i : Nat) : Word := v.args.getD (i - 1) 0

/-- The reply to a request: g1 and g2 (R276). -/
def State.reply (s : State) (pl : Nat) (v : Svc) (st : Nat) (g2 : Word) : State :=
  s.post pl (placeOf v.p) none (.fill (svcFill v.p v.gen st g2))

/-- Whether a process is tied to its core by its kind or by a configured ring (R287, R289). -/
def tied (s : State) (k : Nat) (q : Proc) : Bool :=
  q.kind != .normal ||
    (List.range 4).any fun i => (s.ring (placeOf k) i).any fun (r : Ring) => r.owner == k && r.ogen == q.gen

/-- PROCESS_MOVE (R287): the request is taken up, or refused. -/
def execProcessMove (n : Nat) (s : State) : Out :=
  s.supervisor n 0x0201 fun s pl v p =>
    let t := (v.arg 3).toNat
    match s.byHandle (v.arg 2) with
    | none => s.reply pl v stClosed 0
    | some (k, q) =>
      if q.asid ≠ p.asid ∨ 768 ≤ t ∨ t = coreOf (placeOf k) ∨ 2 ≤ (v.arg 4).toNat ∨ tied s k q then s.reply pl v stBadType 0
      else
        s.modProc k fun q =>
          { q with sup := q.sup ++ [{ p := v.p, gen := v.gen, target := some t, edge := v.arg 4 == 1, halted := false,
                                      stay := false }] }

/-- MOVE_HALT (R288 step 1): a move that does not wait for a round edge halts the process. -/
def execMoveHalt (proc : Nat) (s : State) : Out := .next (s.haltFor proc fun r => r.target.isSome && !r.edge)

/-- Whether a message carries something for a process, or a request of it that has not reached its home (R377); the active
message of an AMSG, whose wait stays in place (R137), does not hold the move up. -/
def Body.names (b : Body) (k gen : Nat) : Bool :=
  let is (p g : Nat) : Bool := p == k && g == gen
  let own (o : Own) : Bool := is o.p o.gen
  match b with
  | .fill f => is f.p f.gen
  | .atomic r | .refused r => own r.own
  | .chain c | .chainBack c _ _ _ => is c.p c.gen
  | .winPush p => p.waiter.any fun w => is w.1 w.2.1
  | .offer _ (.offer _ p g) | .offer _ (.tileOffer p g _) => is p g
  | .recv _ r => is r.p r.gen
  | .withdraw _ p g _ | .ack _ p g _ => is p g
  | .tileGo _ p g r => is p g || is r.p r.gen
  | .tileLanded _ p g r _ => is p g || r.any fun x => is x.p x.gen
  | .recordCopy _ _ _ _ _ o | .announce _ _ o | .announceAck _ _ o => own o
  | .deleg _ c => is c.p c.gen
  | .childCreate _ c o | .stealTask _ c o | .stealBack _ c o => own o || c.parent == handleOf k gen
  | .childEnd h _ _ => h == handleOf k gen
  | .probe r => r.toKey == k || r.path.contains k
  | .svc v => is v.p v.gen
  | .read _ _ _ _ _ _ _ | .write _ _ _ | .combine _ | .eread _ _ _ _ | .ewrite _ _ _ _ | .migrate _ | .host _ _ _ _ _ _
  | .serverPush _ | .nodeDone _ _ _ _ _ | .report _ | .offer _ _ | .item _ _ | .deadlock _ _ | .marker _ | .token _ | .close _
  | .slotToken _ | .inbox _ _ | .drained _ _ _ => false

/-- Whether a message is on its way for a process. -/
def underWay (s : State) (k gen : Nat) : Bool :=
  let named (m : Msg) : Bool :=
    m.body.names k gen || (m.own.any (fun o => o.p == k && o.gen == gen) && (match m.body with | .inbox _ _ => false | _ => true))
  s.net.any named || s.links.any fun (l : Nat × Link) => l.2.queue.any fun e => named e.msg

/-- Waits that stay in place over a move (R137, R289, R290); every other wait is answered by a fill, first (R377, log 65). -/
def WaitKind.movable (w : WaitKind) : Bool :=
  match w with
  | .offer _ _ | .credit _ _ _ | .recv _ | .alt _ | .monS _ _ _ | .join _ | .ystop _ | .wfe | .halo _ _ | .amsg _ _
  | .rres _ _ => true
  | .copy _ | .home | .spawn _ _ | .bind _ | .winclose _ | .matrix | .preempt _ | .tlbinv _ | .ecall | .load => false

/-- The nodes of a process, by index (R289). -/
def nodesOf (s : State) (k gen : Nat) : List (Nat × Node) :=
  (s.core (placeOf k)).nodes.filter fun e => e.2.live && e.2.owner == k && e.2.ogen == gen

/-- Whether the copies of a halted process have landed and every fill owed to it has (R288 step 2, R289, R377); the reply
to its own request, if it is the one that moves, is not owed before the move. -/
def drained (s : State) (k : Nat) (p : Proc) (r : SupReq) : Bool :=
  let call (c : Call) : Bool := c.p == k && c.gen == p.gen
  !underWay s k p.gen && !outstanding s k p.gen (fun _ _ => true) && !combining s (placeOf k) .device &&
    p.vfills.isEmpty && p.nwaits.isEmpty &&
    p.wait.all (fun w => w.kind.movable || (w.kind == .ecall && r.p == k && r.gen == p.gen)) && (nodesOf s k p.gen).all (fun e => e.2.st == .done) &&
    !(s.cores.any fun (c : Nat × Core) => c.2.delegs.any fun (d : Nat × List Call) => d.2.any call) &&
    !(s.procs.any fun (e : Nat × Proc) => e.2.serving.any fun x => x.1 == k && x.2.1 == p.gen) &&
    !(s.servers.any fun (x : Nat × Server) => x.2.queue.any fun y => y.p == k && y.gen == p.gen) &&
    p.doors.all fun (d : Nat × Door) =>
      !(mget s.chans d.2.chan).any fun (x : Chan) => (x.copying && x.send != .gone) || x.moving

/-- Room on a core for a moved process (R287): its entry, scratchpad block and unit save area. -/
def moveRoom (s : State) (tp : Nat) (p : Proc) (ids : List Nat) : Option (Nat × Nat × Nat) :=
  if coreClosed s tp p.asid || ids.any fun i => (mget (s.core tp).nodes i).any fun (x : Node) => x.live then none
  else
    match freeEntry s tp false, freeBlock s tp p.splog, (if p.tile || p.yard then freeArea s tp p.asid else some 0) with
    | some e, some b, some u => some (e, b, u)
    | _, _, _ => none

/-- The address of a byte of an allocation after its move. -/
def shiftGa (old new n ga : Nat) : Nat := if old ≤ ga ∧ ga < old + n then new + (ga - old) else ga

/-- Copies `n` bytes to a new place with their full/empty bits and poison (R288 step 3); the old place is zeroed and
full. `n` and both addresses are multiples of 64. -/
def State.copyBlock (s : State) (old new n : Nat) : State :=
  let bytes := memBytes s.mem old n
  let es := s.empties.filter fun w => decide (old ≤ 8 * w) && decide (8 * w < old + n)
  let ps := s.poisoned.filter fun l => decide (old ≤ 64 * l) && decide (64 * l < old + n)
  let s := { ((s.zero new n).putBytes new bytes).zero old n with
    poisoned := s.poisoned.filter fun l =>
      !(decide (old ≤ 64 * l) && decide (64 * l < old + n)) && !(decide (new ≤ 64 * l) && decide (64 * l < new + n)) }
  { s with empties := es.foldl (fun l w => sadd l (shiftGa old new n (8 * w) / 8)) s.empties
           poisoned := ps.foldl (fun l w => sadd l (shiftGa old new n (64 * w) / 64)) s.poisoned }

/-- A holder after the move of process `k` (R288 step 4). -/
def Holder.moved (h : Holder) (k gen k' gen' : Nat) : Holder :=
  match h with
  | .proc p g d => if p = k ∧ g = gen then .proc k' gen' d else h
  | .hostEp _ | .server _ | .coll _ _ | .service _ | .gone => h

/-- An entry after the move of its sender. -/
def Entry.moved (e : Entry) (k gen k' gen' : Nat) : Entry :=
  match e with
  | .offer i p g => if p = k ∧ g = gen then .offer i k' gen' else e
  | .tileOffer p g b => if p = k ∧ g = gen then .tileOffer k' gen' b else e
  | .item i => if i.sender = some (k, gen) then .item { i with sender := some (k', gen') } else e
  | .marker | .token | .lost _ | .close => e

/-- A channel after the move of a holder of an end: what waits at it stays (R290). -/
def Chan.moved (x : Chan) (k gen k' gen' old new n : Nat) : Chan :=
  { x with
    recv := x.recv.moved k gen k' gen'
    send := x.send.moved k gen k' gen'
    q := x.q.map fun e => e.moved k gen k' gen'
    held := x.held.map fun e => e.moved k gen k' gen'
    rwait := x.rwait.map fun r => if r.p = k ∧ r.gen = gen then { r with p := k', gen := gen' } else r
    pend := x.pend.map fun (y : Push) =>
      { y with waiter := y.waiter.map fun w => if w.1 = k ∧ w.2.1 = gen then (k', gen', w.2.2) else w }
    stamps := x.stamps.map fun (t : Stamp) => { t with ga := t.ga.map (shiftGa old new n) } }

/-- The fixed door d63 names the memory server of the new core (R288 step 4). -/
def State.rebindServer (s : State) (p : Proc) (tp : Nat) : State :=
  match mget p.doors 63 with
  | none => s
  | some d => s.modChan d.chan fun x =>
      match x.recv with
      | .server _ => { x with recv := .server tp }
      | .proc _ _ _ | .hostEp _ | .coll _ _ | .service _ | .gone => x

/-- Saves the tile unit and the yard of a process that leaves its core (R198, R252, R289): the state, whether it owned
the yard, and whether it was a displaced holder. -/
def State.saveUnits (s : State) (k : Nat) (p : Proc) : State × Bool × Bool :=
  let pl := placeOf k
  let s := if (s.core pl).tileOwner = some k then
      (s.saveTiles pl p.usa).modCore pl fun c => { c with tileOwner := none }
    else s
  let own := (s.core pl).yardOwner == some k
  let away := (s.core pl).displaced.contains k
  let s := if own then s.saveYard pl k p (s.core pl).yard else s
  (s.modCore pl fun c => { c with displaced := c.displaced.filter (· != k) }, own, away)

/-- The yard at the target core (R252): claimed for the owner as by YCLAIM, and a YSTOP.W of its stays in place (R137); where
the claim must wait, it is a displaced holder, and its YSTOP.W is withdrawn (R388). R252 gives the move of the owner only:
that a displaced holder that moves is one on the target core too is the model's reading (log 107). -/
def State.claimMoved (s : State) (tp k : Nat) (own away : Bool) : State :=
  match mget s.procs k with
  | none => s
  | some p =>
    if own && !ownerHolds s tp p then (((s.yardSteps tp 4096).displace tp).giveYard tp k).yardStopped tp k
    else if own || away then (s.modCore tp fun c => { c with displaced := c.displaced ++ [k] }).withdrawYard k
    else s

/-- A process that has been resumed: it enters the rounds that its markers complete (R313), and what its halt held back is
served. -/
def State.thawed (s : State) (k : Nat) : State :=
  let s := s.roundTest k
  match mget s.procs k with
  | none => s
  | some p =>
    let s := p.doors.foldl (fun s (d : Nat × Door) =>
      if d.2.isSend then (s.serveCredit d.2.chan).chanEvent d.2.chan else s.chanEvent d.2.chan) s
    s.altTest k

/-- A message that has gone out, after the move of its sender: that of an AMSG which still waits (R137), and an offer that
has arrived and whose acknowledgement the link still owes (R426), and a request for a memory server (R329). -/
def Msg.moved (m : Msg) (k gen k' gen' : Nat) : Msg :=
  match m.body with
  | .offer c e => { m with body := .offer c (e.moved k gen k' gen') }
  | .item c i => if i.sender = some (k, gen) then { m with body := .item c { i with sender := some (k', gen') } } else m
  | .inbox pl c =>
    if c.p = k ∧ c.gen = gen then
      { m with body := .inbox pl { c with p := k', gen := gen' }, own := m.own.map fun o => { o with p := k', gen := gen' } }
    else m
  | _ => m

/-- What waits elsewhere for a process follows it (R137, R290): in the rings of cores, at host endpoints, and on the way. -/
def State.rekey (s : State) (k gen k' gen' : Nat) : State :=
  { s with
    net := s.net.map fun m => m.moved k gen k' gen'
    links := s.links.map fun (l : Nat × Link) =>
      let go (e : LinkEntry) : LinkEntry := { e with msg := e.msg.moved k gen k' gen' }
      (l.1, { l.2 with queue := l.2.queue.map go, replay := l.2.replay.map go })
    hostEps := s.hostEps.map fun (e : Nat × HostEp) =>
      (e.1, { e.2 with
        pend := e.2.pend.map fun x => x.moved k gen k' gen'
        acks := e.2.acks.map fun a => if a.1 = k ∧ a.2.1 = gen then (k', gen', a.2.2) else a })
    cores := s.cores.map fun (c : Nat × Core) =>
      (c.1, { c.2 with rings := c.2.rings.map fun r => r.map fun (r : Ring) =>
        { r with waiters := r.waiters.map fun w => if w = (k, gen) then (k', gen') else w } }) }

/-- The staging slots of the tile channels that a process receives on move with it (R326, log 86). -/
def State.moveStages (s : State) (p : Proc) : State :=
  p.doors.foldl (fun s (d : Nat × Door) => if d.2.isSend then s else s.moveStage d.2.chan) s

/-- The other requests for a process that a move has taken: its handle is stale for them (R287). Only the record of a halt
that holds goes with it. -/
def Proc.otherReqs (p : Proc) (r : SupReq) : List SupReq := p.sup.filter fun x => x != r && !(x.halted && x.target.isNone)

/-- Steps 3 to 6 of a move (R288, R289): the new key and generation. -/
def State.relocate (s : State) (k : Nat) (p : Proc) (tp e base usa : Nat) (ring : Option Nat) (r : SupReq) :
    State × Nat × Nat :=
  let pl := placeOf k
  let gen := nextGen ((mget (s.core tp).gens e).getD 0)
  let j := tp * 4096 + e
  let old := scratchGa pl p.spBase
  let new := scratchGa tp base
  let n := if p.splog = 0 then 0 else 2 ^ p.splog
  let nodes := if r.gen = 0 then [] else nodesOf s k p.gen
  let (s, own, away) := s.saveUnits k p
  let grid := match mget s.procs k with | none => [] | some q => q.yardGrid
  let s := if n = 0 then s else s.copyBlock old new n
  let s := if p.tile || p.yard then s.copyBlock p.usa usa 0x3000 else s
  let s := (p.doors.foldl (fun s (d : Nat × Door) => s.modChan d.2.chan fun x => x.moved k p.gen j gen old new n) s).rebindServer p tp
  let s := (s.rekey k p.gen j gen).moveStages p
  let q : Proc :=
    { p with
      gen := gen, spBase := base, usa := if p.tile || p.yard then usa else 0, yardGrid := grid, stall := none
      sup := p.sup.filter fun x => x.halted && x.target.isNone
      doors := p.doors.filter fun (d : Nat × Door) => d.2.chan != 0
      reported := false
      hardSince := some s.timeb
      spilled := ring.map fun i => (p.asid, i)
      run := if r.stay then .halted else .blocked, blockedSince := s.timeb }
  let s := { s with procs := (mdel s.procs k).map fun (x : Nat × Proc) =>
    if x.2.parent = handleOf k p.gen then (x.1, { x.2 with parent := handleOf j gen }) else x }
  let s := s.modCore pl fun c =>
    { c with nodes := c.nodes.map fun (x : Nat × Node) =>
        if x.2.live && x.2.owner == k && x.2.ogen == p.gen then (x.1, { x.2 with live := false }) else x }
  let s := s.modCore tp fun c =>
    { c with gens := mset c.gens e gen
             nodes := nodes.foldl (fun m x => mset m x.1 { x.2 with owner := j, ogen := gen }) c.nodes }
  let s := s.setProc j q
  let s := match ring with
    | none => s
    | some i => s.putRecord j q (q.asid, i)
  let s := s.claimMoved tp j own away
  let s := if (mget s.procs j).any (·.wait.isNone) then s.wake j else s
  let s := (p.otherReqs r).foldl (fun s x => s.tell pl x stClosed 0) s
  (((((s.testMonS tp).thawed j).endInbox pl p.asid).settle pl), j, gen)

/-- The cores a move may take, in order: the one asked for, or every core nearest first for the firmware's own
(R455, R297). -/
def moveTargets (k : Nat) (r : SupReq) : List Nat :=
  if r.gen = 0 then (spawnOrder (coreOf (placeOf k)) (List.range 768)).filter (· != coreOf (placeOf k)) else r.target.toList

/-- A move that finds no room returns FULL, and one of a process that has configured a ring meanwhile BADTYPE; the process
resumes where it was (R287, R289). -/
def State.moveRefused (s : State) (k : Nat) (p : Proc) (r : SupReq) (st : Nat) : State :=
  let s := s.modLive k fun p =>
    { p with sup := p.sup.filter (· != r), run := if r.stay then .halted else .blocked, hardSince := some s.timeb }
  let s := if p.wait.isNone && !r.stay then s.wake k else s
  (s.thawed k).tell (placeOf k) r st 0

/-- A context on a core for a process that arrives (R299): whether it is written to the ring itself. One that arrives HALTED
stays in the context store (R293). -/
def State.moveContext (s : State) (tp : Nat) (p : Proc) (stay : Bool) : State × Option (Option Nat) :=
  if !stay then s.makeRoom tp p.asid p.prioBase 0
  else if !contextsFull s tp then (s, some none)
  else
    match spillVictim s tp with
    | none => (s, none)
    | some (v, q) =>
      match spillRoom s tp q.asid with
      | .ok i => (s.spill v i, some none)
      | why => (s.cannotSpill tp q.asid 0 why, none)

/-- Room on the first of some cores that can take a moved process (R287, R296, R455): the core, the entry, the scratchpad
block, the unit save area and the ring slot. -/
def State.moveTo (s : State) (p : Proc) (ids : List Nat) (stay : Bool) : List Nat → State × Option (Nat × Nat × Nat × Nat × Option Nat)
  | [] => (s, none)
  | tp :: rest =>
    match moveRoom s tp p ids with
    | none => s.moveTo p ids stay rest
    | some (e, base, usa) =>
      match s.moveContext tp p stay with
      | (t, none) => t.moveTo p ids stay rest
      | (t, some ring) => (t, some (tp, e, base, usa, ring))

/-- The request as it is answered after the move: to its issuer, who may be the process itself under its new handle. -/
def SupReq.after (r : SupReq) (k gen k' gen' : Nat) : SupReq :=
  if r.p = k ∧ r.gen = gen then { r with p := k', gen := gen' } else r

/-- MOVE_COPY (R288 steps 2 to 6). -/
def execMoveCopy (proc : Nat) (s : State) : Out :=
  match s.live proc with
  | none => .next (s.progress (keyDev proc))
  | some p =>
    match p.sup.find? fun (r : SupReq) => r.halted && r.target.isSome with
    | none => .next s
    | some r =>
      let pl := placeOf proc
      if !(s.core pl).redLines.isEmpty then .next (s.combineAll pl .device)
      else if r.gen ≠ 0 ∧ tied s proc p = true then .next (s.moveRefused proc p r stBadType)
      else if !drained s proc p r then .next s
      else
        let ids := if r.gen = 0 then [] else (nodesOf s proc p.gen).map (·.1)
        match s.moveTo p ids r.stay ((moveTargets proc r).map (devOf pl * 1024 + ·)) with
        | (t, none) => .next (if r.gen = 0 then s else t.moveRefused proc p r stFull)
        | (s, some (tp, e, base, usa, ring)) =>
          let s := if r.gen = 0 then (List.range 4).foldl (fun s i =>
              if (s.ring pl i).any fun (x : Ring) => x.owner == proc && x.ogen == p.gen then s.unring pl i else s) s
            else s
          let s := (s.reserve tp p.asid .inbox).reserve tp p.asid .deleg
          let (s, j, gen) := s.relocate proc p tp e base usa ring r
          .next ((s.tell pl (r.after proc p.gen j gen) stOk (handleOf j gen)).progress (devOf pl))

end Sys2Proof.Machine
end

