-- ==== Sys2Proof/Machine/Links.lean ====
section
/-! DEFINITION. Link ports (R422 to R429) and collective units (R430 to R434). -/

namespace Sys2Proof.Machine

/-- What a sealed entry is on the wire: its bytes under AES-256-GCM with the next nonce of the session, and the tag that
the receiving port checks (R429). What a bus agent alone could observe is outside the model (log 113). -/
def Session.sealBytes (x : Session) (bs : List Byte) : List Byte × List Byte :=
  aesGcm x.key (leBytes 12 x.nonce) [] bs

/-- The entry of a queue that goes next: the first with no entry of the same send end to the same place before it on any
link (R426, log 98). -/
def nextEntry (s : State) (l : Nat) : Option LinkEntry :=
  (s.link l).queue.find? fun e => !onLinks s e.msg.src e.msg.dst (e.id - 1)

/-- An entry of a queue as it now stands. -/
def State.setEntry (s : State) (l : Nat) (e : LinkEntry) : State :=
  let x := s.link l
  s.setLink l { x with queue := x.queue.map fun y => if y.id = e.id then e else y }

/-- An entry leaves the queue of a link port. -/
def State.unlink (s : State) (l : Nat) (e : LinkEntry) : State :=
  let x := s.link l
  s.setLink l { x with queue := x.queue.filter fun y => y.id != e.id }

/-- The messages of a device with one that has come over the links, ahead of those sent behind it. -/
def comeIn (e : LinkEntry) : List Msg → List Msg
  | [] => [e.msg]
  | m :: r => if m.src == e.msg.src && m.dst == e.msg.dst && decide (e.id ≤ m.late) then e.msg :: m :: r else m :: comeIn e r

/-- An entry arrives at a device: at its destination it goes to the part it names, elsewhere to the next link (R423). -/
def State.delivered (s : State) (dev : Nat) (e : LinkEntry) : State :=
  if e.toKey = dev then { s with net := comeIn e s.net } else s.enqLink dev e

/-- The sender of an offer learns that its retries have run out (R327). -/
def State.droppedFor (s : State) (dev c p gen : Nat) : State :=
  s.post (dev * 1024 + 768) (offerFrom c p gen) none (.ack c p gen stDropped)

/-- What a port that gives up an undelivered entry makes of it (R327, R426): a lost-entry notice in the place of a buffered
item; for a rendezvous the sender completes DROPPED, and a receive whose tile is lost waits again. -/
def State.giveUp (s : State) (l : Nat) (e : LinkEntry) : State :=
  let dev := l / 16
  let s := s.countLink dev (l % 16) 0
  let notice (c seq : Nat) : State :=
    let m : Msg := { src := e.msg.src, dst := e.msg.dst, own := none, body := .offer c (.lost seq) }
    s.setEntry l { e with msg := m, item := false, tries := 0, sentAt := none, left := flitsOf s m }
  match e.msg.body with
  | .item c i => notice c i.seq
  | .tileLanded c p g none i => if g = 0 then notice c i.seq else (notice c i.seq).tellCopied p g c (dev * 1024 + 768)
  | .offer c (.offer _ p g) | .offer c (.tileOffer p g _) => (s.unlink l e).droppedFor dev c p g
  | .tileLanded c p g (some r) _ =>
    (((s.unlink l e).modChan c fun x => { x with copying := false }).toWait r.p r.gen c).post (agentChan c) (agentChan c) none (.recv c r)
      |>.droppedFor dev c p g
  | _ => s

/-- What corrupts a flit, or keeps it unacknowledged, has it sent again (R426): after 16 sends an item is given up, and any
other entry goes on and is counted each time. -/
def State.resend (s : State) (l : Nat) (e : LinkEntry) : State :=
  if e.item && decide (15 ≤ e.tries) then s.giveUp l e
  else
    let s := (s.setEntry l { e with tries := e.tries + 1, sentAt := some s.timeb }).countLink (l / 16) (l % 16) 1
    if 15 ≤ e.tries then s.countLink (l / 16) (l % 16) 2 else s

/-- A flit of an entry arrives (R425): with the last one the entry does, and waits for its acknowledgement (R426). -/
def State.flitIn (s : State) (l dev : Nat) (e : LinkEntry) : State :=
  let f := { e with left := e.left - 1, tries := 0, sentAt := some s.timeb }
  if f.left ≠ 0 then s.setEntry l f
  else
    let s := s.unlink l e
    let x := s.link l
    (s.setLink l { x with replay := x.replay ++ [f] }).delivered dev e

/-- Whether an entry is a lost-entry notice. -/
def LinkEntry.isNotice (e : LinkEntry) : Bool :=
  match e.msg.body with
  | .offer _ (.lost _) => true
  | _ => false

/-- FLIT_ARRIVAL (R426): at a port the acknowledgement of the oldest entry it keeps arrives, right or corrupt; where none is on
its way, the next flit that its peer sends does, with its CRC right or not, and the tag of a sealed entry that has reached
the device of its other end (R429). A corrupt flit is sent again. -/
def execFlitArrival (dev port : Nat) (crcOk tagOk : Bool) (s : State) : Out :=
  let own := dev * 16 + port
  let x := s.link own
  match x.peer with
  | none => .next s
  | some (pd, pp) =>
    let l := pd * 16 + pp
    if !x.up || !(s.link l).up then .next s
    else
      let flit : Out :=
        match nextEntry s l with
        | none => .next s
        | some e =>
          let badTag := crcOk && !tagOk && decide (e.left ≤ 1) && e.toKey == dev && isSealed s e.msg
          if !crcOk || badTag then .next ((if badTag then s.countLink dev port 5 else s).resend l e)
          else .next (s.flitIn l dev e)
      match x.replay with
      | r :: rest =>
        if r.ackLost then flit
        else .next (s.setLink own { x with replay := if crcOk then rest else { r with ackLost := true } :: rest })
      | [] => flit

/-- Whether a process still waits for the acknowledgement of an offer that a port has kept. -/
def stillOffers (s : State) (c p gen : Nat) (e : LinkEntry) : Bool :=
  match (s.byOwn p gen).bind (·.wait) with
  | some { kind := .offer x _, since := t, .. } => x == c && decide (t * 5 / 9 ≤ e.queuedAt)
  | _ => false

/-- An entry whose sender has completed: the item may still be received, a tile not (R327). -/
def Entry.disowned (e : Entry) (p gen : Nat) : List Entry :=
  match e with
  | .offer i q g => if q = p ∧ g = gen then [.offer i 0 0] else [e]
  | .tileOffer q g _ => if q = p ∧ g = gen then [] else [e]
  | .item _ | .marker | .token | .lost _ | .close => [e]

/-- A message of a channel whose sender has completed: none where it would answer it. -/
def Msg.disowned (m : Msg) (c p gen : Nat) : Option Msg :=
  match m.body with
  | .offer d e => if d = c then (e.disowned p gen).head?.map fun f => { m with body := .offer d f } else some m
  | .ack d q g _ => if d = c ∧ q = p ∧ g = gen then none else some m
  | .tileGo d q g r => if d = c ∧ q = p ∧ g = gen then some { m with body := .tileGo d 0 0 r } else some m
  | _ => some m

/-- The sender of a delivered offer has completed DROPPED: what its record makes of the offer answers it no more (R327). -/
def State.disown (s : State) (c p gen : Nat) : State :=
  let go (l : List LinkEntry) : List LinkEntry := l.filterMap fun (e : LinkEntry) => (e.msg.disowned c p gen).map fun m => { e with msg := m }
  let s := { s with
    net := s.net.filterMap fun (m : Msg) => m.disowned c p gen
    links := s.links.map fun (l : Nat × Link) => (l.1, { l.2 with queue := go l.2.queue, replay := go l.2.replay })
    hostEps := s.hostEps.map fun (e : Nat × HostEp) =>
      if e.2.chan = some c then
        (e.1, { e.2 with pend := e.2.pend.flatMap fun (o : Entry) => o.disowned p gen
                         acks := e.2.acks.filter fun a => !(a.1 == p && a.2.1 == gen) })
      else e }
  s.modChan c fun x => { x with q := x.q.flatMap fun (o : Entry) => o.disowned p gen, held := x.held.flatMap fun (o : Entry) => o.disowned p gen }

/-- An entry that has arrived, and whose acknowledgement does not come, is given up (R327, R426): the item may have been
delivered. -/
def State.giveUpKept (s : State) (l : Nat) (e : LinkEntry) : State :=
  let x := s.link l
  let s := (s.setLink l { x with replay := x.replay.drop 1 }).countLink (l / 16) (l % 16) 0
  match e.msg.body with
  | .offer c (.offer _ p g) | .offer c (.tileOffer p g _) =>
    if stillOffers s c p g e then (s.disown c p g).droppedFor (l / 16) c p g else s
  | _ => s

/-- FLIT_ACK_TIMEOUT (R426): no acknowledgement of the oldest entry that a port keeps, or of the flit it sends, within
2 µs. -/
def execFlitAckTimeout (dev port : Nat) (s : State) : Out :=
  let l := dev * 16 + port
  let x := s.link l
  let late (e : LinkEntry) : Bool := x.up && decide (e.sentAt.getD e.queuedAt + 2000 ≤ s.timeb)
  match x.replay with
  | e :: rest =>
    if !late e then .next s
    else if e.item && decide (15 ≤ e.tries) then .next (s.giveUpKept l e)
    else
      let f := { e with tries := e.tries + 1, sentAt := some s.timeb, ackLost := false }
      let s := (s.setLink l { x with replay := f :: rest }).countLink dev port 1
      .next (if 15 ≤ e.tries then s.countLink dev port 2 else s)
  | [] =>
    match nextEntry s l with
    | none => .next s
    | some e => if late e then .next (s.resend l e) else .next s

/-- LOST_ENTRY (R327): the receiving port finds the gap and places a lost entry in the item's place, behind what came
before it on the channel. -/
def execLostEntry (dev port : Nat) (s : State) : Out :=
  match (s.link (dev * 16 + port)).peer with
  | none => .next s
  | some (pd, pp) =>
    let l := pd * 16 + pp
    if !(s.link (dev * 16 + port)).up || !(s.link l).up then .next s
    else
      match (s.link l).queue.find? fun e => e.isNotice && !onLinks s e.msg.src e.msg.dst (e.id - 1) with
      | none => .next s
      | some e => .next ((s.unlink l e).delivered dev e)

/-- The next narrower width (R427). -/
def narrower (lanes : Nat) : Option Nat :=
  if lanes = 8 then some 6 else if lanes = 6 then some 4 else if lanes = 4 then some 2 else none

/-- LANE_SPARE (R427): what is in flight is replayed, and no retry counts. -/
def execLaneSpare (dev port : Nat) (s : State) : Out :=
  let l := dev * 16 + port
  match narrower (s.link l).lanes with
  | none => .next s
  | some n => .next ((s.setLink l { s.link l with lanes := n }).countLink dev port 3)

/-- LANE_RETRAIN (R427). -/
def execLaneRetrain (dev port : Nat) (s : State) : Out := .next (s.countLink dev port 4)

/-- PORT_DOWN (R428, R444). -/
def execPortDown (dev port : Nat) (s : State) : Out := .next (s.linkDown dev port)

/-- LINK_PORT_UP (R428, R444); a port out of service comes up only as it is returned (R455). -/
def execLinkPortUp (dev port : Nat) (s : State) : Out :=
  if inService s dev 5 port then .next (s.linkUp dev port) else .next s

/-- Whether no port of the route of an entry is usable, and none has been for 10 ms (R428). -/
def pathGone (s : State) (dev to_ : Nat) : Bool :=
  let ports := (routePorts s dev to_).map fun i => s.link (dev * 16 + i)
  ports.all (fun x => !x.up) && decide ((ports.foldl (fun t x => max t x.downAt) 0) + 10000000 ≤ s.timeb)

/-- PATH_GIVE_UP (R428): an item whose path has had no usable port for 10 ms. -/
def execPathGiveUp (dev port : Nat) (s : State) : Out :=
  let l := dev * 16 + port
  match (s.link l).queue.find? fun e => e.item && pathGone s dev e.toKey with
  | none => .next s
  | some e => .next (s.giveUp l e)

/-! ### Collective units -/

def State.setColl (s : State) (b : Nat) (x : Coll) : State := { s with colls := mset s.colls b x }

/-- The channel of a role, with its number. -/
def Coll.at_ (s : State) (b : Coll) (role : Nat) : Option (Nat × Chan) :=
  (mget b.roles role).bind fun c => (mget s.chans c).map fun x => (c, x)

/-- The roles a configuration needs (R430). -/
def Coll.inputs (b : Coll) : List Nat := if b.fanout || b.head then [0] else [0, 1]
def Coll.outputs (b : Coll) : List Nat := if b.fanout then (List.range b.nout).map (· + 2) else [2]

/-- The bytes of an item: its words, or the tile in its staging slot of the unit's own SRAM (R432). -/
def itemBytes (s : State) (x : Chan) (i : Item) : List Byte :=
  if x.typ = .tile then stageOf s x i.seq else unpackWords i.words

/-- Sends an entry on an output: an item or a lost entry takes a credit and the next number (R325). -/
def State.collSend (s : State) (c : Nat) (x : Chan) (e : Entry) (bs : List Byte) : State :=
  let next (s : State) : State := s.setChan c { x with credit := x.credit - 1, nexts := (x.nexts + 1) % 2 ^ 32 }
  match e with
  | .item i =>
    let out : Item := { words := packWords bs, nan1 := i.nan1, seq := x.nexts }
    (next s).post (agentSend c) (agentChan c) none (if x.typ = .tile then .tileLanded c 0 0 none out else .item c out)
  | .lost _ => (next s).post (agentSend c) (agentChan c) none (.offer c (.lost x.nexts))
  | .marker => s.post (agentSend c) (agentChan c) none (.marker c)
  | .token => s.poisonSend c
  | .close => s.closeSend c
  | .offer _ _ _ | .tileOffer _ _ _ => s

/-- Consumes the head of an input, returning its slot token where it held a slot (R325). -/
def State.consume (s : State) (c : Nat) : State :=
  match mget s.chans c with
  | none => s
  | some x =>
    match x.q with
    | [] => s
    | e :: q =>
      match e with
      | .item _ | .lost _ => (s.setChan c { x with q := q, nextr := x.nextr + 1 }).token c x
      | .marker | .token | .close | .offer _ _ _ | .tileOffer _ _ _ => s.setChan c { x with q := q }

/-- A binding stops: its ends close, and its entry keeps its configuration (R433, log 34). -/
def State.collStop (s : State) (b : Nat) (x : Coll) : State :=
  let s := x.outputs.foldl (fun s r => match mget x.roles r with | none => s | some c => s.closeSend c) s
  let s := x.inputs.foldl (fun s r => match mget x.roles r with | none => s | some c => s.closeRecv c) s
  s.setColl b { x with roles := [], stopped := true, discard := none }

/-- The sum of two items, element by element, rounded once (R433, R434). -/
def collSum (t : Ty) (ls ns : List Byte) : List Byte :=
  let e := t.bytes
  ((List.range (ls.length / e)).map fun i =>
    leBytes e (elAdd t rneMode (leNat ((ls.drop (i * e)).take e)) (leNat ((ns.drop (i * e)).take e)))).flatten

/-- Whether an entry is an item, an error token, a lost entry, a marker, the close. -/
def Entry.isItem (e : Entry) : Bool := match e with | .item _ => true | _ => false
def Entry.isLost (e : Entry) : Bool := match e with | .lost _ => true | _ => false

/-- Discards the items of the input that goes on alone, until it closes (R433). -/
def State.collDiscard (s : State) (b : Nat) (x : Coll) (role : Nat) : State :=
  match x.at_ s role with
  | none => s
  | some (c, y) =>
    match y.q with
    | [] => s
    | .close :: _ => s.collStop b x
    | e :: _ => (if e.isItem then s.countLink (b / 512) (b / 32 % 16) 6 else s).consume c

/-- The step of a reduce binding with the heads of its inputs and its output. -/
def State.collReduce (s : State) (b : Nat) (x : Coll) (l : Nat × Chan) (n : Option (Nat × Chan)) (o : Nat × Chan) (hl : Entry)
    (hn : Option Entry) : State :=
  let both (s : State) : State := match n with
    | none => s.consume l.1
    | some n => (s.consume l.1).consume n.1
  let any (p : Entry → Bool) : Bool := p hl || hn.any p
  if any (· == .token) then (s.collSend o.1 o.2 .token []).collStop b x
  else if any (·.isLost) then both (s.collSend o.1 o.2 (.lost 0) [])
  else if any (· == .close) then
    let other : Option Nat := match hl, hn with
      | .item _, some .close => some 0
      | .close, some (.item _) => some 1
      | _, _ => none
    match other with
    | some r => s.setColl b { x with discard := some r }
    | none => s.collStop b x
  else
    match hl, hn with
    | .marker, none | .marker, some .marker => both (s.collSend o.1 o.2 .marker [])
    | .item i, none => both (s.collSend o.1 o.2 (.item i) (itemBytes s l.2 i))
    | .item i, some (.item j) =>
      (match n with
       | none => s
       | some n => both (s.collSend o.1 o.2 (.item i) (collSum x.ety (itemBytes s l.2 i) (itemBytes s n.2 j))))
    | _, _ => s

/-- REDUCE_STEP (R433): waits until every input has an entry and OUT has a credit. -/
def execReduceStep (binding : Nat) (s : State) : Out :=
  match mget s.colls binding with
  | none => .next s
  | some x =>
    if x.fanout || x.stopped then .next s
    else
      match x.discard with
      | some r => .next (s.collDiscard binding x r)
      | none =>
        match x.at_ s 0, x.at_ s 2 with
        | some l, some o =>
          if o.2.credit = 0 then .next s
          else
            match l.2.q, x.head with
            | hl :: _, true => .next (s.collReduce binding x l none o hl none)
            | hl :: _, false =>
              (match x.at_ s 1 with
               | none => .next s
               | some n =>
                 match n.2.q with
                 | [] => .next s
                 | hn :: _ => .next (s.collReduce binding x l (some n) o hl (some hn)))
            | [], _ => .next s
        | _, _ => .next s

/-- FANOUT_STEP (R433): a copy of the entry at IN's head on every output, when each has a credit. -/
def execFanoutStep (binding : Nat) (s : State) : Out :=
  match mget s.colls binding with
  | none => .next s
  | some x =>
    let outs := x.outputs.map fun r => x.at_ s r
    if !x.fanout || x.stopped || outs.any (fun o => match o with | none => true | some o => o.2.credit == 0) then .next s
    else
      match x.at_ s 0 with
      | none => .next s
      | some (c, y) =>
        match y.q with
        | [] => .next s
        | .close :: _ => .next (s.collStop binding x)
        | e :: _ =>
          let bs := match e with | .item i => itemBytes s y i | _ => []
          .next ((outs.foldl (fun s o => match o with | none => s | some o => s.collSend o.1 o.2 e bs) s).consume c)

/-- A configuration word (R431), if its fields are right. -/
def collConfig (asid : Nat) (w : Word) : Option Coll :=
  let ety := if field w 4 4 = 2 then some Ty.i32 else if field w 4 4 = 11 then some .bf16
    else if field w 4 4 = 12 then some .fp32 else none
  let fan := w.getLsbD 0
  match ety with
  | none => none
  | some t =>
    if field w 8 56 ≠ 0 ∨ (fan = true ∧ w.getLsbD 1 = true) ∨ (fan = false ∧ field w 2 2 ≠ 0) then none
    else
      some { asid := asid, fanout := fan, head := w.getLsbD 1, nout := if fan then field w 2 2 + 1 else 1, ety := t, roles := [],
             stopped := false, discard := none }

/-- COLLECTIVE_CONFIGURE (R431). -/
def execCollectiveConfigure (n : Nat) (s : State) : Out :=
  s.supervisor n 0x0301 fun s pl v p =>
    match bindingKey (v.arg 2), collConfig p.asid (v.arg 3) with
    | some b, some x =>
      if b / 512 ≠ devOf pl then s.reply pl v stBadType 0
      else if (mget s.colls b).isSome then s.reply pl v stFull 0
      else (s.setColl b x).reply pl v stOk 0
    | _, _ => s.reply pl v stBadType 0

/-- COLLECTIVE_RELEASE (R431). -/
def execCollectiveRelease (n : Nat) (s : State) : Out :=
  s.supervisor n 0x0302 fun s pl v p =>
    match (bindingKey (v.arg 2)).bind fun b => (mget s.colls b).map fun x => (b, x) with
    | none => s.reply pl v stBadType 0
    | some (b, x) =>
      if b / 512 ≠ devOf pl ∨ x.asid ≠ p.asid ∨ x.roles ≠ [] ∨ v.arg 3 ≠ 0 then s.reply pl v stBadType 0
      else ({ s with colls := mdel s.colls b } : State).reply pl v stOk 0

end Sys2Proof.Machine
end

