-- ==== Sys2Proof/Machine/Matrix.lean ====
section
/-! DEFINITION. The matrix unit of a shed (R223 to R231): the arbiter, the K-step and its retirement, DRAIN, and
the requests at the heads of its queues. -/

namespace Sys2Proof.Machine

/-- The queue of a core index in a shed. -/
def Shed.queue (x : Shed) (c : Nat) : List QEntry := (x.queues[c]?).getD []
def Shed.pop (x : Shed) (c : Nat) : Shed := { x with queues := x.queues.setIfInBounds c ((x.queue c).drop 1) }
def Shed.slot (x : Shed) (i : Nat) : AccSlot := (x.slots[i]?).getD AccSlot.reset
def Shed.setSlot (x : Shed) (i : Nat) (a : AccSlot) : Shed := { x with slots := x.slots.setIfInBounds i a }

/-- Where the head of a queue stands (R225): not ready, ready for a K-step, ready to be performed, or bound to
finish at once with a code. -/
inductive Head where
  | idle
  | kstep (node : Nat)
  | perform
  | fails (code : Nat)
  deriving DecidableEq, Repr

/-- The two rings of a CMU node, with their places (R227). -/
def ringsOf (s : State) (pl : Nat) (n : Node) : Option ((Nat × Nat × Ring) × (Nat × Nat × Ring)) :=
  let f (lo : Nat) : Option (Nat × Nat × Ring) :=
    let ref := field n.cmd lo 5
    (s.ring (ringPlace pl ref) (ringNo ref)).map fun r => (ringPlace pl ref, ringNo ref, r)
  match f 12, f 17 with
  | some a, some b => some (a, b)
  | _, _ => none

/-- A ring has a visible entry (R212). -/
def Ring.visible (r : Ring) : Bool := r.head != r.ptail

/-- The head of queue `c` (R225). -/
def headOf (s : State) (sh c : Nat) : Head :=
  let pl := shedPlace sh c
  match (s.shed sh).queue c with
  | [] => .idle
  | .mstat _ _ _ _ _ :: _ => .perform
  | .mzero _ _ _ _ :: _ => .perform
  | .node i :: _ =>
    match s.node pl i with
    | none => .fails stOk
    | some n =>
      if ((s.shed sh).slot (field n.cmd 0 3)).tag ≠ some n.asid then .fails stBadType
      else
        match n.kind with
        | .drain =>
          match mget s.chans n.chan with
          | none => .fails stClosed
          | some x =>
            if x.rclosed then .fails stClosed
            else
              match x.win with
              | .none | .withdrawn => .idle
              | .opened _ _ => .perform
        | .cmu | .copy | .search | .bred =>
          match n.reset, ringsOf s pl n with
          | true, _ => .fails stClosed
          | false, none => .fails stClosed
          | false, some (a, b) =>
            if a.2.2.asid ≠ n.asid ∨ b.2.2.asid ≠ n.asid then .fails stBadType
            else if a.2.2.visible && b.2.2.visible then .kstep i
            else .idle

/-- A 16-bit counter that stops (R76). -/
def satAdd (x n : Nat) : Nat := min (x + n) 0xFFFF

/-- The rows of an entry (R206): row `i` at byte 64 i. -/
def entryRows (s : State) (r : Ring) : List (BitVec 512) :=
  match mget s.procs r.owner with
  | none => List.replicate 128 0
  | some o =>
    (List.range 128).map fun i =>
      BitVec.ofNat 512 (leNat (spadBytes s r.owner o ((r.base + r.slot r.head) * 8192 + 64 * i) 64))

/-- A type of R227 by its code. -/
def kTy (c : Nat) : Ty := (searchTy c).getD (if c = 10 then .fp16 else .fp32)

/-- The products of a pair of rows (R228). -/
def kProducts (aty bty : Nat) (nan1 : Bool) (a b : BitVec 512) : List FVal :=
  if aty = 14 then [blockPair nan1 a b]
  else List.zipWith FVal.mul (rowVals (kTy aty) nan1 a) (rowVals (kTy bty) nan1 b)

/-- One element of the accumulator after a step: its bits, and what OVF and NAN count (R73, R76). -/
def kElement (aty bty : Nat) (nan1 : Bool) (acc : BitVec 32) (a b : BitVec 512) : BitVec 32 × Nat × Nat :=
  let ps := kProducts aty bty nan1 a b
  let old := tyReadF .fp32 false acc.toNat
  let bits := tyWriteF .fp32 rneMode (exactGroup old ps)
  let new := tyReadF .fp32 false bits
  (BitVec.ofNat 32 bits,
    if !old.isNan && !old.isInf && new.isInf && !(ps.any FVal.isInf) then 1 else 0,
    if !old.isNan && new.isNan then 1 else 0)

/-- A K-step on a slot (R228): `poison` counts the poisoned entries; where one of the two is poisoned both read as zeros,
and then no block of the other counts as an undescribed block read (log 89). -/
def kAccumulate (w : Word) (nan1 : Bool) (x : AccSlot) (as bs : List (BitVec 512)) (poison : Nat) : AccSlot × Nat :=
  let aty := field w 4 4
  let bty := field w 8 4
  let as := if poison = 0 then as else List.replicate 128 0
  let bs := if poison = 0 then bs else List.replicate 128 0
  let undesc := if aty = 14 ∧ poison = 0 then ((as ++ bs).filter fun r => (blockN r).isNone).length else 0
  let els := (List.range 128).flatMap fun i => (List.range 128).map fun j =>
    (128 * i + j, kElement aty bty nan1 ((mget x.acc (128 * i + j)).getD 0) (as.getD i 0) (bs.getD j 0))
  ({ x with
      acc := (els.filter fun e => e.2.1 != 0).map fun e => (e.1, e.2.1)
      ovf := satAdd x.ovf (els.foldl (fun n e => n + e.2.2.1) 0)
      nan := satAdd x.nan (els.foldl (fun n e => n + e.2.2.2) 0)
      pois := satAdd x.pois (poison + undesc) }, poison + undesc)

/-- Grants a K-step to the CMU node at the head of queue `c` (R226, R228). -/
def State.grantStep (s : State) (sh c i : Nat) : State :=
  let pl := shedPlace sh c
  match s.node pl i with
  | none => s
  | some n =>
    match ringsOf s pl n with
    | none => s
    | some ((pa, ia, a), (pb, ib, b)) =>
      let s := (s.spadSeen (placeOf a.owner)).spadSeen (placeOf b.owner)
      let poison := (if a.poisoned.getLsbD (a.slot a.head) then 1 else 0) + (if b.poisoned.getLsbD (b.slot b.head) then 1 else 0)
      let x := s.shed sh
      let i8 := field n.cmd 0 3
      let (slot, dropped) := kAccumulate n.cmd (NumMode.ofWord n.numctl).nan1 (x.slot i8) (entryRows s a) (entryRows s b) poison
      (((s.setShed sh { x.setSlot i8 slot with busy := some (c, i) }).setNode pl i
        { n with drop := n.drop || dropped != 0 }).setRing pa ia { a with taken := true }).setRing pb ib { b with taken := true }

/-- Pops the entry that a retiring step has read (R212), and serves the RRES that wait. -/
def State.popEntry (s : State) (pl i : Nat) : State :=
  match s.ring pl i with
  | none => s
  | some r => if r.taken then (s.setRing pl i { r with taken := false, head := r.head + 1 }).serveRing pl i 64 else s

/-- Answers a request of a process at the head of a queue (R232). -/
def State.matrixAnswer (s : State) (sh k : Nat) (f : Fill) : State := s.post (agentPart sh) (placeOf k) none (.fill f)

/-- The types a DRAIN may write (R231). -/
def drainTy (c : Nat) : Ty := kTy c

/-- The counters of one drained element (R76): OVF, SAT. -/
def drainCounts (t : Ty) (md : NumMode) (bits : Nat) : Nat × Nat :=
  let x := tyReadF .fp32 false bits
  let f := Fmt.of t md.nan1
  let exceeds := f.overflows md.rm x
  if t == .fp32 then (0, 0)
  else if f.fp8 then
    if md.sat8 then (0, if exceeds then 1 else 0) else (if exceeds && !x.isInf then 1 else 0, 0)
  else
    let res := f.read (f.write md x)
    (if exceeds && !x.isInf && res.isInf then 1 else 0, 0)

/-- DRAIN (R231): converts the rows into the window and writes the stamp. The counters and CLEAR follow the window's
size test. -/
def State.drain (s : State) (sh c i : Nat) (n : Node) : State :=
  let pl := shedPlace sh c
  let w := n.cmd
  let t := drainTy (field w 4 4)
  let md := NumMode.ofWord n.numctl
  let row0 := field w 16 7
  let rows := drainRows w
  let len := rows * 128 * t.bytes
  let doff := field w 32 20
  let need := doff + len + 8
  let x := s.shed sh
  let a := x.slot (field w 0 3)
  let idx := (List.range (rows * 128)).map fun j => row0 * 128 + j
  let els := idx.map fun j => ((mget a.acc j).getD 0).toNat
  let fits := match mget s.chans n.chan with
    | some { win := .opened _ size, .. } => decide (need ≤ size)
    | _ => false
  let counts := els.map (drainCounts t md)
  let a' : AccSlot :=
    { a with
      ovf := satAdd a.ovf (counts.foldl (fun m e => m + e.1) 0)
      sat := satAdd a.sat (counts.foldl (fun m e => m + e.2) 0)
      acc := if w.getLsbD 3 then a.acc.filter fun (e : Nat × BitVec 32) => !(decide (row0 * 128 ≤ e.1 ∧ e.1 < (row0 + rows) * 128)) else a.acc }
  let s := if fits then s.setShed sh (x.setSlot (field w 0 3) a') else s
  s.landPush
    { chan := n.chan, off := doff, bytes := (els.map fun e => leBytes t.bytes (convert .fp32 t md false e)).flatten, need := need
      stamp := n.stamp.map fun v => (v, doff + len), halo := none, node := some (pl, nodeId i n.gen), waiter := none }

/-- Performs the head of queue `c` that needs no K-step (R231, R232). That an MSTAT or MZERO whose process has ended leaves the
queue without an effect is the model's choice: the spec does not say (log 105). -/
def State.performHead (s : State) (sh c : Nat) : State :=
  let x := s.shed sh
  let s := s.setShed sh (x.pop c)
  match x.queue c with
  | [] => s
  | .node i :: _ =>
    match s.node (shedPlace sh c) i with
    | none => s
    | some n => s.drain sh c i n
  | .mstat k gen a i clr :: _ =>
    match s.byOwn k gen with
    | none => s
    | some p =>
      let y := x.slot i
      if y.tag ≠ some p.asid then
        s.matrixAnswer sh k
          { (endFill k gen 0) with writes := [.keep (.g a)], ends := none, cause := some { code := 6, detail := 7, tval := BitVec.ofNat 64 i } }
      else
        let s := if clr then s.setShed sh ((x.pop c).setSlot i { y with ovf := 0, nan := 0, sat := 0, pois := 0 }) else s
        s.matrixAnswer sh k (endFill k gen (slotWord y))
  | .mzero k gen _ w :: _ =>
    match s.byOwn k gen with
    | none => s
    | some p =>
      let mask := (List.range 8).filter fun i => w.getLsbD i
      let both := w.getLsbD 8 && w.getLsbD 9
      let foreign (i : Nat) : Bool :=
        match (x.slot i).tag with
        | none => false
        | some t => t != p.asid
      if field w 10 54 ≠ 0 ∨ (!both && mask.any foreign) = true then s.matrixAnswer sh k (endFill k gen (BitVec.ofNat 64 stBadType))
      else
        let y := mask.foldl (fun (y : Shed) i =>
          let z := y.slot i
          let z := if w.getLsbD 8 then { z with acc := [] } else z
          let z := if w.getLsbD 9 then { z with ovf := 0, nan := 0, sat := 0, pois := 0 } else z
          y.setSlot i { z with tag := some p.asid }) (x.pop c)
        (s.setShed sh y).matrixAnswer sh k (endFill k gen 0)

/-- A head that is bound to fail finishes at once, without a step (R225); the stamp of a DRAIN is retired. -/
def State.failHead (s : State) (sh c code : Nat) : State :=
  let x := s.shed sh
  let pl := shedPlace sh c
  let s := s.setShed sh (x.pop c)
  match x.queue c with
  | .node i :: _ =>
    match s.node pl i with
    | none => s
    | some n =>
      let s := match n.stamp with
        | none => s
        | some v => s.retireStamp n.chan v
      s.tellNode (agentPart sh) pl i n.gen code n.drop
  | _ => s

/-- The arbiter of R225: the queue served next, with P and the credit as they then stand. -/
def arbiter (s : State) (sh : Nat) : Option (Nat × Head × Nat) :=
  let x := s.shed sh
  let ready (c : Nat) : Option (Nat × Head) :=
    match headOf s sh c with
    | .idle => none
    | h => some (c, h)
  match (if x.credit < (x.weights[x.ptr]?).getD 1 then ready x.ptr else none) with
  | some (c, h) => some (c, h, x.credit)
  | none => (((List.range 8).map fun i => (x.ptr + 1 + i) % 8).findSome? ready).map fun e => (e.1, e.2, 0)

/-- MATRIX_STEP_GRANT (R225, R226): at a step boundary the arbiter serves one head; with none to serve, a take-out
of the shed may be over (R455). -/
def execMatrixStepGrant (shed : Nat) (s : State) : Out :=
  if (s.shed shed).busy.isSome then .next s
  else
    match arbiter s shed with
    | none => .next (s.progress (shed / 128))
    | some (c, h, credit) =>
      let set (s : State) (used : Nat) : State := s.setShed shed { s.shed shed with ptr := c, credit := credit + used }
      match h with
      | .idle => .next s
      | .fails code => .next ((set s 0).failHead shed c code)
      | .perform => .next ((set s 1).performHead shed c)
      | .kstep i => .next ((set s 1).grantStep shed c i)

/-- KSTEP_RETIRE (R212, R228): pops both entries; after NSTEPS steps the node finishes. -/
def execKstepRetire (shed : Nat) (s : State) : Out :=
  match (s.shed shed).busy with
  | none => .next s
  | some (c, i) =>
    let pl := shedPlace shed c
    let s := s.setShed shed { s.shed shed with busy := none }
    match s.node pl i with
    | none => .next s
    | some n =>
      let pop (s : State) (lo : Nat) : State := s.popEntry (ringPlace pl (field n.cmd lo 5)) (ringNo (field n.cmd lo 5))
      let s := pop (pop s 12) 17
      let s := s.setNode pl i { n with steps := n.steps + 1 }
      if n.steps + 1 < field n.cmd 24 16 then .next s
      else .next ((s.setShed shed ((s.shed shed).pop c)).tellNode (agentPart shed) pl i n.gen stOk n.drop)

end Sys2Proof.Machine
end

