-- ==== Sys2Proof/Machine/StackBase.lean ====
section
/-! DEFINITION. The engines of the stack base (R370 to R384): search and reduction units, chains, the home memory
server and the row-remap tables. -/

namespace Sys2Proof.Machine

/-- The agents of the search and reduction units of a stack. -/
def searchAgent (unit : Nat) : Nat := agentPart (2 ^ 20 + unit)
def bredAgent (unit : Nat) : Nat := agentPart (2 ^ 21 + unit)

/-- The entries of a query (R266): all of them, or those in the shard, or the shard's FIRST node. -/
def queryEntries (q : QueryInfo) (shard : Nat) (whole : Bool) : List Nat :=
  if whole then q.entries
  else
    match q.entries.filter fun e => (shardOf q e).any fun x => x.1 == shard with
    | [] => [(q.shards.map (·.first)).getD shard 0]
    | l => l

/-- The first query of a unit leaves it. -/
def Stack.popQuery (b : Stack) : Stack := { b with queries := b.queries.drop 1, out := b.out.map (· - 1) }

/-- The memory that the query of a node sees, and which nodes are of its set (R264, R266). -/
def queryView (u : Query) (n : Node) : SearchView :=
  { pl := u.place, asid := n.asid, smode := n.smode, nan1 := (NumMode.ofWord n.numctl).nan1 }
def Query.has (u : Query) (q : QueryInfo) (v : Nat) : Bool := u.whole || (shardOf q v).any fun x => x.1 == u.shard

/-- The report of a query that has ended (R380): `qdrop` when its query vector held an undescribed block. -/
def Seek.report (z : Seek) (u : Query) (code fid : Nat) (qdrop : Bool) : Report :=
  { place := u.place, node := u.node, ngen := u.ngen, shard := u.shard, res := z.res, code := code, forgets := z.forgets
    badIds := z.badIds, visited := z.count, faultId := fid, drop := z.drop || qdrop }

/-- SEARCH_QUERY_START (R379): the first query that a unit holds starts, and goes on by one read of a record at a time
(R265, R268); when its search has ended it reports (R380). Of the interleavings R379 allows the model takes this one
(log 19). A read whose lines are not admitted at their homes waits (R373). -/
def execSearchQueryStart (unit : Nat) (s : State) : Out :=
  let b := s.base unit
  match b.queries with
  | [] => .next s
  | u :: rest =>
    if b.out = some 0 then .next s
    else
      match s.node u.place u.node with
      | none => .next (s.setBase unit b.popQuery)
      | some n =>
        match queryData n.data with
        | none => .next (s.setBase unit b.popQuery)
        | some q =>
          let vw := queryView u n
          let (qv, qdrop) := vectorEls q.ty vw.nan1 q.dim (n.data.drop 384)
          let z := u.run.getD (Seek.start (queryEntries q u.shard u.whole))
          match z.ending with
          | some (code, fid) =>
            .next ((s.setBase unit b.popQuery).post (searchAgent unit) u.place none (.report (z.report u code fid qdrop)))
          | none =>
            let (r, z) := z.next s vw q qv (u.has q)
            match s.gathered (searchAgent unit) u.place n.asid r with
            | .error ga => .next (s.readHeld ga 64)
            | .ok t => .next (t.setBase unit { b with queries := { u with run := some z } :: rest })

/-- A pair of a result list (R267). -/
def pairBytes (e : Option (Nat × Nat)) : List Byte :=
  match e with
  | none => leBytes 4 0x7F800000 ++ leBytes 4 0xFFFFFFFF
  | some (d, id) => leBytes 4 d ++ leBytes 4 id

/-- The merged result of the reports of a node (R266, R267): its code, its bytes and its DROP bit. -/
def mergeReports (q : QueryInfo) (rs : List Report) : Nat × List Byte × Bool :=
  let byShard := (List.range 12).filterMap fun i => rs.find? fun r => r.shard == i
  let res := byShard.foldl (fun l r => r.res.foldl (fun l x => keyInsert q.k l x) l) []
  let first := byShard.find? fun r => r.code != stOk
  let code := match first with | none => stOk | some r => r.code
  let badEntries := if q.isSharded then (q.entries.filter fun e => (shardOf q e).isNone).length else 0
  let sum (f : Report → Nat) : Nat := byShard.foldl (fun n r => n + f r) 0
  let high := match first with
    | some r => if r.code = stFault then r.faultId else satAdd (badEntries + sum (·.badIds)) 0 + 65536 * satAdd (sum (·.visited)) 0
    | none => satAdd (badEntries + sum (·.badIds)) 0 + 65536 * satAdd (sum (·.visited)) 0
  let word := code + 256 * res.length + 65536 * satAdd (sum (·.forgets)) 0 + 2 ^ 32 * high
  (code, ((List.range q.k).map fun i => pairBytes res[i]?).flatten ++ leBytes 8 word, byShard.any (·.drop))

/-- SHARD_REPORT (R380): the last report writes the window, and the node finishes after the stamp. -/
def execShardReport (n : Nat) (s : State) : Out :=
  match s.arriving n with
  | some { body := .report r, .. } =>
    let s := s.took n
    let key := mergeKey r.place r.node
    match mget s.merges key, s.node r.place r.node with
    | some m, some x =>
      if x.gen ≠ r.ngen then .next s
      else
        let rs := m.reports ++ [r]
        if 1 < m.left then .next { s with merges := mset s.merges key { left := m.left - 1, reports := rs } }
        else
          let s := { s with merges := mdel s.merges key }
          match queryData x.data with
          | none => .next s
          | some q =>
            let (code, bytes, drop) := mergeReports q rs
            let s := s.setNode r.place r.node { x with status := code, drop := x.drop || drop }
            .next (s.post (agentSend x.chan) (agentChan x.chan) none
              (.winPush { chan := x.chan, off := q.doff, bytes := bytes, need := q.doff + 8 * q.k + 16
                          stamp := x.stamp.map fun v => (v, q.doff + 8 * q.k + 8), halo := none
                          node := some (r.place, nodeId r.node r.ngen), waiter := none }))
    | _, _ => .next s
  | _ => .next s

/-- Chunks of a BRED, and the bytes of DEST that chunk `c` writes (R381). -/
def BredJob.chunks (j : BredJob) : Nat := (j.count * j.ty.bytes + 63) / 64
def BredJob.bytesOf (j : BredJob) (c : Nat) : Nat := min 64 (j.count * j.ty.bytes - 64 * c)

/-- An element of the result (R270): the tree of R74 over the sources in FP32, rounded once to BF16. -/
def bredElement (t : Ty) (xs : List Nat) : Nat :=
  let wide (x : Nat) : Nat := if t == .bf16 then x * 65536 else x
  let sum := (treeReduce (addF .fp32 rneMode) 3 (((List.range 8).map fun i => (xs[i]?).map wide))).getD 0
  if t == .bf16 then tyWriteF .bf16 rneMode (tyReadF .fp32 false sum) else sum

/-- The bytes of a chunk of the result. -/
def bredChunkBytes (j : BredJob) : List Byte :=
  let e := j.ty.bytes
  ((List.range (64 / e)).map fun i =>
    leBytes e (bredElement j.ty ((List.range j.nsrc).map fun src =>
      match j.got.find? fun g => g.1 == src with
      | none => 0
      | some g => bytesAt g.2 (i * e) e))).flatten.take (j.bytesOf j.chunk)

/-- Replaces the job of a node at a unit, or removes it. -/
def State.setJob (s : State) (unit pl i : Nat) (j : Option BredJob) : State :=
  let b := s.base unit
  let is (x : BredJob) : Bool := x.place == pl && x.node == i
  s.setBase unit
    { b with jobs := b.jobs.filterMap fun x => if is x then j else some x
             bredOut := b.bredOut.map fun n => if j.isNone && (b.jobs.take n).any is then n - 1 else n }

/-- Ends a BRED. -/
def State.endBred (s : State) (unit : Nat) (j : BredJob) (code : Nat) : State :=
  (s.setJob unit j.place j.node none).tellNode (bredAgent unit) j.place j.node j.ngen code j.drop

/-- A BRED goes on to `next` with an access sent to the home that serves its core (R343), or ends with FAULT; where a read of
the walk must wait, it tries again. -/
def State.bredAccess (s : State) (unit : Nat) (j : BredJob) (va : Word) (i : Nat) (wr : Option (List Byte)) (next : BredJob) : State :=
  match xlateFor s j.place j.asid j.smode va (if wr.isSome then .write else .read) with
  | (t, .wait) => t
  | (t, .fault _ _) => t.endBred unit j stFault
  | (t, .ok ga leaf) =>
    let e : Engine := .bred unit j.place j.node i
    (t.post (bredAgent unit) (agentHome (homeFor t j.place ga)) none (match wr with
      | none => .eread ga 64 (leafPois leaf) e
      | some bs => .ewrite ga bs (leafPois leaf) e)).setJob unit j.place j.node (some next)

/-- BRED_CHUNK (R270, R381): one of the four nodes that a unit runs goes on: it reads the chunk of its next source, in
ascending order, or writes the chunk, or after the last chunk the flag. -/
def execBredChunk (unit : Nat) (s : State) : Out :=
  let b := s.base unit
  match (b.jobs.take (min 4 (b.bredOut.getD 64))).find? fun j => j.writes == 0 && !j.asked with
  | none => .next s
  | some j =>
    let chunkVa (off : Int) : Word := j.dest + BitVec.ofInt 64 (64 * off) + BitVec.ofNat 64 (64 * j.chunk)
    if j.chunk < j.chunks then
      if j.got.length < j.nsrc then
        .next (s.bredAccess unit j (chunkVa (j.offs.getD j.got.length 0)) j.got.length none { j with asked := true })
      else .next (s.bredAccess unit j (chunkVa 0) 0 (some (bredChunkBytes j)) { j with got := [], writes := 1 })
    else .next (s.bredAccess unit j j.flag 1 (some (leBytes 8 j.fval.toNat)) { j with writes := 1 })

/-- The job of a node at a unit. -/
def jobOf (s : State) (unit pl i : Nat) : Option BredJob :=
  (s.base unit).jobs.find? fun j => j.place == pl && j.node == i

/-- PORT_EREAD (R370): an engine's read at its home. -/
def execPortEread (n : Nat) (s : State) : Out :=
  match s.arriving n with
  | some { body := .eread ga sz pois (.bred unit pl i src), .. } =>
    match s.charge ga sz with
    | none => .next (s.holdPort ga n)
    | some s =>
      let s := (s.took n).recall (ga / 64)
      match jobOf s unit pl i with
      | none => .next s
      | some j =>
        let bad := pois || s.bad ga
        let s := if bad then s.countHome ga 0 else s
        let data := if bad || sealedFrom s ga (some j.asid) then List.replicate sz 0 else memBytes s.mem ga sz
        .next (s.setJob unit pl i (some { j with got := j.got ++ [(src, data)], asked := false, drop := j.drop || bad }))
  | _ => .next s

/-- PORT_EWRITE (R370): an engine's write at its home; the flag of a BRED ends the node (R270). -/
def execPortEwrite (n : Nat) (s : State) : Out :=
  match s.arriving n with
  | some { body := .ewrite ga bs pois (.bred unit pl i which), .. } =>
    match s.charge ga bs.length with
    | none => .next (s.holdPort ga n)
    | some s =>
      let s := (s.took n).recall (ga / 64)
      let s := if pois || s.bad ga then s.countHome ga 1
        else if sealedFrom s ga ((jobOf s unit pl i).map (·.asid)) then s
        else ((s.putBytes ga bs).fillWords ga bs.length).wrote s ga bs.length
      match jobOf s unit pl i with
      | none => .next s
      | some j =>
        if which = 0 then .next (s.setJob unit pl i (some { j with chunk := j.chunk + 1, writes := 0 }))
        else .next (s.endBred unit j stOk)
  | _ => .next s

/-- The place whose walker serves a home (R372): the core of a port, the service core of a die's tier-2 server and host
traffic. -/
def portPlace (home : Nat) : Nat :=
  let h := home % 2048
  home / 2048 * 1024 + (if h < 768 then h else if h < 772 then h else if h < 776 then h - 4 else if h < 1024 then 0 else h - 1024)

/-- Where a chain packet goes on from a place: to the home of its next address, or where that has none to the home of the
place, which then returns the fault; none where a read of the walk must wait. -/
def chainHome (s : State) (pl : Nat) (c : ChainPkt) : State × Option Nat :=
  let here := agentHome (devOf pl * 2048 + coreOf pl)
  match c.steps with
  | [] => (s, some here)
  | (off, _) :: _ =>
    match xlateFor s pl c.asid c.smode (c.v + off) .read with
    | (t, .ok ga _) => (t, some (homeAgent ga))
    | (_, .fault _ _) => (s, some here)
    | (t, .wait) => (t, none)

/-- A chain packet as a message of its process. -/
def ChainPkt.own (c : ChainPkt) : Own := { p := c.p, gen := c.gen, acq := false, rel := false, asid := c.asid, smode := c.smode }

/-- CHAIN (R271 to R274). -/
def execChain (a b : BitVec 5) (s : State) : Out :=
  issue { srcs := [.g b], dsts := [.g a], touch := .release } (fun k p s =>
    let w := p.rg b
    s.withSpad k p false w
      (if field w 19 45 ≠ 0 then s.fin k (p.wg a 0)
       else
         let desc := field w 0 19 / 64 * 64
         let d := spadBytes s k p desc 160
         let n := bytesAt d 0x18 1
         let clean := bytesZero d 0x19 7 && (List.range n).all fun i => bytesZero d (0x24 + 16 * i) 4
         if n < 1 ∨ 8 < n ∨ clean = false then
           let s := (s.spadPut k p (desc + 8) (leBytes 8 stBadType)).spadPut k p (desc + 16) (leBytes 8 0)
           (s.fin k (p.wg a 0)).testMonS (placeOf k)
         else
           let steps := (List.range n).map fun i =>
             ((BitVec.ofNat 32 (bytesAt d (0x20 + 16 * i) 4)).signExtend 64, BitVec.ofNat 64 (bytesAt d (0x28 + 16 * i) 8))
           let c : ChainPkt :=
             { p := k, gen := p.gen, reg := a, asid := p.asid, smode := p.smode, desc := desc
               v := BitVec.ofNat 64 (bytesAt d 0 8), i := 0, n := n, steps := steps }
           match chainHome s (placeOf k) c with
           | (s, none) => s.stallOn k p .order none
           | (s, some h) => (s.post (placeOf k) h (some c.own) (.chain c)).fin k (p.eg a))) s

/-- The status of a chain that faults (R272). -/
def chainFault (c : ChainPkt) (kind : Nat) : Word := BitVec.ofNat 64 (stFault + 256 * c.i + 65536 * kind)

/-- PORT_CHAIN (R375): one step at a home, forwarded or returned. -/
def execPortChain (n : Nat) (s : State) : Out :=
  match s.arriving n with
  | some { dst := dst, body := .chain c, .. } =>
    let pl := portPlace (dst - agentHome 0)
    let back (s : State) (status faddr val : Word) : State := s.post dst (placeOf c.p) none (.chainBack c status faddr val)
    let u := s.took n
    match c.steps with
    | [] => .next (back u 0 0 c.v)
    | (off, mask) :: rest =>
      let x := c.v + off
      if x.toNat % 8 ≠ 0 then .next (back u (chainFault c 3) x 0)
      else
        match portXlate u (dst - agentHome 0) pl c.asid c.smode x .read with
        | (_, .wait) => .next (portXlate s (dst - agentHome 0) pl c.asid c.smode x .read).1
        | (t, .fault code _) => .next (back t (chainFault c (if code = 5 then 1 else 2)) x 0)
        | (t, .ok ga leaf) =>
          match rangeOf (gaPa ga), t.charge ga 8 with
          | .host, _ => .next (back t (chainFault c 2) x 0)
          | _, none => .next (s.holdPort ga n)
          | _, some t =>
            let t := t.recall (ga / 64)
            if leafPois leaf || t.bad ga then .next (back (t.countHome ga 0) (chainFault c 4) x 0)
            else
              let data : Word := if sealedFrom t ga (some c.asid) then 0 else BitVec.ofNat 64 (memNat t.mem ga 8)
              let v := data &&& mask
              if rest.isEmpty then .next (back t 0 0 v)
              else
                let c := { c with v := v, i := c.i + 1, steps := rest }
                match chainHome t pl c with
                | (_, none) => .next (chainHome s pl c).1
                | (t, some h) => .next (t.post dst h (some c.own) (.chain c))
  | _ => .next s

/-- CHAIN_RETURN (R376): STATUS and FADDR in the scratchpad, then the register; one for a process that has ended
is counted. -/
def execChainReturn (n : Nat) (s : State) : Out :=
  match s.arriving n with
  | some { dst := dst, body := .chainBack c status faddr val, .. } =>
    let s := s.took n
    match s.byOwn c.p c.gen with
    | none => .next (s.countCore dst 9)
    | some p =>
      let s := (s.spadPut c.p p (c.desc + 8) (leBytes 8 status.toNat)).spadPut c.p p (c.desc + 16) (leBytes 8 faddr.toNat)
      .next ((s.testMonS (placeOf c.p)).applyFill dst { (endFill c.p c.gen 0) with writes := [.g c.reg val], ends := none })
  | _ => .next s

/-- A request of a home memory server (R329). -/
structure PushReq where
  door : Nat
  va : Word
  len : Nat
  doff : Nat
  deriving DecidableEq, Repr

def pushReq (ws : List Word) : Option PushReq :=
  let w (i : Nat) : Word := ws.getD i 0
  let len := field (w 2) 0 32
  let doff := field (w 3) 0 32
  if field (w 0) 0 8 = 1 ∧ field (w 0) 14 50 = 0 ∧ (w 1).toNat % 8 = 0 ∧ len % 8 = 0 ∧ 8 ≤ len ∧ len ≤ 524288 ∧
      field (w 2) 32 32 = 0 ∧ doff % 8 = 0 ∧ field (w 3) 32 32 = 0 ∧ (ws.drop 4).all (· == 0) = true then
    some { door := field (w 0) 8 6, va := w 1, len := len, doff := doff }
  else none

/-- The window that a request names (R329): a window receive end of the requester whose send end the server
holds; none also where the window is too small. -/
def pushWindow (s : State) (place k : Nat) (r : PushReq) : Option Nat :=
  match (mget s.procs k).bind fun p => mget p.doors r.door with
  | none => none
  | some d =>
    match mget s.chans d.chan with
    | none => none
    | some x =>
      let fits := match x.win with
        | .opened _ size => decide (r.doff + r.len + 16 ≤ size)
        | .none | .withdrawn => true
      if !d.isSend && x.typ == .window && x.send == .server place && fits then some d.chan else none

/-- The agent of the memory server of a core. -/
def serverAgent (place : Nat) : Nat := agentPart (2 ^ 22 + place)

/-- A memory server, and its change. -/
def State.server (s : State) (place : Nat) : Server := (mget s.servers place).getD { queue := [], turn := 0 }
def State.setServer (s : State) (place : Nat) (x : Server) : State :=
  { s with servers := if x.queue.isEmpty then mdel s.servers place else mset s.servers place x }

/-- The server goes on while its queue holds a request. -/
def State.serveMore (s : State) (place : Nat) : State :=
  if (s.server place).queue.isEmpty then s
  else s.post (serverAgent place) (agentHome (devOf place * 2048 + coreOf place)) none (.serverPush place)

/-- A request enters the work queue (R378). -/
def State.takeRequest (s : State) (place k gen : Nat) (ws : List Word) : State :=
  let x := s.server place
  let t := s.setServer place { x with queue := x.queue ++ [{ p := k, gen := gen, words := ws, stamp := none }] }
  if x.queue.isEmpty then t.serveMore place else t

/-- When the first entry of a record came; an entry that is no request is handled before all requests. -/
def Chan.firstCame (x : Chan) : Nat :=
  match x.q with
  | .item i :: _ | .offer i _ _ :: _ => i.came
  | _ => 0

/-- The record whose first entry a server takes next (R378). -/
def firstRequest (s : State) (place : Nat) : Option (Nat × Chan) :=
  let mine := s.chans.filter fun (c : Nat × Chan) => c.2.recv == .server place && !c.2.q.isEmpty && !c.2.moving
  mine.foldl (fun (m : Option (Nat × Chan)) e =>
    match m with
    | none => some e
    | some y => if e.2.firstCame < y.2.firstCame then some e else m) none

/-- MEMORY_SERVER_REQUEST (R378): the server takes the request that came first into its work queue of 128, for the process
that sent it. One that no process sent names no window and is discarded (R329). -/
def execMemoryServerRequest (place : Nat) (s : State) : Out :=
  match firstRequest s place with
  | none => .next s
  | some (c, x) =>
    if 128 ≤ (s.server place).queue.length then .next s
    else
      let s := s.setChan c { x with q := x.q.drop 1, nextr := x.nextr + 1 }
      match x.q with
      | .item i :: _ =>
        let s := s.token c x
        match i.sender with
        | some (k, gen) => .next (s.takeRequest place k gen i.words)
        | none => .next (s.count (devOf place) 2 (coreOf place) 6 1)
      | .offer i k gen :: _ =>
        let s := s.post (agentChan c) (offerFrom c k gen) none (.ack c k gen stOk)
        .next (if gen = 0 then s.count (devOf place) 2 (coreOf place) 6 1 else s.takeRequest place k gen i.words)
      | .close :: _ => .next (s.closeRecv c)
      | .lost _ :: _ => .next (s.token c x)
      | _ => .next s

/-- The request a server serves next (R378): of the first requests of the requesters, in ascending order round the
cores. -/
def Server.pick (x : Server) : Option ServerReq :=
  let least (l : List ServerReq) : Option ServerReq :=
    l.foldl (fun (m : Option ServerReq) r =>
      match m with
      | none => some r
      | some y => if r.p < y.p then some r else m) none
  match least (x.queue.filter fun r => decide (x.turn ≤ r.p)) with
  | some r => some r
  | none => least x.queue

/-- Words [va, va + 8 n) as a port reads them for its server, with its own translations (R329, R372); none where a read of a
walk must wait. -/
def portWords (s : State) (home pl asid : Nat) (smode : Bool) (va : Word) : Nat → State × Option Gathered
  | 0 => (s, some Gathered.nothing)
  | n + 1 =>
    match portXlate s home pl asid smode va .read with
    | (s, .wait) => (s, none)
    | (s, .fault _ _) => (s, some { Gathered.nothing with fault := some va })
    | (s, .ok ga leaf) =>
      match portWords s home pl asid smode (va + 8) n with
      | (t, none) => (t, none)
      | (t, some r) =>
        let bad := leafPois leaf || s.bad ga
        let zero := bad || sealedFrom s ga (some asid)
        (t, some { r with
          bytes := (if zero then List.replicate 8 0 else readBytes s ga 8) ++ r.bytes
          bad := if bad then ga :: r.bad else r.bad
          lines := consNew (ga / 64) r.lines })

/-- A request starts (R329): it draws its stamp; a bad one is discarded and counted. -/
def State.startPush (s : State) (place : Nat) (r : ServerReq) : State :=
  let x := s.server place
  match s.byOwn r.p r.gen, (pushReq r.words).bind fun q => pushWindow s place r.p q with
  | some p, some c =>
    let (s, v) := s.drawStamp c
    s.setServer place
      { x with queue := x.queue.replace r { r with stamp := some v, chan := c, asid := p.asid, smode := p.smode } }
  | _, _ => (s.setServer place { x with queue := x.queue.erase r }).count (devOf place) 2 (coreOf place) 6 1

/-- The push of a request whose source has been read (R329): the words at and after a fault are 0. -/
def servedPush (r : ServerReq) (q : PushReq) (data : List Byte) (fault : Option Word) : Push :=
  let status := match fault with
    | none => stOk
    | some x => stFault + 2 ^ 32 * (x - q.va).toNat
  { chan := r.chan, off := q.doff, bytes := exactly q.len data ++ leBytes 8 status, need := q.doff + q.len + 16
    stamp := r.stamp.map fun v => (v, q.doff + q.len + 8), halo := none, node := none, waiter := none }

/-- The words of the next grain of 64 bytes of a request (R378), and the state after their reads; or the state in which one of
them waits at its home. -/
def grainOf (s : State) (place : Nat) (r : ServerReq) (q : PushReq) : Except State (State × Gathered) :=
  let n := min 8 ((q.len - r.data.length) / 8)
  match portWords s (devOf place * 2048 + coreOf place) place r.asid r.smode (q.va + BitVec.ofNat 64 r.data.length) n with
  | (t, none) => .error t
  | (t, some g) =>
    match t.gathered (serverAgent place) place r.asid g with
    | .error ga => .error (s.readHeld ga 64)
    | .ok t => .ok (t, g)

/-- A grain has been read (R378): after the last one the push is sent. -/
def State.serveGrain (s : State) (place : Nat) (r : ServerReq) (q : PushReq) (g : Gathered) : State :=
  let data := r.data ++ g.bytes
  let x := s.server place
  if g.fault.isNone && decide (data.length < q.len) then
    s.setServer place { queue := x.queue.replace r { r with data := data }, turn := r.p + 1 }
  else
    (s.setServer place { queue := x.queue.erase r, turn := r.p + 1 }).post (agentSend r.chan) (agentChan r.chan) none
      (.winPush (servedPush r q data g.fault))

/-- PORT_PUSH (R370, R378): the server of a port starts a request, or reads its next grain. -/
def execPortPush (n : Nat) (s : State) : Out :=
  match s.arriving n with
  | some { body := .serverPush place, .. } =>
    match (s.server place).pick with
    | none => .next (s.took n)
    | some r =>
      match r.stamp, pushReq r.words with
      | some _, some q =>
        match grainOf (s.took n) place r q, grainOf s place r q with
        | .ok (t, g), _ => .next ((t.serveGrain place r q g).serveMore place)
        | .error _, .error t => .next t
        | .error _, .ok _ => .next s
      | _, _ => .next (((s.took n).startPush place r).serveMore place)
  | _ => .next s

/-- REMAP_RELOAD (R383, R384): a segment is reloaded from its shadow; when that fails too, the pseudo-channel is
failed, and every parked request is served once as a poison read. -/
def execRemapReload (home seg : Nat) (shadowOk : Bool) (s : State) : Out :=
  if 16 ≤ seg ∨ 772 ≤ home % 2048 then .next s
  else
    let s := s.count (home / 2048) 2 (home % 2048) 5 1
    if shadowOk then
      .next (s.modHome home fun x =>
        { x with
          badSegs := sdel x.badSegs seg
          badCrc := sdel x.badCrc seg
          remap := (x.shadow.filter fun e => e.1 / 64 == seg).foldl (fun m e =>
            mset m e.1 { row := e.2.1, spare := e.2.2, wrong := 0 }) (x.remap.filter fun e => e.1 / 64 != seg) })
    else
      let s := s.failPort (home / 2048) (home % 2048)
      .next (s.serve home (fun _ => true) ((s.home home).parked.length + 1))

end Sys2Proof.Machine
end

