-- ==== Sys2Proof/Machine/System.lean ====
section
/-! DEFINITION. System instructions: major 0x2F (R33 to R54, R275 to R283), and what a word that is no
instruction does (R83). -/

namespace Sys2Proof.Machine

/-- The system registers of R34. -/
inductive SysReg where
  | pstat | numctl | epol | tmo | tvec | tcause | tval | tpc | tstat | asidr | prior | qnt | timeb | feretry | timecmp
  | swapsq | coreid | selfh | round | wdog
  deriving DecidableEq, Repr

/-- What a register number names (R33): a register, the machine range, or nothing. -/
inductive SysNum where
  | reg (r : SysReg)
  | machine
  | unlisted
  deriving DecidableEq, Repr

def sysNum (n : BitVec 12) : SysNum :=
  match n.toNat with
  | 0x000 => .reg .pstat
  | 0x001 => .reg .numctl
  | 0x002 => .reg .epol
  | 0x003 => .reg .tmo
  | 0x010 => .reg .tvec
  | 0x011 => .reg .tcause
  | 0x012 => .reg .tval
  | 0x013 => .reg .tpc
  | 0x014 => .reg .tstat
  | 0x020 => .reg .asidr
  | 0x021 => .reg .prior
  | 0x022 => .reg .qnt
  | 0x030 => .reg .timeb
  | 0x031 => .reg .feretry
  | 0x032 => .reg .timecmp
  | 0x040 => .reg .swapsq
  | 0x050 => .reg .coreid
  | 0x051 => .reg .selfh
  | 0x052 => .reg .round
  | 0x060 => .reg .wdog
  | x => if 0x800 ≤ x then .machine else .unlisted

/-- Whether MFS needs S mode (R34). -/
def SysReg.readS (r : SysReg) : Bool :=
  match r with
  | .tvec | .tcause | .tval | .tpc | .tstat => true
  | .pstat | .numctl | .epol | .tmo | .asidr | .prior | .qnt | .timeb | .feretry | .timecmp | .swapsq | .coreid | .selfh
  | .round | .wdog => false

/-- Who may write a register (R34). -/
inductive WriteBy where
  | user | super | machine | nobody
  deriving DecidableEq, Repr

def SysReg.writeBy (r : SysReg) : WriteBy :=
  match r with
  | .pstat | .numctl | .epol | .tmo | .timecmp | .swapsq => .user
  | .tvec | .tcause | .tval | .tpc | .tstat | .prior | .qnt | .feretry | .round | .wdog => .super
  | .asidr => .machine
  | .timeb | .coreid | .selfh => .nobody

/-- COREID (R51). -/
def coreIdWord (pl : Nat) : Word :=
  let c := coreOf pl
  let low := if 768 ≤ c then c + coreDie c * 2 ^ 32
    else c + coreX c * 2 ^ 16 + coreY c * 2 ^ 24 + coreDie c * 2 ^ 32 + c / 8 * 2 ^ 40 + c % 8 * 2 ^ 48
  BitVec.ofNat 64 (low + devOf pl * 2 ^ 52)

/-- PSTAT as it stands: EVPEND bit 24 follows the level of the timer (R49). -/
def pstatNow (s : State) (dev : Nat) (p : Proc) : Word := if timerLevel s dev p then setBit p.pstat 24 true else p.pstat

/-- The value MFS reads (R37 to R54). -/
def sysRead (s : State) (k : Nat) (p : Proc) (r : SysReg) : Word :=
  match r with
  | .pstat => pstatNow s (keyDev k) p
  | .numctl => p.numctl
  | .epol => p.epol
  | .tmo => p.tmo
  | .tvec => p.tvec
  | .tcause => p.tcause
  | .tval => p.tval
  | .tpc => p.tpc
  | .tstat => p.tstat
  | .asidr => BitVec.ofNat 64 (p.asid % 2 ^ 14 + (if (s.space p.asid).sealed then 2 ^ 15 else 0))
  | .prior => p.prior
  | .qnt => p.qnt
  | .timeb => BitVec.ofNat 64 (s.timebOf (keyDev k))
  | .feretry => p.feretry
  | .timecmp => p.timecmp
  | .swapsq => p.swapsq
  | .coreid => coreIdWord (placeOf k)
  | .selfh => selfHandle k p
  | .round => p.round
  | .wdog => (s.space p.asid).wdog

/-- PSTAT after a write (R37, R49): EVPEND is cleared by ones, EVMASK bit 18 only from S, and the timer level sets
its bit again. -/
def pstatWrite (s : State) (dev : Nat) (p : Proc) (x : Word) : Word :=
  let w := maskIn (if p.smode then 0x00070030 else 0x00030030) p.pstat x &&& ~~~(x &&& 0x07000000)
  if timerLevel s dev p then setBit w 24 true else w

/-- WDOG after a write (R54). -/
def wdogWrite (old x : Word) : Word :=
  let t (i : Nat) : Nat := field x (8 + 16 * i) 16
  if x.getLsbD 0 && !(decide (0 < t 0 ∧ t 0 < t 1 ∧ t 1 < t 2)) then old else x &&& 0x00FFFFFFFFFFFF01

/-- A running process after MTS to one of its registers (R37 to R53); its EFF follows PRIOR.BASE (R305). -/
def procWrite (s : State) (dev : Nat) (p : Proc) (r : SysReg) (x : Word) : Proc :=
  match r with
  | .pstat => { p with pstat := pstatWrite s dev p x }
  | .numctl => { p with numctl := x &&& 0xF }
  | .epol => { p with epol := x &&& 0xFFFFFFFFFF }
  | .tmo => { p with tmo := x }
  | .tvec => { p with tvec := x &&& ~~~3#64 }
  | .tcause => { p with tcause := x &&& 0xFFFF01FF }
  | .tval => { p with tval := x }
  | .tpc => { p with tpc := x &&& ~~~3#64 }
  | .tstat => { p with tstat := x &&& 0x707 }
  | .prior => (p.setBase (min (field x 0 4) 11)).setEff (min (field x 0 4) 11)
  | .qnt => { p with qnt := BitVec.ofNat 64 (max 1000 (field x 0 32)) }
  | .feretry => { p with feretry := x &&& 0xFF }
  | .timecmp => { p with timecmp := x, pstat := setBit p.pstat 24 (decide (x.toNat ≤ s.timebOf dev)) }
  | .swapsq => { p with swapsq := setField (x &&& 0x801F1F03) 8 5 (min 23 (field x 8 5)) }
  | .round => { p with round := x &&& 0xFFFFFFFF }
  | .asidr | .timeb | .coreid | .selfh | .wdog => p

/-- The word of MFS or MTS, as a trap reports it. -/
def sysWord (mts : Bool) (a : BitVec 5) (num : BitVec 12) : IWord :=
  encR 0x2F a (num.extractLsb' 7 5) (num.extractLsb' 2 5) ((if mts then 24#9 else 16#9) ++ num.extractLsb' 0 2)

/-- MFS (R278). -/
def execMfs (a : BitVec 5) (num : BitVec 12) (s : State) : Out :=
  let word := sysWord false a num
  match sysNum num with
  | .unlisted => run s fun k p => s.trap k p false 1 2 (word.setWidth 64)
  | .machine => run s fun k p => s.trap k p false 2 0 (word.setWidth 64)
  | .reg r =>
    issue { needS := r.readS, dsts := [.g a], word := word } (fun k p s => s.fin k (p.wg a (sysRead s k p r))) s

/-- MTS (R278). -/
def execMts (a : BitVec 5) (num : BitVec 12) (s : State) : Out :=
  let word := sysWord true a num
  match sysNum num with
  | .unlisted => run s fun k p => s.trap k p false 1 2 (word.setWidth 64)
  | .machine => run s fun k p => s.trap k p false 2 0 (word.setWidth 64)
  | .reg r =>
    match r.writeBy with
    | .machine => run s fun k p => s.trap k p false 2 0 (word.setWidth 64)
    | w =>
      issue { needS := w == .super, srcs := [.g a], word := word } (fun k p s =>
        let s := if r = .wdog then
            let x := s.space p.asid
            s.setSpace p.asid { x with wdog := wdogWrite x.wdog (p.rg a) }
          else s
        let t := s.fin k (procWrite s (keyDev k) p r (p.rg a))
        if r = .prior then t.settle (placeOf k) else if r = .wdog then t.watchSpace p.asid else t) s

/-- The codes of the requests of a supervisor (R287, R431, R453); any other is answered BADTYPE. -/
def serviceCode (x : Nat) : Bool :=
  decide (0x0101 ≤ x ∧ x ≤ 0x0105) || decide (0x0201 ≤ x ∧ x ≤ 0x0207) || x == 0x0301 || x == 0x0302 || x == 0x0401 || x == 0x0402

/-- ECALL (R276): a trap in U mode; in S mode a request to the service core that serves the die. -/
def execEcall (s : State) : Out :=
  match mget s.procs s.cur with
  | none => .fault .noProcess
  | some q =>
    let args : List (BitVec 5) := [1, 2, 3, 4, 5, 6, 7]
    if q.smode then
      issue { srcs := args.map .g } (fun k p s =>
        let pl := placeOf k
        let sc := devOf pl * 1024 + 768 + servingDie s (devOf pl) (coreDie (coreOf pl))
        let s := if serviceCode (p.rg 1).toNat then s.post pl sc none (.svc { p := k, gen := p.gen, args := args.map p.rg })
          else s.post sc pl none (.fill (svcFill k p.gen stBadType 0))
        s.waitIn k p .ecall 0 0 none) s
    else issue {} (fun k p s => s.trap k p false 0x12 0 0) s

/-- ERET (R277). -/
def execEret (s : State) : Out :=
  issue { needS := true, word := encR 0x2F 0 0 0 0x020 } (fun k p s => s.setProc k (returnFromTrap p)) s

/-- Whether a message is an access through a translation of a space on a device (R279). -/
def usesSpace (s : State) (m : Msg) (dev asid : Nat) : Bool :=
  match m.body with
  | .chain c => keyDev c.p == dev && c.asid == asid
  | .eread _ _ _ (.bred unit pl i _) => devOf pl == dev && (jobOf s unit pl i).any fun j => j.asid == asid
  | .ewrite _ _ _ (.bred unit pl i _) => devOf pl == dev && (jobOf s unit pl i).any fun j => j.asid == asid
  | .combine l => devOf m.src == dev && l.via.any fun x => x.1 == asid
  | _ =>
    match m.own with
    | none => false
    | some o => keyDev o.p == dev && o.asid == asid

/-- Whether accesses of a space are under way on a device: an invalidation completes when none is (R279). -/
def spaceBusy (s : State) (dev asid : Nat) : Bool := s.net.any fun m => usesSpace s m dev asid

/-- The read-only lines that the cores of a device have reached through the leaves of an invalidation go (R353). -/
def State.dropLines (s : State) (dev asid : Nat) (va : Option Word) : State :=
  { s with cores := s.cores.map fun (c : Nat × Core) => if devOf c.1 = dev then (c.1, c.2.dropLines asid va) else c }

/-- Whether an invalidation of a space, at an address or everywhere, removes a table pointer that the walk of an address may
follow. -/
def Pointer.goes (x : Pointer) (asid : Nat) (va : Option Word) : Bool :=
  x.asid == asid && (match va with | none => true | some a => x.upper == a.toNat / 2 ^ levelBits (x.level - 1))

/-- Removes translations from every TLB, walker cache and port cache of a device (R279, R348). The reduction lines that
were reached through them go toward their homes (R354). -/
def State.invalidate (s : State) (dev asid : Nat) (va : Option Word) : State :=
  let pls := (s.cores.filter fun (c : Nat × Core) => devOf c.1 == dev).map (·.1)
  let s := pls.foldl (fun s pl => s.combineIf pl fun l => l.via.any (viaOf asid va)) s
  { s with
    cores := s.cores.map fun (c : Nat × Core) => if devOf c.1 = dev then (c.1, c.2.dropTlb asid va) else c
    sheds := s.sheds.map fun (x : Nat × Shed) =>
      (x.1, { x.2 with pointers := x.2.pointers.filter fun q => !(q.dev == dev && q.goes asid va) })
    homes := s.homes.map fun (h : Nat × Home) =>
      if h.1 / 2048 = dev then
        (h.1, { h.2 with tlb := h.2.tlb.filter fun e => !viaOf asid va (e.asid, e.base, e.bits) })
      else h }

/-- What a TLBINV that waits completes with, once the accesses under way are performed (R279, R347). -/
def invFill (k : Nat) (p : Proc) (va : Option Word) : Fill := { (endFill k p.gen 0) with inv := some (p.asid, va) }

/-- TLBINV (R279): the translations go at once on the whole device; the instruction waits in place (R137, R407) while accesses
of the space on the device are under way (log 61). -/
def tlbInv (need : Need) (va : Proc → Option Word) (s : State) : Out :=
  issue need (fun k p s =>
    let s := s.invalidate (keyDev k) p.asid (va p)
    if spaceBusy s (keyDev k) p.asid then
      (s.post (agentPart k) (placeOf k) none (.fill (invFill k p (va p)))).waitIn k p (.tlbinv (va p)) 0 0 none
    else s.fin k p) s

/-- TLBINV.PAGE (R279). -/
def execTlbinvPage (b : BitVec 5) (s : State) : Out :=
  tlbInv { needS := true, srcs := [.g b], touch := .release, lines := false, word := encR 0x2F 0 b 0 0x080 } (fun p => some (p.rg b)) s

/-- TLBINV.SPACE (R279). -/
def execTlbinvSpace (s : State) : Out :=
  tlbInv { needS := true, touch := .release, lines := false, word := encR 0x2F 0 0 0 0x081 } (fun _ => none) s

/-- CFLUSH.L (R280). -/
def execCflushL (b : BitVec 5) (s : State) : Out :=
  issue { srcs := [.g b] } (fun k p s =>
    match translate s (placeOf k) p.asid p.smode (p.rg b) .read with
    | (s, .fault _ _) => s.fin k p
    | (s, .wait) => s.stallOn k p .order none
    | (s, .ok ga _) => (s.modCore (placeOf k) fun c => { c with roLines := mdel c.roLines (ga / 64) }).fin k p) s

/-- CFLUSH.ALL (R280). -/
def execCflushAll (s : State) : Out :=
  issue {} (fun k p s => (s.modCore (placeOf k) fun c => { c with roLines := [] }).fin k p) s

/-- CFLUSH.RED (R280). -/
def execCflushRed (s : State) : Out := issue {} (fun k p s => (s.combineAll (placeOf k) .system).fin k p) s

/-- ISYNC (R280). -/
def execIsync (s : State) : Out :=
  issue {} (fun k p s => (s.modCore (placeOf k) fun c => { c with icache := [] }).fin k p) s

/-- BREAK (R281). -/
def execBrk (code : BitVec 10) (s : State) : Out :=
  issue {} (fun k p s =>
    s.trap k p false 0x11 0 ((encR 0x2F 0 (code.extractLsb' 5 5) (code.extractLsb' 0 5) 0x0E0).setWidth 64)) s

/-- WFE (R281): the slot is given up at once. -/
def execWfe (a : BitVec 5) (t : Bool) (s : State) : Out :=
  issue { dsts := [.g a] } (fun k p s =>
    if p.evpend ≠ 0 || timerLevel s (keyDev k) p then s.fin k (p.wg a 0) else (s.waitIn k p .wfe a 0 (deadlineOf s k p t)).block k) s

/-- PREEMPT (R282). -/
def execPreempt (a b : BitVec 5) (s : State) : Out :=
  issue { needS := true, srcs := [.g b], dsts := [.g a], word := encR 0x2F a b 0 0x120 } (fun k p s =>
    let h := p.rg b
    let end_ (code : Nat) : State := s.fin k (p.wg a (BitVec.ofNat 64 code))
    if decide (768 ≤ coreOf (placeOf (handleKey h)) ∧ coreOf (placeOf (handleKey h)) < 772) then end_ stBadType
    else
      match s.byHandle h with
      | none => end_ stClosed
      | some (j, q) =>
        if j = k then (((s.fin k (p.wg a 0)).detach k).makeReady k)
        else if q.asid ≠ p.asid then end_ stBadType
        else if !q.isRunning then end_ stOk
        else
          (s.setProc j { q with haltReq := if q.haltReq = 0 then 2 else q.haltReq, haltFor := q.haltFor ++ [(k, p.gen)] }).waitIn
            k p (.preempt j) a 0 none) s

/-- ILLEGAL_WORD (R83): a word that is no instruction traps ILLEGAL with its DETAIL. -/
def execIllegalWord (detail : BitVec 16) (tval : BitVec 64) (ext : Bool) (s : State) : Out :=
  run s fun k p => s.trap k p ext 1 detail.toNat tval

end Sys2Proof.Machine
end

