-- ==== Sys2Proof/Machine/Migration.lean ====
section
/-! DEFINITION. Migration of a 64 KiB page (R356 to R358), and the walk of a table tree to an entry (R344, R438). -/

namespace Sys2Proof.Machine

/-- The address of the entry for `va` at table level `level` (R344, R438): none where the walk meets a leaf above it or
an invalid table pointer. `n` counts the levels still to pass, `at_` is the level of the table `t`. -/
def tableEntry (s : State) (dev : Nat) (va : Word) : Nat → Nat → Nat → Option Nat
  | 0, at_, t => some (gaOf dev t + 8 * (va.toNat / 2 ^ levelBits at_ % 1024))
  | n + 1, at_, t =>
    let ga := gaOf dev t + 8 * (va.toNat / 2 ^ levelBits at_ % 1024)
    let e : Word := BitVec.ofNat 64 (readNat s ga 8)
    if s.bad ga ∨ field e 0 7 ≠ 1 ∨ field e 7 6 ≠ 0 ∨ field e 44 20 ≠ 0 then none
    else tableEntry s dev va n (at_ + 1) (leafBase e)

/-- The entry of a space's tree on a device at a level. -/
def spaceEntry (s : State) (dev asid : Nat) (va : Word) (level : Nat) : Option Nat :=
  (mget (s.space asid).roots dev).bind fun root => tableEntry s dev va (level - 1) 1 root

/-- Whether a page lies in the memory granted to a space on a device. -/
def pageGranted (s : State) (dev asid pa : Nat) : Bool :=
  (s.space asid).granted.any fun g => g.1 == dev && decide (g.2.1 ≤ pa ∧ pa + 65536 ≤ g.2.1 + g.2.2.1)

/-- Sends the next line of a migrating page to its new home (R356). -/
def State.sendLine (s : State) (page : Nat) (m : Migration) : State :=
  s.post (agentHome (homeOf (page * 65536 + 64 * m.next))) (agentHome (homeOf (m.new * 65536 + 64 * m.next))) none (.migrate page)

/-- MIGRATE (R356, R453): the copy of a page starts. -/
def execMigrate (n : Nat) (s : State) : Out :=
  s.supervisor n 0x0102 fun s pl v p =>
    let dev := devOf pl
    let va := v.arg 2
    let pa := (v.arg 3).toNat
    let w := walk s pl p.asid va
    let s := s.firmWalked pl p.asid va
    match w with
    | .fault _ _ _ => s.reply pl v stClosed 0
    | .ok e =>
      let page := (gaOf dev (e.pa va)) / 65536
      if e.bits ≠ 16 ∨ pa % 65536 ≠ 0 ∨ pageGranted s dev p.asid pa = false then s.reply pl v stBadType 0
      else if (mget s.migrations page).isSome then s.reply pl v stFull 0
      else
        let m : Migration := { new := gaOf dev pa / 65536, next := 0, asid := p.asid, va := va, svc := v }
        ({ s with migrations := mset s.migrations page m }).sendLine page m

/-- Copies a line with its bits and poison; a line that cannot be read arrives poisoned and is counted at the old home
(R356, R384). -/
def State.copyLine (s : State) (old new : Nat) : State :=
  let s := s.readDone old 64
  let bad := s.bad old
  let s := if bad then s.countHome old 0 else s
  let s := { s with mem := memPut s.mem new (memBytes s.mem old 64) }
  let s := { s with poisoned := if bad then sadd s.poisoned (new / 64) else sdel s.poisoned (new / 64), ecc := mdel s.ecc (new / 64) }
  (List.range 8).foldl (fun s i =>
    if s.full (old + 8 * i) then s.setFull (new + 8 * i) else s.setEmpty (new + 8 * i)) s

/-- PORT_MIGRATE (R356): the new home receives a line, once both homes admit it (R373); its bit is set and the next line
follows. -/
def execPortMigrate (n : Nat) (s : State) : Out :=
  match s.arriving n with
  | some { body := .migrate page, .. } =>
    match mget s.migrations page with
    | none => .next (s.took n)
    | some m =>
      match s.charge (m.new * 65536 + 64 * m.next) 64 with
      | none => .next (s.holdPort (m.new * 65536 + 64 * m.next) n)
      | some t =>
      let old := page * 65536 + 64 * m.next
      if readWaits (s.took n) (agentHome (homeOf old)) old 64 then .next (s.readHeld old 64)
      else
      let s := (t.took n).copyLine (page * 65536 + 64 * m.next) (m.new * 65536 + 64 * m.next)
      let m := { m with next := m.next + 1 }
      let s := { s with migrations := mset s.migrations page m }
      .next (if m.next < 1024 then s.sendLine page m else s)
  | _ => .next s

/-- Moves the parked requests of a page to its new home in order (R358). -/
def State.moveParked (s : State) (page new : Nat) : State :=
  let h := homeOf (page * 65536)
  let mine (r : AtomReq) : Bool := r.ga / 65536 == page
  let rs := (s.home h).parked.filter mine
  let s := s.setHome h { s.home h with parked := (s.home h).parked.filter fun r => !mine r }
  let h' := homeOf (new * 65536)
  s.setHome h' { s.home h' with
    parked := (s.home h').parked ++ rs.map fun r => { r with ga := new * 65536 + r.ga % 65536 } }

/-- MIGRATION_SWITCH (R358): once the page is copied, its translations go, with the reduction lines reached through them;
when no access of the space is under way the leaf names the new page, the parked requests move and the old page is free. -/
def execMigrationSwitch (page : Nat) (s : State) : Out :=
  match mget s.migrations page with
  | none => .next s
  | some m =>
    let dev := page * 65536 / 2 ^ 44
    let t := s.invalidate dev m.asid (some m.va)
    if m.next < 1024 then .next s
    else if spaceBusy t dev m.asid then .next t
    else
      let s := t
      let s := { s with migrations := mdel s.migrations page }
      let s := match spaceEntry s dev m.asid m.va 4 with
        | none => s
        | some ga =>
          let e : Word := BitVec.ofNat 64 (readNat s ga 8)
          s.putBytes ga (leBytes 8 (field e 0 13 + m.new * 65536 % 2 ^ 44))
      let s := (s.moveParked page m.new).giveBack m.asid (page * 65536) 65536
      .next (s.reply (placeOf m.svc.p / 1024 * 1024 + 768 + coreDie (coreOf (placeOf m.svc.p))) m.svc stOk 0)

end Sys2Proof.Machine
end

