-- ==== Sys2Proof/Machine/Services.lean ====
section
/-! DEFINITION. The requests of supervisors (R28, R298, R453), attestation and sessions (R448 to R452), and the
requests, doorbells and accesses of the host (R436 to R443, R454, R455, R458). -/

namespace Sys2Proof.Machine

/-! ### Supervisors -/

/-- The compute core that an argument names, as a place of the device of a service core. -/
def coreArg (pl : Nat) (w : Word) : Option Nat := if w.toNat < 768 then some (devOf pl * 1024 + w.toNat) else none

/-- ROOT (R453): takes effect with no access of the space under way. -/
def execRoot (n : Nat) (s : State) : Out :=
  let waits : Bool := match s.arriving n with
    | some { dst := pl, body := .svc v, .. } => (s.byOwn v.p v.gen).any fun p => spaceBusy s (devOf pl) p.asid
    | _ => false
  if waits then .next s
  else
    s.supervisor n 0x0101 fun s pl v p =>
      let pa := (v.arg 2).toNat
      let ok := match rangeOf pa with
        | .hbm _ | .tier2 _ => decide (pa % 8192 = 0 ∧ pa < 2 ^ 44)
        | .scratch _ | .host | .control | .none => false
      if !ok then s.reply pl v stBadType 0
      else
        let x := s.space p.asid
        ((s.setSpace p.asid { x with roots := mset x.roots (devOf pl) pa }).invalidate (devOf pl) p.asid none).reply pl v stOk 0

/-- OVRING (R298, R453). -/
def execOvring (n : Nat) (s : State) : Out :=
  s.supervisor n 0x0103 fun s pl v p =>
    let r := (v.arg 4).toNat
    match coreArg pl (v.arg 2) with
    | none => s.reply pl v stBadType 0
    | some c =>
      if (v.arg 3).toNat % 65536 ≠ 0 ∨ 4064 < r ∨ r % 16 ≠ 0 then s.reply pl v stBadType 0
      else if (s.procsAt c).any fun e => e.2.asid == p.asid && e.2.spilled.isSome then s.reply pl v stFull 0
      else (s.modCore c fun x => { x with ovring := mset x.ovring p.asid (v.arg 3, r) }).reply pl v stOk 0

/-- Gives `n` more areas to the unit save pool of a space on a core (R28). -/
def State.growPool (s : State) (pl asid : Nat) : Nat → Option State
  | 0 => some s
  | n + 1 =>
    match s.grantBytes pl asid 0x3000 with
    | none => none
    | some (s, ga) =>
      (s.modCore pl fun c =>
        { c with unitPool := mset c.unitPool asid (((mget c.unitPool asid).getD []) ++ [ga]) }).growPool pl asid n

/-- The areas that a pool gives up go back to the memory granted to the space (R28). -/
def State.shedAreas (s : State) (asid : Nat) (areas : List Nat) : State := areas.foldl (fun s a => s.giveBack asid a 0x3000) s

/-- UNITPOOL (R28, R453): an area in use is never taken away. -/
def execUnitpool (n : Nat) (s : State) : Out :=
  s.supervisor n 0x0105 fun s pl v p =>
    let want := (v.arg 3).toNat
    match coreArg pl (v.arg 2) with
    | none => s.reply pl v stBadType 0
    | some c =>
      let pool := (mget (s.core c).unitPool p.asid).getD []
      let used := pool.filter (areaUsed s c)
      if 4096 < want then s.reply pl v stBadType 0
      else if want < used.length then s.reply pl v stFull 0
      else if want ≤ pool.length then
        let spare := pool.filter fun a => !used.contains a
        ((s.modCore c fun x =>
          { x with unitPool := mset x.unitPool p.asid (used ++ spare.take (want - used.length)) }).shedAreas p.asid
            (spare.drop (want - used.length))).reply pl v stOk 0
      else
        match s.growPool c p.asid (want - pool.length) with
        | none => s.reply pl v stFull 0
        | some s => s.reply pl v stOk 0

/-- Whether a task-type entry holds its stated values (R98). -/
def typeValid (e : BitVec 512) : Bool :=
  let splog := ttSplog e
  (ttEntry e).toNat % 4 == 0 && (splog == 0 || decide (6 ≤ splog ∧ splog ≤ 19)) && decide (ttPrio e ≤ 11) &&
    decide (ttPlace e ≤ 3) && e.extractLsb' 156 4 == 0 &&
    decide (ttTarget e ≤ [767, 95, 3, 0].getD (ttPlace e) 0) && decide (ttInit e ≤ 4096) && (ttTvec e).toNat % 4 == 0 &&
    e.extractLsb' 256 256 == 0

/-- TTSET (R295, R453). -/
def execTtset (n : Nat) (s : State) : Out :=
  s.supervisor n 0x0104 fun s pl v p =>
    let x := s.space p.asid
    let i := (v.arg 2).toNat
    if x.types.length ≤ i then s.reply pl v stBadType 0
    else
      let b := fetchBytes s pl p.asid true (v.arg 3) 64
      let s := s.firmFetched pl p.asid b
      if b.fault.isSome then s.reply pl v stClosed 0
      else
        let e : BitVec 512 := BitVec.ofNat 512 (leNat b.bytes)
        if typeValid e then (s.setSpace p.asid { x with types := listSet x.types i e }).reply pl v stOk 0
        else s.reply pl v stBadType 0

/-- The process that a request names: its key, or the status that refuses it (R453). -/
def namedProc (s : State) (p : Proc) (h : Word) : Nat ⊕ (Nat × Proc) :=
  match s.byHandle h with
  | none => .inl stClosed
  | some (k, q) => if q.asid = p.asid then .inr (k, q) else .inl stBadType

/-- HALT (R453): at the next instruction boundary, which is where the steps of the model stand, or at a round edge. -/
def execHalt (n : Nat) (s : State) : Out :=
  s.supervisor n 0x0202 fun s pl v p =>
    match namedProc s p (v.arg 2) with
    | .inl st => s.reply pl v st 0
    | .inr (k, q) =>
      if 2 ≤ (v.arg 3).toNat ∨ tied s k q then s.reply pl v stBadType 0
      else
        let edge := v.arg 3 == 1
        let s := s.modProc k fun q =>
          { q with sup := q.sup ++ [{ p := v.p, gen := v.gen, target := none, edge := edge, halted := false, stay := false }] }
        if edge then s else s.haltFor k fun r => r.target.isNone && !r.edge

/-- A halted process becomes READY, and what its halt held back is served (R453, R294); it has not been hard-blocked
while it was halted (R316). An inbox or delegation process that serves nothing goes back to wait for its next call. -/
def State.resume (s : State) (k : Nat) : State :=
  let s := s.modLive k fun p => { p with sup := p.sup.filter fun r => !(r.halted && r.target.isNone), held := false }
  match mget s.procs k with
  | none => s
  | some p =>
    if p.kind ≠ .normal ∧ p.serving = none then s.setProc k { p with run := .blocked, blockedSince := s.timeb }
    else ((s.makeReady k).modProc k fun p => { p with hardSince := some s.timeb }).thawed k

/-- Whether a process is halted, and not by a move. -/
def resumable (q : Proc) : Bool := q.run == .halted && !q.sup.any fun r => r.halted && r.target.isSome

/-- RESUME (R402, R453). -/
def execResume (n : Nat) (s : State) : Out :=
  s.supervisor n 0x0203 fun s pl v p =>
    match namedProc s p (v.arg 2) with
    | .inl st => s.reply pl v st 0
    | .inr (k, q) => if resumable q then (s.resume k).reply pl v stOk 0 else s.reply pl v stBadType 0

/-- KILL (R154, R453). -/
def execKill (n : Nat) (s : State) : Out :=
  s.supervisor n 0x0204 fun s pl v p =>
    match namedProc s p (v.arg 2) with
    | .inl st => s.reply pl v st 0
    | .inr (k, _) => (s.endProc k .killed none false).reply pl v stOk 0

/-- SIGNAL (R38, R453). -/
def execSignal (n : Nat) (s : State) : Out :=
  s.supervisor n 0x0205 fun s pl v p =>
    match namedProc s p (v.arg 2) with
    | .inl st => s.reply pl v st 0
    | .inr (k, _) =>
      if (s.live k).any fun q => q.pstat.getLsbD 25 then s.reply pl v stFull 0
      else ((s.modLive k fun q => { q with sigVal := v.arg 3 }).setEvent k 25).reply pl v stOk 0

/-- A process of a core has a new base priority (R50, R305): one that is READY goes to the tail of its new queue. -/
def State.reprioritise (s : State) (k prio : Nat) : State :=
  let s := s.modLive k fun p => (p.setBase prio).setEff prio
  match mget s.procs k with
  | none => s
  | some p => (if p.run = .ready then s.enqueue k false else s).settle (placeOf k)

/-- INBOX (R337, R453): the priority of the inbox process, in the handler that it runs too. -/
def execInbox (n : Nat) (s : State) : Out :=
  s.supervisor n 0x0206 fun s pl v p =>
    match coreArg pl (v.arg 2) with
    | none => s.reply pl v stBadType 0
    | some c =>
      if 11 < (v.arg 3).toNat then s.reply pl v stBadType 0
      else
        let prio := (v.arg 3).toNat
        let s := s.modCore c fun x => { x with inboxPrio := mset x.inboxPrio p.asid prio }
        let s := match reserved s c p.asid .inbox with
          | none => s
          | some (k, _) => s.reprioritise k prio
        s.reply pl v stOk 0

/-- UNFENCE (R404, R453). -/
def execUnfence (n : Nat) (s : State) : Out :=
  s.supervisor n 0x0207 fun s pl v p =>
    match coreArg pl (v.arg 2) with
    | none => s.reply pl v stBadType 0
    | some c =>
      if !(s.core c).fenced.contains p.asid then s.reply pl v stBadType 0
      else
        let s := s.modCore c fun x => { x with fenced := sdel x.fenced p.asid }
        ((s.procsAt c).foldl (fun s e => if e.2.asid = p.asid ∧ resumable e.2 then s.resume e.1 else s) s).reply pl v stOk 0

/-- COUNTER (R457). -/
def execCounter (n : Nat) (s : State) : Out :=
  s.supervisor n 0x0401 fun s pl v _ =>
    match s.readCounter (devOf pl) (v.arg 2) with
    | none => s.reply pl v stBadType 0
    | some (s, x) => s.reply pl v stOk x

/-! ### Attestation -/

/-- The measurement of a kind (R448). -/
def measurement (s : State) (dev kind : Nat) : List Byte :=
  exactly 32 (sha512 ((List.range (kindCount kind)).map fun i => exactly 64 (s.part dev kind i).digest).flatten)

/-- The endorsement of a device's key by the Palvex root key (R448). -/
def endorsement (s : State) (dev : Nat) : List Byte :=
  edSign Config.rootKey (leBytes 8 (s.device dev).serial.toNat ++ edPublic (Config.identityKey dev))

/-- The public key that a Grestra core sends for a session (R452). -/
def sessionPublic (n : Nat) : List Byte := xPublic (exactly 32 (Config.sessionKey n))

/-- Whether some part of a device is out of service, or has no valid image (R448). -/
def partMissing (s : State) (dev : Nat) : Bool :=
  (s.device dev).parts.any (fun (p : Nat × Part) => !p.2.inService) ||
    ([2, 3, 4, 5, 6, 7, 10] : List Nat).any fun kind => (List.range (kindCount kind)).any fun i => !hasImage s dev kind i

/-- An attestation report (R448), for a space or for none, as one snapshot (R449). -/
def attestReport (s : State) (dev : Nat) (asid : Option Nat) (nonce kx : List Byte) : List Byte :=
  let x := asid.map s.space
  let flags := (if x.any (fun (y : Space) => y.sealed) then 1 else 0) +
    (if partMissing s dev then 2 else 0) + (if asid.isNone then 4 else 0)
  let body :=
    leBytes 2 1 ++ leBytes 2 dev ++ leBytes 2 (asid.getD 0xFFFF) ++ leBytes 1 flags ++ [0] ++ exactly 32 nonce ++
      leBytes 8 (s.device dev).serial.toNat ++ edPublic (Config.identityKey dev) ++ endorsement s dev ++
      ((List.range 6).map fun i => measurement s dev (i + 2)).flatten ++
      (match x with | none => List.replicate 32 0 | some y => exactly 32 y.imageHash) ++
      ((List.range 6).map fun i => leBytes 2 (minSvn s dev (i + 2))).flatten ++ leBytes 2 (minSvn s dev 10) ++ [0, 0] ++
      leBytes 8 (s.timebOf dev) ++ exactly 32 kx ++ exactly 24 (sha512 (s.part dev 10 0).digest)
  body ++ edSign (Config.identityKey dev) body

/-- The part of each word that a range of bytes covers: its address and its bytes; `fuel` counts words. -/
def wordParts (va : Word) (bs : List Byte) : Nat → List (Word × List Byte)
  | 0 => []
  | fuel + 1 =>
    if bs.isEmpty then []
    else
      let n := 8 - va.toNat % 8
      (va, bs.take n) :: wordParts (va + BitVec.ofNat 64 n) (bs.drop n) fuel

/-- One store of the firmware for a space at its home (R349), neither held nor charged (R373): dropped and counted where the
line or the leaf is poisoned, and dropped in the allocation of another, sealed space (R450). -/
def State.putWord (s : State) (asid ga : Nat) (leaf : Word) (bs : List Byte) : State :=
  let s := (s.recall (ga / 64)).met ga bs.length
  if leafPois leaf || s.bad ga then s.countHome ga 1
  else if sealedFrom s ga (some asid) then s
  else ((s.putBytes ga bs).fillWords ga bs.length).wrote s ga bs.length

/-- Stores bytes at a virtual range of a space, word by word: nothing, and false, at a translation fault. -/
def State.putRange (s : State) (pl asid : Nat) (va : Word) (bs : List Byte) : State × Bool :=
  let parts := wordParts va bs (bs.length / 8 + 2)
  let t := parts.foldl (fun (t : State) x => t.firmWalked pl asid x.1) s
  let to_ := parts.map fun x =>
    match xlateAt s pl asid true x.1 .write with
    | .ok ga leaf => some (ga, leaf, x.2)
    | .fault _ _ | .wait => none
  if to_.any (·.isNone) then (t, false)
  else (to_.foldl (fun s e => match e with | none => s | some x => s.putWord asid x.1 x.2.1 x.2.2) t, true)

/-- ATTEST (R453). -/
def execAttest (n : Nat) (s : State) : Out :=
  s.supervisor n 0x0402 fun s pl v p =>
    let b := fetchBytes s pl p.asid true (v.arg 2) 32
    let s := s.firmFetched pl p.asid b
    if b.fault.isSome then s.reply pl v stClosed 0
    else
      let (t, ok) := s.putRange pl p.asid (v.arg 3) (attestReport s (devOf pl) (some p.asid) b.bytes [])
      t.reply pl v (if ok then stOk else stClosed) 0

/-- Whether a peer's measurements and SVNs are at least a core's own (R452). -/
def peerAccepted (s : State) (own peer : Nat) : Bool :=
  ((List.range 6).all fun i =>
    measurement s peer (i + 2) == measurement s own (i + 2) && decide (minSvn s own (i + 2) ≤ minSvn s peer (i + 2))) &&
    decide (minSvn s own 10 ≤ minSvn s peer 10)

/-- Whether two Grestra cores can agree a session for a sealed space (R452). The reports that Grestra cores send verify
under R448, for they are signed as it says. -/
def canAgree (s : State) (x : Space) (a b : Nat) : Bool :=
  x.sealed && a != b && x.devices.contains a && x.devices.contains b && peerAccepted s a b && peerAccepted s b a

/-- The session of R452: its key is bound to both reports, which carry fresh challenges. -/
def State.agree (s : State) (asid devA devB : Nat) : State :=
  let a := min devA devB
  let b := max devA devB
  let x := s.space asid
  if !canAgree s x a b || s.sessions.any (fun (y : Session) => y.asid == asid && y.devA == a && y.devB == b) then s
  else
    let key (d : Nat) : Nat := x.keyId * 4096 + d
    let challenge (d : Nat) : List Byte := leBytes 32 (Config.freeWord (s.free + d)).toNat
    let ra := attestReport s a (some asid) (challenge b) (sessionPublic (key a))
    let rb := attestReport s b (some asid) (challenge a) (sessionPublic (key b))
    let k := exactly 32 (sha512 (x25519 (exactly 32 (Config.sessionKey (key a))) (sessionPublic (key b)) ++ ra ++ rb))
    { s with free := s.free + 4096
             sessions := s.sessions ++ [{ asid := asid, devA := a, devB := b, key := k, nonce := 0 }] }

/-- SESSION_AGREEMENT (R452). -/
def execSessionAgreement (asid devA devB : Nat) (s : State) : Out := .next (s.agree asid devA devB)

/-! ### The host -/

/-- A write of BELL with a request of kind `op` (R437): ignored and counted while BUSY; else the request is copied and
served. -/
def State.hostRequest (s : State) (dev win : Nat) (tag : BitVec 16) (op : Nat) (go : State → Nat → List Word → State) : Out :=
  let key := dev * 4 + win
  let w := s.window key
  if 4 ≤ win ∨ (s.device dev).on = false ∨ field (w.req.headD 0) 0 16 ≠ op then .next s
  else if w.busy then .next (s.count dev 6 win 0 1)
  else
    let s := s.setWindow key { w with busy := true, tag := tag.toNat }
    if field (w.req.headD 0) 16 48 ≠ 0 then .next (s.respond key stBadType [])
    else .next (go s key w.req)

/-- Argument word `i` of a host request. -/
def reqArg (r : List Word) (i : Nat) : Word := r.getD i 0

/-- ENDPOINT (R441). -/
def execEndpoint (dev win : Nat) (tag : BitVec 16) (s : State) : Out :=
  s.hostRequest dev win tag 0x0002 fun s key r =>
    let w := reqArg r 1
    let vec := field w 16 6
    let n := dev * 1024 + field w 0 10
    if field w 24 40 ≠ 0 ∨ field w 12 4 = 0 ∨ 12 < field w 12 4 ∨ (vec ≠ 0 ∧ vec < 16) ∨ (reqArg r 2).toNat % 4096 ≠ 0 ∨
        reqArg r 3 ≠ 0 then s.respond key stBadType []
    else if (mget s.hostEps n).isSome then s.respond key stFull []
    else
      let e : HostEp :=
        { toHost := w.getLsbD 10, isMsg := w.getLsbD 11, logs := field w 12 4, vec := vec, sc := field w 22 2,
          base := (reqArg r 2).toNat, chan := none, pend := [], acks := [] }
      ({ s with hostEps := mset s.hostEps n e } : State).respond key stOk []

/-- BIND (R438): as CHBIND.D with KIND 1 and CAPB 0 on the named door. A receive end that another bind already moves is no
more the door's. -/
def execBind (dev win : Nat) (tag : BitVec 16) (s : State) : Out :=
  s.hostRequest dev win tag 0x0003 fun s key r =>
    let d := (reqArg r 2).toNat
    match s.byHandle (reqArg r 1) with
    | none => s.respond key stClosed []
    | some (k, p) =>
      match (if 64 ≤ d ∨ (s.space p.asid).sealed = true then none else mget p.doors d) with
      | none => s.respond key stBadType []
      | some e =>
        match mget s.chans e.chan with
        | none => s.respond key stClosed []
        | some x =>
          match bindHolder s (dev * 2 ^ 22) p x e.isSend 1 (reqArg r 3) 0 with
          | .error st => s.respond key st []
          | .ok h =>
            if e.isSend && isFaultChan s e.chan then ((s.moveFaultEnd k d h false e).chanEvent e.chan).respond key stOk []
            else if !e.isSend && x.moving then s.respond key stBadType []
            else
              let s := match quietOf s e.chan x e.isSend with
                | .closes door => s.quiesce e.chan x e.isSend door
                | .free | .busy => s
              let s := if e.isSend then s else s.modChan e.chan fun x => { x with moving := true }
              s.post (placeOf k) (ownPlace (hostOwner key).p) none (.recordCopy e.chan e.isSend h d false (hostOwner key))

/-- The firmware goes on, for a window or by itself, once the accesses of a space under way are performed. -/
def State.whenDrained (s : State) (dev : Nat) (win : Option Nat) (asid : Nat) (va : Option Word) : State :=
  let pl := dev * 1024 + 768 + win.getD 0 % 4
  s.post pl pl none (.drained win asid va)

/-- MAP (R438): the entry is written and its translations go; the answer follows once the accesses of the space under way are
performed (R347). -/
def execMap (dev win : Nat) (tag : BitVec 16) (s : State) : Out :=
  s.hostRequest dev win tag 0x0004 fun s key r =>
    let asid := (reqArg r 1).toNat
    let level := (reqArg r 4).toNat
    let x := s.space asid
    match (if x.live && !x.sealed && decide (2 ≤ level ∧ level ≤ 4) then spaceEntry s dev asid (reqArg r 2) level else none) with
    | none => s.respond key stBadType []
    | some ga =>
      let s := (s.putWord asid ga 0 (leBytes 8 (reqArg r 3).toNat)).invalidate dev asid (some (reqArg r 2))
      if spaceBusy s dev asid then s.whenDrained dev (some key) asid (some (reqArg r 2)) else s.respond key stOk []

/-- ENDPOINT_DOORBELL (R437, R442). -/
def execEndpointDoorbell (dev win : Nat) (bell : BitVec 16) (s : State) : Out :=
  let w := s.window (dev * 4 + win)
  if 4 ≤ win ∨ (s.device dev).on = false ∨ field (w.req.headD 0) 0 16 ≠ 0x0010 then .next s
  else
    let n := dev * 1024 + bell.toNat % 1024
    match mget s.hostEps n with
    | none => .next (s.count dev 6 win 0 1)
    | some e => if e.toHost ∨ e.sc ≠ win then .next (s.count dev 6 win 0 1) else .next (s.fromHost n 4096)

/-- TO_HOST_ENDPOINT_ROOM (R442): the host has moved HEAD on. -/
def execToHostEndpointRoom (dev ep : Nat) (s : State) : Out :=
  .next ((s.ackEndpoint (dev * 1024 + ep)).feedEndpoint (dev * 1024 + ep) 4096 |>.ackEndpoint (dev * 1024 + ep))

/-- HOST_ATTEST (R454). -/
def execHostAttest (dev win : Nat) (tag : BitVec 16) (s : State) : Out :=
  s.hostRequest dev win tag 0x0005 fun s key r =>
    let a := (reqArg r 2).toNat
    let nonce := hostBytes s dev (reqArg r 1).toNat 32
    if a = 0xFFFF then
      (s.hostPut dev (reqArg r 3).toNat (attestReport s dev none nonce [])).respond key stOk []
    else if (s.space a).live && (s.space a).devices.contains dev then
      (s.hostPut dev (reqArg r 3).toNat (attestReport s dev (some a) nonce [])).respond key stOk []
    else s.respond key stBadType []

/-- The instances that a request names: one, or all of the kind (R454). -/
def instances (kind : Nat) (w : Word) : Option (List Nat) :=
  if w = 0xFFFF then some (List.range (kindCount kind))
  else if w.toNat < kindCount kind then some [w.toNat] else none

/-- STAGE (R454): a valid image goes into every inactive slot that is named. -/
def execStage (dev win : Nat) (tag : BitVec 16) (s : State) : Out :=
  s.hostRequest dev win tag 0x0006 fun s key r =>
    let kind := (reqArg r 3).toNat
    let b := hostBytes s dev (reqArg r 1).toNat (min (reqArg r 2).toNat (2 ^ 24 + 128))
    match (if carriesImage kind && imageValid s dev kind b then instances kind (reqArg r 4) else none) with
    | none => s.respond key stBadType []
    | some is =>
      (is.foldl (fun s i => s.setPart dev kind i ((s.part dev kind i).setInactive b)) s).respond key stOk []

/-- Whether a service of an instance is under way, or no service core would be left (R456). -/
def serviceFull (s : State) (dev kind inst : Nat) (out : Bool) : Bool :=
  (s.device dev).services.any (fun v => v.kind == kind && (v.inst == inst || v.rest.contains inst)) ||
    (out && kind == 6 && !((List.range 4).any fun i => i != inst && inService s dev 6 i))

/-- Starts a service of instances, the first of them now. -/
def State.startService (s : State) (dev win kind : Nat) (is : List Nat) (activate raise : Bool) : State :=
  match is with
  | [] => s.respond win stOk []
  | i :: rest =>
    let v : Servicing := { win := win, kind := kind, inst := i, activate := activate, raise := raise, rest := rest, st := stOk }
    let s := s.setDevice dev { s.device dev with services := (s.device dev).services ++ [v] }
    (s.takeOut dev kind i).advanceService dev v 800

/-- ACTIVATE (R454, R456); kind 10 is marked for the next reset. -/
def execActivate (dev win : Nat) (tag : BitVec 16) (s : State) : Out :=
  s.hostRequest dev win tag 0x0007 fun s key r =>
    let kind := (reqArg r 1).toNat
    let raise := (reqArg r 3).getLsbD 0
    match (if carriesImage kind then instances kind (reqArg r 2) else none) with
    | none => s.respond key stBadType []
    | some is =>
      if kind = 10 then
        let (s, ok) := s.activate dev 10 0 raise
        s.respond key (if ok then stOk else stBadType) []
      else if is.any fun i => serviceFull s dev kind i true then s.respond key stFull []
      else s.startService dev key kind is true raise

/-- The machine after some processes have moved one after another as a take-out of their core moves them (R455): none where
one finds no core that can take it (R296). -/
def State.emptied (s : State) : List (Nat × Proc) → Option State
  | [] => some s
  | (k, p) :: rest =>
    let r : SupReq :=
      { p := 0, gen := 0, target := some (coreOf (placeOf k)), edge := false, halted := true, stay := p.run == .halted }
    match s.moveTo p [] r.stay ((moveTargets k r).map (devOf (placeOf k) * 1024 + ·)) with
    | (_, none) => none
    | (t, some (tp, e, base, usa, ring)) =>
      (((t.reserve tp p.asid .inbox).reserve tp p.asid .deleg).relocate k p tp e base usa ring r).1.emptied rest

/-- Whether every process of a core can be taken by some other core (R455, R456). -/
def coreCanEmpty (s : State) (pl : Nat) : Bool :=
  (s.emptied ((s.procsAt pl).filter fun e => e.2.kind == .normal)).isSome

/-- A core is taken out (R455): its rings are unconfigured and its processes are to move. -/
def State.takeOutCore (s : State) (pl : Nat) : State :=
  let s := (List.range 4).foldl (fun s i => s.unring pl i) s
  (s.procsAt pl).foldl (fun s e =>
    if e.2.kind = .normal then
      s.modProc e.1 fun q =>
        { q with sup := q.sup ++ [{ p := 0, gen := 0, target := some (coreOf pl), edge := false, halted := false, stay := false }] }
    else s) s

/-- SERVICE (R455, R456). -/
def execService (dev win : Nat) (tag : BitVec 16) (s : State) : Out :=
  s.hostRequest dev win tag 0x0008 fun s key r =>
    let kind := (reqArg r 1).toNat
    let i := (reqArg r 2).toNat
    let op := (reqArg r 3).toNat
    if 7 < kind ∨ kindCount kind ≤ i then s.respond key stBadType []
    else if serviceFull s dev kind i (op == 1) then s.respond key stFull []
    else
      match op, kind with
      | 1, 0 =>
        if coreCanEmpty s (dev * 1024 + i) then ((s.takeOutCore (dev * 1024 + i)).startService dev key 0 [i] false false)
        else s.respond key stFull []
      | 1, _ => s.startService dev key kind [i] false false
      | 2, _ | 3, 2 | 4, 2 => (s.putBack dev kind i).respond key stOk []
      | 3, 5 => (s.countLink dev i 4).respond key stOk []
      | _, _ => s.respond key stBadType []

/-- HOST_COUNTER (R454, R457). -/
def execHostCounter (dev win : Nat) (tag : BitVec 16) (s : State) : Out :=
  s.hostRequest dev win tag 0x0009 fun s key r =>
    match s.readCounter dev (reqArg r 1) with
    | none => s.respond key stBadType []
    | some (s, x) => s.respond key stOk [x]

/-- Whether a message would start something for a space. -/
def Msg.starts (m : Msg) (asid : Nat) : Bool :=
  match m.body with
  | .inbox _ c | .deleg _ c => c.asid == asid
  | .childCreate _ c _ | .stealTask _ c _ | .stealBack _ c _ => c.asid == asid
  | _ => false

/-- The jobs of a space that wait at the port of a reduction unit which is out (R455) go. -/
def Stack.dropWaiting (b : Stack) (asid : Nat) : Stack :=
  match b.bredOut with
  | none => b
  | some n => { b with jobs := b.jobs.take n ++ (b.jobs.drop n).filter fun j => j.asid != asid }

/-- A space ends (R454): every process is ended as killed, what would start another goes, and so do its translations. What it
has stored is on its way home. -/
def State.killSpace (s : State) (asid : Nat) : State :=
  let stays (m : Msg) : Bool := !m.starts asid
  let s := { s with
    net := s.net.filter stays
    links := s.links.map fun (l : Nat × Link) => (l.1, { l.2 with queue := l.2.queue.filter fun e => stays e.msg })
    bases := s.bases.map fun (b : Nat × Stack) => (b.1, b.2.dropWaiting asid)
    cores := s.cores.map fun (c : Nat × Core) => (c.1, { c.2 with inbox := mdel c.2.inbox asid, delegs := mdel c.2.delegs asid }) }
  let s := (s.procs.filter fun (e : Nat × Proc) => e.2.asid == asid).foldl (fun s e => s.endProc e.1 .killed none false) s
  let s := s.setSpace asid { s.space asid with live := false }
  (s.space asid).devices.foldl (fun s d => s.invalidate d asid none) s

/-- Whether accesses of a space that has ended are still under way, or a reduction unit still works for it. -/
def spaceLingers (s : State) (asid : Nat) : Bool :=
  (s.space asid).devices.any (fun d => spaceBusy s d asid) ||
    s.bases.any fun (b : Nat × Stack) => b.2.jobs.any fun j => j.asid == asid

/-- The keys and sessions of a sealed space are erased and its pages are zeroed and full (R451); what cores, walkers and ports
keep for a space goes, and its memory is free. -/
def State.eraseSpace (s : State) (asid : Nat) : State :=
  let x := s.space asid
  let s := if x.sealed then
      x.granted.foldl (fun s g =>
        let lo := gaOf g.1 g.2.1
        let s := s.zero lo g.2.2.1
        { s with
          poisoned := s.poisoned.filter fun l => !(decide (lo ≤ 64 * l) && decide (64 * l < lo + g.2.2.1))
          ecc := s.ecc.filter fun (e : Nat × Nat × Bool) => !(decide (lo ≤ 64 * e.1) && decide (64 * e.1 < lo + g.2.2.1)) }) s
    else s
  { s with
    spaces := mdel s.spaces asid
    sessions := s.sessions.filter fun (y : Session) => y.asid != asid
    migrations := s.migrations.filter fun (m : Nat × Migration) => m.2.asid != asid
    sheds := s.sheds.map fun (x : Nat × Shed) => (x.1, { x.2 with pointers := x.2.pointers.filter fun q => q.asid != asid })
    homes := s.homes.map fun (h : Nat × Home) => (h.1, { h.2 with tlb := h.2.tlb.filter fun e => e.asid != asid })
    cores := s.cores.map fun (c : Nat × Core) =>
      (c.1, { c.2.dropTlb asid none with
        fenced := sdel c.2.fenced asid, inbox := mdel c.2.inbox asid, inboxPrio := mdel c.2.inboxPrio asid
        delegs := mdel c.2.delegs asid, ovring := mdel c.2.ovring asid, unitPool := mdel c.2.unitPool asid }) }

/-- Ends a space: its memory is given up once nothing of it is under way. -/
def State.endSpace (s : State) (dev : Nat) (win : Option Nat) (asid : Nat) : State := (s.killSpace asid).whenDrained dev win asid none

/-- END (R454). -/
def execEndSpace (dev win : Nat) (tag : BitVec 16) (s : State) : Out :=
  s.hostRequest dev win tag 0x000A fun s key r =>
    let a := (reqArg r 1).toNat
    if !(s.space a).live then s.respond key stBadType []
    else s.endSpace dev (some key) a

/-- The answer to a window, if one asked. -/
def State.respondTo (s : State) (win : Option Nat) : State :=
  match win with
  | none => s
  | some key => s.respond key stOk []

/-- FILL_ARRIVAL (R19). A TLBINV, a MAP and the end of a space complete once the accesses of their space are performed; the
read-only lines that such a read has filled meanwhile go then (R279, R347, R353, R438, R451). -/
def execFillArrival (n : Nat) (s : State) : Out :=
  match s.arriving n with
  | some { dst := dst, body := .fill f, .. } =>
    (match f.inv with
     | none => .next ((s.took n).applyFill dst f)
     | some (asid, va) =>
       if spaceBusy s (devOf dst) asid then .next s
       else .next (((s.took n).dropLines (devOf dst) asid va).applyFill dst f))
  | some { dst := dst, body := .drained win asid (some va), .. } =>
    if spaceBusy s (devOf dst) asid then .next s
    else .next (((s.took n).dropLines (devOf dst) asid (some va)).respondTo win)
  | some { dst := dst, body := .drained win asid none, .. } =>
    if spaceLingers s asid then .next s
    else .next ((((s.took n).eraseSpace asid).respondTo win).signal (devOf dst) 4)
  | _ => .next s

/-- HOST_MEM_ACCESS (R443): a word through an alias, which the serving core asks of its home (R370); an offset without memory
reads all-ones and drops writes. -/
def execHostMemAccess (dev off : Nat) (wr : Option (BitVec 64)) (s : State) : Out :=
  if 2 ^ 43 ≤ off ∨ (s.device dev).on = false then .next s
  else
    let ga := gaOf dev (off % 2 ^ 41 / 8 * 8)
    match rangeOf (gaPa ga) with
    | .hbm _ | .tier2 _ =>
      .next (s.post (dev * 1024 + 768 + servingDie s dev (off / 2 ^ 41)) (agentHome (homeOf ga)) none
        (.host ga 8 (wr.map fun x => leBytes 8 x.toNat) none false false))
    | .scratch _ | .host | .control | .none =>
      match wr with
      | none => .next { s with hostData := BitVec.allOnes 64, hostPoison := false }
      | some _ => .next s

/-- Whether an OP has a request of its own (R438, R454). -/
def knownOp (op : Nat) : Bool := decide (1 ≤ op ∧ op ≤ 10) || op == 16

/-- A write to the MSI-X table: a vector that is unmasked while it is pending is signalled (log 32). -/
def State.writeVectors (s : State) (dev off : Nat) (x : Word) : State :=
  let d := s.device dev
  let old := d.vectors
  let tab := old.take off ++ leBytes 8 x.toNat ++ old.drop (off + 8)
  let s := s.setDevice dev { d with msix := tab }
  let v := off / 16
  if d.msiPending.getLsbD v && !vectorMasked (s.device dev) v then
    (s.setDevice dev { s.device dev with msiPending := setBit d.msiPending v false }).signal dev v
  else s

/-- What a read of 8 bytes of BAR0 gives (R435, R436): the window registers, the MSI-X table and its pending bits; BELL is
write-only and reads 0 (log 114), and so does every reserved offset. -/
def barRead (s : State) (dev off : Nat) : Word :=
  let o := off % 4096
  let w := s.window (dev * 4 + off / 4096)
  let d := s.device dev
  if off < 0x4000 then
    if o < 0x40 then w.req.getD (o / 8) 0
    else if o < 0x80 then w.rsp.getD ((o - 0x40) / 8) 0
    else if o = 0x88 then BitVec.ofNat 64 ((if w.busy then 1 else 0) + (if w.done then 2 else 0))
    else 0
  else if 0x8000 ≤ off ∧ off < 0x8400 then BitVec.ofNat 64 (leNat ((d.vectors.drop (off - 0x8000)).take 8))
  else if off = 0x8400 then d.msiPending
  else 0

/-- REGISTER_WRITE (R435 to R437): an access of 8 bytes to BAR0, a write or, with no value, a read. REQ is written; DONE clears
by a 1; RSP, BUSY and the reserved ranges ignore writes; a BELL with an OP that names no request answers BADTYPE, and one that
does is the step of that request. -/
def execRegisterWrite (dev off : Nat) (val : Option (BitVec 64)) (s : State) : Out :=
  let win := off / 4096
  let o := off % 4096
  let key := dev * 4 + win
  let w := s.window key
  if off % 8 ≠ 0 ∨ (s.device dev).on = false then .next s
  else
    match val with
    | none => .next { s with hostData := barRead s dev off, hostPoison := false }
    | some val =>
      if win < 4 then
        if o < 0x40 then .next (s.setWindow key { w with req := listSet w.req (o / 8) val })
        else if o = 0x88 then .next (s.setWindow key { w with done := w.done && !val.getLsbD 1 })
        else if o = 0x80 ∧ knownOp (field (w.req.headD 0) 0 16) = false then
          s.hostRequest dev win (val.setWidth 16) (field (w.req.headD 0) 0 16) fun s key _ => s.respond key stBadType []
        else .next s
      else if 0x8000 ≤ off ∧ off < 0x8400 then .next (s.writeVectors dev (off - 0x8000) val)
      else .next s

/-! ### Power and temperature -/

/-- THROTTLE (R458): the budgets of the die's ports are lowered from their next boundary on (R373), and the time is counted. -/
def execThrottle (dev die : Nat) (s : State) : Out :=
  let d := s.device dev
  if 4 ≤ die ∨ d.on = false ∨ (mget d.hot die).isSome then .next s
  else .next (s.setDevice dev { d with hot := mset d.hot die s.timeb })

/-- THROTTLE_END (R458): the throttle counter takes the nanoseconds affected. -/
def execThrottleEnd (dev die : Nat) (s : State) : Out :=
  let d := s.device dev
  match mget d.hot die with
  | none => .next s
  | some t => .next ((s.setDevice dev { d with hot := mdel d.hot die }).count dev 8 die 1 (s.timeb - t))

/-- The volatile state of a device goes with its power (log 37). -/
def State.powerDown (s : State) (dev : Nat) : State :=
  let at_ (place : Nat) : Bool := devOf place != dev
  let d := s.device dev
  let s := s.setDevice dev { Device.reset with parts := d.parts, minSvn := d.minSvn }
  { s with
    mem := s.mem.filter fun c => gaDev c.1 != dev || decide (0x30000000000 ≤ gaPa c.1)
    empties := s.empties.filter fun w => gaDev (8 * w) != dev
    poisoned := s.poisoned.filter fun l => gaDev (64 * l) != dev
    ecc := s.ecc.filter fun (e : Nat × Nat × Bool) => gaDev (64 * e.1) != dev
    procs := s.procs.filter fun (e : Nat × Proc) => keyDev e.1 != dev
    cores := s.cores.filter fun (e : Nat × Core) => at_ e.1
    sheds := s.sheds.filter fun (e : Nat × Shed) => e.1 / 128 != dev
    homes := s.homes.filter fun (e : Nat × Home) => e.1 / 2048 != dev
    bases := s.bases.filter fun (e : Nat × Stack) => e.1 / 12 != dev
    links := s.links.filter fun (e : Nat × Link) => e.1 / 16 != dev
    colls := s.colls.filter fun (e : Nat × Coll) => e.1 / 512 != dev
    windows := s.windows.filter fun (e : Nat × Window) => e.1 / 4 != dev
    hostEps := s.hostEps.filter fun (e : Nat × HostEp) => e.1 / 1024 != dev
    servers := s.servers.filter fun (e : Nat × Server) => at_ e.1
    migrations := s.migrations.filter fun (e : Nat × Migration) => gaDev (65536 * e.1) != dev
    net := s.net.filter fun m => agentDev s m.dst != some dev }

/-- A space of a device that powers down ends as under END (R458); the memory that it has on other devices is given up once
nothing of it is under way there. -/
def State.shutSpace (s : State) (dev asid : Nat) : State :=
  match (s.space asid).devices.find? (· != dev) with
  | none => (s.killSpace asid).eraseSpace asid
  | some d => s.endSpace d none asid

/-- OVERHEAT_SHUTDOWN (R458): every space of the device ends as under END, vector 4 is signalled, and the module powers
down. -/
def execOverheatShutdown (dev die : Nat) (s : State) : Out :=
  if 4 ≤ die ∨ (s.device dev).on = false then .next s
  else
    let s := (s.spaces.filter fun (a : Nat × Space) => a.2.live && a.2.devices.contains dev).foldl (fun s a => s.shutSpace dev a.1) s
    .next ((s.signal dev 4).powerDown dev)

end Sys2Proof.Machine
end

