-- ==== Sys2Proof/Machine/Launch.lean ====
section
/-! DEFINITION. LAUNCH: the launch block (R440), the Huden image and its checks (R98, R99, R103 to R107), mapping and
filling its sections, its records, its channels and its instances (R107, R414), and rejections (R444). -/

namespace Sys2Proof.Machine

/-- A check that failed: reason and image offset (R444). -/
abbrev Check := Bool × Nat × Nat

/-- A launch block (R440). -/
structure LaunchBlock where
  image : List Byte
  sealed : Bool
  disp : List Word
  params : List Word
  devs : List Nat
  assign : List Nat
  /-- the checks of its own fields, in their order. -/
  checks : List Check
  deriving DecidableEq, Repr

/-- Reads a launch block and its image from host memory (R440). -/
def launchBlock (s : State) (dev h : Nat) : LaunchBlock :=
  let b := hostBytes s dev h 0xB0
  let ndev := imgField b 0x0C 2
  let ntt := imgField b 0x0E 2
  let rest := hostBytes s dev (h + 0xB0) (2 * ndev + 2 * ntt)
  let img := hostBytes s dev (imgField b 0 8) (imgField b 8 4)
  let words (o n : Nat) : List Word := (List.range n).map fun i => BitVec.ofNat 64 (imgField b (o + 8 * i) 8)
  let halves (o n : Nat) : List Nat := (List.range n).map fun i => imgField rest (o + 2 * i) 2
  let devs := halves 0 ndev
  let assign := halves (2 * ndev) ntt
  { image := img, sealed := imgField b 0x10 1 % 2 == 1, disp := words 0x18 3, params := words 0x30 16, devs := devs
    assign := assign
    checks := [(decide (1 ≤ ndev ∧ ndev ≤ 4096) && ntt == imgField img 0x10 2, 2, 0),
      (decide (imgField b 0x10 2 < 2) && imgField b 0x12 6 == 0, 1, 0),
      ((words 0x18 3).all (fun w => w.toNat % 65536 == 0) && devs.all (fun d => decide (d < 4096)) && devs == devs.eraseDups &&
        assign.all fun i => decide (i < ndev), 2, 0)] }

/-! ### The image -/

/-- Fields of the header and of section `i` (R103, R104). -/
def imgTypes (b : List Byte) : Nat := imgField b 0x10 2
def imgDoors (b : List Byte) : Nat := imgField b 0x12 2
def imgRels (b : List Byte) : Nat := imgField b 0x1C 4
def imgPats (b : List Byte) : Nat := imgField b 0x24 4
def secAt (b : List Byte) (i : Nat) : Nat := imgField b 8 4 + 32 * i
def secVa (b : List Byte) (i : Nat) : Nat := imgField b (secAt b i) 8
def secFoff (b : List Byte) (i : Nat) : Nat := imgField b (secAt b i + 8) 4
def secFsize (b : List Byte) (i : Nat) : Nat := imgField b (secAt b i + 12) 4
def secMsize (b : List Byte) (i : Nat) : Nat := imgField b (secAt b i + 16) 8
def typeAt (b : List Byte) (t : Nat) : Nat := imgField b 0x0C 4 + 64 * t
def typeEntry (b : List Byte) (t : Nat) : BitVec 512 := BitVec.ofNat 512 (imgField b (typeAt b t) 64)
def doorAt (b : List Byte) (i : Nat) : Nat := imgField b 0x14 4 + 64 * i

/-- The mounted address of a section (R104). -/
def secBase (l : LaunchBlock) (i : Nat) : Word := BitVec.ofNat 64 (secVa l.image i) + (l.disp[i]?).getD 0

/-- The pages of a section. -/
def secPages (b : List Byte) (i : Nat) : Nat := (secMsize b i + 65535) / 65536

/-- The first check that fails. -/
def firstBad (cs : List Check) : Option (Nat × Nat) := (cs.find? fun c => !c.1).map fun c => c.2

/-- The header (R103). -/
def headerChecks (b : List Byte) : List Check :=
  let fits (o n sz : Nat) : Check := (decide (imgField b o 4 + n * sz ≤ b.length), 2, o)
  [(decide (64 ≤ b.length), 1, 0), (imgField b 0 4 == 0x4E445548, 1, 0), (imgField b 4 2 == 1, 1, 4),
   (decide (imgField b 6 2 < 2), 1, 6), (imgField b 0x30 16 == 0, 1, 0x30), (decide (imgTypes b ≤ 4096), 2, 0x10),
   fits 8 4 32, fits 0x0C (imgTypes b) 64, fits 0x14 (imgDoors b) 64, fits 0x18 (imgRels b) 16, fits 0x20 (imgPats b) 16]

/-- A section (R104). That a mounted range which is not canonical, or wraps, is rejected with reason 2 is the model's choice
(log 111). -/
def secChecks (l : LaunchBlock) (i : Nat) : List Check :=
  let b := l.image
  let o := secAt b i
  let last := secBase l i + BitVec.ofNat 64 (secMsize b i - 1)
  [(if i = 3 then secVa b i == 0 else secVa b i % 65536 == 0, 2, o),
   (decide (secFoff b i + secFsize b i ≤ b.length), 2, o + 8), (i != 3 || secFsize b i == 0, 2, o + 12),
   (decide (secFsize b i ≤ secMsize b i), 2, o + 16),
   (i == 3 || secMsize b i == 0 ||
      (canonical (secBase l i) && canonical last && decide (secBase l i ≤ last) && decide (secMsize b i ≤ 2 ^ 56)), 2, o + 16),
   (imgField b (o + 0x18) 8 == 0, 1, o + 0x18)]

/-- Sections that are mounted do not share a page (R107). -/
def overlapChecks (l : LaunchBlock) : List Check :=
  let b := l.image
  let free (i j : Nat) : Bool :=
    let x := (secBase l i).toNat
    let y := (secBase l j).toNat
    secMsize b i == 0 || secMsize b j == 0 || decide (x + 65536 * secPages b i ≤ y ∨ y + 65536 * secPages b j ≤ x)
  [(free 0 1, 3, secAt b 1), (free 0 2, 3, secAt b 2), (free 1 2, 3, secAt b 2)]

/-- A task-type entry (R98, R104). -/
def typeChecks (b : List Byte) (t : Nat) : List Check :=
  let o := typeAt b t
  let e := typeEntry b t
  [((ttEntry e).toNat % 4 == 0, 2, o), (ttSplog e == 0 || decide (6 ≤ ttSplog e ∧ ttSplog e ≤ 19), 2, o + 0x10),
   (ttSplog e == 0 || decide (secMsize b 3 ≤ 2 ^ ttSplog e), 2, o + 0x10), (decide (ttPrio e ≤ 11), 2, o + 0x11),
   (decide (ttPlace e ≤ 3), 2, o + 0x12), (e.extractLsb' 156 4 == 0, 1, o + 0x13),
   (decide (ttTarget e ≤ [767, 95, 3, 0].getD (ttPlace e) 0), 2, o + 0x14), (decide (ttInit e ≤ 4096), 2, o + 0x16),
   ((ttTvec e).toNat % 4 == 0, 2, o + 0x18), (e.extractLsb' 256 256 == 0, 1, o + 0x20)]

/-- The shape of a door declaration, in the fields of a channel descriptor (R99, R164). -/
def doorShape (b : List Byte) (i : Nat) : Option ChanShape :=
  let o := doorAt b i
  let f (x n : Nat) : Nat := imgField b (o + x) n
  if 4 ≤ f 0 1 ∨ 64 < f 1 1 ∨ 14 ≤ f 2 1 ∨ 4096 < f 4 2 ∨ 32768 < f 6 2 then none
  else
    chanShape (BitVec.ofNat 64
      (f 0x12 1 % 64 + 64 * f 0 1 + 256 * f 1 1 + 65536 * f 2 1 + 2 ^ 20 * f 4 2 + 2 ^ 33 * f 6 2))

/-- The ends of a door declaration: task type, instance and door of the send end and of the receive end (R99). -/
def doorEnds (b : List Byte) (i : Nat) : (Nat × Nat × Nat) × (Nat × Nat × Nat) :=
  let o := doorAt b i
  ((imgField b (o + 8) 2, imgField b (o + 10) 2, imgField b (o + 12) 1),
   (imgField b (o + 14) 2, imgField b (o + 16) 2, imgField b (o + 18) 1))

/-- The task type that holds the supervisor fault door (R22): the first with FLAGS[3] and an instance. -/
def supervisorType (b : List Byte) : Option Nat :=
  (List.range (imgTypes b)).find? fun t => ttFlag (typeEntry b t) 3 && decide (1 ≤ ttInit (typeEntry b t))

/-- A door declaration (R99, R22); `before`: the ends that earlier declarations bind. That the loader, too, rejects two
declarations of one door, and with reason 2, is the model's choice (log 110). -/
def doorChecks (b : List Byte) (i : Nat) (before : List (Nat × Nat × Nat)) : List Check :=
  let o := doorAt b i
  let (x, y) := doorEnds b i
  let isEnd (e : Nat × Nat × Nat) : Bool :=
    decide (e.1 < imgTypes b) && decide (e.2.1 < ttInit (typeEntry b e.1))
  let isFree (e : Nat × Nat × Nat) : Bool := !before.contains e && (supervisorType b).map (fun t => (t, 0, 61)) != some e
  [((doorShape b i).isSome, 2, o), (imgField b (o + 3) 1 == 0, 1, o + 3), (isEnd x, 2, o + 8), (decide (x.2.2 ≤ 61), 2, o + 12),
   (imgField b (o + 13) 1 == 0, 1, o + 13), (isEnd y, 2, o + 14), (decide (y.2.2 ≤ 61), 2, o + 18),
   (imgField b (o + 19) 45 == 0, 1, o + 19), (isFree x, 2, o + 12), (isFree y && x != y, 2, o + 18)]

/-! ### Records -/

/-- A relocation or patch record (R105, R106): where it stands, its site, its kind, its source and its addend. -/
structure Rec where
  at_ : Nat
  off : Nat
  sec : Nat
  kind : Nat
  patch : Bool
  src : Nat
  idx : Nat
  addend : Word
  deriving DecidableEq, Repr

/-- The records in the order in which they are applied (R107 step 3). -/
def records (b : List Byte) : List Rec :=
  let rec_ (patch : Bool) (o : Nat) : Rec :=
    { at_ := o, off := imgField b o 4, sec := imgField b (o + 4) 1, kind := imgField b (o + 5) 1, patch := patch
      src := imgField b (o + 6) 1, idx := imgField b (o + 7) 1, addend := BitVec.ofNat 64 (imgField b (o + 8) 8) }
  ((List.range (imgRels b)).map fun i => rec_ false (imgField b 0x18 4 + 16 * i)) ++
    (List.range (imgPats b)).map fun i => rec_ true (imgField b 0x20 4 + 16 * i)

/-- The bytes of its section that a record writes. -/
def Rec.bytes (r : Rec) : List (Nat × Nat) :=
  let os := if r.kind = 1 then [0, 1, 2, 3, 4, 5, 6, 7] else if r.kind = 2 then [0, 1] else [0, 1, 2, 3, 4, 5]
  os.map fun i => (r.sec, r.off + i)

/-- The value of a record on a device (R105, R106). -/
def Rec.value (r : Rec) (l : LaunchBlock) (asid dev : Nat) : Word :=
  r.addend +
    (if !r.patch then secBase l r.src
     else if r.src = 1 then BitVec.ofNat 64 asid
     else if r.src = 2 then BitVec.ofNat 64 dev
     else (l.params[r.idx]?).getD 0)

/-- The instruction word at an offset of a section, as the file holds it. -/
def secWord (b : List Byte) (sec off : Nat) : Nat :=
  if off + 4 ≤ secFsize b sec then imgField b (secFoff b sec + off) 4 else 0

/-- The word that takes the low 16 bits of a record's value. -/
def Rec.word (r : Rec) (b : List Byte) : Nat := secWord b r.sec (if r.kind = 3 then r.off + 4 else r.off)

/-- Whether a value fits its field (R105, R111). -/
def Rec.fits (r : Rec) (b : List Byte) (v : Word) : Bool :=
  let x := v.toInt
  let major := r.word b / 2 ^ 26
  match r.kind with
  | 1 => true
  | 2 =>
    if major = 3 ∨ major = 4 ∨ major = 5 ∨ major = 7 then decide (v.toNat < 65536)
    else decide (-(2 ^ 15) ≤ x ∧ x < 2 ^ 15)
  | _ => decide (-(2 ^ 41) ≤ x ∧ x < 2 ^ 41)

/-- A record (R105, R106, R107); `before`: the bytes that earlier records write. -/
def recChecks (l : LaunchBlock) (asid : Nat) (r : Rec) (before : List (Nat × Nat)) : List Check :=
  let b := l.image
  let major := r.word b / 2 ^ 26
  let first := secWord b r.sec r.off / 2 ^ 26
  let len := if r.kind = 2 then 4 else 8
  [(decide (r.sec ≤ 2), 2, r.at_ + 4), (decide (1 ≤ r.kind ∧ r.kind ≤ 3), 2, r.at_ + 5),
   (if r.patch then decide (1 ≤ r.src ∧ r.src ≤ 3) else decide (r.src ≤ 2), 2, r.at_ + 6),
   (if r.patch then (if r.src = 3 then decide (r.idx ≤ 15) else r.idx == 0) else true, 2, r.at_ + 7),
   (r.patch || r.idx == 0, 1, r.at_ + 7), (decide (r.off + len ≤ secMsize b r.sec), 4, r.at_),
   (r.kind == 1 || (major != 0x15 && major != 0x16 && first != 0x15 && first != 0x16), 2, r.at_),
   (l.devs.all fun d => r.fits b (r.value l asid d), 5, r.at_), (!(r.bytes.any fun x => before.contains x), 6, r.at_)]

/-- The device on which a check fails (R444): for a value that does not fit, one whose value it is; else the launching one. -/
def rejecter (l : LaunchBlock) (asid dev reason off : Nat) : Nat :=
  if reason ≠ 5 then dev
  else
    ((records l.image).findSome? fun r =>
      if r.at_ = off then l.devs.find? fun d => !r.fits l.image (r.value l asid d) else none).getD dev

/-- Every check of R107 on an image, in the order of its tables. -/
def imageChecks (l : LaunchBlock) (asid : Nat) : List Check :=
  let b := l.image
  let doors := (List.range (imgDoors b)).foldl (fun (r : List Check × List (Nat × Nat × Nat)) i =>
    (r.1 ++ doorChecks b i r.2, (doorEnds b i).1 :: (doorEnds b i).2 :: r.2)) ([], [])
  let recs := (records b).foldl (fun (r : List Check × List (Nat × Nat)) x =>
    (r.1 ++ recChecks l asid x r.2, x.bytes ++ r.2)) ([], [])
  headerChecks b ++
    (if (firstBad (headerChecks b)).isSome then []
     else
       ((List.range 4).map (secChecks l)).flatten ++ overlapChecks l ++ ((List.range (imgTypes b)).map (typeChecks b)).flatten ++
         doors.1 ++ recs.1 ++ [(imgField b 6 1 % 2 == 0 || l.sealed, 7, 6)])

/-! ### Loading -/

/-- The contents of a section as (offset, byte), with the records applied (R107 step 3). -/
def secCells (l : LaunchBlock) (asid dev sec : Nat) : List Host.Cell :=
  let b := l.image
  ((records b).filter fun r => r.sec == sec).foldl (fun m r =>
    let v := r.value l asid dev
    match r.kind with
    | 1 => memPut m r.off (leBytes 8 v.toNat)
    | 2 => memPut m r.off (leBytes 2 v.toNat)
    | _ =>
      memPut (memPut m r.off (leBytes 4 (memNat m r.off 4 / 2 ^ 26 * 2 ^ 26 + field v 16 26))) (r.off + 4) (leBytes 2 v.toNat))
    (memPut [] 0 ((b.drop (secFoff b sec)).take (secFsize b sec)))

/-- Bytes from the memory granted to a space on a device, on the first of some pseudo-channels
that can hold them: a failed one cannot. -/
def State.takeFrom (s : State) (dev asid n align : Nat) (chans : List Nat) : Option (State × Nat) :=
  let x := s.space asid
  let up (g : Nat × Nat × Nat × Nat) : Nat := (g.2.2.2 + align - 1) / align * align
  (chans.filter fun c => !(s.home (dev * 2048 + c)).failed).findSome? fun c =>
    (x.granted.find? fun g => g.1 == dev && rangeOf g.2.1 == .hbm c && decide (up g + n ≤ g.2.1 + g.2.2.1)).map fun g =>
      (s.setSpace asid { x with granted := x.granted.map fun h => if h = g then (g.1, g.2.1, g.2.2.1, up g + n) else h },
       gaOf dev (up g))

/-- The pseudo-channels for a device's pages (R107 step 2): the preferred one, its stack, the other stacks. -/
def channelOrder (home : Nat) : List Nat :=
  let stack := home / 64
  home :: (((List.range 64).map (· + 64 * stack)).filter (· != home)) ++
    (List.range 768).filter fun c => c / 64 != stack

/-- Writes the leaf for a page in a tree, adding the tables it needs (R344); `n` counts the levels still to pass. -/
def State.mapFrom (s : State) (dev asid : Nat) (chans : List Nat) (va : Word) (leaf : Nat) : Nat → Nat → Nat → Option State
  | 0, level, t => some { s with mem := memPut s.mem (gaOf dev t + 8 * (va.toNat / 2 ^ levelBits level % 1024)) (leBytes 8 leaf) }
  | n + 1, level, t =>
    let ga := gaOf dev t + 8 * (va.toNat / 2 ^ levelBits level % 1024)
    let e : Word := BitVec.ofNat 64 (memNat s.mem ga 8)
    if e.getLsbD 0 then s.mapFrom dev asid chans va leaf n (level + 1) (leafBase e)
    else
      match s.takeFrom dev asid 8192 8192 chans with
      | none => none
      | some (s, x) =>
        let s := s.zero x 8192
        { s with mem := memPut s.mem ga (leBytes 8 (gaPa x + 1)) }.mapFrom dev asid chans va leaf n (level + 1) (gaPa x)

/-- Maps and fills one page of a section (R104, R107 step 2). -/
def State.loadPage (s : State) (l : LaunchBlock) (dev asid : Nat) (chans : List Nat) (cells : List Host.Cell) (sec i : Nat) :
    Option State :=
  match mget (s.space asid).roots dev, s.takeFrom dev asid 65536 65536 chans with
  | some root, some (s, ga) =>
    let s := s.zero ga 65536
    let s := { s with mem := (cells.filter fun (c : Host.Cell) => c.1 / 65536 == i).foldl (fun (m : List Host.Cell) (c : Host.Cell) => memPut m (ga + c.1 % 65536) [c.2]) s.mem }
    let perm := [0x3B, 0x33, 0x37].getD sec 0x33
    s.mapFrom dev asid chans (secBase l sec + BitVec.ofNat 64 (65536 * i)) (gaPa ga + perm) 3 1 root
  | _, _ => none

/-- Maps and fills the sections on a device (R107 steps 2 and 3). -/
def State.loadDevice (s : State) (l : LaunchBlock) (asid dev home : Nat) : Option State :=
  let chans := channelOrder home
  match s.takeFrom dev asid 8192 8192 chans with
  | none => none
  | some (s, root) =>
    let x := s.space asid
    let s := (s.setSpace asid { x with roots := mset x.roots dev (gaPa root) }).zero root 8192
    ([0, 1, 2] : List Nat).foldl (fun (r : Option State) sec =>
      let cells := secCells l asid dev sec
      (List.range (secPages l.image sec)).foldl (fun r i => r.bind fun s => s.loadPage l dev asid chans cells sec i) r) (some s)

/-- A task-type entry as the loader writes it (R107 step 5). -/
def adjusted (l : LaunchBlock) (e : BitVec 512) : BitVec 512 :=
  let b := l.image
  let move (x : Word) : Word :=
    if x = 0 then 0
    else
      match ([0, 1, 2] : List Nat).find? fun i => decide (secVa b i ≤ x.toNat ∧ x.toNat < secVa b i + secMsize b i) with
      | none => x
      | some i => x + (l.disp[i]?).getD 0
  let put (e : BitVec 512) (i : Nat) : BitVec 512 :=
    let old : Word := e.extractLsb' i 64
    e ^^^ (((old ^^^ move old).setWidth 512) <<< i)
  put (put (put e 0) 64) 192

/-- The core on which instance `j` of a task type starts (R98). -/
def instanceCore (e : BitVec 512) (j : Nat) : Nat :=
  let set := placeSet e
  set.getD (j % set.length) 0

/-- The pseudo-channel preferred on a device (R107 step 2). -/
def homeChannel (l : LaunchBlock) (di : Nat) : Nat :=
  match (List.range (imgTypes l.image)).find? fun t => l.assign.getD t 0 == di && decide (1 ≤ ttInit (typeEntry l.image t)) with
  | none => 0
  | some t => instanceCore (typeEntry l.image t) 0

/-- The device on which the instances of a task type run (R440). -/
def LaunchBlock.devOfType (l : LaunchBlock) (t : Nat) : Nat := l.devs.getD (l.assign.getD t 0) 0

/-- A result on a device, or that device, where it has no room (R444). -/
def onDev (dev : Nat) (x : Option α) : Except Nat α :=
  match x with
  | none => .error dev
  | some y => .ok y

/-- Starts an instance: its key and generation (R98, R107 step 7). -/
def State.startInstance (s : State) (l : LaunchBlock) (asid t j : Nat) : Option (State × Nat × Nat) :=
  let e := typeEntry l.image t
  let pl := l.devOfType t * 1024 + instanceCore e j
  let c : Child :=
    { asid := asid, ttype := t, g1 := BitVec.ofNat 64 j, parent := 0, join := 0, autop := true, dropTrap := false, numctl := 4,
      epol := 0, tvec := 0, order := [], victim := none, entry := adjusted l e }
  match s.create pl c with
  | (s, some h) => some (s, handleKey h, handleGen h)
  | (_, none) => none

/-- Puts an end in a door of an instance. -/
def State.bindDoor (s : State) (k door c : Nat) (isSend cap : Bool) : State :=
  s.modLive k fun p => { p with doors := mset p.doors door { chan := c, isSend := isSend, bindCap := cap, marks := 0 } }

/-- Creates a declared channel between two instances (R99, R107 step 6). Neither R99 nor R107 says whether its ends carry
the bind capability, which R165 gives those of CHNEW and R22 that of the fault door: here they do not (log 91). -/
def State.declare (s : State) (asid : Nat) (w : ChanShape) (a : Nat × Nat × Nat) (b : Nat × Nat × Nat) : Option State :=
  let need := if w.typ = .tile then w.cap * w.rows * w.rowb else 0
  match (if need = 0 then some (s, 0) else s.grantBytes (placeOf b.1) asid need) with
  | none => none
  | some (s, stage) =>
    let c := s.nextChan
    let s := { s with nextChan := c + 1 }
    some ((((s.setChan c (newChan w asid stage (.proc a.1 a.2.1 a.2.2) (.proc b.1 b.2.1 b.2.2))).bindDoor a.1 a.2.2 c true false).bindDoor
      b.1 b.2.2 c false false).fixPath c)

/-- The memory that the firmware grants to a space on a device (log 18): a free slice of 64 MiB of every pseudo-channel. -/
def freeSlice (s : State) (dev : Nat) : Option Nat :=
  (List.range 16).find? fun j => !(s.spaces.any fun (a : Nat × Space) => a.2.granted.any fun g => g.1 == dev && g.2.1 == j * 2 ^ 26)

/-- The lowest ASID that no space has (log 18). -/
def freeAsid (s : State) : Option Nat :=
  ((List.range 16384).map fun i => (i + 1) % 16384).find? fun a => (mget s.spaces a).isNone

/-- Gives every core of a device its unit save pool of 8 areas (R28). -/
def State.givePools (s : State) (dev asid : Nat) : Option State :=
  (List.range 768).foldl (fun (r : Option State) c => r.bind fun s => s.growPool (dev * 1024 + c) asid 8) (some s)

/-- The new space with its fault door, before anything is mapped (R22, R414). -/
def State.newSpace (s : State) (l : LaunchBlock) (asid dev : Nat) (slices : List (Nat × Nat)) : State :=
  let c := s.nextChan
  let w : ChanShape := { rdoor := 0, typ := .message, cap := 64, ety := none, rows := 0, rowb := 0 }
  let x : Space :=
    { Space.reset with
      live := true, sealed := l.sealed, devices := l.devs, faultChan := c, imageHash := sha512 l.image
      types := (List.range (imgTypes l.image)).map fun t => adjusted l (typeEntry l.image t)
      keyId := if l.sealed then s.free + 1 else 0
      granted := (slices.map fun d => (List.range 768).map fun ch =>
        (d.1, ch * 2 ^ 30 + d.2 * 2 ^ 26, 2 ^ 26, ch * 2 ^ 30 + d.2 * 2 ^ 26)).flatten }
  let s := { s with nextChan := c + 1, free := if l.sealed then s.free + 1 else s.free }
  (s.setSpace asid x).setChan c (newChan w asid 0 .gone (.service dev))

/-- The instances of the image, with their type and number (R107 step 7). -/
def State.startAll (s : State) (l : LaunchBlock) (asid : Nat) : Except Nat (State × List (Nat × Nat × Nat × Nat)) :=
  (List.range (imgTypes l.image)).foldl (fun r t =>
    (List.range (ttInit (typeEntry l.image t))).foldl (fun (r : Except Nat (State × List (Nat × Nat × Nat × Nat))) j =>
      r.bind fun x => (onDev (l.devOfType t) (x.1.startInstance l asid t j)).map fun y => (y.1, (t, j, y.2.1, y.2.2) :: x.2)) r)
    (.ok (s, []))

/-- Binds the fault door to the supervisor's instance (R22). -/
def State.bindFaultDoor (s : State) (l : LaunchBlock) (asid : Nat) (is : List (Nat × Nat × Nat × Nat)) : State :=
  match (supervisorType l.image).bind fun t => is.find? fun i => i.1 == t && i.2.1 == 0 with
  | none => s
  | some (_, _, k, gen) =>
    let c := (s.space asid).faultChan
    (s.modChan c fun x => { x with recv := .proc k gen 61 }).bindDoor k 61 c false true

/-- Creates the declared channels (R107 step 6, R414). -/
def State.declareAll (s : State) (l : LaunchBlock) (asid : Nat) (is : List (Nat × Nat × Nat × Nat)) : Except Nat State :=
  let inst (e : Nat × Nat × Nat) : Option (Nat × Nat × Nat) :=
    (is.find? fun i => i.1 == e.1 && i.2.1 == e.2.1).map fun i => (i.2.2.1, i.2.2.2, e.2.2)
  (List.range (imgDoors l.image)).foldl (fun (r : Except Nat State) i =>
    r.bind fun s =>
      onDev (l.devOfType (doorEnds l.image i).2.1)
        (match doorShape l.image i, inst (doorEnds l.image i).1, inst (doorEnds l.image i).2 with
         | some w, some a, some b => s.declare asid w a b
         | _, _, _ => none)) (.ok s)

/-- The devices between which a launch needs a route (R423): from the launching one to each, and between those of the ends of
a declared channel. -/
def LaunchBlock.hops (l : LaunchBlock) (dev : Nat) : List (Nat × Nat) :=
  l.devs.map (fun d => (dev, d)) ++ (List.range (imgDoors l.image)).flatMap fun i =>
    let a := l.devOfType (doorEnds l.image i).1.1
    let b := l.devOfType (doorEnds l.image i).2.1
    [(a, b), (b, a)]

/-- Whether the devices of a launch can be reached, and sessions agreed for a sealed space (R423, R429): the first that
cannot. -/
def unreachableDev (s : State) (l : LaunchBlock) (dev : Nat) : Option Nat :=
  ((l.hops dev).find? fun h => !(s.device h.2).on || (h.1 != h.2 && (mget (s.device h.1).routes h.2).getD 0 == 0)).map (·.2) |>.orElse
    fun _ => l.devs.find? fun d => l.sealed && l.devs.any fun e => e != d && !(peerAccepted s d e && peerAccepted s e d)

/-- Steps 2 to 7 of R107 on every device, or the device that has no room. -/
def State.loadAll (s : State) (l : LaunchBlock) (dev asid : Nat) (slices : List (Nat × Nat)) : Except Nat State :=
  let s := s.newSpace l asid dev slices
  let s := l.devs.foldl (fun s a => l.devs.foldl (fun s b => if a < b then s.agree asid a b else s) s) s
  let loaded := (List.range l.devs.length).foldl (fun (r : Except Nat State) i =>
    let d := l.devs.getD i 0
    r.bind fun s => onDev d ((s.loadDevice l asid d (homeChannel l i)).bind fun s => s.givePools d asid)) (.ok s)
  match loaded with
  | .error d => .error d
  | .ok s =>
    let s := { s with cores := s.cores.map fun (c : Nat × Core) => if l.devs.contains (devOf c.1) then (c.1, { c.2 with icache := [] }) else c }
    match s.startAll l asid with
    | .error d => .error d
    | .ok (s, is) => (s.bindFaultDoor l asid is).declareAll l asid is

/-- The memory that the devices of a launch grant (log 18), or a device that has none to grant. -/
def grantSlices (s : State) : List Nat → Except Nat (List (Nat × Nat))
  | [] => .ok []
  | d :: ds =>
    match freeSlice s d with
    | none => .error d
    | some j => (grantSlices s ds).map fun r => (d, j) :: r

/-- The rejection of a launch (R444). -/
def State.rejectLaunch (s : State) (key dev reason off by_ : Nat) : State :=
  let st := if reason = 8 then stFull else if reason = 9 then stClosed else stBadType
  (s.respond key st [0, BitVec.ofNat 64 reason, BitVec.ofNat 64 off, BitVec.ofNat 64 by_]).signal dev 4

/-- LAUNCH (R107, R414, R440, R444): the image is checked first; a rejected one maps and starts nothing. -/
def execLaunch (dev win : Nat) (tag : BitVec 16) (s : State) : Out :=
  s.hostRequest dev win tag 0x0001 fun s key r =>
    let l := launchBlock s dev (reqArg r 1).toNat
    match freeAsid s with
    | none => s.rejectLaunch key dev 8 0 dev
    | some asid =>
      match firstBad (l.checks ++ imageChecks l asid) with
      | some (reason, off) => s.rejectLaunch key dev reason off (rejecter l asid dev reason off)
      | none =>
        match unreachableDev s l dev with
        | some d => s.rejectLaunch key dev 9 0 d
        | none =>
          match (grantSlices s l.devs).bind fun slices => s.loadAll l dev asid slices with
          | .error d => s.rejectLaunch key dev 8 0 d
          | .ok s => s.respond key stOk [BitVec.ofNat 64 asid]

end Sys2Proof.Machine
end

