-- ==== Sys2Proof/Machine/VectorMemory.lean ====
section
/-! DEFINITION. The vector memory instructions: major 0x25 (R189 to R194). -/

namespace Sys2Proof.Machine

/-- The active elements of a mask and type, with their addresses (R189). -/
def activeEls (p : Proc) (k : BitVec 3) (ty : Ty) (addr : Nat → Word) : List (Nat × Word) :=
  ((List.range (elCount ty.bytes)).filter fun j => (p.rk k).getLsbD j).map fun j => (j, addr j)

/-- The three address forms of R189: contiguous, strided, indexed. -/
def addrAt (p : Proc) (b : BitVec 5) (ty : Ty) (j : Nat) : Word := p.rg b + BitVec.ofNat 64 (j * ty.bytes)
def addrStride (p : Proc) (b c : BitVec 5) (j : Nat) : Word := p.rg b + BitVec.ofNat 64 j * p.rg c
def addrIndex (p : Proc) (b c : BitVec 5) (ty : Ty) (j : Nat) : Word :=
  p.rg b + BitVec.ofInt 64 ((ty.bytes : Int) * toSigned (8 * ty.bytes) (getEl ty.bytes (p.rv c) j))

/-- The lowest of the addresses that a test selects (R190). -/
def lowestVa (els : List (Nat × Word)) (f : Word → Bool) : Option Word :=
  (els.filter fun e => f e.2).foldl (fun best e =>
    match best with
    | none => some e.2
    | some x => if e.2.ult x then some e.2 else some x) none

/-- The 64 KiB pages of active elements, ascending (R190). -/
def pagesOf (els : List (Nat × Word)) : List Nat := els.foldl (fun ps e => sadd ps (e.2.toNat / 65536)) []

/-- The active elements in a page. -/
def inPage (els : List (Nat × Word)) (pg : Nat) : List (Nat × Word) := els.filter fun e => e.2.toNat / 65536 == pg

/-- Translates the elements of a page: its elements with global address and leaf, or cause, detail and the
lowest address in it (R190); or none where its walk must wait. -/
def pageXlate (s : State) (k : Nat) (p : Proc) (els : List (Nat × Word)) (pg : Nat) (a : Access) :
    State × Except (Option (Nat × Nat × Word)) (List (Nat × Word × Nat × Word)) :=
  let mine := inPage els pg
  let low := (lowestVa mine (fun _ => true)).getD 0
  match translate s (placeOf k) p.asid p.smode low a with
  | (s, .fault c d) => (s, .error (some (c, d, low)))
  | (s, .wait) => (s, .error none)
  | (s, .ok ga leaf) => (s, .ok (mine.map fun e => (e.1, e.2, ga + e.2.toNat - low.toNat, leaf)))

/-- Translates pages in order, up to the first failure. -/
def pagesXlate (s : State) (k : Nat) (p : Proc) (els : List (Nat × Word)) (a : Access) :
    List Nat → State × Except (Option (Nat × Nat × Word)) (List (Nat × Word × Nat × Word))
  | [] => (s, .ok [])
  | pg :: rest =>
    match pageXlate s k p els pg a with
    | (s, .error e) => (s, .error e)
    | (s, .ok xs) =>
      match pagesXlate s k p els a rest with
      | (s, .error e) => (s, .error e)
      | (s, .ok ys) => (s, .ok (xs ++ ys))

/-- The checks of R190 on the addresses: ALIGN, then non-canonical, with the lowest such address. -/
def elsTrap (els : List (Nat × Word)) (e : Nat) : Option (Nat × Nat × Word) :=
  match lowestVa els (fun va => va.toNat % e != 0) with
  | some va => some (4, 0, va)
  | none => (lowestVa els (fun va => !canonical va)).map fun va => (5, 2, va)

/-- Elements in ascending index. -/
def byIndex (xs : List (Nat × Word × Nat × Word)) : List (Nat × Word × Nat × Word) :=
  (List.range 64).filterMap fun j => xs.find? fun x => x.1 == j

/-- A vector load (R190, R191): one read per active element. -/
def State.vecLoad (s : State) (k : Nat) (p : Proc) (a : BitVec 5) (ty : Ty) (els : List (Nat × Word)) : State :=
  let e := ty.bytes
  let pl := placeOf k
  match elsTrap els e with
  | some (c, d, va) => s.trap k p false c d va
  | none =>
    match pagesXlate s k p els .read (pagesOf els) with
    | (s, .error (some (c, d, va))) => s.trap k p false c d va
    | (s, .error none) => s.stallOn k p .order none
    | (s, .ok xs) =>
      if xs.any fun x => feWaits s k p.gen x.2.2.1 then s.stallOn k p .order none
      else if xs.isEmpty then s.fin k p
      else
        let s := (byIndex xs).foldl (fun s x =>
          s.post pl (accessAgent s pl x.2.2.1) (some (ownOf k p .plain))
            (readBody s pl p.asid x.2.2.1 e x.2.2.2 (.v a e x.1) x.2.1 p.dropTrap)) s
        let q := { p.ev a with
          vfills := { reg := a, left := xs.length, data := p.rv a, poison := none, dropTrap := p.dropTrap } :: p.vfills }
        s.produced k p q

/-- The writes of a vector store to the elements of its translated pages, in their order (R190). -/
def State.vecWrites (s : State) (k : Nat) (p : Proc) (a : BitVec 5) (e : Nat) (xs : List (Nat × Word × Nat × Word)) : State :=
  xs.foldl (fun s x =>
    (s.combineAt (placeOf k) x.2.2.1).post (placeOf k) (accessAgent s (placeOf k) x.2.2.1) (some (ownOf k p .plain))
      (writeBody x.2.2.1 (leBytes e (getEl e (p.rv a) x.1)) x.2.2.2)) s

/-- The pages below the first that fails or must wait: their elements, and how the one behind them ends. -/
def pagesReach (s : State) (k : Nat) (p : Proc) (els : List (Nat × Word)) :
    List Nat → State × List (Nat × Word × Nat × Word) × Option (Option (Nat × Nat × Word))
  | [] => (s, [], none)
  | pg :: rest =>
    match pageXlate s k p els pg .write with
    | (s, .error e) => (s, [], some e)
    | (s, .ok xs) =>
      match pagesReach s k p els rest with
      | (s, ys, e) => (s, xs ++ ys, e)

/-- A vector store (R190): the stores of the pages in ascending order, and the trap of a failing page after those below it.
A routine or handler, which a trap ends, first waits for its earlier accesses, as for any trap. -/
def State.vecStore (s : State) (k : Nat) (p : Proc) (a : BitVec 5) (ty : Ty) (els : List (Nat × Word)) : State :=
  match elsTrap els ty.bytes with
  | some (c, d, va) => s.trap k p false c d va
  | none =>
    match pagesReach s k p els (pagesOf els) with
    | (s, _, some none) => s.stallOn k p .order none
    | (s, xs, e) =>
      if xs.any fun x => feWaits s k p.gen x.2.2.1 then s.stallOn k p .order none
      else
        match e with
        | some (some (c, d, va)) =>
          if p.kind != .normal && outstanding s k p.gen (fun _ _ => true) then s.stallOn k p .order none
          else ((s.vecWrites k p a ty.bytes xs).setProc k { p with stall := none }).takeTrap k c d va p.pc false false
        | _ => (s.vecWrites k p a ty.bytes xs).fin k p

/-- The offset of an element of a scratchpad form (R193): aligned down to the element. -/
def spadOff (p : Proc) (va : Word) (e : Nat) : Nat := scratchOff p va 0 e

/-- A scratchpad vector load (R193): read now, filled within 4 cycles. -/
def State.vecSpl (s : State) (k : Nat) (p : Proc) (a b : BitVec 5) (ty : Ty) (els : List (Nat × Word)) : State :=
  let e := ty.bytes
  s.withSpad k p false (p.rg b)
    (let x := vBuild e fun j =>
      match mget els j with
      | none => getEl e (p.rv a) j
      | some va => spadNat s k p (spadOff p va e) e
     (s.selfFill k p [.v a x]).fin k (p.ev a))
    (gas := els.map fun x => spadGa k p (spadOff p x.2 ty.bytes))

/-- A scratchpad vector store (R193), in ascending index. -/
def State.vecSps (s : State) (k : Nat) (p : Proc) (a b : BitVec 5) (ty : Ty) (els : List (Nat × Word)) : State :=
  let e := ty.bytes
  s.withSpad k p false (p.rg b)
    ((els.foldl (fun s x => s.spadPut k p (spadOff p x.2 e) (leBytes e (getEl e (p.rv a) x.1))) s).fin k p)
    (gas := els.map fun x => spadGa k p (spadOff p x.2 ty.bytes))

/-- VLD (R190). -/
def execVld (a b : BitVec 5) (k : BitVec 3) (ty : Ty) (s : State) : Out :=
  issue { srcs := [.g b], dsts := [.v a], touch := .plain } (fun key p s =>
    s.vecLoad key p a ty (activeEls p k ty (addrAt p b ty))) s

/-- VST (R190). -/
def execVst (a b : BitVec 5) (k : BitVec 3) (ty : Ty) (s : State) : Out :=
  issue { srcs := [.g b, .v a], touch := .plain } (fun key p s =>
    s.vecStore key p a ty (activeEls p k ty (addrAt p b ty))) s

/-- VLDS (R190). -/
def execVlds (a b c : BitVec 5) (k : BitVec 3) (ty : Ty) (s : State) : Out :=
  issue { srcs := [.g b, .g c], dsts := [.v a], touch := .plain } (fun key p s =>
    s.vecLoad key p a ty (activeEls p k ty (addrStride p b c))) s

/-- VSTS (R190). -/
def execVsts (a b c : BitVec 5) (k : BitVec 3) (ty : Ty) (s : State) : Out :=
  issue { srcs := [.g b, .g c, .v a], touch := .plain } (fun key p s =>
    s.vecStore key p a ty (activeEls p k ty (addrStride p b c))) s

/-- VGATH (R190). -/
def execVgath (a b c : BitVec 5) (k : BitVec 3) (ty : Ty) (s : State) : Out :=
  issue { srcs := [.g b, .v c], dsts := [.v a], touch := .plain } (fun key p s =>
    s.vecLoad key p a ty (activeEls p k ty (addrIndex p b c ty))) s

/-- VSCAT (R190). -/
def execVscat (a b c : BitVec 5) (k : BitVec 3) (ty : Ty) (s : State) : Out :=
  issue { srcs := [.g b, .v c, .v a], touch := .plain } (fun key p s =>
    s.vecStore key p a ty (activeEls p k ty (addrIndex p b c ty))) s

/-- VSPL (R193). -/
def execVspl (a b : BitVec 5) (k : BitVec 3) (ty : Ty) (s : State) : Out :=
  issue { srcs := [.g b], dsts := [.v a], touch := .plain } (fun key p s =>
    s.vecSpl key p a b ty (activeEls p k ty (addrAt p b ty))) s

/-- VSPS (R193). -/
def execVsps (a b : BitVec 5) (k : BitVec 3) (ty : Ty) (s : State) : Out :=
  issue { srcs := [.g b, .v a], touch := .plain } (fun key p s =>
    s.vecSps key p a b ty (activeEls p k ty (addrAt p b ty))) s

/-- VSPGA (R193). -/
def execVspga (a b c : BitVec 5) (k : BitVec 3) (ty : Ty) (s : State) : Out :=
  issue { srcs := [.g b, .v c], dsts := [.v a], touch := .plain } (fun key p s =>
    s.vecSpl key p a b ty (activeEls p k ty (addrIndex p b c ty))) s

/-- VSPSC (R193). -/
def execVspsc (a b c : BitVec 5) (k : BitVec 3) (ty : Ty) (s : State) : Out :=
  issue { srcs := [.g b, .v c, .v a], touch := .plain } (fun key p s =>
    s.vecSps key p a b ty (activeEls p k ty (addrIndex p b c ty))) s

end Sys2Proof.Machine
end

