-- ==== Sys2Proof/Machine/Dispatch.lean ====
section
/-! DEFINITION. The dispatch of an instruction or step to its meaning, one arm per row of
spec/opcode_table.json. -/

namespace Sys2Proof.Machine

open Sys2Proof

/-- The meaning of an instruction or step. -/
def exec (i : Instr) (s : State) : Host.Outcome State Fault Refusal :=
  match i with
  | .add a b c => Sys2Proof.Machine.execAdd a b c s
  | .sub a b c => Sys2Proof.Machine.execSub a b c s
  | .and a b c => Sys2Proof.Machine.execAnd a b c s
  | .or a b c => Sys2Proof.Machine.execOr a b c s
  | .xor a b c => Sys2Proof.Machine.execXor a b c s
  | .andn a b c => Sys2Proof.Machine.execAndn a b c s
  | .shl a b c => Sys2Proof.Machine.execShl a b c s
  | .shr a b c => Sys2Proof.Machine.execShr a b c s
  | .sra a b c => Sys2Proof.Machine.execSra a b c s
  | .rol a b c => Sys2Proof.Machine.execRol a b c s
  | .mul a b c => Sys2Proof.Machine.execMul a b c s
  | .mulh a b c => Sys2Proof.Machine.execMulh a b c s
  | .mulhu a b c => Sys2Proof.Machine.execMulhu a b c s
  | .div a b c => Sys2Proof.Machine.execDiv a b c s
  | .divu a b c => Sys2Proof.Machine.execDivu a b c s
  | .rem a b c => Sys2Proof.Machine.execRem a b c s
  | .remu a b c => Sys2Proof.Machine.execRemu a b c s
  | .min a b c => Sys2Proof.Machine.execMin a b c s
  | .max a b c => Sys2Proof.Machine.execMax a b c s
  | .minu a b c => Sys2Proof.Machine.execMinu a b c s
  | .maxu a b c => Sys2Proof.Machine.execMaxu a b c s
  | .slt a b c => Sys2Proof.Machine.execSlt a b c s
  | .sltu a b c => Sys2Proof.Machine.execSltu a b c s
  | .seq a b c => Sys2Proof.Machine.execSeq a b c s
  | .clz a b => Sys2Proof.Machine.execClz a b s
  | .ctz a b => Sys2Proof.Machine.execCtz a b s
  | .popc a b => Sys2Proof.Machine.execPopc a b s
  | .brev a b => Sys2Proof.Machine.execBrev a b s
  | .bswap a b => Sys2Proof.Machine.execBswap a b s
  | .sextB a b => Sys2Proof.Machine.execSextB a b s
  | .sextH a b => Sys2Proof.Machine.execSextH a b s
  | .sextW a b => Sys2Proof.Machine.execSextW a b s
  | .zextB a b => Sys2Proof.Machine.execZextB a b s
  | .zextH a b => Sys2Proof.Machine.execZextH a b s
  | .zextW a b => Sys2Proof.Machine.execZextW a b s
  | .lea1 a b c => Sys2Proof.Machine.execLea1 a b c s
  | .lea2 a b c => Sys2Proof.Machine.execLea2 a b c s
  | .lea4 a b c => Sys2Proof.Machine.execLea4 a b c s
  | .lea8 a b c => Sys2Proof.Machine.execLea8 a b c s
  | .addi a b imm => Sys2Proof.Machine.execAddi a b imm s
  | .andi a b imm => Sys2Proof.Machine.execAndi a b imm s
  | .ori a b imm => Sys2Proof.Machine.execOri a b imm s
  | .xori a b imm => Sys2Proof.Machine.execXori a b imm s
  | .slti a b imm => Sys2Proof.Machine.execSlti a b imm s
  | .sltiu a b imm => Sys2Proof.Machine.execSltiu a b imm s
  | .shiL a b n => Sys2Proof.Machine.execShiL a b n s
  | .shiR a b n => Sys2Proof.Machine.execShiR a b n s
  | .shiA a b n => Sys2Proof.Machine.execShiA a b n s
  | .shiRol a b n => Sys2Proof.Machine.execShiRol a b n s
  | .movhi a b imm => Sys2Proof.Machine.execMovhi a b imm s
  | .muli a b imm => Sys2Proof.Machine.execMuli a b imm s
  | .extPair x f a b imm => Sys2Proof.Machine.execExtPair x f a b imm s
  | .beq a b imm => Sys2Proof.Machine.execBeq a b imm s
  | .bne a b imm => Sys2Proof.Machine.execBne a b imm s
  | .blt a b imm => Sys2Proof.Machine.execBlt a b imm s
  | .bge a b imm => Sys2Proof.Machine.execBge a b imm s
  | .bltu a b imm => Sys2Proof.Machine.execBltu a b imm s
  | .bgeu a b imm => Sys2Proof.Machine.execBgeu a b imm s
  | .dbnz a imm => Sys2Proof.Machine.execDbnz a imm s
  | .j imm => Sys2Proof.Machine.execJ imm s
  | .call imm => Sys2Proof.Machine.execCall imm s
  | .jr b => Sys2Proof.Machine.execJr b s
  | .callr a b => Sys2Proof.Machine.execCallr a b s
  | .ret => Sys2Proof.Machine.execRet s
  | .ld a b o sz => Sys2Proof.Machine.execLd a b o sz s
  | .st a b o sz => Sys2Proof.Machine.execSt a b o sz s
  | .ldx a b c sz => Sys2Proof.Machine.execLdx a b c sz s
  | .stx a b c sz => Sys2Proof.Machine.execStx a b c sz s
  | .lda a b p sz => Sys2Proof.Machine.execLda a b p sz s
  | .stl a b p sz => Sys2Proof.Machine.execStl a b p sz s
  | .lds a b c t => Sys2Proof.Machine.execLds a b c t s
  | .sts a b c t => Sys2Proof.Machine.execSts a b c t s
  | .ldf a b c t => Sys2Proof.Machine.execLdf a b c t s
  | .feget a b => Sys2Proof.Machine.execFeget a b s
  | .feset a b => Sys2Proof.Machine.execFeset a b s
  | .spl a b o sz => Sys2Proof.Machine.execSpl a b o sz s
  | .sps a b o sz => Sys2Proof.Machine.execSps a b o sz s
  | .amoAdd a b c o d => Sys2Proof.Machine.execAmoAdd a b c o d s
  | .amoAnd a b c o d => Sys2Proof.Machine.execAmoAnd a b c o d s
  | .amoOr a b c o d => Sys2Proof.Machine.execAmoOr a b c o d s
  | .amoXor a b c o d => Sys2Proof.Machine.execAmoXor a b c o d s
  | .amoMin a b c o d => Sys2Proof.Machine.execAmoMin a b c o d s
  | .amoMax a b c o d => Sys2Proof.Machine.execAmoMax a b c o d s
  | .amoMinu a b c o d => Sys2Proof.Machine.execAmoMinu a b c o d s
  | .amoMaxu a b c o d => Sys2Proof.Machine.execAmoMaxu a b c o d s
  | .amoSwap a b c o d => Sys2Proof.Machine.execAmoSwap a b c o d s
  | .cas a b c o d => Sys2Proof.Machine.execCas a b c o d s
  | .redAdd b c d => Sys2Proof.Machine.execRedAdd b c d s
  | .redFadd b c d => Sys2Proof.Machine.execRedFadd b c d s
  | .redMin b c d => Sys2Proof.Machine.execRedMin b c d s
  | .redMax b c d => Sys2Proof.Machine.execRedMax b c d s
  | .deleg a b c => Sys2Proof.Machine.execDeleg a b c s
  | .fence p kinds => Sys2Proof.Machine.execFence p kinds s
  | .monw a b c t n mem => Sys2Proof.Machine.execMonw a b c t n mem s
  | .gjoin a b => Sys2Proof.Machine.execGjoin a b s
  | .gleave b => Sys2Proof.Machine.execGleave b s
  | .barArrive a b => Sys2Proof.Machine.execBarArrive a b s
  | .barDrop a b => Sys2Proof.Machine.execBarDrop a b s
  | .barWait a b c t => Sys2Proof.Machine.execBarWait a b c t s
  | .spawn a b c n => Sys2Proof.Machine.execSpawn a b c n s
  | .exit => Sys2Proof.Machine.execExit s
  | .exitR b => Sys2Proof.Machine.execExitR b s
  | .yield => Sys2Proof.Machine.execYield s
  | .prio b => Sys2Proof.Machine.execPrio b s
  | .jwait a t n => Sys2Proof.Machine.execJwait a t n s
  | .self a => Sys2Proof.Machine.execSelf a s
  | .send a b f d t => Sys2Proof.Machine.execSend a b f d t s
  | .recv a b f d t => Sys2Proof.Machine.execRecv a b f d t s
  | .alt a b t => Sys2Proof.Machine.execAlt a b t s
  | .poison a d => Sys2Proof.Machine.execPoison a d s
  | .mark a => Sys2Proof.Machine.execMark a s
  | .chnew a b d => Sys2Proof.Machine.execChnew a b d s
  | .chbind a b c d => Sys2Proof.Machine.execChbind a b c d s
  | .chbindD a b => Sys2Proof.Machine.execChbindD a b s
  | .chclose a d => Sys2Proof.Machine.execChclose a d s
  | .amsg a b c t => Sys2Proof.Machine.execAmsg a b c t s
  | .winopen a b c d => Sys2Proof.Machine.execWinopen a b c d s
  | .winclose a d => Sys2Proof.Machine.execWinclose a d s
  | .sendt a b d t => Sys2Proof.Machine.execSendt a b d t s
  | .recvt a b d t => Sys2Proof.Machine.execRecvt a b d t s
  | .thalo a b c d t => Sys2Proof.Machine.execThalo a b c d t s
  | .vadd a b c k ty => Sys2Proof.Machine.execVadd a b c k ty s
  | .vsub a b c k ty => Sys2Proof.Machine.execVsub a b c k ty s
  | .vmul a b c k ty => Sys2Proof.Machine.execVmul a b c k ty s
  | .vfma a b c k ty => Sys2Proof.Machine.execVfma a b c k ty s
  | .vfms a b c k ty => Sys2Proof.Machine.execVfms a b c k ty s
  | .vmin a b c k ty => Sys2Proof.Machine.execVmin a b c k ty s
  | .vmax a b c k ty => Sys2Proof.Machine.execVmax a b c k ty s
  | .vabs a b k ty => Sys2Proof.Machine.execVabs a b k ty s
  | .vneg a b k ty => Sys2Proof.Machine.execVneg a b k ty s
  | .vadds a b c k ty => Sys2Proof.Machine.execVadds a b c k ty s
  | .vsubs a b c k ty => Sys2Proof.Machine.execVsubs a b c k ty s
  | .vmulh a b c k ty => Sys2Proof.Machine.execVmulh a b c k ty s
  | .vabsd a b c k ty => Sys2Proof.Machine.execVabsd a b c k ty s
  | .vdiv a b c k ty => Sys2Proof.Machine.execVdiv a b c k ty s
  | .vsqrt a b k ty => Sys2Proof.Machine.execVsqrt a b k ty s
  | .vand a b c k ty => Sys2Proof.Machine.execVand a b c k ty s
  | .vor a b c k ty => Sys2Proof.Machine.execVor a b c k ty s
  | .vxor a b c k ty => Sys2Proof.Machine.execVxor a b c k ty s
  | .vandn a b c k ty => Sys2Proof.Machine.execVandn a b c k ty s
  | .vnot a b k ty => Sys2Proof.Machine.execVnot a b k ty s
  | .vshl a b c k ty => Sys2Proof.Machine.execVshl a b c k ty s
  | .vshr a b c k ty => Sys2Proof.Machine.execVshr a b c k ty s
  | .vsra a b c k ty => Sys2Proof.Machine.execVsra a b c k ty s
  | .vrol a b c k ty => Sys2Proof.Machine.execVrol a b c k ty s
  | .vshlg a b c k ty => Sys2Proof.Machine.execVshlg a b c k ty s
  | .vshrg a b c k ty => Sys2Proof.Machine.execVshrg a b c k ty s
  | .vsrag a b c k ty => Sys2Proof.Machine.execVsrag a b c k ty s
  | .vrolg a b c k ty => Sys2Proof.Machine.execVrolg a b c k ty s
  | .vclz a b k ty => Sys2Proof.Machine.execVclz a b k ty s
  | .vpopc a b k ty => Sys2Proof.Machine.execVpopc a b k ty s
  | .vctz a b k ty => Sys2Proof.Machine.execVctz a b k ty s
  | .vcmpEq a b c k ty => Sys2Proof.Machine.execVcmpEq a b c k ty s
  | .vcmpNe a b c k ty => Sys2Proof.Machine.execVcmpNe a b c k ty s
  | .vcmpLt a b c k ty => Sys2Proof.Machine.execVcmpLt a b c k ty s
  | .vcmpLe a b c k ty => Sys2Proof.Machine.execVcmpLe a b c k ty s
  | .vcmpUn a b c k ty => Sys2Proof.Machine.execVcmpUn a b c k ty s
  | .vsel a b c k ty => Sys2Proof.Machine.execVsel a b c k ty s
  | .kand a b c => Sys2Proof.Machine.execKand a b c s
  | .kor a b c => Sys2Proof.Machine.execKor a b c s
  | .kxor a b c => Sys2Proof.Machine.execKxor a b c s
  | .knot a b => Sys2Proof.Machine.execKnot a b s
  | .kmovg a b => Sys2Proof.Machine.execKmovg a b s
  | .kmovk a b => Sys2Proof.Machine.execKmovk a b s
  | .kpopc a b => Sys2Proof.Machine.execKpopc a b s
  | .kfirst a b => Sys2Proof.Machine.execKfirst a b s
  | .vcvt a b rtz src k ty q sat => Sys2Proof.Machine.execVcvt a b rtz src k ty q sat s
  | .vredsum a b k ty => Sys2Proof.Machine.execVredsum a b k ty s
  | .vredmin a b k ty => Sys2Proof.Machine.execVredmin a b k ty s
  | .vredmax a b k ty => Sys2Proof.Machine.execVredmax a b k ty s
  | .vredand a b k ty => Sys2Proof.Machine.execVredand a b k ty s
  | .vredor a b k ty => Sys2Proof.Machine.execVredor a b k ty s
  | .vredxor a b k ty => Sys2Proof.Machine.execVredxor a b k ty s
  | .vredsumw a b k ty => Sys2Proof.Machine.execVredsumw a b k ty s
  | .vperm a b c k ty => Sys2Proof.Machine.execVperm a b c k ty s
  | .vpermx a b c k ty => Sys2Proof.Machine.execVpermx a b c k ty s
  | .vsldn a b c k ty => Sys2Proof.Machine.execVsldn a b c k ty s
  | .vslup a b c k ty => Sys2Proof.Machine.execVslup a b c k ty s
  | .vcomp a b k ty => Sys2Proof.Machine.execVcomp a b k ty s
  | .vexpd a b k ty => Sys2Proof.Machine.execVexpd a b k ty s
  | .vzipl a b c k ty => Sys2Proof.Machine.execVzipl a b c k ty s
  | .vziph a b c k ty => Sys2Proof.Machine.execVziph a b c k ty s
  | .vuzpe a b c k ty => Sys2Proof.Machine.execVuzpe a b c k ty s
  | .vuzpo a b c k ty => Sys2Proof.Machine.execVuzpo a b c k ty s
  | .vrev a b k ty => Sys2Proof.Machine.execVrev a b k ty s
  | .vld a b k ty => Sys2Proof.Machine.execVld a b k ty s
  | .vst a b k ty => Sys2Proof.Machine.execVst a b k ty s
  | .vlds a b c k ty => Sys2Proof.Machine.execVlds a b c k ty s
  | .vsts a b c k ty => Sys2Proof.Machine.execVsts a b c k ty s
  | .vgath a b c k ty => Sys2Proof.Machine.execVgath a b c k ty s
  | .vscat a b c k ty => Sys2Proof.Machine.execVscat a b c k ty s
  | .vspl a b k ty => Sys2Proof.Machine.execVspl a b k ty s
  | .vsps a b k ty => Sys2Proof.Machine.execVsps a b k ty s
  | .vspga a b c k ty => Sys2Proof.Machine.execVspga a b c k ty s
  | .vspsc a b c k ty => Sys2Proof.Machine.execVspsc a b c k ty s
  | .vrcp a b k ty => Sys2Proof.Machine.execVrcp a b k ty s
  | .vrsq a b k ty => Sys2Proof.Machine.execVrsq a b k ty s
  | .vexp2 a b k ty => Sys2Proof.Machine.execVexp2 a b k ty s
  | .vlog2 a b k ty => Sys2Proof.Machine.execVlog2 a b k ty s
  | .vbcast a b k ty => Sys2Proof.Machine.execVbcast a b k ty s
  | .vins a b c ty => Sys2Proof.Machine.execVins a b c ty s
  | .vext a b c ty => Sys2Proof.Machine.execVext a b c ty s
  | .vmov a b k ty => Sys2Proof.Machine.execVmov a b k ty s
  | .viota a k ty => Sys2Proof.Machine.execViota a k ty s
  | .vsplat a b c k ty => Sys2Proof.Machine.execVsplat a b c k ty s
  | .tld a b c => Sys2Proof.Machine.execTld a b c s
  | .tst a b c => Sys2Proof.Machine.execTst a b c s
  | .tldt a b c ty => Sys2Proof.Machine.execTldt a b c ty s
  | .tswap a c => Sys2Proof.Machine.execTswap a c s
  | .tswapT a c => Sys2Proof.Machine.execTswapT a c s
  | .tmma a b c ty => Sys2Proof.Machine.execTmma a b c ty s
  | .tzero a => Sys2Proof.Machine.execTzero a s
  | .tcvt a b ty => Sys2Proof.Machine.execTcvt a b ty s
  | .tileClaim place => Sys2Proof.Machine.execTileClaim place s
  | .rcfg a b n => Sys2Proof.Machine.execRcfg a b n s
  | .rres a b t => Sys2Proof.Machine.execRres a b t s
  | .rpub a b c => Sys2Proof.Machine.execRpub a b c s
  | .rstat a b => Sys2Proof.Machine.execRstat a b s
  | .rstatMap a b => Sys2Proof.Machine.execRstatMap a b s
  | .rrst a n => Sys2Proof.Machine.execRrst a n s
  | .mstat a b => Sys2Proof.Machine.execMstat a b s
  | .mstatClr a b => Sys2Proof.Machine.execMstatClr a b s
  | .mzero a b => Sys2Proof.Machine.execMzero a b s
  | .mwgt a b c => Sys2Proof.Machine.execMwgt a b c s
  | .nodeCmu a b c => Sys2Proof.Machine.execNodeCmu a b c s
  | .nodeDrain a b c => Sys2Proof.Machine.execNodeDrain a b c s
  | .nodeCopy a b c => Sys2Proof.Machine.execNodeCopy a b c s
  | .nwait a b t => Sys2Proof.Machine.execNwait a b t s
  | .npoll a b => Sys2Proof.Machine.execNpoll a b s
  | .nfree a b => Sys2Proof.Machine.execNfree a b s
  | .yclaim a t => Sys2Proof.Machine.execYclaim a t s
  | .yrel a => Sys2Proof.Machine.execYrel a s
  | .yload a b => Sys2Proof.Machine.execYload a b s
  | .yclk a b c => Sys2Proof.Machine.execYclk a b c s
  | .yrun a b => Sys2Proof.Machine.execYrun a b s
  | .ystop a b => Sys2Proof.Machine.execYstop a b s
  | .ystopW a b t => Sys2Proof.Machine.execYstopW a b t s
  | .ysave a b => Sys2Proof.Machine.execYsave a b s
  | .yrest a b => Sys2Proof.Machine.execYrest a b s
  | .yget a b => Sys2Proof.Machine.execYget a b s
  | .yset a b c => Sys2Proof.Machine.execYset a b c s
  | .yinj a b c => Sys2Proof.Machine.execYinj a b c s
  | .ystat a => Sys2Proof.Machine.execYstat a s
  | .ystatClr a => Sys2Proof.Machine.execYstatClr a s
  | .qsearch a b c => Sys2Proof.Machine.execQsearch a b c s
  | .bred a b c => Sys2Proof.Machine.execBred a b c s
  | .chain a b => Sys2Proof.Machine.execChain a b s
  | .bfpx a b c k ty => Sys2Proof.Machine.execBfpx a b c k ty s
  | .bfpscl a b c => Sys2Proof.Machine.execBfpscl a b c s
  | .bfpq a b c n => Sys2Proof.Machine.execBfpq a b c n s
  | .bfpcvt a b ty n => Sys2Proof.Machine.execBfpcvt a b ty n s
  | .ecall => Sys2Proof.Machine.execEcall s
  | .eret => Sys2Proof.Machine.execEret s
  | .mfs a num => Sys2Proof.Machine.execMfs a num s
  | .mts a num => Sys2Proof.Machine.execMts a num s
  | .tlbinvPage b => Sys2Proof.Machine.execTlbinvPage b s
  | .tlbinvSpace => Sys2Proof.Machine.execTlbinvSpace s
  | .cflushL b => Sys2Proof.Machine.execCflushL b s
  | .cflushAll => Sys2Proof.Machine.execCflushAll s
  | .cflushRed => Sys2Proof.Machine.execCflushRed s
  | .isync => Sys2Proof.Machine.execIsync s
  | .brk code => Sys2Proof.Machine.execBrk code s
  | .wfe a t => Sys2Proof.Machine.execWfe a t s
  | .preempt a b => Sys2Proof.Machine.execPreempt a b s
  | .takeAsyncTrap proc => Sys2Proof.Machine.execTakeAsyncTrap proc s
  | .timerEvent proc => Sys2Proof.Machine.execTimerEvent proc s
  | .fillArrival n => Sys2Proof.Machine.execFillArrival n s
  | .waitDeadline proc => Sys2Proof.Machine.execWaitDeadline proc s
  | .slotGiveUp proc => Sys2Proof.Machine.execSlotGiveUp proc s
  | .spillSwap proc => Sys2Proof.Machine.execSpillSwap proc s
  | .starvationRaise proc => Sys2Proof.Machine.execStarvationRaise proc s
  | .quantumExpiry proc => Sys2Proof.Machine.execQuantumExpiry proc s
  | .preemptionHalt proc => Sys2Proof.Machine.execPreemptionHalt proc s
  | .stealRequest place => Sys2Proof.Machine.execStealRequest place s
  | .stealExpiry place => Sys2Proof.Machine.execStealExpiry place s
  | .stealArrival n => Sys2Proof.Machine.execStealArrival n s
  | .stealReturned n => Sys2Proof.Machine.execStealReturned n s
  | .childEnd n => Sys2Proof.Machine.execChildEnd n s
  | .exitRetainTimeout place => Sys2Proof.Machine.execExitRetainTimeout place s
  | .deadlockProbe proc => Sys2Proof.Machine.execDeadlockProbe proc s
  | .probeForward n => Sys2Proof.Machine.execProbeForward n s
  | .faultMessageRelease place => Sys2Proof.Machine.execFaultMessageRelease place s
  | .watchdogT1 place asid queue => Sys2Proof.Machine.execWatchdogT1 place asid queue s
  | .watchdogT2 place asid queue => Sys2Proof.Machine.execWatchdogT2 place asid queue s
  | .watchdogT3 place asid queue => Sys2Proof.Machine.execWatchdogT3 place asid queue s
  | .feRefusal n => Sys2Proof.Machine.execFeRefusal n s
  | .portRead n => Sys2Proof.Machine.execPortRead n s
  | .portWrite n => Sys2Proof.Machine.execPortWrite n s
  | .portAtomic n => Sys2Proof.Machine.execPortAtomic n s
  | .portCombine n => Sys2Proof.Machine.execPortCombine n s
  | .portRecall home line => Sys2Proof.Machine.execPortRecall home line s
  | .portPush n => Sys2Proof.Machine.execPortPush n s
  | .portChain n => Sys2Proof.Machine.execPortChain n s
  | .portEread n => Sys2Proof.Machine.execPortEread n s
  | .portEwrite n => Sys2Proof.Machine.execPortEwrite n s
  | .portMigrate n => Sys2Proof.Machine.execPortMigrate n s
  | .portHost n => Sys2Proof.Machine.execPortHost n s
  | .budgetBoundary home budget => Sys2Proof.Machine.execBudgetBoundary home budget s
  | .chainReturn n => Sys2Proof.Machine.execChainReturn n s
  | .memoryServerRequest place => Sys2Proof.Machine.execMemoryServerRequest place s
  | .windowPush n => Sys2Proof.Machine.execWindowPush n s
  | .nodeFinish n => Sys2Proof.Machine.execNodeFinish n s
  | .matrixStepGrant shed => Sys2Proof.Machine.execMatrixStepGrant shed s
  | .kstepRetire shed => Sys2Proof.Machine.execKstepRetire shed s
  | .copyRun place => Sys2Proof.Machine.execCopyRun place s
  | .searchQueryStart unit => Sys2Proof.Machine.execSearchQueryStart unit s
  | .shardReport n => Sys2Proof.Machine.execShardReport n s
  | .bredChunk unit => Sys2Proof.Machine.execBredChunk unit s
  | .recordOffer n => Sys2Proof.Machine.execRecordOffer n s
  | .recordReceive n => Sys2Proof.Machine.execRecordReceive n s
  | .recordWithdrawal n => Sys2Proof.Machine.execRecordWithdrawal n s
  | .recordItem n => Sys2Proof.Machine.execRecordItem n s
  | .recordMarker n => Sys2Proof.Machine.execRecordMarker n s
  | .recordErrorToken n => Sys2Proof.Machine.execRecordErrorToken n s
  | .recordClose n => Sys2Proof.Machine.execRecordClose n s
  | .sendAck n => Sys2Proof.Machine.execSendAck n s
  | .tileGo n => Sys2Proof.Machine.execTileGo n s
  | .tileCopyLanded n => Sys2Proof.Machine.execTileCopyLanded n s
  | .slotToken n => Sys2Proof.Machine.execSlotToken n s
  | .lostEntry dev port => Sys2Proof.Machine.execLostEntry dev port s
  | .recordCopy n => Sys2Proof.Machine.execRecordCopy n s
  | .rebindAnnounce n => Sys2Proof.Machine.execRebindAnnounce n s
  | .rebindAck n => Sys2Proof.Machine.execRebindAck n s
  | .inboxMessage n => Sys2Proof.Machine.execInboxMessage n s
  | .handlerDispatch place asid => Sys2Proof.Machine.execHandlerDispatch place asid s
  | .delegRequest n => Sys2Proof.Machine.execDelegRequest n s
  | .delegRoutineStart place asid => Sys2Proof.Machine.execDelegRoutineStart place asid s
  | .yardStep place dom => Sys2Proof.Machine.execYardStep place dom s
  | .yardInputItem place input => Sys2Proof.Machine.execYardInputItem place input s
  | .yardClaimDone place => Sys2Proof.Machine.execYardClaimDone place s
  | .yardRestore place => Sys2Proof.Machine.execYardRestore place s
  | .moveHalt proc => Sys2Proof.Machine.execMoveHalt proc s
  | .moveCopy proc => Sys2Proof.Machine.execMoveCopy proc s
  | .migrationSwitch page => Sys2Proof.Machine.execMigrationSwitch page s
  | .remapReload home seg shadowOk => Sys2Proof.Machine.execRemapReload home seg shadowOk s
  | .flitAckTimeout dev port => Sys2Proof.Machine.execFlitAckTimeout dev port s
  | .laneSpare dev port => Sys2Proof.Machine.execLaneSpare dev port s
  | .laneRetrain dev port => Sys2Proof.Machine.execLaneRetrain dev port s
  | .portDown dev port => Sys2Proof.Machine.execPortDown dev port s
  | .pathGiveUp dev port => Sys2Proof.Machine.execPathGiveUp dev port s
  | .reduceStep binding => Sys2Proof.Machine.execReduceStep binding s
  | .fanoutStep binding => Sys2Proof.Machine.execFanoutStep binding s
  | .sessionAgreement asid devA devB => Sys2Proof.Machine.execSessionAgreement asid devA devB s
  | .launch dev win tag => Sys2Proof.Machine.execLaunch dev win tag s
  | .endpoint dev win tag => Sys2Proof.Machine.execEndpoint dev win tag s
  | .bind dev win tag => Sys2Proof.Machine.execBind dev win tag s
  | .map dev win tag => Sys2Proof.Machine.execMap dev win tag s
  | .endpointDoorbell dev win bell => Sys2Proof.Machine.execEndpointDoorbell dev win bell s
  | .hostAttest dev win tag => Sys2Proof.Machine.execHostAttest dev win tag s
  | .stage dev win tag => Sys2Proof.Machine.execStage dev win tag s
  | .activate dev win tag => Sys2Proof.Machine.execActivate dev win tag s
  | .service dev win tag => Sys2Proof.Machine.execService dev win tag s
  | .portTakeoutComplete home => Sys2Proof.Machine.execPortTakeoutComplete home s
  | .hostCounter dev win tag => Sys2Proof.Machine.execHostCounter dev win tag s
  | .endSpace dev win tag => Sys2Proof.Machine.execEndSpace dev win tag s
  | .hostMemAccess dev off wr => Sys2Proof.Machine.execHostMemAccess dev off wr s
  | .registerWrite dev off val => Sys2Proof.Machine.execRegisterWrite dev off val s
  | .processMove n => Sys2Proof.Machine.execProcessMove n s
  | .collectiveConfigure n => Sys2Proof.Machine.execCollectiveConfigure n s
  | .collectiveRelease n => Sys2Proof.Machine.execCollectiveRelease n s
  | .root n => Sys2Proof.Machine.execRoot n s
  | .migrate n => Sys2Proof.Machine.execMigrate n s
  | .ovring n => Sys2Proof.Machine.execOvring n s
  | .unitpool n => Sys2Proof.Machine.execUnitpool n s
  | .ttset n => Sys2Proof.Machine.execTtset n s
  | .halt n => Sys2Proof.Machine.execHalt n s
  | .resume n => Sys2Proof.Machine.execResume n s
  | .kill n => Sys2Proof.Machine.execKill n s
  | .signal n => Sys2Proof.Machine.execSignal n s
  | .inbox n => Sys2Proof.Machine.execInbox n s
  | .unfence n => Sys2Proof.Machine.execUnfence n s
  | .counter n => Sys2Proof.Machine.execCounter n s
  | .attest n => Sys2Proof.Machine.execAttest n s
  | .powerOn dev => Sys2Proof.Machine.execPowerOn dev s
  | .throttle dev die => Sys2Proof.Machine.execThrottle dev die s
  | .overheatShutdown dev die => Sys2Proof.Machine.execOverheatShutdown dev die s
  | .illegalWord detail tval ext => Sys2Proof.Machine.execIllegalWord detail tval ext s
  | .childCreation n => Sys2Proof.Machine.execChildCreation n s
  | .flitArrival dev port crcOk tagOk => Sys2Proof.Machine.execFlitArrival dev port crcOk tagOk s
  | .linkPortUp dev port => Sys2Proof.Machine.execLinkPortUp dev port s
  | .toHostEndpointRoom dev ep => Sys2Proof.Machine.execToHostEndpointRoom dev ep s
  | .throttleEnd dev die => Sys2Proof.Machine.execThrottleEnd dev die s

end Sys2Proof.Machine
end

