-- ==== Sys2Proof/Machine/Due.lean ====
section
/-! DEFINITION. Which step of the device falls next when the tape names none (log 14): of the steps that the
parts of the device take by themselves, the first that changes something, on every other cycle. The steps that
only the outside world, a failure or a choice of the firmware brings about stand on the tape alone. -/

namespace Sys2Proof.Machine

/-- The step that takes up a request of a supervisor, by its code (R276). -/
noncomputable def svcStep (v : Svc) (n : Nat) : Option Instr :=
  match (v.args.headD 0).toNat with
  | 0x0101 => some (.root n)
  | 0x0102 => some (.migrate n)
  | 0x0103 => some (.ovring n)
  | 0x0104 => some (.ttset n)
  | 0x0105 => some (.unitpool n)
  | 0x0201 => some (.processMove n)
  | 0x0202 => some (.halt n)
  | 0x0203 => some (.resume n)
  | 0x0204 => some (.kill n)
  | 0x0205 => some (.signal n)
  | 0x0206 => some (.inbox n)
  | 0x0207 => some (.unfence n)
  | 0x0301 => some (.collectiveConfigure n)
  | 0x0302 => some (.collectiveRelease n)
  | 0x0401 => some (.counter n)
  | 0x0402 => some (.attest n)
  | _ => none

/-- The step that delivers message `n`. -/
noncomputable def deliveryStep (b : Body) (n : Nat) : Option Instr :=
  match b with
  | .read .. => some (.portRead n)
  | .write .. => some (.portWrite n)
  | .atomic .. => some (.portAtomic n)
  | .refused .. => some (.feRefusal n)
  | .combine .. => some (.portCombine n)
  | .fill .. => some (.fillArrival n)
  | .chain .. => some (.portChain n)
  | .chainBack .. => some (.chainReturn n)
  | .eread .. => some (.portEread n)
  | .ewrite .. => some (.portEwrite n)
  | .migrate .. => some (.portMigrate n)
  | .host .. => some (.portHost n)
  | .serverPush .. => some (.portPush n)
  | .winPush .. => some (.windowPush n)
  | .nodeDone .. => some (.nodeFinish n)
  | .report .. => some (.shardReport n)
  | .offer .. => some (.recordOffer n)
  | .recv .. => some (.recordReceive n)
  | .withdraw .. => some (.recordWithdrawal n)
  | .item .. | .deadlock .. => some (.recordItem n)
  | .marker .. => some (.recordMarker n)
  | .token .. => some (.recordErrorToken n)
  | .close .. => some (.recordClose n)
  | .ack .. => some (.sendAck n)
  | .tileGo .. => some (.tileGo n)
  | .tileLanded .. => some (.tileCopyLanded n)
  | .slotToken .. => some (.slotToken n)
  | .recordCopy .. => some (.recordCopy n)
  | .announce .. => some (.rebindAnnounce n)
  | .announceAck .. => some (.rebindAck n)
  | .inbox .. => some (.inboxMessage n)
  | .deleg .. => some (.delegRequest n)
  | .childCreate .. => some (.childCreation n)
  | .stealTask .. => some (.stealArrival n)
  | .stealBack .. => some (.stealReturned n)
  | .childEnd .. => some (.childEnd n)
  | .probe .. => some (.probeForward n)
  | .svc v => svcStep v n
  | .drained .. => some (.fillArrival n)

/-- What a core does about one process; a halt comes before an asynchronous trap (R410). -/
noncomputable def procSteps (k : Nat) : List Instr :=
  [.preemptionHalt k, .moveHalt k, .takeAsyncTrap k, .timerEvent k, .waitDeadline k, .slotGiveUp k, .starvationRaise k,
   .quantumExpiry k, .moveCopy k, .deadlockProbe k]

/-- What a core does about its tables and units. -/
noncomputable def tableSteps (pl : Nat) : List Instr :=
  [.spillSwap pl, .copyRun pl, .tileClaim pl, .yardRestore pl, .faultMessageRelease pl, .exitRetainTimeout pl, .stealExpiry pl]

/-- What an owned yard does (R248, R249). -/
noncomputable def yardSteps (pl : Nat) : List Instr :=
  [.yardInputItem pl 0, .yardInputItem pl 1, .yardInputItem pl 2, .yardInputItem pl 3, .yardInputItem pl 4, .yardInputItem pl 5,
   .yardInputItem pl 6, .yardInputItem pl 7, .yardStep pl 0, .yardStep pl 1, .yardStep pl 2, .yardStep pl 3]

/-- The watchdog of one clock (R404). -/
noncomputable def wdogSteps (pl key : Nat) : List Instr :=
  [.watchdogT1 pl (key / 16) (key % 16), .watchdogT2 pl (key / 16) (key % 16), .watchdogT3 pl (key / 16) (key % 16)]

/-- What a core does by itself; a step of the yard that is due comes before the end of a claim (R389). -/
noncomputable def coreSteps (pl : Nat) (c : Core) : List Instr :=
  List.flatten
    [tableSteps pl, if c.yardOwner.isSome then yardSteps pl else [], [.yardClaimDone pl],
     List.map (fun (x : Nat × List Call) => Instr.handlerDispatch pl x.1) c.inbox,
     List.map (fun (x : Nat × List Call) => Instr.delegRoutineStart pl x.1) c.delegs,
     List.flatMap (fun (x : Nat × Nat × Nat) => wdogSteps pl x.1) c.wdog]

/-- The places of the memory servers that receive requests (R329). -/
def serverPlaces (s : State) : List Nat :=
  s.chans.filterMap fun (c : Nat × Chan) =>
    match c.2.recv with
    | .server pl => some pl
    | _ => none

/-- The rank of a message among those that arrive together: group operations in the order DROP, GLEAVE, GJOIN, ARRIVE
(R149), and behind the items of a channel its error token and its close (R175). -/
def Body.rank (b : Body) : Nat :=
  match b with
  | .atomic { op := .drop _, .. } => 1
  | .atomic { op := .gleave, .. } => 2
  | .atomic { op := .gjoin _, .. } => 3
  | .atomic { op := .arrive _, .. } => 4
  | .token _ => 5
  | .close _ => 6
  | _ => 0

/-- The messages in flight, each with its place: in the order sent, and those of a rank above 0 by rank and source. -/
def inArrivalOrder (l : List (Msg × Nat)) : List (Msg × Nat) :=
  (List.range 7).flatMap fun r =>
    let mine := l.filter fun m => m.1.body.rank == r
    if r = 0 then mine else mine.insertionSort fun a b => a.1.src ≤ b.1.src

/-- The deliveries of the messages in flight. -/
noncomputable def netSteps (s : State) : List Instr :=
  (inArrivalOrder s.net.zipIdx).filterMap fun (m : Msg × Nat) => deliveryStep m.1.body m.2

/-- What the ports do by themselves: a new budget at each millisecond (R373), the reload of remap segments (R383), and the
end of a take-out (R455). -/
noncomputable def homeSteps (s : State) (h : Nat) (x : Home) : List Instr :=
  [.budgetBoundary h (Config.budget h (homeMs s h)), .portTakeoutComplete h] ++ x.badSegs.map fun i => Instr.remapReload h i true

/-- What a link port does by itself; it repeats an entry whose acknowledgement was lost (R426). -/
noncomputable def linkSteps (l : Nat) (x : Link) : List Instr :=
  [.flitArrival (l / 16) (l % 16) true true, .pathGiveUp (l / 16) (l % 16)] ++
    if (x.replay.head?.map LinkEntry.ackLost).getD false then [.flitAckTimeout (l / 16) (l % 16)] else []

/-- What the units outside the cores do: matrix units, the engines under the stacks, collective units, migrations
and ports that are being taken out. -/
noncomputable def unitSteps (s : State) : List Instr :=
  List.flatten
    [List.flatMap (fun (x : Nat × Shed) => [Instr.kstepRetire x.1, Instr.matrixStepGrant x.1]) s.sheds,
     List.flatMap (fun (x : Nat × Stack) => [Instr.searchQueryStart x.1, Instr.bredChunk x.1]) s.bases,
     List.flatMap (fun (x : Nat × Coll) => [Instr.reduceStep x.1, Instr.fanoutStep x.1]) s.colls,
     List.map (fun (x : Nat × Migration) => Instr.migrationSwitch x.1) s.migrations,
     List.flatMap (fun (x : Nat × Home) => homeSteps s x.1 x.2) s.homes]

/-- Every step that the parts of the device might take by themselves, in the order in which it falls due. -/
noncomputable def candidates (s : State) : List Instr :=
  List.flatten
    [netSteps s, List.flatMap (fun (l : Nat × Link) => linkSteps l.1 l.2) s.links,
     List.flatMap (fun (c : Nat × Core) => coreSteps c.1 c.2) s.cores,
     List.flatMap (fun (p : Nat × Proc) => procSteps p.1) s.procs,
     List.map Instr.memoryServerRequest (serverPlaces s), unitSteps s,
     List.map (fun (c : Nat × Core) => Instr.stealRequest c.1) s.cores]

/-- Whether a step goes on to another state. -/
def changes (o : Out) (s : State) : Bool :=
  match o with
  | .next t => decide (t ≠ s)
  | .fault _ | .refused _ => false

/-- The step that is due. -/
noncomputable def due (s : State) : Option Instr :=
  if s.cycle / s.pace % 2 = 0 then (candidates s).find? fun i => changes (exec i s) s else none

end Sys2Proof.Machine
end

