-- ==== Sys2Proof/Machine/Step.lean ====
section
/-! DEFINITION. One step of the machine, and the state that fetches a given instruction next. -/

namespace Sys2Proof.Machine

/-- Time passes (log 4). -/
def State.tick (s : State) : State := { s with cycle := s.cycle + s.pace }

/-- The process `k` takes the asynchronous trap that is pending (R38, R398), or fetches and runs its next instruction; a
fetch fault is a trap of it (R84), and a fetch that must wait at a home is made again (log 83). -/
noncomputable def issueNext (s : State) (k : Nat) (p : Proc) : Host.Outcome State Fault Refusal :=
  let s := { s with cur := k, turn := turnOf (k, p) }
  if interrupted s k p then exec (.takeAsyncTrap k) s
  else
    match fetch s k p with
    | (s, .instr i) => exec i s
    | (s, .illegal d tval ext) => exec (.illegalWord (BitVec.ofNat 16 d) tval ext) s
    | (s, .fault c d va ext) => .next (s.trap k p ext c d va)
    | (s, .wait) => .next s

/-- One step: the next step of the tape; else the step of the device that is due; else the next
instruction of a process; else time passes. -/
noncomputable def step (s : State) : Host.Outcome State Fault Refusal :=
  match s.agenda with
  | i :: rest => exec i { s.tick with agenda := rest }
  | [] =>
    match due s with
    | some i => exec i s.tick
    | none =>
      match pick s with
      | some (k, p) => issueNext s.tick k p
      | none => .next s.tick

/-- Where `withFetchWord` puts its page tables and its code: device 0, pseudo-channel 0 (log 9). -/
def bootTable (level : Nat) : Nat := 0x2000 * level
def bootCode : Nat := 0x10000
def bootArea : Nat := 0x20000

/-- The memory of a space with one page of code at virtual address 0x10000. -/
def bootMem (m : List Host.Cell) (bits : Nat) : List Host.Cell :=
  let m := memPut m (bootTable 1) (leBytes 8 (bootTable 2 + 1))
  let m := memPut m (bootTable 2) (leBytes 8 (bootTable 3 + 1))
  let m := memPut m (bootTable 3) (leBytes 8 (bootTable 4 + 1))
  let m := memPut m (bootTable 4 + 8) (leBytes 8 (bootCode + 0x2B))
  let m := memPut m (bootArea + 0x28A0) (leBytes 8 2 ++ leBytes 8 2 ++ leBytes 8 2 ++ leBytes 8 2)
  let m := memPut m (bootArea + 0x2900) [0xFF]
  memPut m bootCode (leBytes 8 bits)

/-- A supervisor process with one scratchpad block, in slot 0 of core 0, which owns the tile unit and the yard. -/
def bootProc : Proc :=
  { Proc.reset with
    gen := 1, pc := 0x10000, pstat := 0x11, prior := 0x40004, asid := 1, maxPrio := 11, tile := true, yard := true,
    splog := 16, usa := bootArea, run := .running 0, started := true }

/-- The address space of that process. -/
def bootSpace : Space := { Space.reset with live := true, roots := [(0, bootTable 1)], devices := [0] }

/-- `s` with a program loaded and started: one process on core 0 whose next instruction has the bits `w`
(log 9). -/
def State.withFetchWord (s : State) (nbits w : Nat) : State :=
  { s with
    mem := bootMem s.mem (w % 2 ^ nbits)
    spaces := mset s.spaces 1 bootSpace
    procs := [(0, bootProc)]
    cores := mset s.cores 0
      { Core.reset with gens := [(0, 1)], tileOwner := some 0, yardOwner := some 0, slots := Core.reset.slots.set 0 (some 0) }
    net := []
    agenda := []
    cur := 0 }

end Sys2Proof.Machine
end

