-- ==== Sys2Proof/Safety.lean ====
section
/-! DEFINITION. What counts as a safe step, and when an instruction issues, in the terms the statements use. -/

namespace Sys2Proof.Safety

open Sys2Proof.Machine

/-- A step answers a next state: it neither faults nor is refused. -/
def Runs (s : State) : Prop := ∃ t, step s = .next t

/-- The memory of a state has its canonical form. -/
def MemWf (s : State) : Prop := Memory.wf s.mem = true

/-- The conditions on the state under which an instruction with the needs `nd` issues for the process `p` in the
issuing slot (R84), each on the state and the process alone. -/
structure Ready (s : State) (k : Nat) (p : Proc) (nd : Need) : Prop where
  /-- `p` is the process of the issuing slot. -/
  cur : s.cur = k
  here : mget s.procs k = some p
  /-- its task type declares the unit, and it owns the tile unit (R27, R198). -/
  tile : nd.unit = .tile → p.tile = true ∧ (s.core (placeOf k)).tileOwner = some k
  yard : nd.unit = .yard → p.yard = true
  /-- it is no routine, where routines may not run the instruction (R142, R338). -/
  kind : nd.noRoutine = true → p.kind = .normal
  /-- it runs in S mode, where the instruction asks for it (R11). -/
  mode : nd.needS = true → p.smode = true
  /-- its sources and destinations are full (R16 to R18). -/
  srcs : ∀ r ∈ nd.srcs, regFull s k p r = true
  dsts : ∀ r ∈ nd.dsts, regFull s k p r = true
  /-- it owes no POISON trap for a node, and no NWAIT is open before an engine or memory is touched (R221, R222). -/
  traps : owedTrap p nd = none
  nodes : nd.touches = true → p.nwaits = []
  /-- a release has sent the reduction lines of its scope home before (R141, R354). -/
  lines : nd.combines = true → linesHeld s (placeOf k) nd.scope = false
  /-- no access it must follow is still to be performed (R361). -/
  order : mustWait s k p nd = false

/-- The state and the process with which the instruction's own description begins: the process has started and its
stall is over (R84, R155). What the description leaves ends with `State.retired`: where the instruction has retired, its
queue's watchdog clock goes to 0 (R403). -/
def issued (s : State) (k : Nat) (p : Proc) : State × Proc := s.start k p

/-- The instruction can issue, and its own description begins with the state `s'` and the process `q`. -/
def Issues (s : State) (k : Nat) (p : Proc) (nd : Need) (s' : State) (q : Proc) : Prop :=
  Ready s k p nd ∧ issued s k p = (s', q)

/-- Whenever the instruction can issue, exec answers the next state that `effect` gives. -/
def Completes (nd : Need) (i : Instr) (effect : Nat → Proc → State → State) : Prop :=
  ∀ (s : State) (k : Nat) (p : Proc) (s' : State) (q : Proc), Issues s k p nd s' q →
    exec i s = .next ((effect k q s').retired k q)

/-- The same where the effect has conditions of its own on the process and the state with which it begins. -/
def CompletesIf (nd : Need) (i : Instr) (cond : Nat → Proc → State → Prop) (effect : Nat → Proc → State → State) : Prop :=
  ∀ (s : State) (k : Nat) (p : Proc) (s' : State) (q : Proc), Issues s k p nd s' q → cond k q s' →
    exec i s = .next ((effect k q s').retired k q)

/-- The process writes a g register and goes on to the next instruction. -/
def putsG (a : BitVec 5) (f : Proc → Word) (k : Nat) (p : Proc) (s : State) : State :=
  s.setProc k { p.wg a (f p) with pc := p.pc + 4 }

/-- An access of `n` bytes at `va` finds its word (R122, R346): aligned, translated to the global address `ga` through
the leaf `leaf`, the state then `s'`, and no synchronised store of the process to that word on its way (R361). -/
def Maps (s : State) (k : Nat) (p : Proc) (va : Word) (n : Nat) (a : Access) (s' : State) (ga : Nat) (leaf : Word) : Prop :=
  va.toNat % n = 0 ∧ translate s (placeOf k) p.asid p.smode va a = (s', .ok ga leaf) ∧ feWaits s' k p.gen ga = false

/-- Whenever the instruction can issue and its access finds its word, exec answers the next state that `effect`
gives. -/
def AccessCompletes (nd : Need) (i : Instr) (va : Proc → Word) (n : Nat) (a : Access)
    (effect : Nat → Proc → State → Nat → Word → State) : Prop :=
  ∀ (s : State) (k : Nat) (p : Proc) (s₀ : State) (q : Proc) (s' : State) (ga : Nat) (leaf : Word), Issues s k p nd s₀ q →
    Maps s₀ k q (va q) n a s' ga leaf → exec i s = .next ((effect k q s' ga leaf).retired k q)

/-- Whether an address lies in the device's own memory, not in host memory (R343). -/
def InDevice (ga : Nat) : Prop := rangeOf (gaPa ga) ≠ .host

/-- The process writes a v register, or a k register, and goes on to the next instruction. -/
def putsV (a : BitVec 5) (f : Proc → VReg) (k : Nat) (p : Proc) (s : State) : State :=
  s.setProc k { p.wv a (f p) with pc := p.pc + 4 }
def putsK (a : BitVec 3) (f : Proc → Word) (k : Nat) (p : Proc) (s : State) : State :=
  s.setProc k { p.wk a (f p) with pc := p.pc + 4 }

/-- A request of the supervisor `p`, its service core at `pl`, arrives as message `n` (R276): code, the request, and the
state without the message. -/
def Asks (s : State) (n op : Nat) (s' : State) (pl : Nat) (v : Svc) (p : Proc) : Prop :=
  (∃ src own, s.arriving n = some { src := src, dst := pl, own := own, body := .svc v }) ∧ (v.args.headD 0).toNat = op ∧
    s' = s.took n ∧ s'.byOwn v.p v.gen = some p

/-- The host rings the bell of a request window that is not busy with a request of code `op` and words `r` (R436, R437):
the state that serves it. -/
def Rings (s : State) (dev win : Nat) (tag : BitVec 16) (op : Nat) (s' : State) (r : List Word) : Prop :=
  win < 4 ∧ (s.device dev).on = true ∧ (s.window (dev * 4 + win)).busy = false ∧ (s.window (dev * 4 + win)).req = r ∧
    r.headD 0 = BitVec.ofNat 64 op ∧ op < 65536 ∧
    s' = s.setWindow (dev * 4 + win) { s.window (dev * 4 + win) with busy := true, tag := tag.toNat }

/-- Every byte of memory, every full/empty bit and every poisoned line is as before. -/
def SameMemory (s t : State) : Prop :=
  (∀ a, memGet t.mem a = memGet s.mem a) ∧ (∀ a, t.full a = s.full a) ∧ t.poisoned = s.poisoned

/-- Every process but the one at `k` is as before. -/
def SameOthers (s t : State) (k : Nat) : Prop := ∀ j, j ≠ k → mget t.procs j = mget s.procs j

/-- The system registers of a process, its doors, join counters and full/empty bits are as before (R397's list). -/
def SameSystem (p q : Proc) : Prop :=
  q.pstat = p.pstat ∧ q.numctl = p.numctl ∧ q.epol = p.epol ∧ q.tmo = p.tmo ∧ q.tvec = p.tvec ∧ q.tcause = p.tcause ∧
  q.tval = p.tval ∧ q.tpc = p.tpc ∧ q.tstat = p.tstat ∧ q.prior = p.prior ∧ q.qnt = p.qnt ∧ q.feretry = p.feretry ∧
  q.timecmp = p.timecmp ∧ q.swapsq = p.swapsq ∧ q.round = p.round ∧ q.doors = p.doors ∧ q.joins = p.joins ∧ q.vFull = p.vFull

/-- The g registers but those named, the v registers and the k registers are as before. -/
def SameRegisters (p q : Proc) (gs vs : List (BitVec 5)) (ks : List (BitVec 3)) : Prop :=
  (∀ n, n ∉ gs → q.rg n = p.rg n) ∧ (∀ n, n ∉ vs → q.rv n = p.rv n) ∧ ∀ n, n ∉ ks → q.rk n = p.rk n

/-- The frame of a register instruction where `cond` holds of the process: whenever it can issue, exec answers a next state in
which, of the whole machine, only the PC and the registers named have changed, besides what issuing itself does to its core's
clocks. -/
def OnlyIf (cond : Proc → Prop) (nd : Need) (i : Instr) (gs vs : List (BitVec 5)) (ks : List (BitVec 3)) : Prop :=
  ∀ (s : State) (k : Nat) (p : Proc), Ready s k p nd → cond p → ∃ t q, exec i s = .next t ∧ mget t.procs k = some q ∧
    SameRegisters p q gs vs ks ∧ q.gFull = p.gFull ∧ SameSystem p q ∧ SameOthers s t k ∧ SameMemory s t ∧
    (t.core (placeOf k)).m = (s.core (placeOf k)).m ∧ t.net = s.net ∧ t.chans = s.chans

/-- The same for every process. -/
def Only (nd : Need) (i : Instr) (gs vs : List (BitVec 5)) (ks : List (BitVec 3)) : Prop :=
  OnlyIf (fun _ => True) nd i gs vs ks

/-- An address among the `n` bytes stored at `ga`, or at the new place of a page under migration (R358). -/
def Stored (s : State) (ga n a : Nat) : Prop :=
  (ga ≤ a ∧ a < ga + n) ∨ ∃ g, s.migratedTo ga = some g ∧ g ≤ a ∧ a < g + n

/-- The canonical form of what memory holds: its bytes, and the set of its empty words in rising order. -/
def Inv (s : State) : Prop := MemWf s ∧ s.empties.Pairwise (· < ·)

end Sys2Proof.Safety
end

