-- ==== Sys2Proof/Certificates/Slice0/Obligations.lean ====
section
/-! DEFINITION. The statements for the provers, family by family. -/

open Sys2Proof Sys2Proof.Machine Sys2Proof.Safety

/-- R79 to R108: decoding after encoding, for every constructor. -/
def Obligations.DecodeOfEncode : Prop :=
  ∀ (i : Instr) (ws : List IWord), i.wf = true → encode i = some ws → decode ws = .ok i

/-- R79 to R108: encoding after decoding, for every word and every EXT pair. -/
def Obligations.EncodeOfDecode : Prop :=
  (∀ (w : IWord) (i : Instr), decode1 w = .ok i → i.wf = true ∧ encode i = some [w]) ∧
  (∀ (w : IWord) (x : BitVec 26), decode1 w = .ext x ↔ w = 0x3E#6 ++ x) ∧
  ∀ (x : BitVec 26) (w : IWord) (i : Instr), decodePair x w = .ok i → i.wf = true ∧ encode i = some [0x3E#6 ++ x, w]

/-- R81 to R88: some words and what they stand for. -/
def Obligations.DecodedWords : Prop :=
  decode1 0x08000000 = .ok (.addi 0 0 0) ∧ decode1 0x0864FFFE = .ok (.addi 3 4 0xFFFE) ∧
  decode [0xF8000000, 0x08C09C40] = .ok (.extPair 0 .addi 6 0 0x9C40) ∧
  decode [0xFBFFFFFE, 0x08E07960] = .ok (.extPair 0x3FFFFFE .addi 7 0 0x7960) ∧
  decode1 0x54650013 = .ok (.ld 3 5 2 .d) ∧
  decode1 (0x01#6 ++ 1#5 ++ 2#5 ++ 3#5 ++ 0x001#11) = .ok (.sub 1 2 3) ∧
  decode1 (0x14#6 ++ 0#5 ++ 0#5 ++ 0#5 ++ 2#11) = .ok .ret ∧
  decode1 (0x1A#6 ++ 4#5 ++ 5#5 ++ 6#5 ++ (0#1 ++ 3#2 ++ 9#5 ++ 3#3)) = .ok (.cas 4 5 6 .ar true) ∧
  decode1 (0x1B#6 ++ 0#5 ++ 0#5 ++ 3#5 ++ 0x00F#11) = .ok (.fence .device 15) ∧
  decode1 (0x1C#6 ++ 1#5 ++ 2#5 ++ 3#5 ++ 0x002#11) = .ok (.spawn 1 2 3 2) ∧
  decode1 (0x1D#6 ++ 1#5 ++ 2#5 ++ 1#5 ++ (5#6 ++ 1#1 ++ 0#4)) = .ok (.send 1 2 .v 5 true) ∧
  decode1 (0x1F#6 ++ 1#5 ++ 2#5 ++ 3#5 ++ (2#3 ++ 12#4 ++ 0#4)) = .ok (.vadd 1 2 3 2 .fp32) ∧
  decode1 (0x25#6 ++ 1#5 ++ 2#5 ++ 0#5 ++ (0#3 ++ 3#4 ++ 0#4)) = .ok (.vld 1 2 0 .i64) ∧
  decode1 (0x28#6 ++ 1#5 ++ 2#5 ++ 3#5 ++ (0#3 ++ 8#4 ++ 5#4)) = .ok (.tmma 1 2 3 .e4m3) ∧
  decode1 (0x2B#6 ++ 1#5 ++ 2#5 ++ 0#5 ++ 0x060#11) = .ok (.nwait 1 2 false) ∧
  decode1 (0x2F#6 ++ 0#5 ++ 0#5 ++ 0#5 ++ 0x020#11) = .ok .eret ∧
  decode1 0x0E32BEEF = .ok (.andi 17 18 0xBEEF) ∧ decode1 0x1232BEEF = .ok (.ori 17 18 0xBEEF) ∧
  decode1 0x1632BEEF = .ok (.xori 17 18 0xBEEF) ∧ decode1 0x1A32BEEF = .ok (.slti 17 18 0xBEEF) ∧
  decode1 0x1E32BEEF = .ok (.sltiu 17 18 0xBEEF) ∧ decode1 0x2232002D = .ok (.shiL 17 18 45) ∧
  decode1 0x2632BEEF = .ok (.movhi 17 18 0xBEEF) ∧ decode1 0x2A32BEEF = .ok (.muli 17 18 0xBEEF) ∧
  decode1 0x2E32BEEF = .ok (.beq 17 18 0xBEEF) ∧ decode1 0x3232BEEF = .ok (.bne 17 18 0xBEEF) ∧
  decode1 0x3632BEEF = .ok (.blt 17 18 0xBEEF) ∧ decode1 0x3A32BEEF = .ok (.bge 17 18 0xBEEF) ∧
  decode1 0x3E32BEEF = .ok (.bltu 17 18 0xBEEF) ∧ decode1 0x4232BEEF = .ok (.bgeu 17 18 0xBEEF) ∧
  decode1 0x4620BEEF = .ok (.dbnz 17 0xBEEF) ∧ decode1 0x4AABCDEF = .ok (.j 0x2ABCDEF) ∧
  decode1 0x4EABCDEF = .ok (.call 0x2ABCDEF) ∧ decode1 0x5A3291A1 = .ok (.st 17 18 0x1234 .h) ∧
  decode1 0x5E329801 = .ok (.ldx 17 18 19 .h) ∧ decode1 0x623291A1 = .ok (.spl 17 18 0x1234 .h) ∧
  decode1 0x663291A1 = .ok (.sps 17 18 0x1234 .h) ∧ decode1 0x7A3204B0 = .ok (.sendt 17 18 37 true) ∧
  decode1 0x82329D90 = .ok (.vand 17 18 19 5 .e5m2) ∧ decode1 0x84B29D90 = .ok (.vcmpEq 5 18 19 5 .e5m2) ∧
  decode1 0x8A328DC2 = .ok (.vcvt 17 18 true .i16 5 .fp32 1 false) ∧ decode1 0x8E3205C0 = .ok (.vredsum 17 18 5 .fp32) ∧
  decode1 0x92329D90 = .ok (.vperm 17 18 19 5 .e5m2) ∧ decode1 0x9A3205B0 = .ok (.vrcp 17 18 5 .bf16) ∧
  decode1 0x9E320590 = .ok (.vbcast 17 18 5 .e5m2) ∧ decode1 0xA6320002 = .ok (.rcfg 17 18 2) ∧
  decode1 0xAA320000 = .ok (.mstat 17 18) ∧ decode1 0xB2200400 = .ok (.yclaim 17 true) ∧
  decode1 0xB6329800 = .ok (.qsearch 17 18 19) ∧ decode1 0xBA329DB0 = .ok (.bfpx 17 18 19 5 .bf16) ∧
  decode1 0 = .ill 1 ∧ decode1 0xFFFFFFFF = .ill 1 ∧
  (∀ m ∈ ([0x00, 0x30, 0x31, 0x32, 0x33, 0x34, 0x35, 0x36, 0x37, 0x38, 0x39, 0x3A, 0x3B, 0x3C, 0x3D, 0x3F] : List (BitVec 6)),
    decode1 (m ++ 0x0000001#26) = .ill 1) ∧
  decode1 (0x01#6 ++ 0#5 ++ 0#5 ++ 0#5 ++ 0x27#11) = .ill 2 ∧ decode1 (0x14#6 ++ 1#5 ++ 0#5 ++ 0#5 ++ 2#11) = .ill 3 ∧
  decode1 (0x1F#6 ++ 0#5 ++ 0#5 ++ 0#5 ++ (0#3 ++ 15#4 ++ 0#4)) = .ill 4 ∧ decode [0xF8000000, 0xF8000000] = .ill 5 ∧
  decode1 (0x15#6 ++ 1#5 ++ 2#5 ++ 7#16) = .ill 6

/-- R78, R84, R88: what a step does. Which step falls next is the model's own: the tape (log 1), what is due (log 14), whose
turn it is (log 14); so are the lines that the instruction cache keeps (log 6), the order in which the declared units are
checked (log 11) and the read that must wait at its home (log 83). -/
def Obligations.StepRunsTheDecodedInstruction : Prop :=
  (∀ (s : State) (i : Instr) (rest : List Instr), s.agenda = i :: rest → step s = exec i { s.tick with agenda := rest }) ∧
  (∀ (s : State) (i : Instr), s.agenda = [] → due s = some i → step s = exec i s.tick) ∧
  (∀ (s : State), s.agenda = [] → due s = none → pick s = none → step s = .next s.tick) ∧
  (∀ (s : State) (k : Nat) (p : Proc), s.agenda = [] → due s = none → pick s = some (k, p) →
    let s₀ : State := { s.tick with cur := k, turn := turnOf (k, p) }
    let declared (w : IWord) : Prop := (w.extractLsb' 26 6 = 0x28 → p.tile = true) ∧ (w.extractLsb' 26 6 = 0x2C → p.yard = true)
    (interrupted s₀ k p = true → step s = exec (.takeAsyncTrap k) s₀) ∧
    (∀ s₁ w, interrupted s₀ k p = false → fetchWord s₀ k p p.pc = (s₁, .word w) → ¬ declared w →
      step s = exec (.illegalWord 7 1 false) s₁) ∧
    (∀ s₁ w, interrupted s₀ k p = false → fetchWord s₀ k p p.pc = (s₁, .word w) → declared w →
      (∀ i, decode1 w = .ok i → step s = exec i s₁) ∧
      (∀ d, decode1 w = .ill d → step s = exec (.illegalWord (BitVec.ofNat 16 d) (w.setWidth 64) false) s₁) ∧
      (∀ x s₂ c d, decode1 w = .ext x → fetchWord s₁ k p (p.pc + 4) = (s₂, .fault c d) →
        step s = .next (s₂.trap k p true c d (p.pc + 4))) ∧
      (∀ x s₂, decode1 w = .ext x → fetchWord s₁ k p (p.pc + 4) = (s₂, .wait) → step s = .next s₂) ∧
      (∀ x s₂ w₂, decode1 w = .ext x → fetchWord s₁ k p (p.pc + 4) = (s₂, .word w₂) →
        (∀ i, decodePair x w₂ = .ok i → step s = exec i s₂) ∧
        (∀ d, decodePair x w₂ = .ill d → step s = exec (.illegalWord (BitVec.ofNat 16 d) (w₂ ++ w) true) s₂))) ∧
    (∀ s₁, interrupted s₀ k p = false → fetchWord s₀ k p p.pc = (s₁, .wait) → step s = .next s₁) ∧
    (∀ s₁ c d, interrupted s₀ k p = false → fetchWord s₀ k p p.pc = (s₁, .fault c d) → step s = .next (s₁.trap k p false c d p.pc))) ∧
  (∀ (s s₁ : State) (k ga : Nat) (p : Proc) (va leaf : Word), translate s (placeOf k) p.asid p.smode va .exec = (s₁, .ok ga leaf) →
    leafPois leaf = false → ga % 4 = 0 →
    (∀ x, mget (s₁.core (placeOf k)).icache (ga / 64) = some x →
      fetchWord s k p va = (s₁, .word (x.extractLsb' (8 * (ga % 64)) 32))) ∧
    (mget (s₁.core (placeOf k)).icache (ga / 64) = none → readWaits s₁ (placeOf k) (ga / 64 * 64) 64 = true →
      fetchWord s k p va = (s₁.readHeld (ga / 64 * 64) 64, .wait)) ∧
    (let t := s₁.readDone (ga / 64 * 64) 64
     mget (s₁.core (placeOf k)).icache (ga / 64) = none → readWaits s₁ (placeOf k) (ga / 64 * 64) 64 = false → t.bad ga = false →
      sealedFrom t ga (some p.asid) = false →
      ∃ s₂, fetchWord s k p va = (s₂, .word (BitVec.ofNat 32 (memNat t.mem ga 4))) ∧ s₂.mem = t.mem ∧ s₂.procs = t.procs))

/-- R84: every instruction has its effect or its trap; the one fault is the model's own (log 9). -/
def Obligations.EveryStepAnswers : Prop :=
  (∀ (i : Instr) (s : State), (∃ t, exec i s = .next t) ∨ (exec i s = .fault .noProcess ∧ mget s.procs s.cur = none)) ∧
  ∀ s : State, s.agenda = [] → Runs s

/-- The invariant under every step: process instructions, the steps of engines, ports, links, service cores and the host. -/
def Obligations.StepsKeepTheInvariant : Prop := ∀ s t : State, Inv s → step s = .next t → Inv t

/-- R16, R20, R21, R35 to R53, R206, R225, R230, R355: reset and creation. That no process stands in the table at reset is the
model's choice (log 9). -/
def Obligations.Reset : Prop :=
  Inv State.reset ∧ State.reset.timeb = 0 ∧ State.reset.procs = [] ∧ (∀ ga, State.reset.full ga = true) ∧
  (∀ pl i, State.reset.ring pl i = none) ∧
  (∀ sh, let x := State.reset.shed sh
    x.ptr = 0 ∧ x.credit = 0 ∧ ∀ (i : Nat) (h : i < 8), x.slots[i].acc = [] ∧ x.slots[i].tag = none ∧
      x.slots[i].ovf = 0 ∧ x.slots[i].nan = 0 ∧ x.slots[i].sat = 0 ∧ x.slots[i].pois = 0) ∧
  (∀ (c : Child) (e : BitVec 512) (gen base usa : Nat),
    let p := childProc c e gen base usa
    p.numctl = c.numctl ∧ p.epol = c.epol ∧ p.tvec = (if ttTvec e ≠ 0 then ttTvec e else c.tvec) ∧ p.smode = ttFlag e 3 ∧
    (ttPrio e ≤ 11 → p.prioBase = ttPrio e ∧ p.eff = ttPrio e) ∧
    p.tmo = BitVec.allOnes 64 ∧ p.tcause = 0 ∧ p.tval = 0 ∧ p.tpc = 0 ∧ p.tstat = 0 ∧ p.qnt = 100000 ∧ p.feretry = 16 ∧
    p.timecmp = BitVec.allOnes 64 ∧ p.swapsq = 0 ∧ p.round = 0 ∧ p.gFull = BitVec.allOnes 32 ∧ p.vFull = BitVec.allOnes 32 ∧
    p.rg 1 = c.g1 ∧ p.rg 2 = c.parent ∧ p.rg 3 = BitVec.ofNat 64 c.ttype ∧ (∀ n, n ≠ 1 → n ≠ 2 → n ≠ 3 → p.rg n = 0) ∧
    (∀ n, p.rv n = 0) ∧ ∀ n, n ≠ 0 → p.rk n = 0) ∧
  (∀ (s : State) (pl e gen : Nat) (p : Proc) (ring : Option Nat), ∃ q,
    mget (s.enter pl e gen p ring).procs (pl * 4096 + e) = some q ∧ q.doors = fixedDoors (s.space p.asid).faultChan s.nextChan) ∧
  ∀ f c d, (mget (fixedDoors f c) d).isSome = true ↔ d = 62 ∨ d = 63

/-- R15, R17, R18: reads and writes of the register files, and readers and writers of an empty register. -/
def Obligations.Registers : Prop :=
  (∀ (s : State) (k : Nat) (p : Proc) (n n' : BitVec 5) (m m' : BitVec 3) (x : Word) (y : VReg),
    p.rg 0 = 0 ∧ p.wg 0 x = p ∧ p.eg 0 = p ∧ regFull s k p (.g 0) = true ∧ p.rk 0 = BitVec.allOnes 64 ∧ p.wk 0 x = p ∧
    (n ≠ 0 → (p.wg n x).rg n = x) ∧ (n' ≠ n → (p.wg n x).rg n' = p.rg n') ∧ (p.wv n y).rv n = y ∧
    (n' ≠ n → (p.wv n y).rv n' = p.rv n') ∧ (m ≠ 0 → (p.wk m x).rk m = x) ∧ (m' ≠ m → (p.wk m x).rk m' = p.rk m') ∧
    SameSystem p (p.wg n x) ∧ SameSystem p (p.wv n y) ∧ SameSystem p (p.wk m x) ∧
    (p.wg n x).gFull = p.gFull ∧ (p.wv n y).gFull = p.gFull ∧ (p.wk m x).gFull = p.gFull) ∧
  (∀ (a b c : BitVec 5) (m : BitVec 3) (o : BitVec 13) (z : StSize) (ty : Ty) (s : State) (p : Proc), mget s.procs s.cur = some p →
    let stalls (r : RegRef) (i : Instr) : Prop := p.stall = none →
      exec i s = .next (s.setProc s.cur { p with stall := some { kind := .reg r, since := s.cycle, deadline := none } })
    let empty (r : RegRef) : Prop := regFull s s.cur p r = false
    let traps (r : RegRef) (n : BitVec 5) : Prop := empty r ∧ p.epol.getLsbD n.toNat = true
    let reports (code : Nat) (i : Instr) : Prop := p.stall = none → exec i s = .next (s.trap s.cur p false 3 0 (BitVec.ofNat 64 code))
    let sources (file : BitVec 5 → RegRef) (base : Nat) (x y : BitVec 5) (i : Instr) : Prop :=
      (traps (file x) x → reports (base + x.toNat) i) ∧
      (¬ traps (file x) x → traps (file y) y → reports (base + y.toNat) i) ∧
      (¬ traps (file x) x → ¬ traps (file y) y →
        (empty (file x) → stalls (file x) i) ∧ (¬ empty (file x) → empty (file y) → stalls (file y) i))
    sources .g 0 b c (.add a b c) ∧ sources .g 0 b a (.st a b o z) ∧ sources .v 32 b c (.vadd a b c m ty) ∧
    (¬ empty (.g b) → ¬ empty (.g c) → empty (.g a) → stalls (.g a) (.add a b c)) ∧
    (¬ empty (.v b) → ¬ empty (.v c) → empty (.v a) → stalls (.v a) (.vadd a b c m ty)) ∧
    (∀ r x, p.stall = some x → x.kind = .reg r → empty r → (r = .g b ∨ (¬ empty (.g b) ∧ (r = .g c ∨ (¬ empty (.g c) ∧ r = .g a)))) →
      (∀ n, n = b ∨ n = c → r ≠ .g n → ¬ traps (.g n) n) → exec (.add a b c) s = .next s))

/-- R57, R109, R110: the register instructions of major 0x01. -/
def Obligations.IntegerRegister : Prop :=
  (∀ a b c : BitVec 5,
    let two (i : Instr) (f : Word → Word → Word) : Prop :=
      Completes { srcs := [.g b, .g c], dsts := [.g a] } i (putsG a fun p => f (p.rg b) (p.rg c))
    two (.add a b c) (fun x y => x + y) ∧ two (.sub a b c) (fun x y => x - y) ∧
    two (.and a b c) (fun x y => x &&& y) ∧ two (.or a b c) (fun x y => x ||| y) ∧
    two (.xor a b c) (fun x y => x ^^^ y) ∧ two (.andn a b c) (fun x y => x &&& ~~~y) ∧
    two (.shl a b c) (fun x y => x <<< (y.toNat % 64)) ∧ two (.shr a b c) (fun x y => x >>> (y.toNat % 64)) ∧
    two (.sra a b c) (fun x y => x.sshiftRight (y.toNat % 64)) ∧ two (.rol a b c) (fun x y => x.rotateLeft (y.toNat % 64)) ∧
    two (.mul a b c) (fun x y => x * y) ∧
    two (.mulh a b c) (fun x y => ((x.signExtend 128 * y.signExtend 128).extractLsb' 64 64)) ∧
    two (.mulhu a b c) (fun x y => ((x.setWidth 128 * y.setWidth 128).extractLsb' 64 64)) ∧
    two (.div a b c) (fun x y => if y = 0 then BitVec.allOnes 64 else x.sdiv y) ∧
    two (.divu a b c) (fun x y => if y = 0 then BitVec.allOnes 64 else x / y) ∧
    two (.rem a b c) (fun x y => if y = 0 then x else x.srem y) ∧
    two (.remu a b c) (fun x y => if y = 0 then x else x % y) ∧
    two (.min a b c) (fun x y => BitVec.ofInt 64 (Min.min x.toInt y.toInt)) ∧
    two (.max a b c) (fun x y => BitVec.ofInt 64 (Max.max x.toInt y.toInt)) ∧
    two (.minu a b c) (fun x y => BitVec.ofNat 64 (Min.min x.toNat y.toNat)) ∧
    two (.maxu a b c) (fun x y => BitVec.ofNat 64 (Max.max x.toNat y.toNat)) ∧
    two (.slt a b c) (fun x y => if x.toInt < y.toInt then 1 else 0) ∧
    two (.sltu a b c) (fun x y => if x.toNat < y.toNat then 1 else 0) ∧
    two (.seq a b c) (fun x y => if x = y then 1 else 0) ∧
    two (.lea1 a b c) (fun x y => x + y) ∧ two (.lea2 a b c) (fun x y => x + y <<< 1) ∧
    two (.lea4 a b c) (fun x y => x + y <<< 2) ∧ two (.lea8 a b c) (fun x y => x + y <<< 3)) ∧
  (∀ a b : BitVec 5,
    let one (i : Instr) (f : Word → Word) : Prop :=
      Completes { srcs := [.g b], dsts := [.g a] } i (putsG a fun p => f (p.rg b))
    (∃ f, one (.clz a b) f ∧ f 0 = 64 ∧
      ∀ (x : Word) (n : Nat), n < 64 → x.getLsbD n = true → (∀ j, n < j → x.getLsbD j = false) → f x = BitVec.ofNat 64 (63 - n)) ∧
    (∃ f, one (.ctz a b) f ∧ f 0 = 64 ∧
      ∀ (x : Word) (n : Nat), n < 64 → x.getLsbD n = true → (∀ j, j < n → x.getLsbD j = false) → f x = BitVec.ofNat 64 n) ∧
    one (.popc a b) (fun x => BitVec.ofNat 64 ((List.range 64).countP fun i => x.getLsbD i)) ∧
    (∃ f, one (.brev a b) f ∧ ∀ (x : Word) (j : Nat), j < 64 → (f x).getLsbD j = x.getLsbD (63 - j)) ∧
    (∃ f, one (.bswap a b) f ∧
      ∀ (x : Word) (j i : Nat), j < 8 → i < 8 → (f x).getLsbD (8 * j + i) = x.getLsbD (8 * (7 - j) + i)) ∧
    one (.sextB a b) (fun x => (x.extractLsb' 0 8).signExtend 64) ∧
    one (.sextH a b) (fun x => (x.extractLsb' 0 16).signExtend 64) ∧
    one (.sextW a b) (fun x => (x.extractLsb' 0 32).signExtend 64) ∧
    one (.zextB a b) (fun x => x &&& 0xFF) ∧ one (.zextH a b) (fun x => x &&& 0xFFFF) ∧
    one (.zextW a b) (fun x => x &&& 0xFFFFFFFF))

/-- R111: the immediate instructions in both forms. -/
def Obligations.Immediates : Prop :=
  ∀ (a b : BitVec 5) (i : BitVec 16) (x : BitVec 26),
    let imm (f : IForm) (j : Instr) (short : Word) (r : Word → Word → Word) : Prop :=
      Completes { srcs := [.g b], dsts := [.g a] } j (putsG a fun p => r (p.rg b) short) ∧
      Completes { srcs := [.g b], dsts := [.g a], ext := true } (.extPair x f a b i)
        (fun k p s => s.setProc k { p.wg a (r (p.rg b) ((x ++ i).signExtend 64)) with pc := p.pc + 8 })
    imm .addi (.addi a b i) (i.signExtend 64) (fun u v => u + v) ∧
    imm .andi (.andi a b i) (i.zeroExtend 64) (fun u v => u &&& v) ∧
    imm .ori (.ori a b i) (i.zeroExtend 64) (fun u v => u ||| v) ∧
    imm .xori (.xori a b i) (i.zeroExtend 64) (fun u v => u ^^^ v) ∧
    imm .slti (.slti a b i) (i.signExtend 64) (fun u v => if u.toInt < v.toInt then 1 else 0) ∧
    imm .sltiu (.sltiu a b i) (i.zeroExtend 64) (fun u v => if u.toNat < v.toNat then 1 else 0) ∧
    imm .movhi (.movhi a b i) (i.signExtend 64) (fun u v => u + v <<< 32) ∧
    imm .muli (.muli a b i) (i.signExtend 64) (fun u v => u * v)

/-- R112: SHI in both forms, with its reserved bits. -/
def Obligations.ShiftImmediate : Prop :=
  ∀ (a b : BitVec 5) (hi : BitVec 8) (kind : BitVec 2) (n : BitVec 6) (x : BitVec 26),
    let w : IWord := 0x08#6 ++ a ++ b ++ (hi ++ kind ++ n)
    let sh (v : Word) : Word :=
      if kind = 0 then v <<< n.toNat else if kind = 1 then v >>> n.toNat else if kind = 2 then v.sshiftRight n.toNat
      else v.rotateLeft n.toNat
    let i : Instr := if kind = 0 then .shiL a b n else if kind = 1 then .shiR a b n else if kind = 2 then .shiA a b n else .shiRol a b n
    decode1 w = (if hi = 0 then .ok i else .ill 3) ∧
    decodePair x w = (if hi = 0 ∧ x = 0 then .ok (.extPair x .shi a b (hi ++ kind ++ n)) else .ill 3) ∧
    Completes { srcs := [.g b], dsts := [.g a] } i (putsG a fun p => sh (p.rg b)) ∧
    (hi = 0 → x = 0 → Completes { srcs := [.g b], dsts := [.g a], ext := true } (.extPair x .shi a b (hi ++ kind ++ n))
      (fun k p s => s.setProc k { p.wg a (sh (p.rg b)) with pc := p.pc + 8 }))

/-- R114: the six compare-branches in both forms. -/
def Obligations.Branches : Prop :=
  ∀ (a b : BitVec 5) (i : BitVec 16) (x : BitVec 26),
    let br (f : IForm) (j : Instr) (taken : Word → Word → Bool) : Prop :=
      Completes { srcs := [.g b, .g a] } j (fun k p s =>
        s.setProc k { p with pc := if taken (p.rg a) (p.rg b) then p.pc + 4 * i.signExtend 64 else p.pc + 4 }) ∧
      Completes { srcs := [.g b, .g a], ext := true } (.extPair x f a b i) (fun k p s =>
        s.setProc k { p with pc := if taken (p.rg a) (p.rg b) then p.pc + 4 * (x ++ i).signExtend 64 else p.pc + 8 })
    br .beq (.beq a b i) (fun u v => u == v) ∧ br .bne (.bne a b i) (fun u v => u != v) ∧
    br .blt (.blt a b i) (fun u v => decide (u.toInt < v.toInt)) ∧ br .bge (.bge a b i) (fun u v => decide (v.toInt ≤ u.toInt)) ∧
    br .bltu (.bltu a b i) (fun u v => decide (u.toNat < v.toNat)) ∧ br .bgeu (.bgeu a b i) (fun u v => decide (v.toNat ≤ u.toNat))

/-- R115: DBNZ, its required fields and its effect, in both forms. -/
def Obligations.CountedBranch : Prop :=
  ∀ (a b : BitVec 5) (i : BitVec 16) (x : BitVec 26),
    let w : IWord := 0x11#6 ++ a ++ b ++ i
    let go (n : Nat) (imm : Word) (k : Nat) (p : Proc) (s : State) : State :=
      s.setProc k { p.wg a (p.rg a - 1) with pc := if p.rg a - 1 ≠ 0 then p.pc + 4 * imm else p.pc + BitVec.ofNat 64 n }
    if b ≠ 0 ∨ a = 0 then decode1 w = .ill 3 ∧ decodePair x w = .ill 3
    else
      decode1 w = .ok (.dbnz a i) ∧ decodePair x w = .ok (.extPair x .dbnz a b i) ∧
      Completes { srcs := [.g a] } (.dbnz a i) (go 4 (i.signExtend 64)) ∧
      Completes { srcs := [.g a], ext := true } (.extPair x .dbnz a b i) (go 8 ((x ++ i).signExtend 64))

/-- R119: J and CALL. -/
def Obligations.Jumps : Prop :=
  ∀ (i x : BitVec 26),
    decode1 (0x12#6 ++ i) = .ok (.j i) ∧ decode1 (0x13#6 ++ i) = .ok (.call i) ∧
    decodePair x (0x12#6 ++ i) = .ill 5 ∧ decodePair x (0x13#6 ++ i) = .ill 5 ∧
    Completes {} (.j i) (fun k p s => s.setProc k { p with pc := p.pc + 4 * i.signExtend 64 }) ∧
    Completes { dsts := [.g 31] } (.call i) (fun k p s =>
      s.setProc k { p.wg 31 (p.pc + 4) with pc := p.pc + 4 * i.signExtend 64 })

/-- R120, R142, R337: the jumps through a register. -/
def Obligations.RegisterJumps : Prop :=
  ∀ (a b : BitVec 5),
    let goes (i : Instr) (b : BitVec 5) (dsts : List RegRef) (link : Proc → Proc) : Prop :=
      CompletesIf { srcs := [.g b], dsts := dsts } i
        (fun _ p _ => (p.kind = .normal ∨ p.rg b ≠ returnPoint) ∧ (p.rg b).extractLsb' 0 2 = 0)
        (fun k p s => s.setProc k { link p with pc := p.rg b }) ∧
      (∀ r gen reg, CompletesIf { srcs := [.g b], dsts := dsts } i
        (fun k p s => p.kind ≠ .normal ∧ p.rg b = returnPoint ∧ p.serving = some (r, gen, reg) ∧
          outstanding s k p.gen (fun _ _ => true) = false)
        (fun k p s =>
          let t := (s.setProc k (link p)).clocked k (link p)
          (if p.kind = .deleg then
              t.post (placeOf k) (placeOf r) none (.fill { (endFill r gen 0) with writes := [.g reg ((link p).rg 3)], ends := none })
            else t).idleRoutine k)) ∧
      CompletesIf { srcs := [.g b], dsts := dsts } i
        (fun k p s => p.kind ≠ .normal ∧ p.rg b = returnPoint ∧ outstanding s k p.gen (fun _ _ => true) = true)
        (fun k p s => s.stallOn k (link p) .order none) ∧
      CompletesIf { srcs := [.g b], dsts := dsts } i (fun _ p _ => (p.rg b).extractLsb' 0 2 ≠ 0)
        (fun k p s => s.trap k p false 0x04 0 (p.rg b))
    goes (.jr b) b [] id ∧ goes (.ret) 31 [] id ∧ goes (.callr a b) b [.g a] (fun p => p.wg a (p.pc + 4))

/-- R121, R122, R126, R127: the loads when their access finds its word (which copy a core keeps is log 6). -/
def Obligations.Loads : Prop :=
  ∀ (a b c : BitVec 5) (o : BitVec 13) (x : BitVec 26) (i : BitVec 16) (sc : Scope) (z : LdSize),
    let n := ldBytes z
    let sends (t : Touch) (len : Word) (ext : Bool) (va : Proc → Word) (k : Nat) (p : Proc) (s : State) (ga : Nat) (leaf : Word) :
        State :=
      let via := viaLeaf s (placeOf k) p.asid (va p)
      let held := if readOnly (placeOf k) ga leaf then mget (s.core (placeOf k)).roLines (ga / 64) else none
      let q := { p.eg a with pc := p.pc + len }
      let waiting := { q with
        wait := some { kind := .load, status := 0, door := 0, since := s.cycle, deadline := none, pc := p.pc, ext := ext,
                       nan := p.nan1 } }
      match held with
      | some line =>
        (s.modCore (placeOf k) fun c => c.reach (ga / 64) via).setProc k
          { p.wg a (ldExtend z (line.data.toNat / 2 ^ (8 * (ga % 64)) % 2 ^ (8 * n))) with pc := p.pc + len }
      | none =>
        (s.post (placeOf k) (agentHome (homeFor s (placeOf k) ga)) (some (ownOf k p t))
          (readBody s (placeOf k) p.asid ga n leaf (.g a z) (va p) p.dropTrap)).setProc k (if p.dropTrap then waiting else q)
    AccessCompletes { srcs := [.g b], dsts := [.g a], touch := .plain } (.ld a b o z)
      (fun p => p.rg b + o.signExtend 64 * BitVec.ofNat 64 n) n .read
      (sends .plain 4 false fun p => p.rg b + o.signExtend 64 * BitVec.ofNat 64 n) ∧
    (i.extractLsb' 0 3 = z.code →
      AccessCompletes { srcs := [.g b], dsts := [.g a], touch := .plain, ext := true } (.extPair x .ld a b i)
        (fun p => p.rg b + ((x ++ i).extractLsb' 3 39).signExtend 64 * BitVec.ofNat 64 n) n .read
        (sends .plain 8 true fun p => p.rg b + ((x ++ i).extractLsb' 3 39).signExtend 64 * BitVec.ofNat 64 n)) ∧
    AccessCompletes { srcs := [.g b, .g c], dsts := [.g a], touch := .plain } (.ldx a b c z)
      (fun p => p.rg b + p.rg c) n .read (sends .plain 4 false fun p => p.rg b + p.rg c) ∧
    AccessCompletes { scope := sc, srcs := [.g b], dsts := [.g a], touch := .acquire } (.lda a b sc z)
      (fun p => p.rg b) n .read (sends .acquire 4 false fun p => p.rg b)

/-- R121, R123, R126, R127: the stores when their access finds its word; the core's own reduction line goes ahead of a store by
log 43. -/
def Obligations.Stores : Prop :=
  ∀ (a b c : BitVec 5) (o : BitVec 13) (x : BitVec 26) (i : BitVec 16) (sc : Scope) (z : StSize),
    let n := stBytes z
    let sends (t : Touch) (len : Word) (k : Nat) (p : Proc) (s : State) (ga : Nat) (leaf : Word) : State :=
      ((s.combineAt (placeOf k) ga).post (placeOf k) (agentHome (homeFor s (placeOf k) ga)) (some (ownOf k p t))
        (writeBody ga (leBytes n (p.rg a).toNat) leaf)).setProc k { p with pc := p.pc + len }
    AccessCompletes { srcs := [.g b, .g a], touch := .plain } (.st a b o z)
      (fun p => p.rg b + o.signExtend 64 * BitVec.ofNat 64 n) n .write (sends .plain 4) ∧
    (i.extractLsb' 0 3 = z.code →
      AccessCompletes { srcs := [.g b, .g a], touch := .plain, ext := true } (.extPair x .st a b i)
        (fun p => p.rg b + ((x ++ i).extractLsb' 3 39).signExtend 64 * BitVec.ofNat 64 n) n .write (sends .plain 8)) ∧
    AccessCompletes { srcs := [.g b, .g c, .g a], touch := .plain } (.stx a b c z)
      (fun p => p.rg b + p.rg c) n .write (sends .plain 4) ∧
    AccessCompletes { scope := sc, srcs := [.g b, .g a], touch := .release } (.stl a b sc z)
      (fun p => p.rg b) n .write (sends .release 4)

/-- R122, R128, R139, R141, R147: a misaligned scalar access traps ALIGN with its address. -/
def Obligations.MisalignedAccess : Prop :=
  ∀ (a b c : BitVec 5) (o : BitVec 13) (x : BitVec 26) (i : BitVec 16) (sc : Scope) (z : LdSize) (y : StSize) (t d : Bool)
      (ord : AtomOrd),
    let traps (nd : Need) (j : Instr) (va : Proc → Word) (n : Nat) : Prop :=
      CompletesIf nd j (fun _ p _ => ¬ n ∣ (va p).toNat) (fun k p s => s.trap k p nd.ext 0x04 0 (va p))
    let at_ (nd : Need) (j : Instr) (n : Nat) : Prop := traps nd j (fun p => p.rg b) n
    let long (n : Nat) (p : Proc) : Word := p.rg b + ((x ++ i).extractLsb' 3 39).signExtend 64 * BitVec.ofNat 64 n
    let amo (j : Instr) : Prop := at_ { srcs := [.g b, .g c], dsts := [.g a], touch := ordTouch ord } j (if d then 8 else 4)
    let red (j : Instr) : Prop := at_ { srcs := [.g b, .g c], touch := .plain } j (if d then 8 else 4)
    let group (srcs dsts : List RegRef) (h : Touch) (w : IWord) (j : Instr) : Prop :=
      at_ { srcs := srcs, dsts := dsts, touch := h, noRoutine := true, word := w } j 64
    traps { srcs := [.g b], dsts := [.g a], touch := .plain } (.ld a b o z)
      (fun p => p.rg b + o.signExtend 64 * BitVec.ofNat 64 (ldBytes z)) (ldBytes z) ∧
    traps { srcs := [.g b, .g a], touch := .plain } (.st a b o y)
      (fun p => p.rg b + o.signExtend 64 * BitVec.ofNat 64 (stBytes y)) (stBytes y) ∧
    (i.extractLsb' 0 3 = z.code →
      traps { srcs := [.g b], dsts := [.g a], touch := .plain, ext := true } (.extPair x .ld a b i) (long (ldBytes z)) (ldBytes z)) ∧
    (i.extractLsb' 0 3 = y.code →
      traps { srcs := [.g b, .g a], touch := .plain, ext := true } (.extPair x .st a b i) (long (stBytes y)) (stBytes y)) ∧
    traps { srcs := [.g b, .g c], dsts := [.g a], touch := .plain } (.ldx a b c z) (fun p => p.rg b + p.rg c) (ldBytes z) ∧
    traps { srcs := [.g b, .g c, .g a], touch := .plain } (.stx a b c y) (fun p => p.rg b + p.rg c) (stBytes y) ∧
    at_ { scope := sc, srcs := [.g b], dsts := [.g a], touch := .acquire } (.lda a b sc z) (ldBytes z) ∧
    at_ { scope := sc, srcs := [.g b, .g a], touch := .release } (.stl a b sc y) (stBytes y) ∧
    at_ { srcs := [.g b], dsts := [.g a, .g c], touch := .acquire } (.lds a b c t) 8 ∧
    at_ { srcs := [.g b], dsts := [.g a, .g c], touch := .acquire } (.ldf a b c t) 8 ∧
    at_ { srcs := [.g b, .g a], dsts := [.g c], touch := .release } (.sts a b c t) 8 ∧
    at_ { srcs := [.g b], dsts := [.g a], touch := .acquire } (.feget a b) 8 ∧
    at_ { srcs := [.g b, .g a], touch := .release } (.feset a b) 8 ∧
    amo (.amoAdd a b c ord d) ∧ amo (.amoAnd a b c ord d) ∧ amo (.amoOr a b c ord d) ∧ amo (.amoXor a b c ord d) ∧
    amo (.amoMin a b c ord d) ∧ amo (.amoMax a b c ord d) ∧ amo (.amoMinu a b c ord d) ∧ amo (.amoMaxu a b c ord d) ∧
    amo (.amoSwap a b c ord d) ∧
    at_ { srcs := [.g b, .g c, .g a], dsts := [.g a], touch := ordTouch ord } (.cas a b c ord d) (if d then 8 else 4) ∧
    red (.redAdd b c d) ∧ red (.redFadd b c d) ∧ red (.redMin b c d) ∧ red (.redMax b c d) ∧
    group [.g b] [.g a] .plain (encR 0x1B a b 0 0x040) (.gjoin a b) ∧
    group [.g b] [.g 0] .plain (encR 0x1B 0 b 0 0x060) (.gleave b) ∧
    group [.g b] [.g a] .release (encR 0x1B a b 0 0x080) (.barArrive a b) ∧
    group [.g b] [.g a] .release (encR 0x1B a b 0 0x0A0) (.barDrop a b) ∧
    group [.g b, .g c] [.g a] .acquire (encR 0x1B a b c (BitVec.ofBool t ++ 0x0C0#10)) (.barWait a b c t)

/-- R126, R128, R130: the synchronised accesses. -/
def Obligations.SynchronisedAccesses : Prop :=
  ∀ (a b c : BitVec 5) (t : Bool),
    let req (k : Nat) (p : Proc) (s : State) (ga : Nat) (leaf : Word) (op : AtomOp) (o : Touch) (n : Nat) (tm : Bool) : State :=
      s.post (placeOf k) (agentHome (homeOf ga)) (some (ownOf k p o))
        (.atomic (atomReq k p ga leaf (p.rg b) op o n (deadlineOf s k p tm)))
    let sync (nd : Need) (i : Instr) (acc : Access) (effect : Nat → Proc → State → Nat → Word → State) : Prop :=
      ∀ (s : State) (k : Nat) (p : Proc) (s₀ : State) (q : Proc) (s' : State) (ga : Nat) (leaf : Word), Issues s k p nd s₀ q →
        Maps s₀ k q (q.rg b) 8 acc s' ga leaf → InDevice ga → exec i s = .next ((effect k q s' ga leaf).retired k q)
    sync { srcs := [.g b], dsts := [.g a, .g c], touch := .acquire } (.lds a b c t) .write
      (fun k p s ga leaf => (req k p s ga leaf (.lds a c) .acquire (p.feretry.toNat % 256) t).produced k p ((p.eg a).eg c)) ∧
    sync { srcs := [.g b], dsts := [.g a, .g c], touch := .acquire } (.ldf a b c t) .read
      (fun k p s ga leaf => (req k p s ga leaf (.ldf a c) .acquire (p.feretry.toNat % 256) t).produced k p ((p.eg a).eg c)) ∧
    sync { srcs := [.g b, .g a], dsts := [.g c], touch := .release } (.sts a b c t) .write
      (fun k p s ga leaf => (req k p s ga leaf (.sts a c (p.rg a)) .release (p.feretry.toNat % 256) t).setProc k (p.eg c).advance) ∧
    sync { srcs := [.g b], dsts := [.g a], touch := .acquire } (.feget a b) .read
      (fun k p s ga leaf => (req k p s ga leaf (.feget a) .acquire 0 false).waitIn k p .home a 0 none) ∧
    sync { srcs := [.g b, .g a], touch := .release } (.feset a b) .write
      (fun k p s ga leaf => (req k p s ga leaf (.feset ((p.rg a).getLsbD 0)) .release 0 false).setProc k p.advance)

/-- R132, R133: scratchpad accesses in both forms. -/
def Obligations.ScratchpadAccesses : Prop :=
  ∀ (a b : BitVec 5) (o : BitVec 13) (x : BitVec 26) (i : BitVec 16) (z : LdSize) (y : StSize),
    let at_ (p : Proc) (off : Word) (n : Nat) : Nat :=
      let w := (p.rg b + off).toNat % 2 ^ p.splog
      w - w % n
    let loads (off : Word) (len : Word) (k : Nat) (p : Proc) (s : State) : State :=
      (s.selfFill k p [.g a (ldExtend z (leNat (spadBytes s k p (at_ p off (ldBytes z)) (ldBytes z))))]).setProc k
        { p.eg a with pc := p.pc + len }
    let stores (off : Word) (len : Word) (k : Nat) (p : Proc) (s : State) : State :=
      (s.spadPut k p (at_ p off (stBytes y)) (leBytes (stBytes y) (p.rg a).toNat)).setProc k { p with pc := p.pc + len }
    let short (n : Nat) : Word := o.signExtend 64 * BitVec.ofNat 64 n
    let long (n : Nat) : Word := ((x ++ i).extractLsb' 3 39).signExtend 64 * BitVec.ofNat 64 n
    let both (nd : Need) (j : Instr) (off : Word) (n : Nat) (effect : Nat → Proc → State → State) : Prop :=
      CompletesIf nd j (fun k p s => p.splog ≠ 0 ∧ spadWaits s k p.gen = false ∧ feWaits s k p.gen (spadGa k p (at_ p off n)) = false)
        effect ∧
      CompletesIf nd j (fun k p s => p.splog ≠ 0 ∧ (spadWaits s k p.gen = true ∨ feWaits s k p.gen (spadGa k p (at_ p off n)) = true))
        (fun k p s => (s.recallSpad (placeOf k)).stallOn k p .order none) ∧
      CompletesIf nd j (fun _ p _ => p.splog = 0) (fun k p s => s.trap k p nd.ext 0x06 6 (p.rg b + off))
    both { srcs := [.g b], dsts := [.g a], touch := .plain } (.spl a b o z) (short (ldBytes z)) (ldBytes z) (loads (short (ldBytes z)) 4) ∧
    both { srcs := [.g b, .g a], touch := .plain } (.sps a b o y) (short (stBytes y)) (stBytes y) (stores (short (stBytes y)) 4) ∧
    (i.extractLsb' 0 3 = z.code →
      both { srcs := [.g b], dsts := [.g a], touch := .plain, ext := true } (.extPair x .spl a b i) (long (ldBytes z)) (ldBytes z)
        (loads (long (ldBytes z)) 8)) ∧
    (i.extractLsb' 0 3 = y.code →
      both { srcs := [.g b, .g a], touch := .plain, ext := true } (.extPair x .sps a b i) (long (stBytes y)) (stBytes y)
        (stores (long (stBytes y)) 8))

/-- R138 to R140, R16: the atomics, and the results of their operations. -/
def Obligations.AtomicOperations : Prop :=
  (∀ (a b c : BitVec 5) (o : AtomOrd) (d : Bool),
    let t : Touch := match o with | .relaxed => .plain | .aq => .acquire | .rl => .release | .ar => .both
    let amo (op : Nat) (i : Instr) : Prop :=
      ∀ (s : State) (k : Nat) (p : Proc) (s₀ : State) (q : Proc) (s' : State) (ga : Nat) (leaf : Word),
        let nd : Need := { srcs := if op = 9 then [.g b, .g c, .g a] else [.g b, .g c], dsts := [.g a], touch := t }
        Issues s k p nd s₀ q → Maps s₀ k q (q.rg b) (if d then 8 else 4) .write s' ga leaf → InDevice ga →
        exec i s = .next (((s'.post (placeOf k) (agentHome (homeOf ga)) (some (ownOf k q t))
          (.atomic (atomReq k q ga leaf (q.rg b) (.amo op (!d) a (q.rg c) (q.rg a)) t 0 none))).produced k q (q.eg a)).retired k q)
    amo 0 (.amoAdd a b c o d) ∧ amo 1 (.amoAnd a b c o d) ∧ amo 2 (.amoOr a b c o d) ∧ amo 3 (.amoXor a b c o d) ∧
    amo 4 (.amoMin a b c o d) ∧ amo 5 (.amoMax a b c o d) ∧ amo 6 (.amoMinu a b c o d) ∧ amo 7 (.amoMaxu a b c o d) ∧
    amo 8 (.amoSwap a b c o d) ∧ amo 9 (.cas a b c o d)) ∧
  (∀ x y : Word,
    let f64 (op : Nat) (f : Word → Word → Word) : Prop := amoApply op false x y = f x y
    let f32 (op : Nat) (f : BitVec 32 → BitVec 32 → BitVec 32) : Prop :=
      (amoApply op true x y).setWidth 32 = f (x.setWidth 32) (y.setWidth 32)
    f64 0 (fun u v => u + v) ∧ f32 0 (fun u v => u + v) ∧ f64 1 (fun u v => u &&& v) ∧ f32 1 (fun u v => u &&& v) ∧
    f64 2 (fun u v => u ||| v) ∧ f32 2 (fun u v => u ||| v) ∧ f64 3 (fun u v => u ^^^ v) ∧ f32 3 (fun u v => u ^^^ v) ∧
    f64 4 (fun u v => BitVec.ofInt 64 (Min.min u.toInt v.toInt)) ∧ f32 4 (fun u v => BitVec.ofInt 32 (Min.min u.toInt v.toInt)) ∧
    f64 5 (fun u v => BitVec.ofInt 64 (Max.max u.toInt v.toInt)) ∧ f32 5 (fun u v => BitVec.ofInt 32 (Max.max u.toInt v.toInt)) ∧
    f64 6 (fun u v => BitVec.ofNat 64 (Min.min u.toNat v.toNat)) ∧ f32 6 (fun u v => BitVec.ofNat 32 (Min.min u.toNat v.toNat)) ∧
    f64 7 (fun u v => BitVec.ofNat 64 (Max.max u.toNat v.toNat)) ∧ f32 7 (fun u v => BitVec.ofNat 32 (Max.max u.toNat v.toNat)) ∧
    f64 8 (fun _ v => v) ∧ f32 8 (fun _ v => v) ∧ f64 9 (fun _ v => v) ∧ f32 9 (fun _ v => v))

/-- R141: the reductions; the place of the drop and count of a POIS leaf is log 100. -/
def Obligations.Reductions : Prop :=
  ∀ (b c : BitVec 5) (d : Bool),
    let red (op : Nat) (i : Instr) : Prop :=
      ∀ (s : State) (k : Nat) (p : Proc) (s₀ : State) (q : Proc) (s' : State) (ga : Nat) (leaf : Word),
        let nd : Need := { srcs := [.g b, .g c], touch := .plain }
        Issues s k p nd s₀ q → Maps s₀ k q (q.rg b) (if d then 8 else 4) .write s' ga leaf → InDevice ga →
        lineWaits s' k q.gen ga = false →
        exec i s = .next (((if leafPois leaf then s'.countHome ga 1
          else s'.reduce (placeOf k) ga op (!d) (q.rg c) (viaLeaf s' (placeOf k) q.asid (q.rg b))).setProc k
            { q with pc := q.pc + 4 }).retired k q)
    red 0 (.redAdd b c d) ∧ red 1 (.redFadd b c d) ∧ red 2 (.redMin b c d) ∧ red 3 (.redMax b c d)

/-- R144 to R148: fences, monitors, groups and barriers; the model's choices in it are log entries 5. -/
def Obligations.Synchronisation : Prop :=
  (∀ (sc : Scope) (kinds : BitVec 4),
    let reads := kinds.getLsbD 0 || kinds.getLsbD 1
    let writes := kinds.getLsbD 2 || kinds.getLsbD 3
    let nd : Need := { scope := sc, fence := if kinds = 0 then none else some (reads, writes) }
    Completes nd (.fence sc kinds) (fun k p s => s.setProc k { p with pc := p.pc + 4 }) ∧
    (∀ (s : State) (k : Nat) (p : Proc), Ready s k p nd →
      (reads = true → outstanding s k p.gen (fun _ b => b.reads && b.within sc) = false ∧ engineReads s k p.gen = false) ∧
      (writes = true → outstanding s k p.gen (fun _ b => b.writes && b.within sc) = false ∧
        combining s (placeOf k) sc = false ∧ linesHeld s (placeOf k) sc = false)) ∧
    ∀ (s : State) (k : Nat) (p : Proc), s.cur = k → mget s.procs k = some p → owedTrap p nd = none → writes = true →
      p.stall = none → p.held = false → linesHeld s (placeOf k) sc = true →
      exec (.fence sc kinds) s = .next ((s.combineAll (placeOf k) sc).setProc k
        { p with stall := some { kind := .order, since := s.cycle, deadline := none } })) ∧
  (∀ (a b c : BitVec 5) (t : Bool) (n : MonCond),
    let nd (mem : Bool) : Need :=
      { srcs := [.g b, .g c], dsts := [.g a], touch := .acquire, noRoutine := true,
        word := encR 0x1B a b c (BitVec.ofBool t ++ 1#5 ++ 0#2 ++ monCode n ++ BitVec.ofBool mem) }
    (∀ (s : State) (k : Nat) (p : Proc) (s₀ : State) (q : Proc) (s' : State) (ga : Nat) (leaf : Word),
      Issues s k p (nd true) s₀ q → Maps s₀ k q (q.rg b) 1 .read s' ga leaf → InDevice ga →
      exec (.monw a b c t n true) s = .next
        ((((s'.post (placeOf k) (agentHome (homeOf (ga / 8 * 8))) (some (ownOf k q .acquire))
          (.atomic (atomReq k q (ga / 8 * 8) leaf (q.rg b) (.monw a n (q.rg c)) .acquire 0 (deadlineOf s' k q t)))).waitIn k q .home a 0
            (deadlineOf s' k q t)).block k).retired k q)) ∧
    (let word (k : Nat) (p : Proc) (s : State) : Word := BitVec.ofNat 64 (leNat (spadBytes s k p (scratchOff p (p.rg b) 0 8) 8))
     let met (k : Nat) (p : Proc) (s : State) : Bool :=
       match n with | .eq => word k p s == p.rg c | .geu => decide ((p.rg c).toNat ≤ (word k p s).toNat) | .ne => word k p s != p.rg c
     CompletesIf (nd false) (.monw a b c t n false) (fun k p s => p.splog ≠ 0 ∧ spadWaits s k p.gen = false ∧
       feWaits s k p.gen (spadGa k p (scratchOff p (p.rg b) 0 8)) = false ∧ met k p s = true) (putsG a fun _ => 0) ∧
     CompletesIf (nd false) (.monw a b c t n false) (fun k p s => p.splog ≠ 0 ∧ spadWaits s k p.gen = false ∧
       feWaits s k p.gen (spadGa k p (scratchOff p (p.rg b) 0 8)) = false ∧ met k p s = false)
       (fun k p s => (s.waitIn k p (.monS (scratchOff p (p.rg b) 0 8) n (p.rg c)) a 0 (deadlineOf s k p t)).block k))) ∧
  (∀ (a b c : BitVec 5) (t : Bool),
    let op (i : Instr) (srcs dsts : List RegRef) (o : Touch) (acc : Access) (word : IWord) (f : Proc → AtomOp) (timed : Bool)
        (after : State → Nat → Proc → Option Nat → State) : Prop :=
      ∀ (s : State) (k : Nat) (p : Proc) (s₀ : State) (q : Proc) (s' : State) (ga : Nat) (leaf : Word),
        let nd : Need := { srcs := srcs, dsts := dsts, touch := o, noRoutine := true, word := word }
        Issues s k p nd s₀ q → Maps s₀ k q (q.rg b) 64 acc s' ga leaf → InDevice ga →
        exec i s = .next ((after (s'.post (placeOf k) (agentHome (homeOf ga)) (some (ownOf k q o))
          (.atomic (atomReq k q ga leaf (q.rg b) (f q) o 0 (deadlineOf s' k q timed)))) k q (deadlineOf s' k q timed)).retired k q)
    let waits (s : State) (k : Nat) (q : Proc) (d : Option Nat) : State := s.waitIn k q .home a 0 d
    op (.gjoin a b) [.g b] [.g a] .plain .write (encR 0x1B a b 0 0x040) (fun _ => .gjoin a) false waits ∧
    op (.barArrive a b) [.g b] [.g a] .release .write (encR 0x1B a b 0 0x080) (fun _ => .arrive a) false waits ∧
    op (.barDrop a b) [.g b] [.g a] .release .write (encR 0x1B a b 0 0x0A0) (fun _ => .drop a) false waits ∧
    op (.barWait a b c t) [.g b, .g c] [.g a] .acquire .read (encR 0x1B a b c (BitVec.ofBool t ++ 0x0C0#10))
      (fun q => .barWait a (q.rg c)) t waits ∧
    op (.gleave b) [.g b] [.g 0] .plain .write (encR 0x1B 0 b 0 0x060) (fun _ => .gleave) false
      (fun s k q _ => if q.dropTrap then s.waitIn k q .load 0 0 none else s.setProc k { q with pc := q.pc + 4 }))

/-- R142: DELEG; its address is read as one byte by log 82. -/
def Obligations.Delegation : Prop :=
  ∀ (a b c : BitVec 5) (s : State) (k : Nat) (p : Proc) (s₀ : State) (q : Proc) (s' : State) (ga : Nat) (leaf : Word),
    let nd : Need := { srcs := [.g b, .g c, .g 4, .g 5, .g 6, .g 7], dsts := [.g a], touch := .release }
    Issues s k p nd s₀ q → Maps s₀ k q (q.rg b) 1 .read s' ga leaf →
    exec (.deleg a b c) s = .next
      ((if ga % 2 ^ 44 < 768 * 2 ^ 30 then
        (s'.post (placeOf k) (ga / 2 ^ 44 * 1024 + ga % 2 ^ 44 / 2 ^ 30) none
          (.deleg (ga / 2 ^ 44 * 1024 + ga % 2 ^ 44 / 2 ^ 30)
            { words := [q.rg b, q.rg c, q.rg 4, q.rg 5, q.rg 6, q.rg 7], numctl := 0, p := k, gen := q.gen, reg := a, asid := q.asid
              prio := q.eff })).setProc k (q.eg a).advance
      else s'.trap k q false 0x06 2 (q.rg b)).retired k q)

/-- R152 to R157: creating, ending and ordering processes; the model's choices in it are log entries 95. -/
def Obligations.Processes : Prop :=
  (∀ (a b c : BitVec 5) (n : BitVec 2) (s : State) (k : Nat) (p : Proc),
    let nd : Need :=
      { srcs := [.g b, .g c], dsts := [.g a], touch := .release, quiet := true, noRoutine := true, word := encR 0x1C a b c (0#9 ++ n) }
    let pl := placeOf k
    let ra : BitVec 5 := if a = b then 0 else a
    let rb : BitVec 5 := if a = b then 0 else b
    ∀ (s' : State) (q : Proc),
    Issues s k p nd s' q →
    let q' := if a = b then q.wg a 0 else q
    let answers (t : State) (code : Word) : Prop :=
      exec (.spawn a b c n) s = .next ((t.setProc k ((q'.wg rb 0).wg ra code).advance).retired k q)
    let ttype := (q.rg b).toNat
    (4096 ≤ ttype ∨ (s'.space q.asid).types[ttype]? = none → answers s' 7) ∧
    ∀ e : BitVec 512, ttype < 4096 → (s'.space q.asid).types[ttype]? = some e →
      (ttFlag e 3 = true → q.smode = false → answers s' 7) ∧
      ((ttFlag e 3 = true → q.smode = true) → (q.joinAt n.toNat).count = BitVec.allOnes 32 → answers (s'.countCore pl 0) 6) ∧
      ((ttFlag e 3 = true → q.smode = true) → (q.joinAt n.toNat).count ≠ BitVec.allOnes 32 →
        let child : Child :=
          { asid := q.asid, ttype := ttype, g1 := q.rg c &&& 0xFFFFFFFFFFFF, parent := handleOf k q.gen, join := n.toNat
            autop := q.autop, dropTrap := q.dropTrap, numctl := q.numctl, epol := q.epol, tvec := q.tvec
            order := spawnOrder (coreOf pl) (placeSet e), victim := none, entry := e }
        let t := s'.waitIn k q' (.spawn rb n.toNat) ra 0 none
        (∀ (core : Nat) (rest : List Nat), child.order = core :: rest → ttFlag e 0 = false ∨ (s'.core pl).mailbox = [] →
          exec (.spawn a b c n) s = .next ((t.post pl (devOf pl * 1024 + core) none
            (.childCreate (devOf pl * 1024 + core) { child with order := rest } (ownOf k q .none))).retired k q)) ∧
        ∀ (rest : List Nat) (thief : Steal), child.order = coreOf pl :: rest → ttFlag e 0 = true → canTake t pl child = true →
          ((s'.core pl).mailbox.find? fun x => (placeSet e).contains (coreOf x.thief) && decide (s'.timeb < x.expires)) = some thief →
          exec (.spawn a b c n) s = .next ((((t.modCore pl fun x => { x with mailbox := x.mailbox.erase thief }).modCore thief.thief
            fun x => { x with stealOut := none, stealTried := 0 }).post pl thief.thief none
              (.stealTask thief.thief { child with victim := some pl } (ownOf k q .none))).retired k q))) ∧
  (∀ (a b : BitVec 5) (t : Bool) (n : BitVec 2),
    let nd (srcs dsts : List RegRef) (w : IWord) : Need := { srcs := srcs, dsts := dsts, noRoutine := true, word := w }
    let ndx (srcs : List RegRef) (w : IWord) : Need :=
      { srcs := srcs, touch := .release, noRoutine := true, exits := true, word := w }
    let keeps (k : Nat) (p : Proc) (s : State) : Prop :=
      ∃ j q, s.byHandle (p.rg b) = some (j, q) ∧ placeOf j = placeOf k ∧ j ≠ k ∧ q.splog = p.splog ∧ p.splog ≠ 0 ∧ q.started = false
    let settled (p : Proc) (s : State) : Prop := ∀ d ∈ p.doors, d.2.isSend = false → pushesOn s d.2.chan = false
    let ends (k : Nat) (p : Proc) (s : State) : State := (s.clocked k p).endProc k .normal none false
    CompletesIf (ndx [] (encR 0x1C 0 0 0 0x020)) .exit (fun _ p s => settled p s) ends ∧
    CompletesIf (ndx [.g b] (encR 0x1C 0 b 0 0x021)) (.exitR b) (fun k p s => settled p s ∧ keeps k p s) (fun k p s =>
      ((s.clocked k p).endProc k .normal none true).modCore (placeOf k) fun c =>
        { c with retained := c.retained ++
            [{ base := p.spBase, log := p.splog, succ := handleKey (p.rg b), gen := handleGen (p.rg b), upTo := s.timeb + 1000000 }] }) ∧
    CompletesIf (ndx [.g b] (encR 0x1C 0 b 0 0x021)) (.exitR b) (fun k p s => settled p s ∧ ¬ keeps k p s) ends ∧
    Completes (nd [] [] (encR 0x1C 0 0 0 0x040)) .yield (fun k p s => ((s.setProc k p.advance).detach k).makeReady k) ∧
    Completes (nd [.g b] [] (encR 0x1C 0 b 0 0x060)) (.prio b) (fun k p s =>
      let v := Min.min ((p.rg b).toNat % 16) (if p.smode then 11 else p.maxPrio)
      (s.setProc k ((p.setBase v).setEff v).advance).settle (placeOf k)) ∧
    Completes { dsts := [.g a] } (.self a) (fun k p s => putsG a (fun p => handleOf k p.gen) k p s) ∧
    CompletesIf (nd [] [.g a] (encR 0x1C a 0 0 (BitVec.ofBool t ++ 4#5 ++ 0#3 ++ n))) (.jwait a t n)
      (fun _ p _ => (p.joinAt n.toNat).count = 0)
      (fun k p s => s.setProc k ((p.clearJoin n.toNat).wg a (joinStatus (p.joinAt n.toNat))).advance) ∧
    CompletesIf (nd [] [.g a] (encR 0x1C a 0 0 (BitVec.ofBool t ++ 4#5 ++ 0#3 ++ n))) (.jwait a t n)
      (fun _ p _ => (p.joinAt n.toNat).count ≠ 0)
      (fun k p s => (s.waitIn k p (.join n.toNat) a 0 (deadlineOf s k p t)).block k))

/-- R370, R373, R121, R124, R19: what a home does with reads and writes, and how data return. -/
def Obligations.Homes : Prop :=
  (∀ (s : State) (n src dst ga sz : Nat) (own : Option Own) (o : Own) (t : Target) (va : Word) (drop : Bool) (bs : List Byte)
    (f : Fill),
    let clear (s : State) (asid : Option Nat) : Prop := s.bad ga = false ∧ sealedFrom s ga asid = false
    (∀ s₁, s.arriving n = some { src := src, dst := dst, own := some o, body := .read ga sz t va drop false none } →
      s.charge ga sz = some s₁ →
      let r := (s₁.took n).recall (ga / 64)
      clear r (some o.asid) →
      exec (.portRead n) s = .next (r.post dst src none (.fill (readFill o.p o.gen sz t va drop false (memNat r.mem ga sz))))) ∧
    (∀ s₁, s.arriving n = some { src := src, dst := dst, own := own, body := .write ga bs false } →
      s.charge ga bs.length = some s₁ →
      let r := s₁.took n
      clear r (own.map (·.asid)) →
      exec (.portWrite n) s = .next (((r.putBytes ga bs).fillWords ga bs.length).wrote r ga bs.length)) ∧
    (rangeOf (gaPa ga) = .host →
      s.arriving n = some { src := src, dst := dst, own := own, body := .host ga sz (some bs) none drop false } →
      exec (.portHost n) s = .next ((s.took n).putBytes ga bs)) ∧
    (rangeOf (gaPa ga) = .host →
      s.arriving n = some { src := src, dst := dst, own := some o, body := .host ga sz none (some (t, va)) drop false } →
      exec (.portHost n) s = .next ((s.took n).post dst src none
        (.fill (readFill o.p o.gen sz t va drop false (memNat (s.took n).mem ga sz))))) ∧
    (s.charge ga sz = none → s.arriving n = some { src := src, dst := dst, own := some o, body := .read ga sz t va drop false none } →
      exec (.portRead n) s = .next (s.holdPort ga n)) ∧
    (s.arriving n = some { src := src, dst := dst, own := own, body := .fill f } →
      (f.inv = none → exec (.fillArrival n) s = .next ((s.took n).applyFill dst f)) ∧
      ∀ asid x, f.inv = some (asid, x) →
        exec (.fillArrival n) s = .next (if spaceBusy s (devOf dst) asid then s
          else ((s.took n).dropLines (devOf dst) asid x).applyFill dst f))) ∧
  (∀ (s : State) (home budget b : Nat), (s.home home).ms < s.timebOf (home / 2048) / 1000000 →
    let d := s.device (home / 2048)
    let out := (mget d.parts (7 * 4096)).any fun x => !x.inService
    let counted : State := match (s.home home).heldSince with
      | none => s
      | some t => s.count (home / 2048) 2 (home % 2048) 3 (s.timeb - t)
    let starts (b : Nat) : Prop :=
      exec (.budgetBoundary home budget) s = .next (counted.setHome home
        { s.home home with
          budget := some (Max.max b 4194304), left := Max.max b 4194304 - (s.home home).borrowed, borrowed := 0
          heldSince := none, ms := s.timebOf (home / 2048) / 1000000 })
    (out = false → mget d.hot (homeDie home) = none → starts budget) ∧
    (out = false → mget d.hot (homeDie home) ≠ none →
      starts (Min.min budget (Config.hotBudget home (s.timebOf (home / 2048) / 1000000)))) ∧
    (out = true → (s.home home).budget = some b → 4194304 ≤ b → starts b))

/-- R370, R129, R141: what a home does with atomic requests and reduction lines. -/
def Obligations.PortAtomics : Prop :=
  ∀ (s : State) (n src dst : Nat) (own : Option Own) (r : AtomReq) (l : RedLine),
    (∀ s₁, s.charge r.ga 8 = some s₁ → s.arriving n = some { src := src, dst := dst, own := own, body := .atomic r } →
      let x := (s₁.took n).recall (r.ga / 64)
      (r.ready x = true → exec (.portAtomic n) s = .next ((x.perform r).wrote x r.ga 64)) ∧
      (r.ready x = false → (pastDeadline x r.deadline = true ∨ r.retries ≠ 0) →
        exec (.portAtomic n) s = .next (x.post (agentHome (homeOf r.ga)) r.core (some r.own) (.refused r))) ∧
      (r.ready x = false → pastDeadline x r.deadline = false → r.retries = 0 →
        exec (.portAtomic n) s = .next (x.parkReq r))) ∧
    (s.arriving n = some { src := src, dst := dst, own := own, body := .refused r } →
      (∃ p, (s.took n).byOwn r.own.p r.own.gen = some p) → pastDeadline (s.took n) r.deadline = false →
      exec (.feRefusal n) s = .next ((s.took n).post r.core (agentHome (homeOf r.ga)) (some r.own)
        (.atomic { r with retries := r.retries - 1 }))) ∧
    (∀ s₁, l.els ≠ [] → s.charge (l.line * 64) 64 = some s₁ →
      s.arriving n = some { src := src, dst := dst, own := own, body := .combine l } →
      exec (.portCombine n) s = .next ((s₁.took n).combineLine l)) ∧
    ∀ line, exec (.portRecall (homeOf (line * 64)) line) s = .next (s.recall line)

/-- R138, R139: the whole effect of a performed atomic on memory, in both sizes, with its frame. -/
def Obligations.AtomicPerformed : Prop :=
  ∀ (s : State) (r : AtomReq) (op : Nat) (w : Bool) (a : BitVec 5) (y cmp : Word),
    MemWf s → s.empties.Pairwise (· < ·) → r.op = .amo op w a y cmp → r.hidden s = false → r.bad s = false →
    s.migratedTo r.ga = none →
    let n := if w then 4 else 8
    let old : Word := BitVec.ofNat 64 (memNat s.mem r.ga n)
    let keeps := op = 9 ∧ old.toNat ≠ cmp.toNat % 2 ^ (8 * n)
    let result : Word :=
      if w = false then old else if op = 6 ∨ op = 7 then (old.setWidth 32).setWidth 64 else (old.setWidth 32).signExtend 64
    let t := s.perform r
    (keeps → memNat t.mem r.ga n = old.toNat) ∧
    (¬ keeps → op = 9 → memNat t.mem r.ga n = y.toNat % 2 ^ (8 * n)) ∧
    (op ≠ 9 → memNat t.mem r.ga n = (amoApply op w old y).toNat % 2 ^ (8 * n)) ∧
    t.full r.ga = true ∧
    (∀ x, (x < r.ga ∨ r.ga + n ≤ x) → memGet t.mem x = memGet s.mem x) ∧
    (∃ u : State, t = u.answer r (prodFill r [.g a result])) ∧ t.procs = s.procs

/-- R160, R321, R325: SEND; its status OK is the word 0 by log 92. -/
def Obligations.Sending : Prop :=
  ∀ (a b : BitVec 5) (f : ItemFile) (d : BitVec 6) (t : Bool) (s : State) (k : Nat) (p : Proc),
    let nd : Need :=
      { scope := .system, srcs := [match f with | .g => .g b | .v => .v b], dsts := [.g a], touch := .release, quiet := true, noRoutine := true
        word := encR 0x1D a b (match f with | .g => 0 | .v => 1) (d ++ BitVec.ofBool t ++ 0#4) }
    ∀ (s' : State) (q : Proc),
    let ws := match f with | .g => [q.rg b] | .v => (List.range 8).map fun i => (q.rv b).extractLsb' (64 * i) 64
    Issues s k p nd s' q →
    (∀ (e : Door) (x : Chan), mget q.doors d.toNat = some e → e.isSend = true → mget s'.chans e.chan = some x →
      x.typ = (match f with | .g => .word | .v => .message) → x.sstate = .opened → x.rclosed = false →
      e.poisoned = false →
      exec (.send a b f d t) s = .next
        ((if x.cap = 0 then
          (s'.post (sendAgent s' e) (agentChan e.chan) none
            (.offer e.chan (.offer { words := ws, nan1 := q.nan1, seq := x.nexts } k q.gen))).waitIn k q (.offer e.chan none) a d.toNat
              (deadlineOf s' k q t)
        else if x.credit = 0 then s'.waitIn k q (.credit e.chan ws none) a d.toNat (deadlineOf s' k q t)
        else (s'.sendItem e k q q.nan1 x ws none).setProc k (q.wg a (statusWord 0 d.toNat)).advance).retired k q)) ∧
    ((∀ e, mget q.doors d.toNat = some e → e.isSend = false) →
      exec (.send a b f d t) s = .next ((s'.trap k q false 0x09 0 (d.setWidth 64)).retired k q))

/-- R160, R321: RECV; its two results in one register are log 24. -/
def Obligations.Receiving : Prop :=
  ∀ (a b : BitVec 5) (f : ItemFile) (d : BitVec 6) (t : Bool) (s : State) (k : Nat) (p : Proc) (e : Door) (x : Chan),
    let dst : RegRef := match f with | .g => .g b | .v => .v b
    let nd : Need :=
      { scope := .system, dsts := [.g a, dst], touch := .both, quiet := true, noRoutine := true
        word := encR 0x1D a b (match f with | .g => 0 | .v => 1) (d ++ BitVec.ofBool t ++ 1#4) }
    ∀ (s' : State) (q : Proc),
    Issues s k p nd s' q → mget q.doors d.toNat = some e → e.isSend = false → mget s'.chans e.chan = some x →
    x.typ = (match f with | .g => .word | .v => .message) → d.toNat ∉ attachedDoors s' k q →
    let one : Bool := f == .g && a == b && a != 0
    let w : State := if one then { s' with free := s'.free + 1 } else s'
    let q' : Proc := if one then q.wg a (Config.freeWord s'.free) else q
    let ra := if one then 0 else a
    let rb := if one then 0 else b
    exec (.recv a b f d t) s = .next
      (((w.post (placeOf k) (agentChan e.chan) none
        (.recv e.chan { p := k, gen := q.gen, file := f, dst := rb, status := ra, door := d.toNat, tile := none })).waitIn k
          (match f with | .g => q'.eg rb | .v => q'.ev rb) (.recv e.chan) ra d.toNat (deadlineOf w k q' t)).retired k q)

/-- R161 to R168: the other instructions on doors; the model's choices in it are log entries 50, 92. -/
def Obligations.DoorInstructions : Prop :=
  (∀ (a b : BitVec 5) (d : BitVec 6) (t : Bool),
    let alt : Need := { srcs := [.g b], dsts := [.g a], noRoutine := true, word := encR 0x1D a b 0 (0#6 ++ BitVec.ofBool t ++ 2#4) }
    let poi : Need :=
      { scope := .system, dsts := [.g a], touch := .release, quiet := true, noRoutine := true, word := encR 0x1D a 0 0 (d ++ 3#5) }
    let mark : Need :=
      { scope := .system, dsts := [.g a], touch := .release, quiet := true, noRoutine := true, word := encR 0x1D a 0 0 4 }
    CompletesIf alt (.alt a b t) (fun _ p _ => p.rg b = 0) (putsG a fun _ => 1) ∧
    CompletesIf alt (.alt a b t) (fun k p s => p.rg b ≠ 0 ∧
        (∀ i < 64, (p.rg b).getLsbD i = true → (mget p.doors i).isSome = true) ∧
        (∀ i ∈ attachedDoors s k p, (p.rg b).getLsbD i = false))
      (fun k p s => (s.waitIn k p (.alt (p.rg b)) a 0 (deadlineOf s k p t)).altTest k) ∧
    (∀ (s : State) (k : Nat) (p : Proc) (e : Door) (x : Chan),
      ∀ (s' : State) (q : Proc),
      Issues s k p poi s' q → mget q.doors d.toNat = some e → e.isSend = true → mget s'.chans e.chan = some x → x.typ ≠ .window →
      x.rclosed = false →
      exec (.poison a d) s = .next (((s'.setProc k (q.wg a (statusWord 0 d.toNat)).advance).poisonDoor k d.toNat e).retired k q)) ∧
    Completes mark (.mark a) (fun k p s =>
      let t := p.doors.foldl (fun s (x : Nat × Door) =>
        if marked s x then s.post (agentSend x.2.chan) (agentChan x.2.chan) none (.marker x.2.chan) else s) s
      if p.doors.any fun x => countedEnd t x.2 then t.setProc k (p.wg a 0).advance
      else t.enterRound k p { (p.wg a 0).advance with round := (p.round + 1) &&& 0xFFFFFFFF })) ∧
  (∀ (a b c : BitVec 5) (d : BitVec 6) (s : State) (k : Nat) (p : Proc) (e : Door) (x : Chan),
    let clo : Need :=
      { scope := .system, dsts := [.g a], touch := .release, quiet := true, noRoutine := true, word := encR 0x1D a 0 0 (d ++ 7#5) }
    let wop : Need :=
      { scope := .system, srcs := [.g b, .g c], dsts := [.g a], touch := .release, noRoutine := true, word := encR 0x1D a b c (d ++ 9#5) }
    let wcl : Need := { dsts := [.g a], touch := .acquire, noRoutine := true, word := encR 0x1D a 0 0 (d ++ 10#5) }
    (∀ (s' : State) (q : Proc),
     Issues s k p clo s' q → (q.smode = true ∨ d.toNat < 62) → mget q.doors d.toNat = some e → mget s'.chans e.chan = some x →
     (e.isSend = true ∨ x.landing = false) →
     exec (.chclose a d) s = .next
      ((let gone : Bool := if e.isSend then x.rclosed else x.send == .gone
       let t := s'.setProc k (({ q with doors := mdel q.doors d.toNat } : Proc).wg a (statusWord (if gone then 4 else 0) d.toNat)).advance
       if e.isSend then t.closeSend e.chan else ((t.closeRecv e.chan).roundTest k).holderEvent k).retired k q)) ∧
    (∀ (s' : State) (q : Proc),
     let size := (q.rg c).toNat
     Issues s k p wop s' q → (q.smode = true ∨ d.toNat < 62) → mget q.doors d.toNat = some e → e.isSend = false →
     mget s'.chans e.chan = some x → x.typ = .window → (∀ u v, x.win ≠ .opened u v) → 6 ≤ size → size ≤ q.splog →
     exec (.winopen a b c d) s = .next
      (((x.pend.foldl (fun s r => s.post (agentSend e.chan) (agentChan e.chan) none (.winPush r))
        (s'.setChan e.chan { x with win := .opened (scratchOff q (q.rg b) 0 (2 ^ size)) (2 ^ size), pend := [] })).setProc k
          (q.wg a (statusWord 0 d.toNat)).advance).retired k q)) ∧
    (∀ (s' : State) (q : Proc),
     Issues s k p wcl s' q → mget q.doors d.toNat = some e → e.isSend = false → mget s'.chans e.chan = some x → x.typ = .window →
     (∃ u v, x.win = .opened u v) →
     exec (.winclose a d) s = .next
      ((if x.stamps.any (·.ga.isSome) then
        (s'.setChan e.chan { x with closing := some (k, q.gen) }).waitIn k q (.winclose e.chan) a d.toNat none
      else (s'.withdraw e.chan).setProc k (q.wg a (statusWord 0 d.toNat)).advance).retired k q)))

/-- R164, R165, R334: channels and the moves of their ends; the model's choices in it are log entries 86, 87, 92. -/
def Obligations.ChannelEnds : Prop :=
  (∀ (a b : BitVec 5) (d : BitVec 6) (s : State) (k : Nat) (p : Proc),
    let nd : Need := { srcs := [.g b], dsts := [.g a], noRoutine := true, word := encR 0x1D a b 0 (d ++ 5#5) }
    ∀ (s' : State) (q : Proc),
    let r := ((q.rg b).extractLsb' 0 6).toNat
    Issues s k p nd s' q → mget q.doors d.toNat = none → mget q.doors r = none → r ≠ d.toNat →
    (∀ (w : ChanShape) (u : State) (stage : Nat), chanShape (q.rg b) = some w →
      (let n := if w.typ = .tile then w.cap * w.rows * w.rowb else 0
       (if n = 0 then some (s', 0) else s'.grantBytes (placeOf k) q.asid n) = some (u, stage)) →
      recordsAt s' (placeOf k) < 8192 →
      exec (.chnew a b d) s = .next
        ((({ u with nextChan := u.nextChan + 1 }.setChan u.nextChan
          (newChan w q.asid stage (.proc k q.gen d.toNat) (.proc k q.gen w.rdoor))).setProc k
            (({ q with
                doors := mset (mset q.doors d.toNat { chan := u.nextChan, isSend := true, bindCap := true, marks := 0 }) w.rdoor
                  { chan := u.nextChan, isSend := false, bindCap := true
                    marks := if w.typ = ChanType.window then 0 else bindMarks s' q } } : Proc).wg a (statusWord 0 d.toNat)).advance).retired k q)) ∧
    (chanShape (q.rg b) = none →
      exec (.chnew a b d) s = .next ((s'.setProc k (q.wg a (statusWord 7 d.toNat)).advance).retired k q))) ∧
  (∀ (a b c : BitVec 5) (d : BitVec 6) (s : State) (k : Nat) (p : Proc),
    let free (s : State) (e : Door) (x : Chan) : Prop :=
      mget s.chans e.chan = some x ∧ (e.isSend && isFaultChan s e.chan) = false ∧ x.copying = false ∧ x.moving = false ∧
        quietOf s e.chan x e.isSend = .free
    let word := encR 0x1D a b c (d ++ 6#5)
    let nd : Need :=
      { scope := .system, srcs := [.g b, .g c], dsts := [.g a], touch := .release, quiet := true, noRoutine := true, word := word }
    let ndd : Need :=
      { scope := .system, srcs := [.g b], dsts := [.g a], needS := true, touch := .both, noRoutine := true, word := encR 0x1D a b 0 0x016 }
    (∀ (s' : State) (q : Proc),
     let w := q.rg c
     ∀ (e : Door) (x : Chan) (h : Holder), Issues s k p nd s' q → (q.smode = true ∨ d.toNat < 62) → mget q.doors d.toNat = some e →
      ((q.smode = true ∨ e.bindCap = true) → w.extractLsb' 6 2 = 0 → w.extractLsb' 10 6 = 0 → w.extractLsb' 17 47 = 0 →
        free s' e x → bindHolder s' k q x e.isSend (field w 8 2) (q.rg b) (field w 0 6) = .ok h →
        exec (.chbind a b c d) s = .next ((s'.startBind k q a d.toNat e.chan x e.isSend
          (if q.smode then w.getLsbD 16 else e.bindCap) h).retired k q)) ∧
      (∀ u : Proc, (q.smode = true ∨ e.bindCap = true) → w.extractLsb' 6 2 = 0 → w.extractLsb' 10 6 = 0 → w.extractLsb' 17 47 = 0 →
        mget s'.chans e.chan = some x → e.isSend = true → isFaultChan s' e.chan = true →
        bindHolder s' k q x e.isSend (field w 8 2) (q.rg b) (field w 0 6) = .ok h →
        (let t := (s'.moveFaultEnd k d.toNat h (if q.smode then w.getLsbD 16 else e.bindCap) e).chanEvent e.chan
         mget t.procs k = some u →
         exec (.chbind a b c d) s = .next ((t.setProc k (u.wg a (statusWord 0 d.toNat)).advance).retired k q))) ∧
      (q.smode = false → e.bindCap = false →
        exec (.chbind a b c d) s = .next ((s'.trap k q false 0x02 0 (word.setWidth 64)).retired k q))) ∧
    (∀ (s₀ : State) (q : Proc) (s₁ : State) (ws : List Word) (e : Door) (x : Chan) (h : Holder),
      let w (i : Nat) : Word := ws.getD i 0
      Issues s k p ndd s₀ q → (q.rg b).toNat % 8 = 0 → s₀.issueWords k q (q.rg b) 4 = (s₁, .ok ws) → w 0 = 0 → w 3 = 0 →
      field (w 1) 0 8 < 64 → field (w 1) 8 8 < 64 → field (w 1) 16 8 < 4 → field (w 1) 24 8 < 2 → field (w 1) 32 32 = 0 →
      mget q.doors (field (w 1) 0 8) = some e → free s₁ e x →
      bindHolder s₁ k q x e.isSend (field (w 1) 16 8) (w 2) (field (w 1) 8 8) = .ok h →
      exec (.chbindD a b) s = .next
        ((s₁.startBind k q a 0 e.chan x e.isSend (if q.smode then (w 1).getLsbD 24 else e.bindCap) h).retired k q))) ∧
  (∀ (s : State) (n src dst c d place : Nat) (o : Option Own) (x : Chan) (isSend cap : Bool) (h : Holder) (own : Own) (p : Proc)
    (w : Wait),
    let msg (b : Body) : Msg := { src := src, dst := dst, own := o, body := b }
    (s.arriving n = some (msg (.recordCopy c isSend h d cap own)) → mget s.chans c = some x →
      (if isSend then x.send else x.recv) ≠ .gone → targetCode (s.took n) h x isSend = 0 → quietOf (s.took n) c x isSend = .free →
      x.copying = false →
      exec (.recordCopy n) s = .next
        (let y : Chan := if isSend then { x with send := h } else { x with recv := h, moving := false, q := x.q ++ x.held, held := [] }
         let old := if isSend then x.send else x.recv
         let t := ((((s.took n).setChan c y).fixPath c).leaveEnd old isSend).installEnd h
           { chan := c, isSend := isSend, bindCap := cap, marks := 0 }
         let t := if isSend then t else t.moveStage c
         (t.post dst ((holderPlace (if isSend then y.recv else y.send)).getD (ownPlace own.p)) none (.announce c old own)).chanEvent c)) ∧
    (s.arriving n = some (msg (.announce c h own)) →
      exec (.rebindAnnounce n) s = .next ((s.took n).post dst (ownPlace own.p) none (.announceAck c h own))) ∧
    (s.arriving n = some (msg (.announceAck c h own)) → ((s.took n).dropEnd h).byOwn own.p own.gen = some p → p.wait = some w →
      w.kind = .bind c → exec (.rebindAck n) s = .next (((s.took n).dropEnd h).finishWait own.p (statusWord 0 w.door))) ∧
    exec (.faultMessageRelease place) s = .next ((s.core place).faultMsgs.foldl (fun s e => s.faultSend place e)
      (s.modCore place fun c => { c with faultMsgs := [] })))

/-- R167, R171, R172: active messages, tile transfers and halos; the alignment of a halo's region is log 48. -/
def Obligations.MessagesAndTiles : Prop :=
  ∀ (a b c : BitVec 5) (d : BitVec 6) (t : Bool) (s : State) (k : Nat) (p : Proc),
    let ams : Need :=
      { scope := towardCore s b, srcs := [.g b, .v c], dsts := [.g a], touch := .release, quiet := true, noRoutine := true
        word := encR 0x1D a b c (0#6 ++ BitVec.ofBool t ++ 8#4) }
    let til (o : Touch) (n : BitVec 4) : Need :=
      { scope := .system, srcs := [.g b], dsts := [.g a], touch := o, noRoutine := true, word := encR 0x1E a b 0 (d ++ BitVec.ofBool t ++ n) }
    let hal : Need :=
      { scope := .system, srcs := [.g b, .g c], dsts := [.g a], touch := .release, noRoutine := true, word := encR 0x1E a b c (d ++ BitVec.ofBool t ++ 2#4) }
    (∀ (s' : State) (q : Proc),
     let pl := field (q.rg b) 42 22 / 1024 * 1024 + field (q.rg b) 42 10
     let ws := listSet ((List.range 8).map fun i => (q.rv c).extractLsb' (64 * i) 64) 1 (handleOf k q.gen)
     Issues s k p ams s' q → inService s' (devOf pl) 0 (coreOf pl) = true →
     (reserved s' pl q.asid .inbox).isSome = true → reachable s' (keyDev k) (devOf pl) q.asid = true →
     exec (.amsg a b c t) s = .next
      (((s'.post (placeOf k) pl none (.inbox pl
        { words := ws, numctl := q.numctl, p := k, gen := q.gen, reg := a, asid := q.asid, prio := q.eff })).waitIn k q (.amsg pl ws) a 0
          (deadlineOf s' k q t)).retired k q)) ∧
    (∀ (e : Door) (x : Chan),
      (∀ (s' : State) (q : Proc),
       Issues s k p (til .release 0) s' q → mget q.doors d.toNat = some e → e.isSend = true → q.splog ≠ 0 →
       spadWaits s' k q.gen = false → mget s'.chans e.chan = some x → x.typ = .tile → x.sstate = .opened → x.rclosed = false →
       e.poisoned = false →
       exec (.sendt a b d t) s = .next
        ((let off := (q.rg b).toNat % 2 ^ q.splog
         if x.cap = 0 then
          (s'.post (sendAgent s' e) (agentChan e.chan) none (.offer e.chan (.tileOffer k q.gen q.nan1))).waitIn k q
            (.offer e.chan (some off)) a d.toNat (deadlineOf s' k q t)
         else if x.credit = 0 then s'.waitIn k q (.credit e.chan [] (some off)) a d.toNat (deadlineOf s' k q t)
         else (s'.sendItem e k q q.nan1 x [] (some off)).waitIn k q (.copy e.chan) a d.toNat
             (deadlineOf s' k q t)).retired k q)) ∧
      (∀ (s' : State) (q : Proc),
       Issues s k p (til .both 1) s' q → mget q.doors d.toNat = some e → e.isSend = false → q.splog ≠ 0 →
       spadWaits s' k q.gen = false → mget s'.chans e.chan = some x → x.typ = .tile →
       exec (.recvt a b d t) s = .next
        (((s'.post (placeOf k) (agentChan e.chan) none
          (.recv e.chan { p := k, gen := q.gen, file := .g, dst := 0, status := a, door := d.toNat
                          tile := some ((q.rg b).toNat % 2 ^ q.splog) })).waitIn k q (.recv e.chan) a d.toNat (deadlineOf s' k q t)).retired
            k q))) ∧
    (∀ (s' : State) (q : Proc),
     ∀ sh, Issues s k p hal s' q → q.splog ≠ 0 → spadWaits s' k q.gen = false → haloShape (q.rg c) = some sh →
      (∀ i < 4, match mget q.doors (d.toNat + i) with | none => atEdge (coreOf (placeOf k)) i = true | some e => e.isSend = true) →
      exec (.thalo a b c d t) s = .next
        ((let skip := (List.range 4).foldl (fun n i => n + (if (mget q.doors (d.toNat + i)).isNone then 2 ^ i else 0)) 0
         let r := (List.range 4).foldl (fun (r : State × List Nat) i =>
           ((r.1.haloPush k q d.toNat (scratchOff q (q.rg b) 0 8) sh i).1,
             r.2 ++ [(r.1.haloPush k q d.toNat (scratchOff q (q.rg b) 0 8) sh i).2])) (s', [])
         if r.2.contains 255 then r.1.waitIn k q (.halo r.2 skip) a d.toNat (deadlineOf r.1 k q t)
         else r.1.setProc k (q.wg a (haloStatus r.2 d.toNat skip)).advance).retired k q))

/-- R320 to R332: the steps of a record. -/
def Obligations.Records : Prop :=
  ∀ (s : State) (n src dst c : Nat) (own : Option Own) (x : Chan) (e : Entry) (i : Item) (r : RecvOp) (k gen : Nat),
    let msg (b : Body) : Msg := { src := src, dst := dst, own := own, body := b }
    let takes (j : Instr) (b : Body) (e : Entry) : Prop :=
      s.arriving n = some (msg b) → mget s.chans c = some x → (∃ q g d, x.recv = .proc q g d) → x.moving = false → x.rclosed = false →
      exec j s = .next (((s.took n).setChan c { x with q := x.q ++ [e] }).chanEvent c)
    takes (.recordOffer n) (.offer c e) e ∧ takes (.recordItem n) (.item c i) (.item i) ∧
    takes (.recordMarker n) (.marker c) .marker ∧ takes (.recordErrorToken n) (.token c) .token ∧
    takes (.recordClose n) (.close c) .close ∧
    (s.arriving n = some (msg (.recv c r)) → mget s.chans c = some x →
      exec (.recordReceive n) s = .next (((s.took n).setChan c { x with rwait := some r }).chanEvent c)) ∧
    (s.arriving n = some (msg (.withdraw c k gen true)) → mget s.chans c = some x → (∃ q g d, x.recv = .proc q g d) →
      (x.q ++ x.held).any (fun e => e.isOfferOf k gen) = true →
      exec (.recordWithdrawal n) s = .next (((s.took n).setChan c
        { x with q := x.q.filter fun e => !e.isOfferOf k gen, held := x.held.filter fun e => !e.isOfferOf k gen }).post dst (placeOf k)
          none (.ack c k gen 1))) ∧
    (s.arriving n = some (msg (.withdraw c k gen false)) → mget s.chans c = some x → x.rwait = some r → r.p = k → r.gen = gen →
      exec (.recordWithdrawal n) s = .next (((s.took n).setChan c { x with rwait := none, rflag := false }).applyFill (placeOf k)
        (recvEnd r 1)))

/-- R322, R323, R325, R326, R328, R418: the sender's side; the status OK is log 92. -/
def Obligations.SendEnds : Prop :=
  ∀ (s : State) (n src dst c k gen code : Nat) (own : Option Own) (x : Chan) (p : Proc) (w : Wait) (r : RecvOp) (i : Item) (ps : Push),
    let msg (b : Body) : Msg := { src := src, dst := dst, own := own, body := b }
    (s.arriving n = some (msg (.ack c k gen code)) → (s.took n).byOwn k gen = some p → p.wait = some w →
      (∃ tl, w.kind = .offer c tl) → exec (.sendAck n) s = .next ((if code = 0 then (s.took n).modChan c fun x =>
        if x.cap = 0 then { x with nexts := (x.nexts + 1) % 2 ^ 32 } else x else s.took n).finishWait k (statusWord code w.door))) ∧
    (s.arriving n = some (msg (.slotToken c)) →
      ((∀ x, mget s.chans c = some x → x.sstate = .opened ∧ x.send ≠ .gone) ∨ isFaultChan s c = true →
        exec (.slotToken n) s = .next (((((s.took n).modChan c fun x =>
          { x with credit := Min.min (x.credit + 1) x.cap }).serveCredit c).hostGoesOn c).chanEvent c)) ∧
      (mget s.chans c = some x → x.sstate ≠ .opened ∨ x.send = .gone → isFaultChan s c = false →
        exec (.slotToken n) s = .next (s.took n))) ∧
    (∀ off, s.arriving n = some (msg (.tileGo c k gen r)) → (s.took n).byOwn k gen = some p → mget s.chans c = some x →
      p.wait = some w → w.kind = .offer c (some off) →
      exec (.tileGo n) s = .next
        (let u := ((s.took n).toCopy k c).spadSeen (placeOf k)
         u.post (placeOf k) (placeOf r.p) none (.tileLanded c k p.gen (some r)
          { words := packWords (spadBytes u k p (regionOff x off) x.tileBytes), nan1 := w.nan, seq := x.nextr }))) ∧
    (∀ q g d, s.arriving n = some (msg (.tileLanded c k gen none i)) → mget s.chans c = some x → x.recv = .proc q g d →
      x.rclosed = false → gen ≠ 0 →
      exec (.tileCopyLanded n) s = .next
        (let ga := x.stage + i.seq % x.cap * x.tileBytes
         let bs := exactly x.tileBytes (unpackWords i.words)
         let u := (((s.took n).putBytes ga bs).fillWords ga bs.length).control c (.item { i with words := [] })
         if keyDev k = keyDev q then u.copySent k gen c else u.post (agentChan c) (placeOf k) none (.ack c k gen 0))) ∧
    (s.arriving n = some (msg (.winPush ps)) → exec (.windowPush n) s = .next ((s.took n).landPush ps))

/-- R176 to R181, R195, R196, R57: the element-wise instructions, by the element function of each, and the integer ones in
numbers; the model's choices in it are log entries 8. -/
def Obligations.VectorArithmetic : Prop :=
  (∀ (a b c : BitVec 5) (m : BitVec 3) (ty : Ty),
    let at_ (r : BitVec 5) (p : Proc) (j : Nat) : Nat := getEl ty.bytes (p.rv r) j
    let to_ (srcs : List RegRef) (i : Instr) (f : Proc → Nat → Nat) : Prop :=
      Completes { srcs := srcs, dsts := [.v a] } i (putsV a fun p => vMasked ty.bytes (p.rk m) (p.rv a) (f p))
    let one (i : Instr) (f : NumMode → Nat → Nat) : Prop := to_ [.v b] i fun p j => f p.mode (at_ b p j)
    let two (i : Instr) (f : NumMode → Nat → Nat → Nat) : Prop := to_ [.v b, .v c] i fun p j => f p.mode (at_ b p j) (at_ c p j)
    let cnt (i : Instr) (f : Nat → Nat → Nat) : Prop := to_ [.v b, .g c] i fun p j => f (at_ b p j) (p.rg c).toNat
    let w := 8 * ty.bytes
    two (.vadd a b c m ty) (elAdd ty) ∧ two (.vsub a b c m ty) (elSub ty) ∧ two (.vmul a b c m ty) (elMul ty) ∧
    to_ [.v b, .v c, .v a] (.vfma a b c m ty) (fun p j => elFma false ty p.mode (at_ a p j) (at_ b p j) (at_ c p j)) ∧
    to_ [.v b, .v c, .v a] (.vfms a b c m ty) (fun p j => elFma true ty p.mode (at_ a p j) (at_ b p j) (at_ c p j)) ∧
    two (.vmin a b c m ty) (elMin ty) ∧ two (.vmax a b c m ty) (elMax ty) ∧
    one (.vabs a b m ty) (fun _ => elAbs ty) ∧ one (.vneg a b m ty) (fun _ => elNeg ty) ∧
    two (.vadds a b c m ty) (fun _ => elAdds ty) ∧ two (.vsubs a b c m ty) (fun _ => elSubs ty) ∧
    two (.vmulh a b c m ty) (fun _ => elMulh ty) ∧ two (.vabsd a b c m ty) (fun _ => elAbsd ty) ∧
    two (.vdiv a b c m ty) (elDiv ty) ∧ one (.vsqrt a b m ty) (elFn FVal.sqrt ty) ∧
    two (.vand a b c m ty) (fun _ x y => x &&& y) ∧ two (.vor a b c m ty) (fun _ x y => x ||| y) ∧
    two (.vxor a b c m ty) (fun _ x y => x ^^^ y) ∧ two (.vandn a b c m ty) (fun _ x y => x &&& (2 ^ w - 1 - y)) ∧
    one (.vnot a b m ty) (fun _ x => 2 ^ w - 1 - x) ∧
    two (.vshl a b c m ty) (fun _ => elShl w) ∧ two (.vshr a b c m ty) (fun _ => elShr w) ∧
    two (.vsra a b c m ty) (fun _ => elSra ty) ∧ two (.vrol a b c m ty) (fun _ => elRol w) ∧
    cnt (.vshlg a b c m ty) (elShl w) ∧ cnt (.vshrg a b c m ty) (elShr w) ∧ cnt (.vsrag a b c m ty) (elSra ty) ∧
    cnt (.vrolg a b c m ty) (elRol w) ∧ one (.vclz a b m ty) (fun _ => clzN w) ∧ one (.vpopc a b m ty) (fun _ => popN w) ∧
    one (.vctz a b m ty) (fun _ => ctzN w) ∧ one (.vrcp a b m ty) (elFn FVal.rcp ty) ∧ one (.vrsq a b m ty) (elFn FVal.rsq ty) ∧
    one (.vexp2 a b m ty) (elFn FVal.exp2 ty) ∧ one (.vlog2 a b m ty) (elFn FVal.log2 ty) ∧ one (.vmov a b m ty) (fun _ x => x)) ∧
  (∀ (a b c : BitVec 5) (m : BitVec 3) (ty : Ty), ty.isInt = true →
    let w := 8 * ty.bytes
    let el (i : Instr) (f : Nat → Nat → Nat) : Prop :=
      ∃ r : Proc → VReg, Completes { srcs := [.v b, .v c], dsts := [.v a] } i (putsV a r) ∧
        ∀ (p : Proc) (j : Nat), j < 64 / ty.bytes →
          getEl ty.bytes (r p) j =
            if (p.rk m).getLsbD j then f (getEl ty.bytes (p.rv b) j) (getEl ty.bytes (p.rv c) j) % 2 ^ w else getEl ty.bytes (p.rv a) j
    el (.vadd a b c m ty) (fun x y => x + y) ∧ el (.vsub a b c m ty) (fun x y => x + (2 ^ w - y)) ∧
    el (.vmul a b c m ty) (fun x y => x * y) ∧ el (.vand a b c m ty) (fun x y => x &&& y) ∧ el (.vor a b c m ty) (fun x y => x ||| y) ∧
    el (.vxor a b c m ty) (fun x y => x ^^^ y) ∧ el (.vshl a b c m ty) (fun x y => x * 2 ^ (y % w)) ∧
    el (.vshr a b c m ty) (fun x y => x / 2 ^ (y % w)))

/-- R182 to R187, R196: compares, masks, conversions, reductions and the moves between g, v and k. -/
def Obligations.VectorMasksMoves : Prop :=
  (∀ (a b c : BitVec 5) (ka kb kc m : BitVec 3) (ty : Ty),
    let cmp (i : Instr) (f : Bool → Nat → Nat → Bool) : Prop :=
      Completes { srcs := [.v b, .v c] } i (putsK ka fun p => maskBuild (64 / ty.bytes) fun j =>
        (p.rk m).getLsbD j && f p.nan1 (getEl ty.bytes (p.rv b) j) (getEl ty.bytes (p.rv c) j))
    cmp (.vcmpEq ka b c m ty) (elEq ty) ∧ cmp (.vcmpNe ka b c m ty) (fun n x y => !elEq ty n x y) ∧
    cmp (.vcmpLt ka b c m ty) (elLt ty) ∧ cmp (.vcmpLe ka b c m ty) (fun n x y => elLt ty n x y || elEq ty n x y) ∧
    cmp (.vcmpUn ka b c m ty) (elUn ty) ∧
    Completes { srcs := [.v b, .v c], dsts := [.v a] } (.vsel a b c m ty) (putsV a fun p => vBuild ty.bytes fun j =>
      if (p.rk m).getLsbD j then getEl ty.bytes (p.rv b) j else getEl ty.bytes (p.rv c) j) ∧
    Completes {} (.kand ka kb kc) (putsK ka fun p => p.rk kb &&& p.rk kc) ∧
    Completes {} (.kor ka kb kc) (putsK ka fun p => p.rk kb ||| p.rk kc) ∧
    Completes {} (.kxor ka kb kc) (putsK ka fun p => p.rk kb ^^^ p.rk kc) ∧
    Completes {} (.knot ka kb) (putsK ka fun p => ~~~(p.rk kb)) ∧
    Completes { dsts := [.g a] } (.kmovg a kb) (putsG a fun p => p.rk kb) ∧
    Completes { srcs := [.g b] } (.kmovk ka b) (putsK ka fun p => p.rg b) ∧
    Completes { dsts := [.g a] } (.kpopc a kb) (putsG a fun p => BitVec.ofNat 64 (popN 64 (p.rk kb).toNat)) ∧
    Completes { dsts := [.g a] } (.kfirst a kb) (putsG a fun p => BitVec.ofNat 64 (ctzN 64 (p.rk kb).toNat))) ∧
  (∀ (a b c : BitVec 5) (rtz sat : Bool) (src ty : Ty) (m q : BitVec 3),
    let red (i : Instr) (f : Proc → Word) : Prop := Completes { srcs := [.v b], dsts := [.g a] } i (putsG a f)
    let masked (srcs : List RegRef) (i : Instr) (f : Proc → Nat → Nat) : Prop :=
      Completes { srcs := srcs, dsts := [.v a] } i (putsV a fun p => vMasked ty.bytes (p.rk m) (p.rv a) (f p))
    let n := 64 / ty.bytes
    Completes { srcs := [.v b], dsts := [.v a] } (.vcvt a b rtz src m ty q sat) (putsV a fun p =>
      vConvert src ty (if rtz then { p.mode with rm := .rtz } else p.mode) q.toNat sat (p.rk m) (p.rv a) (p.rv b)) ∧
    red (.vredsum a b m ty) (fun p => redResult ty (redCanon ty p.mode
      ((treeReduce (elAdd ty p.mode) 6 (leaves ty (p.rk m) (p.rv b))).getD 0))) ∧
    red (.vredmin a b m ty) (fun p => redResult ty (redCanon ty p.mode
      ((treeReduce (elMin ty p.mode) 6 (leaves ty (p.rk m) (p.rv b))).getD (redMinEmpty ty p.mode)))) ∧
    red (.vredmax a b m ty) (fun p => redResult ty (redCanon ty p.mode
      ((treeReduce (elMax ty p.mode) 6 (leaves ty (p.rk m) (p.rv b))).getD (redMaxEmpty ty p.mode)))) ∧
    red (.vredand a b m ty) (fun p => redTree ty (p.rk m) (p.rv b) (fun x y => x &&& y) (2 ^ (8 * ty.bytes) - 1)) ∧
    red (.vredor a b m ty) (fun p => redTree ty (p.rk m) (p.rv b) (fun x y => x ||| y) 0) ∧
    red (.vredxor a b m ty) (fun p => redTree ty (p.rk m) (p.rv b) (fun x y => x ^^^ y) 0) ∧
    red (.vredsumw a b m ty) (fun p => redSumW ty p.mode (p.rk m) (p.rv b)) ∧
    masked [.g b] (.vbcast a b m ty) (fun p _ => (p.rg b).toNat % 2 ^ (8 * ty.bytes)) ∧
    Completes { srcs := [.g b, .g c], dsts := [.v a] } (.vins a b c ty) (putsV a fun p => vBuild ty.bytes fun j =>
      if j = (p.rg c).toNat % n then (p.rg b).toNat % 2 ^ (8 * ty.bytes) else getEl ty.bytes (p.rv a) j) ∧
    Completes { srcs := [.v b, .g c], dsts := [.g a] } (.vext a b c ty)
      (putsG a fun p => elToG ty (getEl ty.bytes (p.rv b) ((p.rg c).toNat % n))) ∧
    masked [] (.viota a m ty) (fun _ j => j) ∧
    masked [.v b, .g c] (.vsplat a b c m ty) (fun p _ => getEl ty.bytes (p.rv b) ((p.rg c).toNat % n)))

/-- R188: the permutes. -/
def Obligations.VectorPermutes : Prop :=
  ∀ (a b c : BitVec 5) (m : BitVec 3) (ty : Ty),
    let n := 64 / ty.bytes
    let at_ (r : BitVec 5) (p : Proc) (j : Nat) : Nat := getEl ty.bytes (p.rv r) j
    let perm (srcs : List RegRef) (i : Instr) (f : Proc → Nat → Nat) : Prop :=
      Completes { srcs := srcs, dsts := [.v a] } i (putsV a fun p => vMasked ty.bytes (p.rk m) (p.rv a) (f p))
    perm [.v b, .v c] (.vperm a b c m ty) (fun p j => at_ b p (at_ c p j % n)) ∧
    perm [.v b, .v c, .v a] (.vpermx a b c m ty) (fun p j =>
      if at_ c p j % (2 * n) < n then at_ b p (at_ c p j % (2 * n)) else at_ a p (at_ c p j % (2 * n) - n)) ∧
    perm [.v b, .g c] (.vsldn a b c m ty) (fun p j => if j + (p.rg c).toNat < n then at_ b p (j + (p.rg c).toNat) else 0) ∧
    perm [.v b, .g c] (.vslup a b c m ty) (fun p j => if (p.rg c).toNat ≤ j then at_ b p (j - (p.rg c).toNat) else at_ a p j) ∧
    perm [.v b, .v c] (.vzipl a b c m ty) (fun p j => if j % 2 = 0 then at_ b p (j / 2) else at_ c p (j / 2)) ∧
    perm [.v b, .v c] (.vziph a b c m ty) (fun p j => if j % 2 = 0 then at_ b p (n / 2 + j / 2) else at_ c p (n / 2 + j / 2)) ∧
    perm [.v b, .v c] (.vuzpe a b c m ty) (fun p j => if j < n / 2 then at_ b p (2 * j) else at_ c p (2 * j - n)) ∧
    perm [.v b, .v c] (.vuzpo a b c m ty) (fun p j => if j < n / 2 then at_ b p (2 * j + 1) else at_ c p (2 * j + 1 - n)) ∧
    perm [.v b] (.vrev a b m ty) (fun p j => at_ b p (n - 1 - j)) ∧
    Completes { srcs := [.v b], dsts := [.v a] } (.vcomp a b m ty) (putsV a fun p => vCompress ty.bytes (p.rk m) (p.rv b)) ∧
    Completes { srcs := [.v b], dsts := [.v a] } (.vexpd a b m ty) (putsV a fun p => vExpand ty.bytes (p.rk m) (p.rv a) (p.rv b))

/-- R189 to R194: vector loads and stores. -/
def Obligations.VectorMemory : Prop :=
  (∀ (a b c : BitVec 5) (m : BitVec 3) (ty : Ty),
    let e := ty.bytes
    let els (f : Nat → Word) (p : Proc) : List (Nat × Word) :=
      ((List.range (64 / e)).filter fun j => (p.rk m).getLsbD j).map fun j => (j, f j)
    let plain (p : Proc) (j : Nat) : Word := p.rg b + BitVec.ofNat 64 (j * e)
    let stride (p : Proc) (j : Nat) : Word := p.rg b + BitVec.ofNat 64 j * p.rg c
    let index (p : Proc) (j : Nat) : Word := p.rg b + BitVec.ofInt 64 ((e : Int) * toSigned (8 * e) (getEl e (p.rv c) j))
    let loads (srcs : List RegRef) (i : Instr) (f : Proc → Nat → Word) : Prop :=
      ∀ (s : State) (k : Nat) (p : Proc) (s₀ : State) (q : Proc) (s' : State) (xs : List (Nat × Word × Nat × Word)),
        Issues s k p { srcs := srcs, dsts := [.v a], touch := .plain } s₀ q → elsTrap (els (f q) q) e = none →
        pagesXlate s₀ k q (els (f q) q) .read (pagesOf (els (f q) q)) = (s', .ok xs) →
        (∀ x ∈ xs, feWaits s' k q.gen x.2.2.1 = false) →
        exec i s = .next ((if xs = [] then s'.setProc k q.advance
          else ((byIndex xs).foldl (fun s x => s.post (placeOf k) (agentHome (homeFor s (placeOf k) x.2.2.1)) (some (ownOf k q .plain))
              (readBody s (placeOf k) q.asid x.2.2.1 e x.2.2.2 (.v a e x.1) x.2.1 q.dropTrap)) s').produced k q
            { q.ev a with
              vfills := { reg := a, left := xs.length, data := q.rv a, poison := none, dropTrap := q.dropTrap } :: q.vfills }).retired
          k q)
    let stores (srcs : List RegRef) (i : Instr) (f : Proc → Nat → Word) : Prop :=
      ∀ (s : State) (k : Nat) (p : Proc) (s₀ : State) (q : Proc) (s' : State) (xs : List (Nat × Word × Nat × Word)),
        Issues s k p { srcs := srcs, touch := .plain } s₀ q → elsTrap (els (f q) q) e = none →
        let sent : State := xs.foldl (fun s x =>
          (s.combineAt (placeOf k) x.2.2.1).post (placeOf k) (agentHome (homeFor s (placeOf k) x.2.2.1)) (some (ownOf k q .plain))
            (writeBody x.2.2.1 (leBytes e (getEl e (q.rv a) x.1)) x.2.2.2)) s'
        (∀ x ∈ xs, feWaits s' k q.gen x.2.2.1 = false) →
        (pagesReach s₀ k q (els (f q) q) (pagesOf (els (f q) q)) = (s', xs, none) →
          exec i s = .next ((sent.setProc k q.advance).retired k q)) ∧
        ∀ (c d : Nat) (va : Word), q.kind = .normal →
          pagesReach s₀ k q (els (f q) q) (pagesOf (els (f q) q)) = (s', xs, some (some (c, d, va))) →
          exec i s = .next (((sent.setProc k { q with stall := none }).takeTrap k c d va q.pc false false).retired k q)
    loads [.g b] (.vld a b m ty) plain ∧ loads [.g b, .g c] (.vlds a b c m ty) stride ∧ loads [.g b, .v c] (.vgath a b c m ty) index ∧
    stores [.g b, .v a] (.vst a b m ty) plain ∧ stores [.g b, .g c, .v a] (.vsts a b c m ty) stride ∧
    stores [.g b, .v c, .v a] (.vscat a b c m ty) index) ∧
  (∀ (a b c : BitVec 5) (m : BitVec 3) (ty : Ty),
    let e := ty.bytes
    let off (p : Proc) (va : Word) : Nat :=
      let o := va.toNat % 2 ^ p.splog
      o - o % e
    let active (p : Proc) (j : Nat) : Bool := (p.rk m).getLsbD j
    let plain (p : Proc) (j : Nat) : Word := p.rg b + BitVec.ofNat 64 (j * e)
    let index (p : Proc) (j : Nat) : Word := p.rg b + BitVec.ofInt 64 ((e : Int) * toSigned (8 * e) (getEl e (p.rv c) j))
    let loads (f : Proc → Nat → Word) (k : Nat) (p : Proc) (s : State) : State :=
      (s.selfFill k p [.v a (vMasked e (p.rk m) (p.rv a) fun j => leNat (spadBytes s k p (off p (f p j)) e))]).setProc k (p.ev a).advance
    let stores (f : Proc → Nat → Word) (k : Nat) (p : Proc) (s : State) : State :=
      (((List.range (64 / e)).filter (active p)).foldl
        (fun s j => s.spadPut k p (off p (f p j)) (leBytes e (getEl e (p.rv a) j))) s).setProc k p.advance
    let both (nd : Need) (i : Instr) (f : Proc → Nat → Word) (effect : Nat → Proc → State → State) : Prop :=
      CompletesIf nd i (fun k p s => p.splog ≠ 0 ∧ spadWaits s k p.gen = false ∧
        ∀ j < 64 / e, active p j = true → feWaits s k p.gen (spadGa k p (off p (f p j))) = false) effect ∧
      CompletesIf nd i (fun _ p _ => p.splog = 0) (fun k p s => s.trap k p false 0x06 6 (p.rg b))
    both { srcs := [.g b], dsts := [.v a], touch := .plain } (.vspl a b m ty) plain (loads plain) ∧
    both { srcs := [.g b, .v c], dsts := [.v a], touch := .plain } (.vspga a b c m ty) index (loads index) ∧
    both { srcs := [.g b, .v a], touch := .plain } (.vsps a b m ty) plain (stores plain) ∧
    both { srcs := [.g b, .v c, .v a], touch := .plain } (.vspsc a b c m ty) index (stores index))

/-- R198 to R204: the tile unit; the model's choices in it are log entries 40. -/
def Obligations.Tiles : Prop :=
  (∀ (a b c : BitVec 3) (gb gc : BitVec 5) (ty : Ty),
    let row (p : Proc) (i : Nat) : Nat := scratchOff p (p.rg gb + BitVec.ofNat 64 i * p.rg gc) 0 8
    let u (k : Nat) (s : State) : Core := s.core (placeOf k)
    let fills (t : State → Nat → Proc → Tile) (k : Nat) (p : Proc) (s : State) : State :=
      ((s.selfFill k p [.m a (t s k p)]).em (placeOf k) a).setProc k p.advance
    let spad (k : Nat) (p : Proc) (s : State) : Prop :=
      p.splog ≠ 0 ∧ spadWaits s k p.gen = false ∧
        ∀ i < 16, ∀ j < 8, feWaits s k p.gen (spadGa k p (row p i + 8 * j)) = false
    CompletesIf { unit := .tile, srcs := [.g gb, .g gc], dsts := [.m a], touch := .plain } (.tld a gb gc) spad
      (fills fun s k p => Vector.ofFn fun i => BitVec.ofNat 512 (leNat (spadBytes s k p (row p i.val) 64))) ∧
    CompletesIf { unit := .tile, srcs := [.g gb, .g gc], dsts := [.m a], touch := .plain } (.tldt a gb gc ty) spad
      (fills fun s k p => Vector.ofFn fun r => vBuild ty.bytes fun i =>
        leNat (spadBytes s k p (row p i + r.val * ty.bytes) ty.bytes)) ∧
    CompletesIf { unit := .tile, srcs := [.g gb, .g gc, .m a], touch := .plain } (.tst a gb gc) spad (fun k p s =>
      ((List.range 128).foldl (fun t i => t.spadPut k p (row p (i / 8) + i % 8 * 8)
        (leBytes 8 (getEl 8 ((((u k s).rm a)[i / 8]?).getD 0) (i % 8)))) s).setProc k p.advance) ∧
    Completes { unit := .tile, srcs := [.m b, .m c, .m a], dsts := [.m a] } (.tmma a b c ty) (fun k p s =>
      (s.wm (placeOf k) a (Vector.ofFn fun i => vBuild 4 fun j =>
        exactGroupAdd (getEl 4 (((u k s).rm a)[i.val]'i.isLt) j) (rowVals ty p.nan1 (((u k s).rm b)[i.val]'i.isLt))
          (rowVals ty p.nan1 ((((u k s).rm c)[j]?).getD 0)))).setProc k p.advance) ∧
    Completes { unit := .tile, dsts := [.m a] } (.tzero a)
      (fun k p s => (s.wm (placeOf k) a (Vector.replicate 16 0)).setProc k p.advance) ∧
    Completes { unit := .tile, srcs := [.m b], dsts := [.m a] } (.tcvt a b ty)
      (fun k p s => (s.wm (placeOf k) a (tileConvert ty p.mode ((u k s).rm b))).setProc k p.advance) ∧
    ∀ (s : State) (place k : Nat) (p : Proc), (s.core place).tileOwner = none → tileClaimant s place = some (k, p) →
      exec (.tileClaim place) s = .next ((s.loadTiles place p.usa).modCore place fun c => { c with tileOwner := some k })) ∧
  (∀ (a : BitVec 3) (c : BitVec 5) (timed : Bool) (s : State) (k : Nat) (p : Proc) (s' : State) (q : Proc),
    let i : Instr := if timed then .tswapT a c else .tswap a c
    let x := coreX (coreOf (placeOf k))
    let y := coreY (coreOf (placeOf k))
    let w := q.swapsq
    let side := 2 ^ (field w 0 2 + 1)
    let inside := w.getLsbD 31 = true ∧ field w 8 5 + side ≤ 24 ∧ field w 16 5 + side ≤ 32 ∧ coreOf (placeOf k) < 768 ∧
      field w 8 5 ≤ x ∧ x < field w 8 5 + side ∧ field w 16 5 ≤ y ∧ y < field w 16 5 + side
    let core := coreAt (field w 8 5 + y - field w 16 5) (field w 16 5 + x - field w 8 5)
    let there := devOf (placeOf k) * 1024 + core
    Issues s k p { unit := .tile, srcs := [.m a], dsts := [.g c], touch := .both, quiet := true } s' q →
    (¬ inside → exec i s = .next ((s'.setProc k (q.wg c 7).advance).retired k q)) ∧
    (inside → core = coreOf (placeOf k) → exec i s = .next ((s'.setProc k (q.wg c 0).advance).retired k q)) ∧
    (inside → core ≠ coreOf (placeOf k) →
      (∀ (j : Nat) (r : Proc) (m : BitVec 3) (st : BitVec 5) (since : Nat) (d : Option Nat),
        (s'.core there).tileOwner = some j → s'.live j = some r →
        r.stall = some { kind := .tswap m st, since := since, deadline := d } → r.swapsq = q.swapsq →
        exec i s = .next (((((s'.wm (placeOf k) a ((s'.core there).rm m)).wm there m ((s'.core (placeOf k)).rm a)).swapEnd k q c r).swapEnd
          j r st q).retired k q)) ∧
      ((s'.core there).tileOwner = none → timed = false →
        exec i s = .next ((s'.stallOn k q (.tswap a c) none).retired k q))))

/-- R207 to R215, R232: the ring instructions and the requests to the matrix unit; the status OK is log 92. -/
def Obligations.RingsAndMatrix : Prop :=
  ∀ (a b c : BitVec 5) (n : BitVec 2) (t : Bool),
    let ref : Need := { srcs := [.g b], dsts := [.g a], touch := .plain }
    let acq : Need := { srcs := [.g b], dsts := [.g a], touch := .acquire }
    let pub : Need := { scope := .shed, srcs := [.g b, .g c], dsts := [.g a], touch := .release }
    let own : Need := { dsts := [.g a], touch := .plain }
    let clean (p : Proc) : Prop := field (p.rg b) 6 2 = 0 ∧ field (p.rg b) 11 53 = 0 ∧ 1 ≤ field (p.rg b) 8 3 ∧
      field (p.rg b) 8 3 ≤ 5 ∧ p.splog ≠ 0 ∧ (field (p.rg b) 0 6 + 2 ^ field (p.rg b) 8 3) * 8192 ≤ 2 ^ p.splog
    let seq (p : Proc) : BitVec 16 := (p.rg c).setWidth 16
    CompletesIf ref (.rcfg a b n) (fun k p s => clean p ∧ s.ring (placeOf k) n.toNat = none) (fun k p s =>
      (s.setRing (placeOf k) n.toNat
        { owner := k, ogen := p.gen, asid := p.asid, base := field (p.rg b) 0 6, logcap := field (p.rg b) 8 3, head := 0, ptail := 0
          rtail := 0, map := 0, poisoned := 0, taken := false, waiters := [] }).setProc k (p.wg a 0).advance) ∧
    CompletesIf ref (.rcfg a b n) (fun k p s => clean p ∧ (s.ring (placeOf k) n.toNat).isSome = true) (putsG a fun _ => 6) ∧
    CompletesIf ref (.rcfg a b n) (fun _ p _ => ¬ clean p) (putsG a fun _ => 7) ∧
    CompletesIf own (.rrst a n) (fun k _ s => s.ring (placeOf k) n.toNat = none) (putsG a fun _ => 4) ∧
    (∀ (pl i : Nat) (r : Ring),
      let at_ (k : Nat) (p : Proc) (s : State) : Prop := ringAt s k p (p.rg b) = .inr (pl, i, r)
      CompletesIf acq (.rres a b t) (fun k p s => at_ k p s ∧ r.isFull = false ∧ r.waiters = [])
        (fun k p s => (s.setRing pl i { r with rtail := r.rtail + 1 }).setProc k
          (p.wg a (BitVec.ofNat 64 (r.rtail.toNat * 65536))).advance) ∧
      CompletesIf acq (.rres a b t) (fun k p s => at_ k p s ∧ (r.isFull = true ∨ r.waiters ≠ []))
        (fun k p s => (s.setRing pl i { r with waiters := r.waiters ++ [(k, p.gen)] }).waitIn k p (.rres pl i) a 0 (deadlineOf s k p t)) ∧
      CompletesIf pub (.rpub a b c) (fun k p s => field (p.rg c) 17 47 = 0 ∧ at_ k p s ∧ r.pending (seq p) = true)
        (fun k p s => (s.setRing pl i (r.publish (seq p) ((p.rg c).getLsbD 16))).setProc k (p.wg a 0).advance) ∧
      CompletesIf pub (.rpub a b c) (fun k p s => field (p.rg c) 17 47 = 0 ∧ at_ k p s ∧ r.pending (seq p) = false)
        (fun k p s => s.trap k p false 0x0E 0 ((seq p).setWidth 64)) ∧
      CompletesIf ref (.rstat a b) at_ (fun k p s =>
        s.setProc k (p.wg a (ringWord r (r.owner == k && r.ogen == p.gen))).advance) ∧
      CompletesIf ref (.rstatMap a b) at_ (fun k p s => s.setProc k (p.wg a (ringMapWord r)).advance) ∧
      CompletesIf own (.rrst a n) (fun k p s => s.ring (placeOf k) n.toNat = some r ∧ r.owner = k ∧ r.ogen = p.gen)
        (fun k p s => (s.unring (placeOf k) n.toNat).setProc k (p.wg a 0).advance)) ∧
    (∀ code : Nat,
      let none_ (k : Nat) (p : Proc) (s : State) : Prop := ringAt s k p (p.rg b) = .inl code
      CompletesIf acq (.rres a b t) none_ (putsG a fun _ => statusWord code 0) ∧
      CompletesIf pub (.rpub a b c) (fun k p s => field (p.rg c) 17 47 = 0 ∧ none_ k p s) (putsG a fun _ => statusWord code 0) ∧
      CompletesIf ref (.rstat a b) none_ (putsG a fun _ => 0) ∧ CompletesIf ref (.rstatMap a b) none_ (putsG a fun _ => 0)) ∧
    (∀ (s : State) (k : Nat) (p : Proc) (w : Word) (r : Ring),
      let at_ := s.ring (placeOf k - coreOf (placeOf k) % 8 + w.toNat % 8) (w.toNat / 8 % 4)
      (32 ≤ w.toNat → ringAt s k p w = .inl 7) ∧ (w.toNat < 32 → at_ = none → ringAt s k p w = .inl 4) ∧
      (w.toNat < 32 → at_ = some r → r.asid ≠ p.asid → ringAt s k p w = .inl 7)) ∧
    Completes ref (.mstat a b) (fun k p s =>
      (s.toMatrix (placeOf k) (.mstat k p.gen a (field (p.rg b) 0 3) false)).waitIn k p .matrix a 0 none) ∧
    Completes ref (.mstatClr a b) (fun k p s =>
      (s.toMatrix (placeOf k) (.mstat k p.gen a (field (p.rg b) 0 3) true)).waitIn k p .matrix a 0 none) ∧
    Completes ref (.mzero a b) (fun k p s =>
      (s.toMatrix (placeOf k) (.mzero k p.gen a (p.rg b))).waitIn k p .matrix a 0 none) ∧
    Completes { needS := true, srcs := [.g b, .g c], dsts := [.g a], touch := .plain, word := encR 0x2A a b c 0x040 } (.mwgt a b c)
      (fun k p s =>
        let x := s.shed (shedKey (placeOf k))
        (s.setShed (shedKey (placeOf k))
          { x with weights := x.weights.setIfInBounds (field (p.rg b) 0 3) (Max.max 1 (field (p.rg c) 0 4)) }).setProc k
            (p.wg a (BitVec.ofNat 64 ((x.weights[field (p.rg b) 0 3]?).getD 1))).advance)

/-- R216 to R219, R227, R231, R234, R261: the engine commands; the free entry is log 21, bit 23 of DRAIN log 88, a stale
predecessor id log 96. -/
def Obligations.EngineCommands : Prop :=
  ∀ (a b c : BitVec 5),
    let cmd (sc : Scope) (i : Instr) (kind : NodeKind) (ok : Word → Bool) (chan : Nat) (cond : Nat → Proc → State → Prop) : Prop :=
      let nd : Need := { scope := sc, srcs := [.g b, .g c], dsts := [.g a], touch := .release }
      let mine (k : Nat) (p : Proc) (s : State) : Prop :=
        cond k p s ∧ (predIds (p.rg c)).find? (foreignNode s k p) = none
      CompletesIf nd i (fun k p s => mine k p s ∧ ok (p.rg b) = false) (putsG a fun _ => 0x70000) ∧
      CompletesIf nd i (fun k p s => mine k p s ∧ ok (p.rg b) = true ∧ freeNode s (placeOf k) = none) (fun k p s =>
        (s.countCore (placeOf k) 3).setProc k (p.wg a 0x60000).advance) ∧
      (∀ id, CompletesIf nd i (fun k p s => cond k p s ∧ (predIds (p.rg c)).find? (foreignNode s k p) = some id)
        (fun k p s => s.trap k p false 0x0F 0 (BitVec.ofNat 64 id))) ∧
      ∀ n gen, CompletesIf nd i
        (fun k p s => mine k p s ∧ ok (p.rg b) = true ∧ freeNode s (placeOf k) = some (n, gen)) (fun k p s =>
          let l := livePreds s k (p.rg c)
          let t := (s.setNode (placeOf k) n (newNode k p kind (p.rg b) l chan gen)).setProc k
            (p.wg a (BitVec.ofNat 64 (nodeId n gen))).advance
          if predFailed l then t.finishNodes (placeOf k) 256 [(n, 9, false)]
          else if predsPending l ≠ [] then t
          else match t.launchNode (placeOf k) n with
            | (t, none) => t
            | (t, some code) => t.finishNodes (placeOf k) 256 [(n, code, false)])
    let window (at_ : Nat) (chan : Nat) (p : Proc) (s : State) : Prop :=
      ∃ e, mget p.doors (field (p.rg b) at_ 6) = some e ∧ e.isSend = true ∧ e.chan = chan ∧
        (mget s.chans e.chan).all (·.typ == .window) = true
    let reach (k chan : Nat) (s : State) : Scope :=
      match (mget s.chans chan).bind fun x => holderDev x.recv with
      | none => .device
      | some d => if d = keyDev k then .device else .system
    cmd .shed (.nodeCmu a b c) .cmu cmuOk 0 (fun _ _ _ => True) ∧
    (∀ chan sc, cmd sc (.nodeDrain a b c) .drain drainOk chan (fun k p s => window 8 chan p s ∧ sc = reach k chan s)) ∧
    (∀ chan sc, cmd sc (.nodeCopy a b c) .copy copyOk chan
      (fun k p s => p.splog ≠ 0 ∧ spadWaits s k p.gen = false ∧
        (if (p.rg b).getLsbD 19 then chan = 0 ∧ sc = .device else window 37 chan p s ∧ sc = reach k chan s))) ∧
    cmd .device (.qsearch a b c) .search (fun w => field w 19 45 == 0) 0 (fun k p s => p.splog ≠ 0 ∧ spadWaits s k p.gen = false) ∧
    cmd .device (.bred a b c) .bred (fun w => field w 0 6 == 0) 0 (fun _ _ _ => True)

/-- R217, R220 to R222, R234: waiting for nodes and finishing them; the id in a register is log 55, their quiet touch log 47. -/
def Obligations.NodeWaits : Prop :=
  ∀ (a b : BitVec 5) (t : Bool) (n : Node),
    let nd : Need := { srcs := [.g b], dsts := [.g a], touch := .acquire, quiet := true }
    let free : Need := { srcs := [.g b], dsts := [.g a] }
    let id (p : Proc) : Nat := field (p.rg b) 0 16
    let at_ (k : Nat) (p : Proc) (s : State) : Prop :=
      s.nodeOf (placeOf k) (id p) = some n ∧ n.owner = k ∧ n.ogen = p.gen ∧ n.detached = false
    let word (code : Nat) (drop : Bool) (st : Nat) : Word := BitVec.ofNat 64 (code + (if drop then 256 else 0) + 512 * st)
    let put (k : Nat) (p : Proc) (s : State) (x : Node) : State := s.setNode (placeOf k) (id p % 64) x
    let owes (p : Proc) (any : Bool) : Proc := { p with nodeTraps := p.nodeTraps ++ [(a, id p, any)] }
    let drops := n.drop && n.dropTrap
    CompletesIf nd (.nwait a b t) (fun k p s => at_ k p s ∧ n.st = .done) (fun k p s =>
      (put k p s { n with live := false }).setProc k (((if drops then owes p false else p).wg a (word n.status n.drop 0)).advance)) ∧
    CompletesIf nd (.nwait a b t) (fun k p s => at_ k p s ∧ n.st ≠ .done ∧ pastDeadline s (deadlineOf s k p t) = false) (fun k p s =>
      (put k p s { n with waiters := n.waiters ++ [(a, deadlineOf s k p t)] }).setProc k
        (({ p.eg a with nwaits := p.nwaits ++ [(a, id p)] } : Proc).advance)) ∧
    CompletesIf nd (.nwait a b t) (fun k p s => at_ k p s ∧ n.st ≠ .done ∧ pastDeadline s (deadlineOf s k p t) = true)
      (putsG a fun _ => 1) ∧
    CompletesIf nd (.npoll a b) (fun k p s => at_ k p s ∧ n.st = .done) (fun k p s =>
      s.setProc k (((if drops then owes p true else p).wg a (word n.status n.drop 2)).advance)) ∧
    CompletesIf nd (.npoll a b) (fun k p s => at_ k p s ∧ n.st ≠ .done)
      (putsG a fun _ => word 0 false (if n.st = .launched then 1 else 0)) ∧
    CompletesIf free (.nfree a b) (fun k p s => at_ k p s ∧ n.st = .done ∧ n.waiters = []) (fun k p s =>
      (put k p s { n with live := false }).setProc k (p.wg a 0).advance) ∧
    CompletesIf free (.nfree a b) (fun k p s => at_ k p s ∧ n.st ≠ .done ∧ n.waiters = []) (fun k p s =>
      (put k p s { n with detached := true, waiters := [] }).setProc k (p.wg a 0).advance) ∧
    (∀ i code nd', i = .nwait a b t ∧ code = 7 ∧ nd' = nd ∨ i = .npoll a b ∧ code = 7 + 512 * 3 ∧ nd' = nd ∨
        i = .nfree a b ∧ code = 7 ∧ nd' = free →
      CompletesIf nd' i (fun k p s => s.nodeOf (placeOf k) (id p) = none) (putsG a fun _ => BitVec.ofNat 64 code) ∧
      CompletesIf nd' i (fun k p s => s.nodeOf (placeOf k) (id p) = some n ∧ (n.owner ≠ k ∨ n.ogen ≠ p.gen))
        (fun k p s => s.trap k p false 0x0F 0 (BitVec.ofNat 64 (id p)))) ∧
    ∀ (s : State) (m src dst pl i code : Nat) (own : Option Own) (drop : Bool),
      (s.arriving m = some { src := src, dst := dst, own := own, body := .nodeDone pl i n.gen code drop } →
        (s.took m).node pl i = some n → n.live = true →
        exec (.nodeFinish m) s = .next ((((s.took m).modCore pl fun c => { c with copyQ := c.copyQ.filter (· != i) }).finishNodes pl 256
          [(i, if code ≠ 0 then code else n.status, drop || n.drop)]).progress (devOf pl))) ∧
      (∀ rest r, (s.core pl).copyQ = i :: rest → s.node pl i = some n → n.steps = 0 →
        let s₁ := s.setNode pl i { n with steps := 1 }
        let there := ringPlace pl (field n.cmd 37 5)
        let ix := field n.cmd 37 5 / 8 % 4
        let q : BitVec 16 := BitVec.ofNat 16 (field n.cmd 43 16)
        (n.cmd.getLsbD 19 = true → s₁.ring there ix = some r → r.asid = n.asid → r.pending q = true →
          exec (.copyRun pl) s = .next ((s₁.fillEntry there ix r q n.data).post pl pl none (.nodeDone pl i n.gen 0 false))) ∧
        (n.cmd.getLsbD 19 = false → exec (.copyRun pl) s = .next (s₁.post (agentSend n.chan) (agentChan n.chan) none
          (.winPush { chan := n.chan, off := 8 * field n.cmd 43 17, bytes := n.data, need := 8 * field n.cmd 43 17 + n.data.length + 8
                      stamp := n.stamp.map fun v => (v, 8 * field n.cmd 43 17 + n.data.length), halo := none
                      node := some (pl, nodeId i n.gen), waiter := none }))))

/-- R237 to R241, R271: the block formats (logs 90 and 38) and the start of a chain. -/
def Obligations.ChainAndBlocks : Prop :=
  ∀ (a b c : BitVec 5) (m : BitVec 3) (ty : Ty) (n : BitVec 4),
    let one : Need := { srcs := [.v b, .g c], dsts := [.v a] }
    let cha : Need := { srcs := [.g b], dsts := [.g a], touch := .release }
    let block (nd : Need) (i : Instr) (srcs : Proc → List VReg) (res : Proc → VReg) : Prop :=
      let bad (p : Proc) : List Nat := (List.range (srcs p).length).filter fun j => (blockN ((srcs p).getD j 0)).isNone
      let counted (k : Nat) (p : Proc) (s : State) : State := (bad p).foldl (fun s _ => s.countCore (placeOf k) 4) s
      CompletesIf nd i (fun _ p _ => p.dropTrap = false ∨ bad p = []) (fun k p s => putsV a res k p (counted k p s)) ∧
      ∀ j l, CompletesIf nd i (fun _ p _ => p.dropTrap = true ∧ bad p = j :: l)
        (fun k p s => (counted k p s).trap k p false 0x07 3 (BitVec.ofNat 64 j))
    block one (.bfpx a b c m ty) (fun p => [p.rv b])
      (fun p => bfpExpand ty p.mode (p.rk m) (p.rv a) (p.rv b) (p.rg c).toNat) ∧
    block one (.bfpscl a b c) (fun p => [p.rv b]) (fun p => bfpScale p.mode (p.rv b) (p.rg c).toInt) ∧
    block { srcs := [.v b, .v c], dsts := [.v a] } (.bfpq a b c n) (fun p => [p.rv b, p.rv c])
      (fun p => bfpAdd n.toNat p.mode (p.rv b) (p.rv c)) ∧
    Completes { srcs := (cvtRegs b ty n.toNat).map .v, dsts := [.v a] } (.bfpcvt a b ty n)
      (putsV a fun p => bfpConvert ty n.toNat p.mode fun i => p.rv (b + BitVec.ofNat 5 i)) ∧
    CompletesIf cha (.chain a b) (fun k p s => p.splog ≠ 0 ∧ spadWaits s k p.gen = false ∧ field (p.rg b) 19 45 ≠ 0) (putsG a fun _ => 0) ∧
    ∀ (s₁ : State) (h : Nat),
      let packet (k : Nat) (p : Proc) (s : State) : ChainPkt :=
        let desc := field (p.rg b) 0 19 / 64 * 64
        let d := spadBytes s k p desc 160
        { p := k, gen := p.gen, reg := a, asid := p.asid, smode := p.smode, desc := desc, v := BitVec.ofNat 64 (bytesAt d 0 8), i := 0
          n := bytesAt d 0x18 1
          steps := (List.range (bytesAt d 0x18 1)).map fun i =>
            ((BitVec.ofNat 32 (bytesAt d (0x20 + 16 * i) 4)).signExtend 64, BitVec.ofNat 64 (bytesAt d (0x28 + 16 * i) 8)) }
      ∀ c : ChainPkt, CompletesIf cha (.chain a b)
        (fun k p s =>
          let d := spadBytes s k p (field (p.rg b) 0 19 / 64 * 64) 160
          p.splog ≠ 0 ∧ spadWaits s k p.gen = false ∧ field (p.rg b) 19 45 = 0 ∧ 1 ≤ bytesAt d 0x18 1 ∧ bytesAt d 0x18 1 ≤ 8 ∧
          bytesZero d 0x19 7 = true ∧ (∀ i < bytesAt d 0x18 1, bytesZero d (0x24 + 16 * i) 4 = true) ∧ packet k p s = c ∧
          chainHome s (placeOf k) c = (s₁, some h))
        (fun k p _ => (s₁.post (placeOf k) h (some { p := k, gen := p.gen, acq := false, rel := false, asid := p.asid, smode := p.smode })
          (.chain c)).setProc k (p.eg a).advance)

/-- R254 to R259: the yard instructions as the owner's. -/
def Obligations.YardInstructions : Prop :=
  ∀ (a b c : BitVec 5) (t : Bool),
    let y (k : Nat) (s : State) : Yard := (s.core (placeOf k)).yard
    let owns (k : Nat) (s : State) : Prop := (s.core (placeOf k)).yardOwner = some k
    let op (srcs : List RegRef) (o : Touch) (i : Instr) (cond : Nat → Proc → State → Prop) (effect : Nat → Proc → State → State) : Prop :=
      CompletesIf { unit := .yard, srcs := srcs, dsts := [.g a], touch := o } i (fun k p s => owns k s ∧ cond k p s) effect
    let any (_ : Nat) (_ : Proc) (_ : State) : Prop := True
    let answer (code : Nat) (k : Nat) (p : Proc) (s : State) : State := s.setProc k (p.wg a (BitVec.ofNat 64 code)).advance
    let set (z : Yard) (code : Nat) (k : Nat) (p : Proc) (s : State) : State := answer code k p (s.setYard k z)
    let mask (p : Proc) : Nat := (p.rg b).toNat
    let named (p : Proc) : List Nat := (List.range 4).filter fun d => (mask p).testBit d
    op [] .none (.yclaim a t) any (answer 0) ∧
    op [] .none (.yrel a) any (fun k p s => answer 0 k { p with yardGrid := [] } (s.saveYard (placeOf k) k p (y k s).stopAll)) ∧
    (let off (p : Proc) : Nat := (p.rg b).toNat / 64 * 64 % 2 ^ p.splog
     let img (k : Nat) (p : Proc) (s : State) : Option (List YCell × List (Nat × Nat)) := patchOf s p (patchBytes s k p (off p))
     (∀ cells pairs, op [.g b] .plain (.yload a b)
       (fun k p s => p.splog ≠ 0 ∧ spadWaits s k p.gen = false ∧ (y k s).running = false ∧ img k p s = some (cells, pairs))
       (fun k p s => set { Yard.empty with
          cells := cellMap cells, pairs := pairs, attach := (y k s).attach, valid := true, patch := off p
          doms := (y k s).doms.map fun d => { d with steps := 0, late := 0 } } 0 k p s)) ∧
     op [.g b] .plain (.yload a b) (fun k p s => p.splog ≠ 0 ∧ spadWaits s k p.gen = false ∧ ((y k s).running = true ∨ img k p s = none)) (answer 7)) ∧
    (∀ x, op [.g b, .g c] .none (.yclk a b c)
      (fun k p s => mask p < 4 ∧ ((y k s).dom (mask p)).run = false ∧ clockOf (p.rg c) ((y k s).dom (mask p)) = some x)
      (fun k p s => set ((y k s).setDom (mask p) x) 0 k p s)) ∧
    op [.g b, .g c] .none (.yclk a b c) (fun _ p _ => 4 ≤ mask p) (answer 7) ∧
    op [.g b] .none (.yrun a b)
      (fun k p s => mask p < 16 ∧ (y k s).valid = true ∧ ∀ d ∈ named p, ((y k s).dom d).mode ≠ 1 ∨ ((y k s).dom d).left ≠ 0)
      (fun k p s => set ((named p).foldl (fun z d => if (z.dom d).run then z else z.setDom d (startDom s (keyDev k) (z.dom d))) (y k s)) 0 k p s) ∧
    op [.g b] .none (.ystop a b) (fun _ p _ => mask p < 16)
      (fun k p s => set ((named p).foldl (fun z d => z.setDom d { z.dom d with run := false }) (y k s)) 0 k p s) ∧
    op [.g b] .none (.ystopW a b t) (fun k p s => mask p < 16 ∧ ∀ d ∈ named p, ((y k s).dom d).run = false) (answer 0) ∧
    op [.g b] .none (.ystopW a b t) (fun k p s => mask p < 16 ∧ ∃ d ∈ named p, ((y k s).dom d).run = true)
      (fun k p s => s.waitIn k p (.ystop (mask p)) a 0 (deadlineOf s k p t)) ∧
    op [.g b] .plain (.ysave a b) (fun k p s => p.splog ≠ 0 ∧ spadWaits s k p.gen = false) (fun k p s =>
      answer 0 k p (((List.range 36).foldl (fun s' i =>
        s'.spadPut k p (mask p / 64 * 64 + 64 * i) (((y k s).image.drop (64 * i)).take 64)) s).testMonS (placeOf k))) ∧
    (∀ cells pairs, op [.g b] .plain (.yrest a b)
      (fun k p s =>
        let z := yardFrom (spadBytes s k p (mask p / 64 * 64) 2304) blankCells []
        p.splog ≠ 0 ∧ spadWaits s k p.gen = false ∧ (y k s).running = false ∧ z.valid = true ∧ patchOf s p (patchBytes s k p z.patch) = some (cells, pairs))
      (fun k p s => set (yardFrom (spadBytes s k p (mask p / 64 * 64) 2304) cells pairs) 0 k p s)) ∧
    op [.g b] .none (.yget a b) any (fun k p s => s.setProc k (p.wg a ((y k s).get (p.rg b))).advance) ∧
    (∀ z, op [.g b, .g c] .none (.yset a b c) (fun k p s => (y k s).put s p (p.rg b) (p.rg c) = some z) (set z 0)) ∧
    op [.g b, .g c] .none (.yset a b c) (fun k p s => (y k s).put s p (p.rg b) (p.rg c) = none) (answer 7) ∧
    op [.g b, .g c] .none (.yinj a b c) (fun _ p _ => mask p < 4) (fun k p s =>
      let x := (y k s).ports.getD (mask p) 0 + (p.rg c).toInt
      let z : Int := Max.max (-32767) (Min.min 32767 x)
      set { y k s with ports := listSet (y k s).ports (mask p) z } (if z = x then 0 else 6) k p s) ∧
    op [] .none (.ystat a) any (fun k p s => s.setProc k (p.wg a (y k s).status).advance) ∧
    op [] .none (.ystatClr a) any (fun k p s =>
      (s.setYard k { y k s with
        ovr := false, intg := false, cfg := false, odrop := 0, doms := (y k s).doms.map fun d => { d with late := 0 } }).setProc k
          (p.wg a (y k s).status).advance)

/-- R248 to R255: what a yard does by itself. -/
def Obligations.YardByItself : Prop :=
  (∀ (s : State) (place k d : Nat), (s.core place).yardOwner = some k → d < 4 →
    let y := (s.core place).yard
    let x := y.dom d
    let r := y.step d
    let z := r.yard.dom d
    let late : Bool := decide (x.mode = 2 ∧ x.t0 + (x.done + 2) * x.div ≤ s.timebOf (devOf place))
    let y' := r.yard.setDom d { z with late := if late then Min.min (z.late + 1) (2 ^ 32 - 1) else z.late }
    let turn := y.turn (s.device (devOf place)).t0 s.cycle d
    (turn = false → exec (.yardStep place d) s = .next s) ∧
    (turn = true → exec (.yardStep place d) s = .next
      ((((y'.cells.filter fun (e : Nat × YCell) => e.2.w != 0 && e.2.dom == d && e.2.oen && e.2.out != 0).foldl
          (fun s (e : Nat × YCell) => s.yardOut place k d e.1 e.2.out) (s.modCore place fun c => { c with yard := y' })).yardFault
            place k r).yardStopped place k))) ∧
  (∀ (s : State) (place k input : Nat) (p : Proc) (d : Door) (x : Chan) (i : Item) (q : List Entry),
    let att := (s.core place).yard.attach.getD input 0
    (s.core place).yardOwner = some k → input < 8 → att.getLsbD 7 = true → mget s.procs k = some p →
    mget p.doors (att.toNat % 64) = some d → mget s.chans d.chan = some x → d.isSend = false → d.marks = 0 → x.moving = false →
    x.q = .item i :: q →
    exec (.yardInputItem place input) s = .next
      (((s.modCore place fun c =>
          { c with yard := { c.yard with
              ports := listSet c.yard.ports (4 + input) (Max.max (-32767) (Min.min 32767
                (c.yard.ports.getD (4 + input) 0 + toSigned 16 (field (i.words.headD 0) 0 16)))) } }).setChan d.chan
        { x with q := q, nextr := x.nextr + 1 }).token d.chan x)) ∧
  (∀ (s : State) (place k : Nat) (p : Proc),
    (s.core place).yardOwner = none →
    ((s.core place).displaced = [k] → exec (.yardRestore place) s = .next (s.giveYard place k)) ∧
    ((s.core place).displaced = [] → (s.procsAt place).filter (fun e => claimsYard e.2) = [(k, p)] →
      exec (.yardClaimDone place) s = .next (s.giveYard place k))) ∧
  (∀ (a b c : BitVec 5) (t : Bool) (i : Instr) (srcs : List RegRef) (zero : Bool),
    (i, srcs, zero) ∈ [(Instr.yrel a, [], false), (.yclk a b c, [.g b, .g c], false), (.yrun a b, [.g b], false),
      (.ystop a b, [.g b], false), (.ystopW a b t, [.g b], false), (.yget a b, [.g b], true), (.yset a b c, [.g b, .g c], false),
      (.yinj a b c, [.g b, .g c], false), (.ystat a, [], true), (.ystatClr a, [], true)] →
    let nd : Need := { unit := .yard, srcs := srcs, dsts := [.g a] }
    let owner (k : Nat) (s : State) : Option Nat := (s.core (placeOf k)).yardOwner
    CompletesIf nd i (fun k _ s => owner k s ≠ some k ∧ (s.core (placeOf k)).displaced.contains k = false)
      (putsG a fun _ => if zero then 0 else 4) ∧
    CompletesIf nd i (fun k _ s => owner k s ≠ some k ∧ (s.core (placeOf k)).displaced.contains k = true)
      (fun k p s => s.stallOn k p .yclaim none))

/-- R33 to R54, R278: reading and writing the system registers; PRIOR's EFF is log 58. -/
def Obligations.SystemRegisters : Prop :=
  ∀ (a : BitVec 5),
    (∀ (num : BitVec 12) (sup : Bool) (val : State → Nat → Proc → Word),
      ((num, sup) = (0x000, false) ∧ val = (fun s k p => if p.timecmp.toNat ≤ s.timebOf (keyDev k) then setBit p.pstat 24 true else p.pstat) ∨ (num, sup) = (0x001, false) ∧ val = (fun _ _ p => p.numctl) ∨
        (num, sup) = (0x002, false) ∧ val = (fun _ _ p => p.epol) ∨ (num, sup) = (0x003, false) ∧ val = (fun _ _ p => p.tmo) ∨
        (num, sup) = (0x010, true) ∧ val = (fun _ _ p => p.tvec) ∨ (num, sup) = (0x011, true) ∧ val = (fun _ _ p => p.tcause) ∨
        (num, sup) = (0x012, true) ∧ val = (fun _ _ p => p.tval) ∨ (num, sup) = (0x013, true) ∧ val = (fun _ _ p => p.tpc) ∨
        (num, sup) = (0x014, true) ∧ val = (fun _ _ p => p.tstat) ∨
        (num, sup) = (0x020, false) ∧
          val = (fun s _ p => BitVec.ofNat 64 (p.asid % 16384 + (if (s.space p.asid).sealed then 32768 else 0))) ∨
        (num, sup) = (0x021, false) ∧ val = (fun _ _ p => p.prior) ∨ (num, sup) = (0x022, false) ∧ val = (fun _ _ p => p.qnt) ∨
        (num, sup) = (0x030, false) ∧ val = (fun s k _ => BitVec.ofNat 64 (s.timebOf (keyDev k))) ∨
        (num, sup) = (0x031, false) ∧ val = (fun _ _ p => p.feretry) ∨ (num, sup) = (0x032, false) ∧ val = (fun _ _ p => p.timecmp) ∨
        (num, sup) = (0x040, false) ∧ val = (fun _ _ p => p.swapsq) ∨
        (num, sup) = (0x050, false) ∧ val = (fun _ k _ => coreIdWord (placeOf k)) ∨
        (num, sup) = (0x051, false) ∧ val = (fun _ k p => handleOf k p.gen) ∨
        (num, sup) = (0x052, false) ∧ val = (fun _ _ p => p.round) ∨
        (num, sup) = (0x060, false) ∧ val = (fun s _ p => (s.space p.asid).wdog)) →
      Completes { needS := sup, dsts := [.g a], word := sysWord false a num } (.mfs a num)
        (fun k p s => s.setProc k (p.wg a (val s k p)).advance)) ∧
    (∀ (num : BitVec 12) (sup : Bool) (put : State → Nat → Proc → Word → Proc),
      ((num, sup) = (0x000, false) ∧ put = (fun s dev p x => { p with pstat := pstatWrite s dev p x }) ∨
        (num, sup) = (0x001, false) ∧ put = (fun _ _ p x => { p with numctl := x &&& 0xF }) ∨
        (num, sup) = (0x002, false) ∧ put = (fun _ _ p x => { p with epol := x &&& 0xFFFFFFFFFF }) ∨
        (num, sup) = (0x003, false) ∧ put = (fun _ _ p x => { p with tmo := x }) ∨
        (num, sup) = (0x010, true) ∧ put = (fun _ _ p x => { p with tvec := x &&& ~~~3#64 }) ∨
        (num, sup) = (0x011, true) ∧ put = (fun _ _ p x => { p with tcause := x &&& 0xFFFF01FF }) ∨
        (num, sup) = (0x012, true) ∧ put = (fun _ _ p x => { p with tval := x }) ∨
        (num, sup) = (0x013, true) ∧ put = (fun _ _ p x => { p with tpc := x &&& ~~~3#64 }) ∨
        (num, sup) = (0x014, true) ∧ put = (fun _ _ p x => { p with tstat := x &&& 0x707 }) ∨
        (num, sup) = (0x022, true) ∧ put = (fun _ _ p x => { p with qnt := BitVec.ofNat 64 (Max.max 1000 (field x 0 32)) }) ∨
        (num, sup) = (0x031, true) ∧ put = (fun _ _ p x => { p with feretry := x &&& 0xFF }) ∨
        (num, sup) = (0x032, false) ∧
          put = (fun s dev p x => { p with timecmp := x, pstat := setBit p.pstat 24 (decide (x.toNat ≤ s.timebOf dev)) }) ∨
        (num, sup) = (0x040, false) ∧
          put = (fun _ _ p x => { p with swapsq := setField (x &&& 0x801F1F03) 8 5 (Min.min 23 (field x 8 5)) }) ∨
        (num, sup) = (0x052, true) ∧ put = (fun _ _ p x => { p with round := x &&& 0xFFFFFFFF }) ∨
        (num, sup) ∈ [(0x030#12, false), (0x050, false), (0x051, false)] ∧ put = (fun _ _ p _ => p)) →
      Completes { needS := sup, srcs := [.g a], word := sysWord true a num } (.mts a num)
        (fun k p s => s.setProc k (put s (keyDev k) p (p.rg a)).advance)) ∧
    Completes { needS := true, srcs := [.g a], word := sysWord true a 0x021 } (.mts a 0x021) (fun k p s =>
      let base := Min.min (field (p.rg a) 0 4) 11
      (s.setProc k ({ p with prior := setField (setField p.prior 0 4 base) 16 4 base } : Proc).advance).settle (placeOf k)) ∧
    Completes { needS := true, srcs := [.g a], word := sysWord true a 0x060 } (.mts a 0x060) (fun k p s =>
      ((s.setSpace p.asid { s.space p.asid with wdog := wdogWrite (s.space p.asid).wdog (p.rg a) }).setProc k p.advance).watchSpace
        p.asid)

/-- R276 to R282, R83, R398: the other system instructions; what a TLBINV waits for is log 61. -/
def Obligations.SystemInstructions : Prop :=
  ∀ (a b : BitVec 5) (t : Bool) (code : BitVec 10),
    let args : List (BitVec 5) := [1, 2, 3, 4, 5, 6, 7]
    let word (x : Nat) : Word := BitVec.ofNat 64 x
    (∀ (s : State) (k : Nat) (p : Proc) (s' : State) (q : Proc),
      (Issues s k p {} s' q → p.smode = false → exec .ecall s = .next ((s'.trap k q false 0x12 0 0).retired k q)) ∧
      (Issues s k p { srcs := args.map .g } s' q → p.smode = true → serviceCode (q.rg 1).toNat = true →
        exec .ecall s = .next (((s'.post (placeOf k) (devOf (placeOf k) * 1024 + 768 + servingDie s' (devOf (placeOf k)) (coreDie (coreOf (placeOf k)))) none
          (.svc { p := k, gen := q.gen, args := args.map q.rg })).waitIn k q .ecall 0 0 none).retired k q))) ∧
    (let drop (va : Proc → Option Word) (k : Nat) (p : Proc) (s : State) : State := s.invalidate (keyDev k) p.asid (va p)
     let idle (k : Nat) (p : Proc) (s : State) : Prop := ∀ m ∈ s.net, usesSpace s m (keyDev k) p.asid = false
     let inv (nd : Need) (i : Instr) (va : Proc → Option Word) : Prop :=
       CompletesIf nd i (fun k p s => idle k p (drop va k p s)) (fun k p s => (drop va k p s).setProc k p.advance) ∧
       CompletesIf nd i (fun k p s => ¬ idle k p (drop va k p s)) (fun k p s =>
         ((drop va k p s).post (agentPart k) (placeOf k) none (.fill { (endFill k p.gen 0) with inv := some (p.asid, va p) })).waitIn k p
           (.tlbinv (va p)) 0 0 none)
     inv { needS := true, srcs := [.g b], touch := .release, lines := false, word := encR 0x2F 0 b 0 0x080 } (.tlbinvPage b) (fun p => some (p.rg b)) ∧
     inv { needS := true, touch := .release, lines := false, word := encR 0x2F 0 0 0 0x081 } .tlbinvSpace (fun _ => none)) ∧
    (let core (f : Core → Core) (k : Nat) (p : Proc) (s : State) : State := (s.modCore (placeOf k) f).setProc k p.advance
     Completes {} .cflushAll (core fun c => { c with roLines := [] }) ∧ Completes {} .isync (core fun c => { c with icache := [] }) ∧
     Completes {} .cflushRed (fun k p s => (s.combineAll (placeOf k) .system).setProc k p.advance) ∧
     (∀ ga leaf s₁, CompletesIf { srcs := [.g b] } (.cflushL b)
       (fun k p s => translate s (placeOf k) p.asid p.smode (p.rg b) .read = (s₁, .ok ga leaf))
       (fun k p _ => core (fun c => { c with roLines := mdel c.roLines (ga / 64) }) k p s₁)) ∧
     (∀ x y s₁, CompletesIf { srcs := [.g b] } (.cflushL b)
       (fun k p s => translate s (placeOf k) p.asid p.smode (p.rg b) .read = (s₁, .fault x y)) (fun k p _ => s₁.setProc k p.advance))) ∧
    Completes {} (.brk code) (fun k p s => s.trap k p false 0x11 0 ((encR 0x2F 0 (code.extractLsb' 5 5) (code.extractLsb' 0 5) 0x0E0).setWidth 64)) ∧
    CompletesIf { dsts := [.g a] } (.wfe a t) (fun k p s => field p.pstat 24 3 ≠ 0 ∨ p.timecmp.toNat ≤ s.timebOf (keyDev k)) (putsG a fun _ => 0) ∧
    CompletesIf { dsts := [.g a] } (.wfe a t) (fun k p s => field p.pstat 24 3 = 0 ∧ s.timebOf (keyDev k) < p.timecmp.toNat)
      (fun k p s => (s.waitIn k p .wfe a 0 (deadlineOf s k p t)).block k) ∧
    (let nd : Need := { needS := true, srcs := [.g b], dsts := [.g a], word := encR 0x2F a b 0 0x120 }
     let core (p : Proc) : Nat := coreOf (placeOf (handleKey (p.rg b)))
     let service (p : Proc) : Prop := 768 ≤ core p ∧ core p < 772
     CompletesIf nd (.preempt a b) (fun _ p _ => service p) (putsG a fun _ => word 7) ∧
     CompletesIf nd (.preempt a b) (fun _ p s => ¬ service p ∧ s.byHandle (p.rg b) = none) (putsG a fun _ => word 4) ∧
     (∀ j q,
       let names (p : Proc) (s : State) : Prop := ¬ service p ∧ s.byHandle (p.rg b) = some (j, q)
       CompletesIf nd (.preempt a b) (fun k p s => names p s ∧ j = k)
         (fun k p s => ((s.setProc k (p.wg a 0).advance).detach k).makeReady k) ∧
       CompletesIf nd (.preempt a b) (fun k p s => names p s ∧ j ≠ k ∧ q.asid ≠ p.asid) (putsG a fun _ => word 7) ∧
       CompletesIf nd (.preempt a b) (fun k p s => names p s ∧ j ≠ k ∧ q.asid = p.asid ∧ q.isRunning = false) (putsG a fun _ => 0) ∧
       CompletesIf nd (.preempt a b) (fun k p s => names p s ∧ j ≠ k ∧ q.asid = p.asid ∧ q.isRunning = true)
         (fun k p s => (s.setProc j
           { q with haltReq := if q.haltReq = 0 then 2 else q.haltReq, haltFor := q.haltFor ++ [(k, p.gen)] }).waitIn k p (.preempt j) a 0
             none))) ∧
    (∀ (detail : BitVec 16) (tval : BitVec 64) (ext : Bool) (s : State) (p : Proc), mget s.procs s.cur = some p →
      exec (.illegalWord detail tval ext) s = .next (s.trap s.cur p ext 0x01 detail.toNat tval)) ∧
    ∀ (s : State) (k cause : Nat) (p : Proc) (v : Word), mget s.procs k = some p → p.isRunning = true → p.wait = none → p.haltReq = 0 →
      p.kind = .normal →
      asyncCause s (keyDev k) p = some (cause, v) →
      exec (.takeAsyncTrap k) s = .next
        ((if cause = 0x0C ∨ cause = 0x0D then s.setProc k { p with yardTrap := none } else s).takeTrap k cause 0 v p.pc true (atPair s k p))

/-- R277: the return from an exception. -/
def Obligations.ReturnFromException : Prop :=
  (∀ (s : State) (k : Nat) (p : Proc) (s' : State) (q : Proc), Issues s k p { needS := true, word := encR 0x2F 0 0 0 0x020 } s' q →
    ∃ st : Word, exec .eret s = .next ((s'.setProc k { q with pc := q.tpc, pstat := st }).retired k q) ∧
      field st 0 2 = (if field q.tstat 0 2 = 0 then 0 else 1) ∧ field st 16 3 = field q.tstat 8 3 ∧
      ∀ i, i ∉ [0, 1, 16, 17, 18] → st.getLsbD i = q.pstat.getLsbD i) ∧
  ∀ (s : State) (k code detail : Nat) (val : Word) (p : Proc), s.live k = some p → p.kind = .normal → p.spilled = none →
    p.smode = false → p.tvec ≠ 0 →
    ∃ q, s.trap k p true code detail val = s.setProc k q ∧ q.tstat.getLsbD 2 = true ∧ q.tpc = p.pc

/-- R397: trap entry, with its frame; and R397's three other branches, to freezing, holding and pending. -/
def Obligations.TrapEntry : Prop :=
  ∀ (s : State) (k code detail : Nat) (val pc : Word) (async ext : Bool) (p : Proc),
    s.live k = some p → (p.kind = .normal ∨ async = true) → p.spilled = none → code < 256 → detail < 65536 →
    (p.smode = true → async = true → field p.pstat 16 3 = 0 → s.takeTrap k code detail val pc async ext = s) ∧
    (p.smode = true → async = false → s.takeTrap k code detail val pc async ext = s.freeze k p code detail val pc async ext) ∧
    (p.smode = false → p.tvec = 0 →
      s.takeTrap k code detail val pc async ext =
        (if async = true ∧ code ∈ [0x18, 0x19, 0x1A] then s
         else if (s.space p.asid).wdog.getLsbD 0 then s.hold k p code detail val pc async ext
         else s.freeze k p code detail val pc async ext)) ∧
    ((p.smode = false ∨ (async = true ∧ field p.pstat 16 3 ≠ 0)) → p.tvec ≠ 0 →
      ∃ q : Proc, s.takeTrap k code detail val pc async ext = s.setProc k q ∧
        q.tcause = BitVec.ofNat 64 (code + (if async then 256 else 0) + detail * 65536) ∧ q.tval = val ∧ q.tpc = pc ∧
        field q.tstat 0 2 = field p.pstat 0 2 ∧ q.tstat.getLsbD 2 = ext ∧ field q.tstat 8 3 = field p.pstat 16 3 ∧
        q.pc = p.tvec ∧ field q.pstat 0 2 = 1 ∧ field q.pstat 16 3 = 0 ∧
        (async = false → field q.pstat 24 3 = field p.pstat 24 3) ∧
        (async = true → ∀ i < 3, q.pstat.getLsbD (24 + i) =
          if code = 0x18 + i then i == 0 && decide (p.timecmp.toNat ≤ s.timebOf (keyDev k)) else p.pstat.getLsbD (24 + i)) ∧
        (∀ i, i ∉ [0, 1, 16, 17, 18, 24, 25, 26] → q.pstat.getLsbD i = p.pstat.getLsbD i) ∧
        q = { p with
          tcause := q.tcause, tval := q.tval, tpc := q.tpc, tstat := q.tstat, pstat := q.pstat, pc := q.pc, stall := none })

/-- R13, R33, R34, R165, R275: what user mode may not run. -/
def Obligations.Privileged : Prop :=
  ∀ (a b c : BitVec 5) (num : BitVec 12) (s : State) (p : Proc), mget s.procs s.cur = some p →
    let traps (i : Instr) (code detail : Nat) (w : IWord) : Prop := exec i s = .next (s.trap s.cur p false code detail (w.setWidth 64))
    (p.smode = false → traps .eret 2 0 (encR 0x2F 0 0 0 0x020) ∧ traps (.tlbinvPage b) 2 0 (encR 0x2F 0 b 0 0x080) ∧
      traps .tlbinvSpace 2 0 (encR 0x2F 0 0 0 0x081) ∧ traps (.preempt a b) 2 0 (encR 0x2F a b 0 0x120) ∧
      traps (.mwgt a b c) 2 0 (encR 0x2A a b c 0x040) ∧ (p.kind = .normal → traps (.chbindD a b) 2 0 (encR 0x1D a b 0 0x016)) ∧
      (num ∈ [0x010#12, 0x011, 0x012, 0x013, 0x014] → traps (.mfs a num) 2 0 (sysWord false a num)) ∧
      (num ∈ [0x010#12, 0x011, 0x012, 0x013, 0x014, 0x021, 0x022, 0x031, 0x052, 0x060] →
        traps (.mts a num) 2 0 (sysWord true a num))) ∧
    (num = 0x020 ∨ 0x800 ≤ num.toNat → traps (.mts a num) 2 0 (sysWord true a num)) ∧
    (0x800 ≤ num.toNat → traps (.mfs a num) 2 0 (sysWord false a num)) ∧
    (num.toNat < 0x800 → num ∉ [0x000#12, 0x001, 0x002, 0x003, 0x010, 0x011, 0x012, 0x013, 0x014, 0x020, 0x021, 0x022, 0x030, 0x031,
        0x032, 0x040, 0x050, 0x051, 0x052, 0x060] →
      traps (.mfs a num) 1 2 (sysWord false a num) ∧ traps (.mts a num) 1 2 (sysWord true a num))

/-- R49, R137, R301, R304, R306, R307, R317, R404, R406: the steps of the scheduler. -/
def Obligations.SchedulerSteps : Prop :=
  ∀ (s : State) (k : Nat) (p : Proc), mget s.procs k = some p →
    (s.live k = some p → timerLevel s (keyDev k) p = true → p.pstat.getLsbD 24 = false → exec (.timerEvent k) s = .next (s.setEvent k 24)) ∧
    (∀ (w : Wait) (j d : Nat),
      let t := (s.expireParked k p.gen).expireNodes k p.gen
      s.live k = some p → p.wait = some w → w.withdrawn = false → w.kind = .join j → w.deadline = some d → d ≤ t.cycle →
      exec (.waitDeadline k) s = .next (t.finishWait k joinTimeout)) ∧
    (∀ w, p.wait = some w → p.isRunning = true → w.since + 64 ≤ s.cycle → exec (.slotGiveUp k) s = .next (s.block k)) ∧
    (∀ place, (s.core place).readyOrder.find? (isSpilled s) = some k →
      contextsFull s place = false → exec (.spillSwap place) s = .next ((s.unspill k).settle place)) ∧
    (p.run = .ready → p.eff < 11 → p.eff < p.prioBase + (s.timeb - p.readySince) / 64000 →
      exec (.starvationRaise k) s = .next (((s.modLive k fun p => p.setEff (p.eff + 1)).enqueue k false).settle (placeOf k))) ∧
    (p.isRunning = true → p.haltReq = 0 → p.quantSince + field p.qnt 0 32 ≤ s.timeb →
      let rival : Prop := ∃ j ∈ (s.core (placeOf k)).readyOrder, ∃ q, mget s.procs j = some q ∧ q.resident = true ∧ p.prioBase ≤ q.eff
      (rival → exec (.quantumExpiry k) s = .next (s.setProc k { p with haltReq := 2 })) ∧
      (¬ rival → exec (.quantumExpiry k) s = .next (s.setProc k { p with quantSince := s.timeb }))) ∧
    (p.isRunning = true → p.haltReq ≠ 0 →
      exec (.preemptionHalt k) s = .next ((s.leaveSlot k (p.haltReq == 1)).preempted k 0)) ∧
    (hardBlocked p = true → p.reported = false → hardStart p + 100000 ≤ s.timeb →
      exec (.deadlockProbe k) s = .next
        ((s.setProc k { p with hardSince := some s.timeb }).forward k { p with hardSince := some s.timeb } k [k])) ∧
    (∀ (n src dst : Nat) (own : Option Own) (r : Probe), s.arriving n = some { src := src, dst := dst, own := own, body := .probe r } →
      r.toKey = k → hardBlocked p = true →
      (k ≠ r.origin → r.path.length < 64 → exec (.probeForward n) s = .next ((s.took n).forward k p r.origin (r.path ++ [k]))) ∧
      (k ≠ r.origin → 64 ≤ r.path.length → exec (.probeForward n) s = .next ((s.took n).countCore (placeOf k) 11)) ∧
      (k = r.origin → (∀ j ∈ r.path, k ≤ j) → p.reported = false →
        exec (.probeForward n) s = .next ((s.took n).reportCycle k p r.path r.alt))) ∧
    (∀ place asid queue,
      (∀ (j v i : Nat) (q : Proc), wdogDue s place asid queue 1 = true →
        let t := (s.wdogActed place asid queue 1).countCore place 16
        (t.core place).readyOrder.find? (ofQueue t asid queue) = some j →
        (∀ o ∈ (t.core place).slots.toList, o ≠ none) → lowestSlot t (t.core place) = some (v, q) → q.run = .running i →
        exec (.watchdogT1 place asid queue) s = .next
          (let u := (t.setProc v { q with
              stall := none, haltReq := 0, readySince := t.timeb, blockedSince := t.timeb
              run := if q.wait.isSome then .blocked else .ready }).detach v
           let u := if q.wait.isSome then u else u.enqueue v (q.haltReq != 2)
           ((if isSpilled u j then u.swapIn j (if contextsFull u place then some v else none) else u).loadInto place i j).preempted v 0)) ∧
      (wdogDue s place asid queue 2 = true →
        let t := (s.wdogActed place asid queue 2).countCore place 16
        (t.procsAt place).filter (fun e => e.2.kind == .normal && e.2.asid == asid && e.2.prioBase == queue &&
          (e.2.held || e.2.run == .ready)) = [(k, p)] →
        exec (.watchdogT2 place asid queue) s = .next
          (t.endProc k .killed (some (faultWords 0x16 1 4 false (handleOf k p.gen) 0 p.pc (t.timebOf (devOf place)) p.pstat p.round p.tstat)) false)) ∧
      (wdogDue s place asid queue 3 = true →
        let t := (s.wdogActed place asid queue 3).modCore place fun c => { c with fenced := sadd c.fenced asid }
        let u := (t.procsAt place).foldl (fun s e =>
          if e.2.asid = asid then ((s.modProc e.1 fun p => { p with stall := none }).parkIn e.1).preempted e.1 0 else s) t
        exec (.watchdogT3 place asid queue) s = .next
          (u.faultToSpace place asid (faultWords 0x16 2 4 false 0 0 (BitVec.ofNat 64 (coreOf place)) (u.timebOf (devOf place)) 0 0 0))) ∧
      (wdogDue s place asid queue 1 = false → exec (.watchdogT1 place asid queue) s = .next s) ∧
      (wdogDue s place asid queue 2 = false → exec (.watchdogT2 place asid queue) s = .next s) ∧
      (wdogDue s place asid queue 3 = false → exec (.watchdogT3 place asid queue) s = .next s))

/-- R152, R155, R297, R308, R309, R311, R337, R142: the steps about tasks and calls. -/
def Obligations.TasksAndCalls : Prop :=
  ∀ (s : State) (n src dst pl : Nat) (own : Option Own),
    let arrives (b : Body) : Prop := s.arriving n = some { src := src, dst := dst, own := own, body := b }
    let t := s.took n
    (∀ (c : Child) (o : Own) (u : State),
      (∀ h, arrives (.childCreate pl c o) → t.create pl c = (u, some h) →
        exec (.childCreation n) s = .next (u.post pl (placeOf o.p) none (.fill (spawnFill o (spawnReg u o) 0 h)))) ∧
      (arrives (.childCreate pl c o) → t.create pl c = (u, none) → exec (.childCreation n) s = .next (u.spawnNext pl c o)) ∧
      (∀ h, arrives (.stealTask pl c o) → t.create pl c = (u, some h) →
        exec (.stealArrival n) s = .next
          (let w := (u.countCore pl 13).countCore (c.victim.getD pl) 12
           w.post pl (placeOf o.p) none (.fill (spawnFill o (spawnReg w o) 0 h)))) ∧
      (arrives (.stealTask pl c o) → t.create pl c = (u, none) →
        exec (.stealArrival n) s = .next (u.post pl (placeOf o.p) none (.stealBack (placeOf o.p) c o))) ∧
      (arrives (.stealBack pl c o) →
        exec (.stealReturned n) s = .next ((t.countCore pl 15).spawnNext pl { c with victim := none } o))) ∧
    (∀ (p : Proc) (k : Nat) (parent : Word) (j kind : Nat) (x : Join), arrives (.childEnd parent j kind) → t.byHandle parent = some (k, p) →
      p.spilled = none → p.wait = none → p.joins[j]? = some x →
      exec (.childEnd n) s = .next (t.setProc k { p with
        joins := p.joins.setIfInBounds j
          { count := x.count - 1, canc := if kind = 1 then satInc x.canc else x.canc, flt := if kind = 2 then satInc x.flt else x.flt } })) ∧
    (let c := s.core pl
     let ring := if c.stealTried < 7 then shedRing (coreOf pl) else dieRing (coreOf pl)
     let last := if c.stealTried < 7 then c.stealVictim else c.stealDie
     ∀ v, c.stealOut = none → c.idle = true → c.idleSince.getD 0 + 1000 ≤ s.timeb → coreOf pl < 768 → nextVictim ring last = some v →
      (s.core (devOf pl * 1024 + v)).mailbox.length < 8 →
      exec (.stealRequest pl) s = .next
        ((s.setCore pl { c with
            stealTried := if 191 ≤ c.stealTried + 1 then 0 else c.stealTried + 1
            stealVictim := if c.stealTried < 7 then v else c.stealVictim, stealDie := if c.stealTried < 7 then c.stealDie else v
            stealOut := some (devOf pl * 1024 + v, s.timeb + 10000) }).modCore (devOf pl * 1024 + v)
          fun x => { x with mailbox := x.mailbox ++ [{ thief := pl, expires := s.timeb + 10000 }] })) ∧
    exec (.stealExpiry pl) s = .next
      (((s.core pl).mailbox.filter fun r => decide (r.expires ≤ s.timeb)).foldl
        (fun s r => (s.countCore r.thief 14).modCore r.thief fun c => { c with stealOut := none })
        (s.modCore pl fun c => { c with mailbox := c.mailbox.filter fun r => decide (s.timeb < r.expires) })) ∧
    exec (.exitRetainTimeout pl) s = .next
      (((s.core pl).retained.filter fun r => decide (r.upTo < s.timeb)).foldl (fun s r => s.zero (scratchGa pl r.base) (2 ^ r.log))
        (s.modCore pl fun c => { c with retained := c.retained.filter fun r => decide (s.timeb ≤ r.upTo) })) ∧
    (∀ (c : Call) (k : Nat) (p : Proc) (rest : List Call),
      (arrives (.inbox pl c) → inService t (devOf pl) 0 (coreOf pl) = true →
        (reserved t pl c.asid .inbox).isSome = true → inboxLoad t pl c.asid < 64 →
        exec (.inboxMessage n) s = .next
          ((t.modCore pl fun x => { x with inbox := mset x.inbox c.asid ((mget x.inbox c.asid).getD [] ++ [c]) }).post pl (placeOf c.p) none
            (.fill (endFill c.p c.gen (statusWord 0 0))))) ∧
      (mget (s.core pl).inbox c.asid = some (c :: rest) → reserved s pl c.asid .inbox = some (k, p) → p.serving = none → p.run ≠ .halted →
        exec (.handlerDispatch pl c.asid) s = .next
          (let u := s.modCore pl fun x => { x with inbox := if rest.isEmpty then mdel x.inbox c.asid else mset x.inbox c.asid rest }
           u.startRoutine k p (p.asRoutine c (c.words.headD 0) (c.words.drop 1) (wordsV c.words)
             ((mget (u.core pl).inboxPrio c.asid).getD 6)))) ∧
      (arrives (.deleg pl c) → coreClosed t pl c.asid = false → ((mget (t.core pl).delegs c.asid).getD []).length < 64 →
        exec (.delegRequest n) s = .next
          (t.modCore pl fun x => { x with delegs := mset x.delegs c.asid ((mget (t.core pl).delegs c.asid).getD [] ++ [c]) })) ∧
      (let u := s.reserve pl c.asid .deleg
       let w (i : Nat) : Word := c.words.getD i 0
       mget (s.core pl).delegs c.asid = some (c :: rest) → reserved u pl c.asid .deleg = some (k, p) → p.serving = none → p.run ≠ .halted →
       exec (.delegRoutineStart pl c.asid) s = .next
         ((u.modCore pl fun x => { x with delegs := if rest.isEmpty then mdel x.delegs c.asid else mset x.delegs c.asid rest }).startRoutine k p
           (p.asRoutine c (w 1) [w 0, handleOf c.p c.gen, 0, w 2, w 3, w 4, w 5] 0 c.prio))))

/-- R212, R225, R228, R265 to R270, R329, R356, R358, R375 to R384: the steps of the engines; the order in a search unit is
log 19. -/
def Obligations.EngineSteps : Prop :=
  ∀ (s : State) (n src dst : Nat) (own : Option Own),
    let arrives (b : Body) : Prop := s.arriving n = some { src := src, dst := dst, own := own, body := b }
    let t := s.took n
    (∀ (sh c i credit code : Nat) (h : Head), (s.shed sh).busy = none → arbiter s sh = some (c, h, credit) →
      let set (used : Nat) : State := s.setShed sh { s.shed sh with ptr := c, credit := credit + used }
      (h = .kstep i → exec (.matrixStepGrant sh) s = .next ((set 1).grantStep sh c i)) ∧
      (h = .perform → exec (.matrixStepGrant sh) s = .next ((set 1).performHead sh c)) ∧
      (h = .fails code → exec (.matrixStepGrant sh) s = .next ((set 0).failHead sh c code))) ∧
    (∀ (sh c i : Nat) (x : Node), (s.shed sh).busy = some (c, i) → s.node (shedPlace sh c) i = some x →
      let pl := shedPlace sh c
      let u := (((s.setShed sh { s.shed sh with busy := none }).popEntry (ringPlace pl (field x.cmd 12 5)) (ringNo (field x.cmd 12 5))).popEntry
        (ringPlace pl (field x.cmd 17 5)) (ringNo (field x.cmd 17 5))).setNode pl i { x with steps := x.steps + 1 }
      (x.steps + 1 < field x.cmd 24 16 → exec (.kstepRetire sh) s = .next u) ∧
      (field x.cmd 24 16 ≤ x.steps + 1 → exec (.kstepRetire sh) s = .next
        ((u.setShed sh ((u.shed sh).pop c)).post (agentPart sh) pl none (.nodeDone pl i x.gen 0 x.drop)))) ∧
    (∀ (unit : Nat) (q : Query) (rest : List Query) (x : Node) (d : QueryInfo),
      let b := s.base unit
      let vec := vectorEls d.ty (NumMode.ofWord x.numctl).nan1 d.dim (x.data.drop 384)
      let z₀ := q.run.getD (Seek.start (queryEntries d q.shard q.whole))
      b.out ≠ some 0 → b.queries = q :: rest → s.node q.place q.node = some x → queryData x.data = some d →
      (∀ code fid, z₀.ending = some (code, fid) → exec (.searchQueryStart unit) s = .next
        ((s.setBase unit { b with queries := rest, out := b.out.map (· - 1) }).post (searchAgent unit) q.place none
          (.report { place := q.place, node := q.node, ngen := q.ngen, shard := q.shard, res := z₀.res, code := code
                     forgets := z₀.forgets, badIds := z₀.badIds, visited := z₀.count, faultId := fid, drop := z₀.drop || vec.2 }))) ∧
      (∀ g z u, z₀.ending = none →
        z₀.next s { pl := q.place, asid := x.asid, smode := x.smode, nan1 := (NumMode.ofWord x.numctl).nan1 } d vec.1
          (fun v => q.whole || (shardOf d v).any fun y => y.1 == q.shard) = (g, z) →
        s.gathered (searchAgent unit) q.place x.asid g = .ok u →
        exec (.searchQueryStart unit) s = .next (u.setBase unit { b with queries := { q with run := some z } :: rest }))) ∧
    (∀ (r : Report) (m : Merge) (x : Node) (d : QueryInfo), arrives (.report r) → mget t.merges (mergeKey r.place r.node) = some m →
      t.node r.place r.node = some x → x.gen = r.ngen →
      (1 < m.left → exec (.shardReport n) s = .next
        { t with merges := mset t.merges (mergeKey r.place r.node) { left := m.left - 1, reports := m.reports ++ [r] } }) ∧
      (m.left ≤ 1 → queryData x.data = some d → exec (.shardReport n) s = .next
        (let z := mergeReports d (m.reports ++ [r])
         (({ t with merges := mdel t.merges (mergeKey r.place r.node) }).setNode r.place r.node
           { x with status := z.1, drop := x.drop || z.2.2 }).post (agentSend x.chan) (agentChan x.chan) none
            (.winPush { chan := x.chan, off := d.doff, bytes := z.2.1, need := d.doff + 8 * d.k + 16
                        stamp := x.stamp.map fun v => (v, d.doff + 8 * d.k + 8), halo := none
                        node := some (r.place, nodeId r.node r.ngen), waiter := none })))) ∧
    (∀ (unit ga : Nat) (leaf : Word) (j : BredJob) (rest : List BredJob) (u : State),
      let va (off : Int) : Word := j.dest + BitVec.ofInt 64 (64 * off) + BitVec.ofNat 64 (64 * j.chunk)
      let sends (f : Engine → Body) (which : Nat) (j' : BredJob) : State :=
        (u.post (bredAgent unit) (agentHome (homeFor u j.place ga)) none (f (.bred unit j.place j.node which))).setJob unit j.place j.node
          (some j')
      (s.base unit).bredOut = none → (s.base unit).jobs = j :: rest → j.writes = 0 → j.asked = false → j.chunk < j.chunks →
      (j.got.length < j.nsrc →
        xlateFor s j.place j.asid j.smode (va (j.offs.getD j.got.length 0)) .read = (u, .ok ga leaf) →
        exec (.bredChunk unit) s = .next (sends (fun e => .eread ga 64 (leafPois leaf) e) j.got.length { j with asked := true })) ∧
      (j.nsrc ≤ j.got.length → xlateFor s j.place j.asid j.smode (va 0) .write = (u, .ok ga leaf) →
        exec (.bredChunk unit) s = .next
          (sends (fun e => .ewrite ga (bredChunkBytes j) (leafPois leaf) e) 0 { j with got := [], writes := 1 }))) ∧
    (∀ (ga sz unit pl i which : Nat) (bs : List Byte) (j : BredJob) (s₁ : State),
      let r := (s₁.took n).recall (ga / 64)
      jobOf r unit pl i = some j → r.bad ga = false → sealedFrom r ga (some j.asid) = false →
      (arrives (.eread ga sz false (.bred unit pl i which)) → s.charge ga sz = some s₁ →
        exec (.portEread n) s = .next
          (r.setJob unit pl i (some { j with got := j.got ++ [(which, memBytes r.mem ga sz)], asked := false }))) ∧
      (arrives (.ewrite ga bs false (.bred unit pl i which)) → s.charge ga bs.length = some s₁ →
        let w := ((r.putBytes ga bs).fillWords ga bs.length).wrote r ga bs.length
        jobOf w unit pl i = some j →
        (which = 0 → exec (.portEwrite n) s = .next (w.setJob unit pl i (some { j with chunk := j.chunk + 1, writes := 0 }))) ∧
        (which ≠ 0 → exec (.portEwrite n) s = .next (w.endBred unit j 0)))) ∧
    (∀ (c : ChainPkt) (off mask : Word) (rest : List (Word × Word)) (ga : Nat) (leaf : Word) (t₁ t₂ : State),
      let x := c.v + off
      let home := dst - agentHome 0
      let r := t₂.recall (ga / 64)
      let v : Word := BitVec.ofNat 64 (memNat r.mem ga 8) &&& mask
      arrives (.chain c) → c.steps = (off, mask) :: rest → x.toNat % 8 = 0 →
      portXlate t home (portPlace home) c.asid c.smode x .read = (t₁, .ok ga leaf) → InDevice ga → t₁.charge ga 8 = some t₂ →
      leafPois leaf = false → r.bad ga = false → sealedFrom r ga (some c.asid) = false →
      (rest = [] → exec (.portChain n) s = .next (r.post dst (placeOf c.p) none (.chainBack c 0 0 v))) ∧
      ∀ t₃ h, rest ≠ [] →
        let c' := { c with v := v, i := c.i + 1, steps := rest }
        chainHome r (portPlace home) c' = (t₃, some h) →
        exec (.portChain n) s = .next (t₃.post dst h
          (some { p := c.p, gen := c.gen, acq := false, rel := false, asid := c.asid, smode := c.smode }) (.chain c'))) ∧
    (∀ (c : ChainPkt) (status faddr val : Word) (p : Proc), arrives (.chainBack c status faddr val) → t.byOwn c.p c.gen = some p →
      exec (.chainReturn n) s = .next
        ((((t.spadPut c.p p (c.desc + 8) (leBytes 8 status.toNat)).spadPut c.p p (c.desc + 16) (leBytes 8 faddr.toNat)).testMonS
          (placeOf c.p)).applyFill dst { (endFill c.p c.gen 0) with writes := [.g c.reg val], ends := none })) ∧
    (∀ (place c k gen : Nat) (x : Chan) (i : Item) (q : List Entry),
      firstRequest s place = some (c, x) → x.q = .item i :: q → (s.server place).queue.length < 128 → i.sender = some (k, gen) →
      exec (.memoryServerRequest place) s = .next
        (((s.setChan c { x with q := q, nextr := x.nextr + 1 }).token c x).takeRequest place k gen i.words)) ∧
    (∀ (place : Nat) (r : ServerReq) (q : PushReq),
      let x := t.server place
      arrives (.serverPush place) → (s.server place).pick = some r → pushReq r.words = some q →
      (∀ (p : Proc) (c : Nat), r.stamp = none → t.byOwn r.p r.gen = some p → pushWindow t place r.p q = some c →
        exec (.portPush n) s = .next
          (((t.drawStamp c).1.setServer place { x with
            queue := x.queue.replace r { r with stamp := some (t.drawStamp c).2, chan := c, asid := p.asid, smode := p.smode } }).serveMore
              place)) ∧
      (∀ (v : Nat) (g : Gathered) (t₁ u : State),
        let data := r.data ++ g.bytes
        r.stamp = some v →
        portWords t (devOf place * 2048 + coreOf place) place r.asid r.smode (q.va + BitVec.ofNat 64 r.data.length)
          (Min.min 8 ((q.len - r.data.length) / 8)) = (t₁, some g) → t₁.gathered (serverAgent place) place r.asid g = .ok u →
        g.fault = none →
        (data.length < q.len → exec (.portPush n) s = .next
          ((u.setServer place { queue := (u.server place).queue.replace r { r with data := data }, turn := r.p + 1 }).serveMore place)) ∧
        (q.len ≤ data.length → exec (.portPush n) s = .next
          (((u.setServer place { queue := (u.server place).queue.erase r, turn := r.p + 1 }).post (agentSend r.chan) (agentChan r.chan) none
            (.winPush { chan := r.chan, off := q.doff, bytes := exactly q.len data ++ leBytes 8 0, need := q.doff + q.len + 16
                        stamp := some (v, q.doff + q.len + 8), halo := none, node := none, waiter := none })).serveMore place)))) ∧
    (∀ (page : Nat) (m : Migration),
      let at_ (p : Nat) : Nat := p * 65536 + 64 * m.next
      let dev := page * 65536 / 2 ^ 44
      (∀ s₁, arrives (.migrate page) → mget s.migrations page = some m → s.charge (at_ m.new) 64 = some s₁ →
        readWaits t (agentHome (homeOf (at_ page))) (at_ page) 64 = false →
        exec (.portMigrate n) s = .next
          (let u := (s₁.took n).copyLine (at_ page) (at_ m.new)
           let u := { u with migrations := mset u.migrations page { m with next := m.next + 1 } }
           if m.next + 1 < 1024 then u.sendLine page { m with next := m.next + 1 } else u)) ∧
      (∀ ga,
        let t := s.invalidate dev m.asid (some m.va)
        let u := { t with migrations := mdel t.migrations page }
        mget s.migrations page = some m → 1024 ≤ m.next → spaceBusy t dev m.asid = false →
        spaceEntry u dev m.asid m.va 4 = some ga →
        exec (.migrationSwitch page) s = .next
          ((((u.putBytes ga (leBytes 8 (field (BitVec.ofNat 64 (readNat u ga 8)) 0 13 + m.new * 65536 % 2 ^ 44))).moveParked page
            m.new).giveBack m.asid (page * 65536) 65536).reply (keyDev m.svc.p * 1024 + 768 + coreDie (coreOf (placeOf m.svc.p))) m.svc 0 0))) ∧
    (∀ home seg, seg < 16 → home % 2048 < 772 →
      let u := s.count (home / 2048) 2 (home % 2048) 5 1
      exec (.remapReload home seg true) s = .next (u.modHome home fun x =>
        { x with
          badSegs := sdel x.badSegs seg, badCrc := sdel x.badCrc seg
          remap := (x.shadow.filter fun e => e.1 / 64 == seg).foldl (fun m e =>
            mset m e.1 { row := e.2.1, spare := e.2.2, wrong := 0 }) (x.remap.filter fun e => e.1 / 64 != seg) }) ∧
      exec (.remapReload home seg false) s = .next
        (let w := u.failPort (home / 2048) (home % 2048)
         w.serve home (fun _ => true) ((w.home home).parked.length + 1)) ∧
      (u.failPort (home / 2048) (home % 2048)).home home = { u.home home with failed := true, badSegs := [] })

/-- R423 to R429, R444: the steps of link ports; the lanes of a port that comes up are log 33, the flits of what is no channel
entry log 98. -/
def Obligations.LinkPorts : Prop :=
  (∀ (s : State) (dev port pd pp : Nat) (e : LinkEntry) (q : List LinkEntry),
    let l := dev * 16 + port
    let m := pd * 16 + pp
    let ups : Prop := (s.link l).peer = some (pd, pp) ∧ (s.link l).up = true ∧ (s.link m).up = true
    let arrives (crc tag : Bool) (t : State) : Prop := exec (.flitArrival dev port crc tag) s = .next t
    (ups → (s.link l).replay = [] → nextEntry s m = some e →
      let one : LinkEntry := { e with left := e.left - 1, tries := 0, sentAt := some s.timeb }
      let last : State :=
        let u := s.unlink m e
        let u := u.setLink m { u.link m with replay := (u.link m).replay ++ [one] }
        if e.toKey = dev then { u with net := comeIn e u.net } else u.enqLink dev e
      let bad : Prop := e.left ≤ 1 ∧ e.toKey = dev ∧ isSealed s e.msg = true
      (∀ tag, tag = true ∨ ¬ bad → (1 < e.left → arrives true tag (s.setEntry m one)) ∧ (e.left ≤ 1 → arrives true tag last)) ∧
      (bad → arrives true false ((s.count dev 5 port 5 1).resend m e)) ∧
      ∀ tag, arrives false tag (s.resend m e)) ∧
    (ups → (s.link l).replay = e :: q → e.ackLost = false →
      ∀ tag, arrives true tag (s.setLink l { s.link l with replay := q }) ∧
        arrives false tag (s.setLink l { s.link l with replay := { e with ackLost := true } :: q })) ∧
    (let again (e : LinkEntry) : LinkEntry := { e with tries := e.tries + 1, sentAt := some s.timeb }
     let counted (t : State) : State :=
       if 15 ≤ e.tries then (t.count dev 5 port 1 1).count dev 5 port 2 1 else t.count dev 5 port 1 1
     let times (t : State) : Prop := exec (.flitAckTimeout dev port) s = .next t
     port < 16 → (s.link l).up = true → e.sentAt.getD e.queuedAt + 2000 ≤ s.timeb →
      ((s.link l).replay = [] → nextEntry s l = some e →
        (e.item = false ∨ e.tries < 15 → times (counted (s.setEntry l (again e)))) ∧
        (e.item = true → 15 ≤ e.tries → times (s.giveUp l e))) ∧
      ((s.link l).replay = e :: q →
        (e.item = false ∨ e.tries < 15 →
          times (counted (s.setLink l { s.link l with replay := { again e with ackLost := false } :: q }))) ∧
        (e.item = true → 15 ≤ e.tries → times (s.giveUpKept l e)))) ∧
    (ups → (s.link m).queue = e :: q → onLinks s e.msg.src e.msg.dst (e.id - 1) = false →
      (∃ c n, e.msg.body = .offer c (.lost n)) →
      exec (.lostEntry dev port) s = .next
        (let u := s.unlink m e
         if e.toKey = dev then { u with net := comeIn e u.net } else u.enqLink dev e)) ∧
    ((s.link l).queue = e :: q → e.item = true → pathGone s dev e.toKey = true →
      exec (.pathGiveUp dev port) s = .next (s.giveUp l e)) ∧
    (∀ a b, (a, b) ∈ [(8, 6), (6, 4), (4, 2)] → (s.link l).lanes = a →
      exec (.laneSpare dev port) s = .next ((s.setLink l { s.link l with lanes := b }).count dev 5 port 3 1)) ∧
    exec (.laneRetrain dev port) s = .next (s.count dev 5 port 4 1) ∧
    ((s.link l).up = true →
      exec (.portDown dev port) s = .next (((s.setLink l { s.link l with up := false, downAt := s.timeb }).repath dev).signal dev 5)) ∧
    ((s.link l).up = false → (s.link l).peer = some (pd, pp) → inService s dev 5 port = true →
      exec (.linkPortUp dev port) s = .next (((s.setLink l { s.link l with up := true, lanes := 8 }).repath dev).signal dev 5)))

/-- R433, R434, R452: the steps of collective units, and the agreement of sessions; the cryptography is log 7, the challenges
log 20. -/
def Obligations.Collectives : Prop :=
  (∀ (s : State) (b c₀ c₁ c₂ : Nat) (x : Coll) (y₀ y₁ y₂ : Chan) (i j : Item) (q₀ q₁ : List Entry), mget s.colls b = some x →
    x.stopped = false → x.at_ s 0 = some (c₀, y₀) → x.at_ s 1 = some (c₁, y₁) → x.at_ s 2 = some (c₂, y₂) → y₂.credit ≠ 0 →
    y₀.q = .item i :: q₀ →
    (x.fanout = false → x.head = false → x.discard = none → y₁.q = .item j :: q₁ →
      exec (.reduceStep b) s = .next
        (((s.collSend c₂ y₂ (.item i) (collSum x.ety (itemBytes s y₀ i) (itemBytes s y₁ j))).consume c₀).consume c₁)) ∧
    (x.fanout = true → x.nout = 1 →
      exec (.fanoutStep b) s = .next ((s.collSend c₂ y₂ (.item i) (itemBytes s y₀ i)).consume c₀))) ∧
  (∀ (s : State) (asid a b : Nat), a < b →
    let x := s.space asid
    let key (d : Nat) : Nat := x.keyId * 4096 + d
    let challenge (d : Nat) : List Byte := leBytes 32 (Config.freeWord (s.free + d)).toNat
    let report (d e : Nat) : List Byte := attestReport s d (some asid) (challenge e) (sessionPublic (key d))
    (∀ y ∈ s.sessions, ¬ (y.asid = asid ∧ y.devA = a ∧ y.devB = b)) →
      exec (.sessionAgreement asid a b) s = .next (if canAgree s x a b then
        { s with
          free := s.free + 4096
          sessions := s.sessions ++ [{ asid := asid, devA := a, devB := b, nonce := 0
                                       key := exactly 32 (sha512 (x25519 (exactly 32 (Config.sessionKey (key a))) (sessionPublic (key b)) ++
                                         report a b ++ report b a)) }] }
        else s))

/-- R453 and the rules it names: the requests of supervisors (log 62); R288: the move of a process. -/
def Obligations.SupervisorRequests : Prop :=
  ∀ (s : State) (n pl : Nat) (v : Svc) (p : Proc) (s' : State),
    let asks (op : Nat) : Prop := Asks s n op s' pl v p
    let dev := devOf pl
    let arg (i : Nat) : Word := v.args.getD (i - 1) 0
    let num (i : Nat) : Nat := (arg i).toNat
    let core := dev * 1024 + num 2
    let space := s'.space p.asid
    (asks 0x0101 → spaceBusy s dev p.asid = false → num 2 % 8192 = 0 → num 2 < 0x0C000000000 →
      exec (.root n) s = .next
        (((s'.setSpace p.asid { space with roots := mset space.roots dev (num 2) }).invalidate dev p.asid none).reply pl v 0 0)) ∧
    (asks 0x0103 → num 2 < 768 → num 3 % 65536 = 0 → num 4 ≤ 4064 → num 4 % 16 = 0 →
      (∀ e ∈ s'.procsAt core, e.2.asid = p.asid → e.2.spilled = none) →
      exec (.ovring n) s = .next ((s'.modCore core fun x => { x with ovring := mset x.ovring p.asid (arg 3, num 4) }).reply pl v 0 0)) ∧
    (∀ u, asks 0x0105 → num 2 < 768 → mget (s'.core core).unitPool p.asid = none → 0 < num 3 → num 3 ≤ 4096 →
      s'.growPool core p.asid (num 3) = some u → exec (.unitpool n) s = .next (u.reply pl v 0 0)) ∧
    (∀ b, asks 0x0104 → num 2 < space.types.length → fetchBytes s' pl p.asid true (arg 3) 64 = b → b.fault = none →
      typeValid (BitVec.ofNat 512 (leNat b.bytes)) = true →
      exec (.ttset n) s = .next (((s'.firmFetched pl p.asid b).setSpace p.asid
        { space with types := listSet space.types (num 2) (BitVec.ofNat 512 (leNat b.bytes)) }).reply pl v 0 0)) ∧
    (asks 0x0206 → num 2 < 768 → num 3 ≤ 11 →
      let u := s'.modCore core fun x => { x with inboxPrio := mset x.inboxPrio p.asid (num 3) }
      (reserved u core p.asid .inbox = none → exec (.inbox n) s = .next (u.reply pl v 0 0)) ∧
      (∀ e, reserved u core p.asid .inbox = some e → exec (.inbox n) s = .next ((u.reprioritise e.1 (num 3)).reply pl v 0 0))) ∧
    (asks 0x0207 → num 2 < 768 → (s'.core core).fenced.contains p.asid = true → s'.procsAt core = [] →
      exec (.unfence n) s = .next ((s'.modCore core fun x => { x with fenced := sdel x.fenced p.asid }).reply pl v 0 0)) ∧
    (∀ (k : Nat) (q : Proc), s'.byHandle (arg 2) = some (k, q) → q.asid = p.asid →
      let rec_ (target : Option Nat) (edge : Bool) : State := s'.setProc k
        { q with sup := q.sup ++ [{ p := v.p, gen := v.gen, target := target, edge := edge, halted := false, stay := false }] }
      (asks 0x0201 → num 3 < 768 → num 3 ≠ coreOf (placeOf k) → num 4 < 2 → tied s' k q = false →
        exec (.processMove n) s = .next (rec_ (some (num 3)) (arg 4 == 1))) ∧
      (asks 0x0202 → num 3 < 2 → tied s' k q = false →
        exec (.halt n) s = .next (if num 3 = 1 then rec_ none true else (rec_ none false).haltFor k fun r => r.target.isNone && !r.edge)) ∧
      (asks 0x0203 → resumable q = true → exec (.resume n) s = .next ((s'.resume k).reply pl v 0 0)) ∧
      (asks 0x0203 → resumable q = false → exec (.resume n) s = .next (s'.reply pl v 7 0)) ∧
      (asks 0x0204 → exec (.kill n) s = .next ((s'.endProc k .killed none false).reply pl v 0 0)) ∧
      (asks 0x0205 → s'.live k = some q →
        exec (.signal n) s = .next (if q.pstat.getLsbD 25 then s'.reply pl v 6 0
          else ((s'.modLive k fun q => { q with sigVal := arg 3 }).setEvent k 25).reply pl v 0 0))) ∧
    (s'.byHandle (arg 2) = none →
      (asks 0x0201 → exec (.processMove n) s = .next (s'.reply pl v 4 0)) ∧ (asks 0x0202 → exec (.halt n) s = .next (s'.reply pl v 4 0)) ∧
      (asks 0x0203 → exec (.resume n) s = .next (s'.reply pl v 4 0)) ∧ (asks 0x0204 → exec (.kill n) s = .next (s'.reply pl v 4 0)) ∧
      (asks 0x0205 → exec (.signal n) s = .next (s'.reply pl v 4 0))) ∧
    (∀ e : TlbEntry,
      let u := s'.firmWalked pl p.asid (arg 2)
      asks 0x0102 → walk s' pl p.asid (arg 2) = .ok e → e.bits = 16 → num 3 % 65536 = 0 → pageGranted u dev p.asid (num 3) = true →
      let page := gaOf dev (e.pa (arg 2)) / 65536
      let m : Migration := { new := gaOf dev (num 3) / 65536, next := 0, asid := p.asid, va := arg 2, svc := v }
      mget u.migrations page = none →
      exec (.migrate n) s = .next ({ u with migrations := mset u.migrations page m }.sendLine page m)) ∧
    (∀ u x, asks 0x0401 → s'.readCounter dev (arg 2) = some (u, x) → exec (.counter n) s = .next (u.reply pl v 0 x)) ∧
    (∀ b u, asks 0x0402 → fetchBytes s' pl p.asid true (arg 2) 32 = b → b.fault = none →
      (s'.firmFetched pl p.asid b).putRange pl p.asid (arg 3)
        (attestReport (s'.firmFetched pl p.asid b) dev (some p.asid) b.bytes []) = (u, true) →
      exec (.attest n) s = .next (u.reply pl v 0 0)) ∧
    (∀ b x, bindingKey (arg 2) = some b → b / 512 = dev →
      (asks 0x0301 → collConfig p.asid (arg 3) = some x → mget s'.colls b = none →
        exec (.collectiveConfigure n) s = .next (({ s' with colls := mset s'.colls b x } : State).reply pl v 0 0)) ∧
      (asks 0x0302 → mget s'.colls b = some x → x.asid = p.asid → x.roles = [] → arg 3 = 0 →
        exec (.collectiveRelease n) s = .next (({ s' with colls := mdel s'.colls b } : State).reply pl v 0 0))) ∧
    (∀ k, exec (.moveHalt k) s = .next (s.haltFor k fun r => r.target.isSome && !r.edge)) ∧
    (∀ (k t there e base usa : Nat) (q : Proc) (r : SupReq) (u : State) (ring : Option Nat),
      let here := placeOf k
      s.live k = some q → q.sup.find? (fun r => r.halted && r.target.isSome) = some r → r.gen ≠ 0 → r.target = some t →
      (s.core here).redLines = [] → tied s k q = false → drained s k q r = true →
      s.moveTo q ((nodesOf s k q.gen).map (·.1)) r.stay [devOf here * 1024 + t] = (u, some (there, e, base, usa, ring)) →
      exec (.moveCopy k) s = .next
        (let w := ((u.reserve there q.asid .inbox).reserve there q.asid .deleg).relocate k q there e base usa ring r
         (w.1.tell here (r.after k q.gen w.2.1 w.2.2) 0 (handleOf w.2.1 w.2.2)).progress (devOf here)))

/-- R435 to R458: the host's side of a device. The grants of a launch are log 18, what a power-down loses log 37, the
operations of SERVICE log 74, BELL read as 0 log 114. -/
def Obligations.HostRequests : Prop :=
  ∀ (s : State) (dev win : Nat) (tag : BitVec 16) (s' : State) (r : List Word),
    let key := dev * 4 + win
    let arg (i : Nat) : Word := r.getD i 0
    let num (i : Nat) : Nat := (arg i).toNat
    let rings (op : Nat) : Prop := Rings s dev win tag op s' r
    (∀ (asid : Nat), rings 0x0001 →
      let l := launchBlock s' dev (num 1)
      let no (st reason off by_ : Nat) : State :=
        (s'.respond key st [0, BitVec.ofNat 64 reason, BitVec.ofNat 64 off, BitVec.ofNat 64 by_]).signal dev 4
      freeAsid s' = some asid →
      (∀ u slices, firstBad (l.checks ++ imageChecks l asid) = none → unreachableDev s' l dev = none →
        grantSlices s' l.devs = .ok slices → s'.loadAll l dev asid slices = .ok u →
        exec (.launch dev win tag) s = .next (u.respond key 0 [BitVec.ofNat 64 asid])) ∧
      (∀ reason off, firstBad (l.checks ++ imageChecks l asid) = some (reason, off) →
        exec (.launch dev win tag) s =
          .next (no (if reason = 8 then 6 else if reason = 9 then 4 else 7) reason off (rejecter l asid dev reason off))) ∧
      (∀ d, firstBad (l.checks ++ imageChecks l asid) = none → unreachableDev s' l dev = some d →
        exec (.launch dev win tag) s = .next (no 4 9 0 d)) ∧
      (∀ d, firstBad (l.checks ++ imageChecks l asid) = none → unreachableDev s' l dev = none → grantSlices s' l.devs = .error d →
        exec (.launch dev win tag) s = .next (no 6 8 0 d))) ∧
    (let w := arg 1
     rings 0x0002 → field w 24 40 = 0 → 1 ≤ field w 12 4 → field w 12 4 ≤ 12 → (field w 16 6 = 0 ∨ 16 ≤ field w 16 6) →
     num 2 % 4096 = 0 → num 3 = 0 → mget s'.hostEps (dev * 1024 + field w 0 10) = none →
     exec (.endpoint dev win tag) s = .next (({ s' with
        hostEps := mset s'.hostEps (dev * 1024 + field w 0 10)
          { toHost := w.getLsbD 10, isMsg := w.getLsbD 11, logs := field w 12 4, vec := field w 16 6, sc := field w 22 2, base := num 2
            chan := none, pend := [], acks := [] } } : State).respond key 0 [])) ∧
    (∀ (k : Nat) (p : Proc) (e : Door) (x : Chan) (h : Holder), rings 0x0003 → s'.byHandle (arg 1) = some (k, p) → num 2 < 64 →
      (s'.space p.asid).sealed = false → mget p.doors (num 2) = some e → mget s'.chans e.chan = some x →
      bindHolder s' (dev * 2 ^ 22) p x e.isSend 1 (arg 3) 0 = .ok h →
      (isFaultChan s' e.chan = true → e.isSend = true →
        exec (.bind dev win tag) s = .next (((s'.moveFaultEnd k (num 2) h false e).chanEvent e.chan).respond key 0 [])) ∧
      (isFaultChan s' e.chan = false → (e.isSend = false → x.moving = false) → quietOf s' e.chan x e.isSend = .free →
        exec (.bind dev win tag) s = .next
          ((if e.isSend then s' else s'.modChan e.chan fun x => { x with moving := true }).post (placeOf k) (dev * 1024 + 768 + win) none
            (.recordCopy e.chan e.isSend h (num 2) false (hostOwner key))))) ∧
    (∀ ga, rings 0x0004 → (s'.space (num 1)).live = true → (s'.space (num 1)).sealed = false →
      2 ≤ num 4 → num 4 ≤ 4 → spaceEntry s' dev (num 1) (arg 2) (num 4) = some ga →
      let u := (s'.putWord (num 1) ga 0 (leBytes 8 (num 3))).invalidate dev (num 1) (some (arg 2))
      exec (.map dev win tag) s =
        .next (if spaceBusy u dev (num 1) then u.whenDrained dev (some key) (num 1) (some (arg 2)) else u.respond key 0 [])) ∧
    (let a := num 2
     rings 0x0005 → (a = 0xFFFF ∨ ((s'.space a).live = true ∧ (s'.space a).devices.contains dev = true)) →
     exec (.hostAttest dev win tag) s = .next ((s'.hostPut dev (num 3)
       (attestReport s' dev (if a = 0xFFFF then none else some a) (hostBytes s' dev (num 1) 32) [])).respond key 0 [])) ∧
    (∀ is, let b := hostBytes s' dev (num 1) (Min.min (num 2) (2 ^ 24 + 128))
     rings 0x0006 → carriesImage (num 3) = true → instances (num 3) (arg 4) = some is →
     exec (.stage dev win tag) s = .next (if imageValid s' dev (num 3) b then
       (is.foldl (fun s i => s.setPart dev (num 3) i ((s.part dev (num 3) i).setInactive b)) s').respond key 0 []
       else s'.respond key 7 [])) ∧
    (∀ is, rings 0x0007 → carriesImage (num 1) = true → instances (num 1) (arg 2) = some is →
     (num 1 = 10 → exec (.activate dev win tag) s = .next
       (let y := s'.activate dev 10 0 ((arg 3).getLsbD 0)
        y.1.respond key (if y.2 then 0 else 7) [])) ∧
     (num 1 ≠ 10 → (∀ i ∈ is, serviceFull s' dev (num 1) i true = false) →
       exec (.activate dev win tag) s = .next (s'.startService dev key (num 1) is true ((arg 3).getLsbD 0)))) ∧
    (rings 0x0008 → num 1 ≤ 7 → num 2 < kindCount (num 1) →
     (num 3 = 1 → num 1 ≠ 0 → serviceFull s' dev (num 1) (num 2) true = false →
       exec (.service dev win tag) s = .next (s'.startService dev key (num 1) [num 2] false false)) ∧
     (num 3 = 2 ∨ (num 1 = 2 ∧ (num 3 = 3 ∨ num 3 = 4)) → serviceFull s' dev (num 1) (num 2) false = false →
       exec (.service dev win tag) s = .next ((s'.putBack dev (num 1) (num 2)).respond key 0 []))) ∧
    (rings 0x0008 → num 3 = 1 → num 1 = 0 → num 2 < 768 → serviceFull s' dev 0 (num 2) true = false →
      exec (.service dev win tag) s = .next
        (if coreCanEmpty s' (dev * 1024 + num 2) then (s'.takeOutCore (dev * 1024 + num 2)).startService dev key 0 [num 2] false false
         else s'.respond key 6 [])) ∧
    (rings 0x0008 → num 3 = 3 → num 1 = 5 → num 2 < kindCount 5 → serviceFull s' dev 5 (num 2) false = false →
      exec (.service dev win tag) s = .next ((s'.countLink dev (num 2) 4).respond key 0 [])) ∧
    (∀ u x, rings 0x0009 → s'.readCounter dev (arg 1) = some (u, x) →
      exec (.hostCounter dev win tag) s = .next (u.respond key 0 [x])) ∧
    (rings 0x000A → (s'.space (num 1)).live = true →
      exec (.endSpace dev win tag) s = .next ((s'.killSpace (num 1)).whenDrained dev (some key) (num 1) none)) ∧
    (∀ (n src dst asid : Nat) (own : Option Own) (va : Word) (w : Option Nat),
      (s.arriving n = some { src := src, dst := dst, own := own, body := .drained w asid (some va) } → spaceBusy s (devOf dst) asid = false →
        exec (.fillArrival n) s = .next (((s.took n).dropLines (devOf dst) asid (some va)).respondTo w)) ∧
      (s.arriving n = some { src := src, dst := dst, own := own, body := .drained w asid none } → spaceLingers s asid = false →
        exec (.fillArrival n) s = .next ((((s.took n).eraseSpace asid).respondTo w).signal (devOf dst) 4))) ∧
    (∀ (bell : BitVec 16) (e : HostEp) (ep : Nat), win < 4 → (s.device dev).on = true →
      field ((s.window key).req.headD 0) 0 16 = 0x0010 → mget s.hostEps (dev * 1024 + bell.toNat % 1024) = some e → e.toHost = false →
      e.sc = win →
      exec (.endpointDoorbell dev win bell) s = .next (s.fromHost (dev * 1024 + bell.toNat % 1024) 4096) ∧
      exec (.toHostEndpointRoom dev ep) s = .next
        (((s.ackEndpoint (dev * 1024 + ep)).feedEndpoint (dev * 1024 + ep) 4096).ackEndpoint (dev * 1024 + ep))) ∧
    (∀ (off : Nat) (wr : Option (BitVec 64)), off < 2 ^ 43 → (s.device dev).on = true →
      let ga := gaOf dev (off % 2 ^ 41 / 8 * 8)
      (off % 2 ^ 41 < 0x0C000000000 ∨ (0x10000000000 ≤ off % 2 ^ 41 ∧ off % 2 ^ 41 < 0x20000000000) →
        exec (.hostMemAccess dev off wr) s = .next
          (s.post (dev * 1024 + 768 + servingDie s dev (off / 2 ^ 41)) (agentHome (homeOf ga)) none
            (.host ga 8 (wr.map fun x => leBytes 8 x.toNat) none false false))) ∧
      (0x0C000000000 ≤ off % 2 ^ 41 → off % 2 ^ 41 < 0x10000000000 →
        exec (.hostMemAccess dev off none) s = .next { s with hostData := BitVec.allOnes 64, hostPoison := false } ∧
        ∀ x, exec (.hostMemAccess dev off (some x)) s = .next s)) ∧
    (∀ (n src dst ga sz : Nat) (own : Option Own) (wr : Option (List Byte)) (t : Option (Target × Word)) (drop pois : Bool) (u : State),
      s.arriving n = some { src := src, dst := dst, own := own, body := .host ga sz wr t drop pois } → rangeOf (gaPa ga) ≠ .host →
      s.charge ga sz = some u →
      let v := u.took n
      let w := v.recall (ga / 64)
      (sealedPage v ga = true → wr = none →
        exec (.portHost n) s = .next { v.count (gaDev ga) 6 (coreOf src - 768) 1 1 with hostData := BitVec.allOnes 64, hostPoison := true }) ∧
      (sealedPage v ga = true → wr ≠ none → exec (.portHost n) s = .next (v.count (gaDev ga) 6 (coreOf src - 768) 1 1)) ∧
      (sealedPage v ga = false → w.bad ga = false →
        (wr = none → exec (.portHost n) s = .next { w with hostData := BitVec.ofNat 64 (memNat w.mem ga 8), hostPoison := false }) ∧
        ∀ bs, wr = some bs → exec (.portHost n) s = .next (((w.putBytes ga bs).putFull ga true).wrote w ga 8))) ∧
    (∀ (i : Nat) (x : BitVec 64), win < 4 → (s.device dev).on = true →
      (i < 8 → exec (.registerWrite dev (4096 * win + 8 * i) (some x)) s = .next
        (s.setWindow key { s.window key with req := listSet (s.window key).req i x })) ∧
      exec (.registerWrite dev (4096 * win + 0x88) (some x)) s = .next
        (s.setWindow key { s.window key with done := (s.window key).done && !x.getLsbD 1 }) ∧
      (8 ≤ i → i < 16 → exec (.registerWrite dev (4096 * win + 8 * i) (some x)) s = .next s) ∧
      (i < 8 → exec (.registerWrite dev (4096 * win + 8 * i) none) s =
        .next { s with hostData := (s.window key).req.getD i 0, hostPoison := false }) ∧
      (i < 8 → exec (.registerWrite dev (4096 * win + 0x40 + 8 * i) none) s =
        .next { s with hostData := (s.window key).rsp.getD i 0, hostPoison := false }) ∧
      exec (.registerWrite dev (4096 * win + 0x88) none) s = .next { s with
        hostData := BitVec.ofNat 64 ((if (s.window key).busy then 1 else 0) + (if (s.window key).done then 2 else 0)), hostPoison := false } ∧
      (i < 128 → exec (.registerWrite dev (0x8000 + 8 * i) none) s = .next
        { s with hostData := BitVec.ofNat 64 (leNat (((s.device dev).vectors.drop (8 * i)).take 8)), hostPoison := false }) ∧
      exec (.registerWrite dev 0x8400 none) s = .next { s with hostData := (s.device dev).msiPending, hostPoison := false } ∧
      (i = 16 ∨ (18 ≤ i ∧ i < 512) → exec (.registerWrite dev (4096 * win + 8 * i) none) s = .next { s with hostData := 0, hostPoison := false })) ∧
    (∀ home, exec (.portTakeoutComplete home) s = .next
      (((s.device (home / 2048)).services.filter fun v => v.kind == 2 && v.inst == home % 2048).foldl
        (fun s v => s.advanceService (home / 2048) v 800) s)) ∧
    ((s.device dev).on = false →
      let u := (s.setDevice dev { s.device dev with t0 := s.cycle }).bootPart dev 10 0
      exec (.powerOn dev) s = .next (if inService u dev 10 0 then
        (([7, 6, 2, 4, 3, 5] : List Nat).foldl (fun s kind =>
          (List.range (kindCount kind)).foldl (fun s i => s.bootPart dev kind i) s) u).bringUp dev
        else u)) ∧
    (∀ die, die < 4 → (s.device dev).on = true →
      (mget (s.device dev).hot die = none → exec (.throttle dev die) s = .next
        (s.setDevice dev { s.device dev with hot := mset (s.device dev).hot die s.timeb })) ∧
      (∀ t, mget (s.device dev).hot die = some t → exec (.throttleEnd dev die) s = .next
        ((s.setDevice dev { s.device dev with hot := mdel (s.device dev).hot die }).count dev 8 die 1 (s.timeb - t))) ∧
      exec (.overheatShutdown dev die) s = .next
        ((((s.spaces.filter fun (a : Nat × Space) => a.2.live && a.2.devices.contains dev).foldl (fun s a => s.shutSpace dev a.1) s).signal
          dev 4).powerDown dev))

/-- R109 to R120, R176 to R196: what the register instructions leave as it was. -/
def Obligations.RegisterFrame : Prop :=
  ∀ (a b c : BitVec 5) (ka kb kc m q : BitVec 3) (ty src : Ty) (i : BitVec 16) (x y : BitVec 26) (n : BitVec 6) (rtz sat : Bool),
    let g (srcs : List RegRef) (j : Instr) : Prop := Only { srcs := srcs, dsts := [.g a] } j [a] [] []
    let v (srcs : List RegRef) (j : Instr) : Prop := Only { srcs := srcs, dsts := [.v a] } j [] [a] []
    let k (srcs : List RegRef) (j : Instr) : Prop := Only { srcs := srcs } j [] [] [ka]
    (∀ j ∈ [Instr.add a b c, .sub a b c, .and a b c, .or a b c, .xor a b c, .andn a b c, .shl a b c, .shr a b c, .sra a b c,
        .rol a b c, .mul a b c, .mulh a b c, .mulhu a b c, .div a b c, .divu a b c, .rem a b c, .remu a b c, .min a b c, .max a b c,
        .minu a b c, .maxu a b c, .slt a b c, .sltu a b c, .seq a b c, .lea1 a b c, .lea2 a b c, .lea4 a b c, .lea8 a b c],
      g [.g b, .g c] j) ∧
    (∀ j ∈ [Instr.clz a b, .ctz a b, .popc a b, .brev a b, .bswap a b, .sextB a b, .sextH a b, .sextW a b, .zextB a b, .zextH a b,
        .zextW a b, .addi a b i, .andi a b i, .ori a b i, .xori a b i, .slti a b i, .sltiu a b i, .movhi a b i, .muli a b i,
        .shiL a b n, .shiR a b n, .shiA a b n, .shiRol a b n], g [.g b] j) ∧
    (∀ f ∈ [IForm.addi, .andi, .ori, .xori, .slti, .sltiu, .movhi, .muli],
      Only { srcs := [.g b], dsts := [.g a], ext := true } (.extPair x f a b i) [a] [] []) ∧
    (∀ j ∈ [Instr.beq a b i, .bne a b i, .blt a b i, .bge a b i, .bltu a b i, .bgeu a b i],
      Only { srcs := [.g b, .g a] } j [] [] []) ∧
    (∀ (f : IForm) (j : BitVec 16), (f, j) ∈ [(IForm.shi, 0#10 ++ n), (.shi, 1#10 ++ n), (.shi, 2#10 ++ n), (.shi, 3#10 ++ n)] →
      Only { srcs := [.g b], dsts := [.g a], ext := true } (.extPair 0 f a b j) [a] [] []) ∧
    (∀ f ∈ [IForm.beq, .bne, .blt, .bge, .bltu, .bgeu],
      Only { srcs := [.g b, .g a], ext := true } (.extPair x f a b i) [] [] []) ∧
    Only { srcs := [.g a], ext := true } (.extPair x .dbnz a 0 i) [a] [] [] ∧
    (let goes (p : Proc) (m : BitVec 5) : Prop := (p.kind = .normal ∨ p.rg m ≠ returnPoint) ∧ (p.rg m).extractLsb' 0 2 = 0
     OnlyIf (goes · b) { srcs := [.g b] } (.jr b) [] [] [] ∧ OnlyIf (goes · 31) { srcs := [.g 31] } .ret [] [] [] ∧
     OnlyIf (goes · b) { srcs := [.g b], dsts := [.g a] } (.callr a b) [a] [] []) ∧
    Only { srcs := [.g a] } (.dbnz a i) [a] [] [] ∧ Only {} (.j y) [] [] [] ∧ Only { dsts := [.g 31] } (.call y) [31] [] [] ∧
    (∀ j ∈ [Instr.vadd a b c m ty, .vsub a b c m ty, .vmul a b c m ty, .vmin a b c m ty, .vmax a b c m ty, .vadds a b c m ty,
        .vsubs a b c m ty, .vmulh a b c m ty, .vabsd a b c m ty, .vdiv a b c m ty, .vand a b c m ty, .vor a b c m ty, .vxor a b c m ty,
        .vandn a b c m ty, .vshl a b c m ty, .vshr a b c m ty, .vsra a b c m ty, .vrol a b c m ty, .vsel a b c m ty,
        .vperm a b c m ty, .vzipl a b c m ty, .vziph a b c m ty, .vuzpe a b c m ty, .vuzpo a b c m ty], v [.v b, .v c] j) ∧
    (∀ j ∈ [Instr.vfma a b c m ty, .vfms a b c m ty, .vpermx a b c m ty], v [.v b, .v c, .v a] j) ∧
    (∀ j ∈ [Instr.vabs a b m ty, .vneg a b m ty, .vsqrt a b m ty, .vnot a b m ty, .vclz a b m ty, .vpopc a b m ty, .vctz a b m ty,
        .vrcp a b m ty, .vrsq a b m ty, .vexp2 a b m ty, .vlog2 a b m ty, .vmov a b m ty, .vcvt a b rtz src m ty q sat,
        .vrev a b m ty, .vcomp a b m ty, .vexpd a b m ty], v [.v b] j) ∧
    (∀ j ∈ [Instr.vshlg a b c m ty, .vshrg a b c m ty, .vsrag a b c m ty, .vrolg a b c m ty, .vsldn a b c m ty, .vslup a b c m ty,
        .vsplat a b c m ty], v [.v b, .g c] j) ∧
    v [.g b] (.vbcast a b m ty) ∧ v [.g b, .g c] (.vins a b c ty) ∧ v [] (.viota a m ty) ∧
    (∀ j ∈ [Instr.vredsum a b m ty, .vredmin a b m ty, .vredmax a b m ty, .vredand a b m ty, .vredor a b m ty, .vredxor a b m ty,
        .vredsumw a b m ty], g [.v b] j) ∧
    g [.v b, .g c] (.vext a b c ty) ∧ g [] (.kmovg a kb) ∧ g [] (.kpopc a kb) ∧ g [] (.kfirst a kb) ∧
    (∀ j ∈ [Instr.vcmpEq ka b c m ty, .vcmpNe ka b c m ty, .vcmpLt ka b c m ty, .vcmpLe ka b c m ty, .vcmpUn ka b c m ty],
      k [.v b, .v c] j) ∧
    (∀ j ∈ [Instr.kand ka kb kc, .kor ka kb kc, .kxor ka kb kc, .knot ka kb], k [] j) ∧ k [.g b] (.kmovk ka b)

/-- R121 to R133, R189, R370: what loads and stores leave as they were. -/
def Obligations.MemoryFrame : Prop :=
  ∀ (a b c : BitVec 5) (m : BitVec 3) (o : BitVec 13) (x : BitVec 26) (i : BitVec 16) (sc : Scope) (z : LdSize) (y : StSize) (ty : Ty)
      (tm : Bool),
    let at_ (own : Bool) (nd : Need) (i : Instr) (va : Proc → Word) (n : Nat) (acc : Access) (gs : List (BitVec 5)) : Prop :=
      ∀ (s : State) (k : Nat) (p : Proc) (s₀ : State) (q : Proc) (s₁ : State) (ga : Nat) (leaf : Word), Issues s k p nd s₀ q →
        Maps s₀ k q (va q) n acc s₁ ga leaf → (own = true → InDevice ga) →
        ∃ t r, exec i s = .next t ∧ mget t.procs k = some r ∧ SameRegisters p r gs [] [] ∧
          (∀ m : BitVec 5, m ∉ gs → r.gFull.getLsbD m.toNat = p.gFull.getLsbD m.toNat) ∧ SameSystem p r ∧ SameOthers s t k ∧
          SameMemory s₁ t ∧ ((∀ line, copiesOf s₀ line = []) → SameMemory s t)
    let short (n : Nat) (p : Proc) : Word := p.rg b + o.signExtend 64 * BitVec.ofNat 64 n
    let long (n : Nat) (p : Proc) : Word := p.rg b + ((x ++ i).extractLsb' 3 39).signExtend 64 * BitVec.ofNat 64 n
    let spads (store : Bool) (nd : Need) (j : Instr) (va : Proc → Word) (n : Nat) (gs : List (BitVec 5)) : Prop :=
      ∀ (s : State) (k : Nat) (p : Proc) (s₀ : State) (q : Proc), MemWf s → Issues s k p nd s₀ q → q.splog ≠ 0 →
        ∃ t r, exec j s = .next t ∧ mget t.procs k = some r ∧ SameRegisters p r gs [] [] ∧
          (∀ m : BitVec 5, m ∉ gs → r.gFull.getLsbD m.toNat = p.gFull.getLsbD m.toNat) ∧ SameSystem p r ∧ SameOthers s t k ∧
          (store = false → SameMemory s t) ∧
          ∀ y, ¬ Stored s (spadGa k q ((va q).toNat % 2 ^ q.splog - (va q).toNat % 2 ^ q.splog % n)) n y → memGet t.mem y = memGet s.mem y
    let vecs (srcs : List RegRef) (j : Instr) (f : Proc → Nat → Word) : Prop :=
      ∀ (s : State) (k : Nat) (p : Proc) (s₀ : State) (q : Proc) (s₁ : State) (xs : List (Nat × Word × Nat × Word)),
        Issues s k p { srcs := srcs, touch := .plain } s₀ q →
        let els := ((List.range (64 / ty.bytes)).filter fun j => (q.rk m).getLsbD j).map fun j => (j, f q j)
        elsTrap els ty.bytes = none → pagesReach s₀ k q els (pagesOf els) = (s₁, xs, none) →
        (∀ x ∈ xs, feWaits s₁ k q.gen x.2.2.1 = false) →
        ∃ t r, exec j s = .next t ∧ mget t.procs k = some r ∧ SameRegisters p r [] [] [] ∧ r.gFull = p.gFull ∧ SameSystem p r ∧
          SameOthers s t k ∧ SameMemory s₁ t ∧ ((∀ line, copiesOf s₀ line = []) → SameMemory s t)
    at_ false { srcs := [.g b], dsts := [.g a], touch := .plain } (.ld a b o z) (short (ldBytes z)) (ldBytes z) .read [a] ∧
    at_ false { srcs := [.g b, .g c], dsts := [.g a], touch := .plain } (.ldx a b c z) (fun p => p.rg b + p.rg c) (ldBytes z) .read
      [a] ∧
    at_ false { scope := sc, srcs := [.g b], dsts := [.g a], touch := .acquire } (.lda a b sc z) (fun p => p.rg b) (ldBytes z) .read
      [a] ∧
    at_ false { srcs := [.g b, .g a], touch := .plain } (.st a b o y) (short (stBytes y)) (stBytes y) .write [] ∧
    at_ false { srcs := [.g b, .g c, .g a], touch := .plain } (.stx a b c y) (fun p => p.rg b + p.rg c) (stBytes y) .write [] ∧
    at_ false { scope := sc, srcs := [.g b, .g a], touch := .release } (.stl a b sc y) (fun p => p.rg b) (stBytes y) .write [] ∧
    (i.extractLsb' 0 3 = z.code →
      at_ false { srcs := [.g b], dsts := [.g a], touch := .plain, ext := true } (.extPair x .ld a b i) (long (ldBytes z)) (ldBytes z)
        .read [a] ∧
      spads false { srcs := [.g b], dsts := [.g a], touch := .plain, ext := true } (.extPair x .spl a b i) (long (ldBytes z))
        (ldBytes z) [a]) ∧
    (i.extractLsb' 0 3 = y.code →
      at_ false { srcs := [.g b, .g a], touch := .plain, ext := true } (.extPair x .st a b i) (long (stBytes y)) (stBytes y) .write
        [] ∧
      spads true { srcs := [.g b, .g a], touch := .plain, ext := true } (.extPair x .sps a b i) (long (stBytes y)) (stBytes y) []) ∧
    spads false { srcs := [.g b], dsts := [.g a], touch := .plain } (.spl a b o z) (short (ldBytes z)) (ldBytes z) [a] ∧
    spads true { srcs := [.g b, .g a], touch := .plain } (.sps a b o y) (short (stBytes y)) (stBytes y) [] ∧
    at_ true { srcs := [.g b], dsts := [.g a, .g c], touch := .acquire } (.lds a b c tm) (fun p => p.rg b) 8 .write [a, c] ∧
    at_ true { srcs := [.g b], dsts := [.g a, .g c], touch := .acquire } (.ldf a b c tm) (fun p => p.rg b) 8 .read [a, c] ∧
    at_ true { srcs := [.g b, .g a], dsts := [.g c], touch := .release } (.sts a b c tm) (fun p => p.rg b) 8 .write [c] ∧
    vecs [.g b, .v a] (.vst a b m ty) (fun p j => p.rg b + BitVec.ofNat 64 (j * ty.bytes)) ∧
    vecs [.g b, .g c, .v a] (.vsts a b c m ty) (fun p j => p.rg b + BitVec.ofNat 64 j * p.rg c) ∧
    vecs [.g b, .v c, .v a] (.vscat a b c m ty)
      (fun p j => p.rg b + BitVec.ofInt 64 ((ty.bytes : Int) * toSigned (8 * ty.bytes) (getEl ty.bytes (p.rv c) j))) ∧
    ∀ (s : State) (n src dst ga : Nat) (own : Option Own) (bs : List Byte) (pois : Bool) (t : State), MemWf s →
      (s.arriving n = some { src := src, dst := dst, own := own, body := .write ga bs pois } → (∀ h, (s.home h).parked = []) → exec (.portWrite n) s = .next t →
        ∀ x, ¬ Stored s ga bs.length x → memGet t.mem x = memGet s.mem x) ∧
      (s.arriving n = some { src := src, dst := dst, own := own, body := .host ga bs.length (some bs) none false pois } →
        exec (.portHost n) s = .next t → ∀ x, ¬ Stored s ga bs.length x → memGet t.mem x = memGet s.mem x)
end

