-- ==== Sys2Proof/Laws/Dispatch.lean ====
section
/-! SUPPORT. Each instruction runs its own meaning. -/

namespace Sys2Proof.Machine

@[simp] theorem exec_add (a : BitVec 5) (b : BitVec 5) (c : BitVec 5) (s : State) : exec (Instr.add a b c) s = execAdd a b c s := rfl
@[simp] theorem exec_sub (a : BitVec 5) (b : BitVec 5) (c : BitVec 5) (s : State) : exec (Instr.sub a b c) s = execSub a b c s := rfl
@[simp] theorem exec_and (a : BitVec 5) (b : BitVec 5) (c : BitVec 5) (s : State) : exec (Instr.and a b c) s = execAnd a b c s := rfl
@[simp] theorem exec_or (a : BitVec 5) (b : BitVec 5) (c : BitVec 5) (s : State) : exec (Instr.or a b c) s = execOr a b c s := rfl
@[simp] theorem exec_xor (a : BitVec 5) (b : BitVec 5) (c : BitVec 5) (s : State) : exec (Instr.xor a b c) s = execXor a b c s := rfl
@[simp] theorem exec_andn (a : BitVec 5) (b : BitVec 5) (c : BitVec 5) (s : State) : exec (Instr.andn a b c) s = execAndn a b c s := rfl
@[simp] theorem exec_shl (a : BitVec 5) (b : BitVec 5) (c : BitVec 5) (s : State) : exec (Instr.shl a b c) s = execShl a b c s := rfl
@[simp] theorem exec_shr (a : BitVec 5) (b : BitVec 5) (c : BitVec 5) (s : State) : exec (Instr.shr a b c) s = execShr a b c s := rfl
@[simp] theorem exec_sra (a : BitVec 5) (b : BitVec 5) (c : BitVec 5) (s : State) : exec (Instr.sra a b c) s = execSra a b c s := rfl
@[simp] theorem exec_rol (a : BitVec 5) (b : BitVec 5) (c : BitVec 5) (s : State) : exec (Instr.rol a b c) s = execRol a b c s := rfl
@[simp] theorem exec_mul (a : BitVec 5) (b : BitVec 5) (c : BitVec 5) (s : State) : exec (Instr.mul a b c) s = execMul a b c s := rfl
@[simp] theorem exec_mulh (a : BitVec 5) (b : BitVec 5) (c : BitVec 5) (s : State) : exec (Instr.mulh a b c) s = execMulh a b c s := rfl
@[simp] theorem exec_mulhu (a : BitVec 5) (b : BitVec 5) (c : BitVec 5) (s : State) : exec (Instr.mulhu a b c) s = execMulhu a b c s := rfl
@[simp] theorem exec_div (a : BitVec 5) (b : BitVec 5) (c : BitVec 5) (s : State) : exec (Instr.div a b c) s = execDiv a b c s := rfl
@[simp] theorem exec_divu (a : BitVec 5) (b : BitVec 5) (c : BitVec 5) (s : State) : exec (Instr.divu a b c) s = execDivu a b c s := rfl
@[simp] theorem exec_rem (a : BitVec 5) (b : BitVec 5) (c : BitVec 5) (s : State) : exec (Instr.rem a b c) s = execRem a b c s := rfl
@[simp] theorem exec_remu (a : BitVec 5) (b : BitVec 5) (c : BitVec 5) (s : State) : exec (Instr.remu a b c) s = execRemu a b c s := rfl
@[simp] theorem exec_min (a : BitVec 5) (b : BitVec 5) (c : BitVec 5) (s : State) : exec (Instr.min a b c) s = execMin a b c s := rfl
@[simp] theorem exec_max (a : BitVec 5) (b : BitVec 5) (c : BitVec 5) (s : State) : exec (Instr.max a b c) s = execMax a b c s := rfl
@[simp] theorem exec_minu (a : BitVec 5) (b : BitVec 5) (c : BitVec 5) (s : State) : exec (Instr.minu a b c) s = execMinu a b c s := rfl
@[simp] theorem exec_maxu (a : BitVec 5) (b : BitVec 5) (c : BitVec 5) (s : State) : exec (Instr.maxu a b c) s = execMaxu a b c s := rfl
@[simp] theorem exec_slt (a : BitVec 5) (b : BitVec 5) (c : BitVec 5) (s : State) : exec (Instr.slt a b c) s = execSlt a b c s := rfl
@[simp] theorem exec_sltu (a : BitVec 5) (b : BitVec 5) (c : BitVec 5) (s : State) : exec (Instr.sltu a b c) s = execSltu a b c s := rfl
@[simp] theorem exec_seq (a : BitVec 5) (b : BitVec 5) (c : BitVec 5) (s : State) : exec (Instr.seq a b c) s = execSeq a b c s := rfl
@[simp] theorem exec_clz (a : BitVec 5) (b : BitVec 5) (s : State) : exec (Instr.clz a b) s = execClz a b s := rfl
@[simp] theorem exec_ctz (a : BitVec 5) (b : BitVec 5) (s : State) : exec (Instr.ctz a b) s = execCtz a b s := rfl
@[simp] theorem exec_popc (a : BitVec 5) (b : BitVec 5) (s : State) : exec (Instr.popc a b) s = execPopc a b s := rfl
@[simp] theorem exec_brev (a : BitVec 5) (b : BitVec 5) (s : State) : exec (Instr.brev a b) s = execBrev a b s := rfl
@[simp] theorem exec_bswap (a : BitVec 5) (b : BitVec 5) (s : State) : exec (Instr.bswap a b) s = execBswap a b s := rfl
@[simp] theorem exec_sextB (a : BitVec 5) (b : BitVec 5) (s : State) : exec (Instr.sextB a b) s = execSextB a b s := rfl
@[simp] theorem exec_sextH (a : BitVec 5) (b : BitVec 5) (s : State) : exec (Instr.sextH a b) s = execSextH a b s := rfl
@[simp] theorem exec_sextW (a : BitVec 5) (b : BitVec 5) (s : State) : exec (Instr.sextW a b) s = execSextW a b s := rfl
@[simp] theorem exec_zextB (a : BitVec 5) (b : BitVec 5) (s : State) : exec (Instr.zextB a b) s = execZextB a b s := rfl
@[simp] theorem exec_zextH (a : BitVec 5) (b : BitVec 5) (s : State) : exec (Instr.zextH a b) s = execZextH a b s := rfl
@[simp] theorem exec_zextW (a : BitVec 5) (b : BitVec 5) (s : State) : exec (Instr.zextW a b) s = execZextW a b s := rfl
@[simp] theorem exec_lea1 (a : BitVec 5) (b : BitVec 5) (c : BitVec 5) (s : State) : exec (Instr.lea1 a b c) s = execLea1 a b c s := rfl
@[simp] theorem exec_lea2 (a : BitVec 5) (b : BitVec 5) (c : BitVec 5) (s : State) : exec (Instr.lea2 a b c) s = execLea2 a b c s := rfl
@[simp] theorem exec_lea4 (a : BitVec 5) (b : BitVec 5) (c : BitVec 5) (s : State) : exec (Instr.lea4 a b c) s = execLea4 a b c s := rfl
@[simp] theorem exec_lea8 (a : BitVec 5) (b : BitVec 5) (c : BitVec 5) (s : State) : exec (Instr.lea8 a b c) s = execLea8 a b c s := rfl
@[simp] theorem exec_addi (a : BitVec 5) (b : BitVec 5) (imm : BitVec 16) (s : State) : exec (Instr.addi a b imm) s = execAddi a b imm s := rfl
@[simp] theorem exec_andi (a : BitVec 5) (b : BitVec 5) (imm : BitVec 16) (s : State) : exec (Instr.andi a b imm) s = execAndi a b imm s := rfl
@[simp] theorem exec_ori (a : BitVec 5) (b : BitVec 5) (imm : BitVec 16) (s : State) : exec (Instr.ori a b imm) s = execOri a b imm s := rfl
@[simp] theorem exec_xori (a : BitVec 5) (b : BitVec 5) (imm : BitVec 16) (s : State) : exec (Instr.xori a b imm) s = execXori a b imm s := rfl
@[simp] theorem exec_slti (a : BitVec 5) (b : BitVec 5) (imm : BitVec 16) (s : State) : exec (Instr.slti a b imm) s = execSlti a b imm s := rfl
@[simp] theorem exec_sltiu (a : BitVec 5) (b : BitVec 5) (imm : BitVec 16) (s : State) : exec (Instr.sltiu a b imm) s = execSltiu a b imm s := rfl
@[simp] theorem exec_shiL (a : BitVec 5) (b : BitVec 5) (n : BitVec 6) (s : State) : exec (Instr.shiL a b n) s = execShiL a b n s := rfl
@[simp] theorem exec_shiR (a : BitVec 5) (b : BitVec 5) (n : BitVec 6) (s : State) : exec (Instr.shiR a b n) s = execShiR a b n s := rfl
@[simp] theorem exec_shiA (a : BitVec 5) (b : BitVec 5) (n : BitVec 6) (s : State) : exec (Instr.shiA a b n) s = execShiA a b n s := rfl
@[simp] theorem exec_shiRol (a : BitVec 5) (b : BitVec 5) (n : BitVec 6) (s : State) : exec (Instr.shiRol a b n) s = execShiRol a b n s := rfl
@[simp] theorem exec_movhi (a : BitVec 5) (b : BitVec 5) (imm : BitVec 16) (s : State) : exec (Instr.movhi a b imm) s = execMovhi a b imm s := rfl
@[simp] theorem exec_muli (a : BitVec 5) (b : BitVec 5) (imm : BitVec 16) (s : State) : exec (Instr.muli a b imm) s = execMuli a b imm s := rfl
@[simp] theorem exec_extPair (x : BitVec 26) (f : IForm) (a : BitVec 5) (b : BitVec 5) (imm : BitVec 16) (s : State) : exec (Instr.extPair x f a b imm) s = execExtPair x f a b imm s := rfl
@[simp] theorem exec_beq (a : BitVec 5) (b : BitVec 5) (imm : BitVec 16) (s : State) : exec (Instr.beq a b imm) s = execBeq a b imm s := rfl
@[simp] theorem exec_bne (a : BitVec 5) (b : BitVec 5) (imm : BitVec 16) (s : State) : exec (Instr.bne a b imm) s = execBne a b imm s := rfl
@[simp] theorem exec_blt (a : BitVec 5) (b : BitVec 5) (imm : BitVec 16) (s : State) : exec (Instr.blt a b imm) s = execBlt a b imm s := rfl
@[simp] theorem exec_bge (a : BitVec 5) (b : BitVec 5) (imm : BitVec 16) (s : State) : exec (Instr.bge a b imm) s = execBge a b imm s := rfl
@[simp] theorem exec_bltu (a : BitVec 5) (b : BitVec 5) (imm : BitVec 16) (s : State) : exec (Instr.bltu a b imm) s = execBltu a b imm s := rfl
@[simp] theorem exec_bgeu (a : BitVec 5) (b : BitVec 5) (imm : BitVec 16) (s : State) : exec (Instr.bgeu a b imm) s = execBgeu a b imm s := rfl
@[simp] theorem exec_dbnz (a : BitVec 5) (imm : BitVec 16) (s : State) : exec (Instr.dbnz a imm) s = execDbnz a imm s := rfl
@[simp] theorem exec_j (imm : BitVec 26) (s : State) : exec (Instr.j imm) s = execJ imm s := rfl
@[simp] theorem exec_call (imm : BitVec 26) (s : State) : exec (Instr.call imm) s = execCall imm s := rfl
@[simp] theorem exec_jr (b : BitVec 5) (s : State) : exec (Instr.jr b) s = execJr b s := rfl
@[simp] theorem exec_callr (a : BitVec 5) (b : BitVec 5) (s : State) : exec (Instr.callr a b) s = execCallr a b s := rfl
@[simp] theorem exec_ret (s : State) : exec (Instr.ret) s = execRet s := rfl
@[simp] theorem exec_ld (a : BitVec 5) (b : BitVec 5) (o : BitVec 13) (sz : LdSize) (s : State) : exec (Instr.ld a b o sz) s = execLd a b o sz s := rfl
@[simp] theorem exec_st (a : BitVec 5) (b : BitVec 5) (o : BitVec 13) (sz : StSize) (s : State) : exec (Instr.st a b o sz) s = execSt a b o sz s := rfl
@[simp] theorem exec_ldx (a : BitVec 5) (b : BitVec 5) (c : BitVec 5) (sz : LdSize) (s : State) : exec (Instr.ldx a b c sz) s = execLdx a b c sz s := rfl
@[simp] theorem exec_stx (a : BitVec 5) (b : BitVec 5) (c : BitVec 5) (sz : StSize) (s : State) : exec (Instr.stx a b c sz) s = execStx a b c sz s := rfl
@[simp] theorem exec_lda (a : BitVec 5) (b : BitVec 5) (p : Scope) (sz : LdSize) (s : State) : exec (Instr.lda a b p sz) s = execLda a b p sz s := rfl
@[simp] theorem exec_stl (a : BitVec 5) (b : BitVec 5) (p : Scope) (sz : StSize) (s : State) : exec (Instr.stl a b p sz) s = execStl a b p sz s := rfl
@[simp] theorem exec_lds (a : BitVec 5) (b : BitVec 5) (c : BitVec 5) (t : Bool) (s : State) : exec (Instr.lds a b c t) s = execLds a b c t s := rfl
@[simp] theorem exec_sts (a : BitVec 5) (b : BitVec 5) (c : BitVec 5) (t : Bool) (s : State) : exec (Instr.sts a b c t) s = execSts a b c t s := rfl
@[simp] theorem exec_ldf (a : BitVec 5) (b : BitVec 5) (c : BitVec 5) (t : Bool) (s : State) : exec (Instr.ldf a b c t) s = execLdf a b c t s := rfl
@[simp] theorem exec_feget (a : BitVec 5) (b : BitVec 5) (s : State) : exec (Instr.feget a b) s = execFeget a b s := rfl
@[simp] theorem exec_feset (a : BitVec 5) (b : BitVec 5) (s : State) : exec (Instr.feset a b) s = execFeset a b s := rfl
@[simp] theorem exec_spl (a : BitVec 5) (b : BitVec 5) (o : BitVec 13) (sz : LdSize) (s : State) : exec (Instr.spl a b o sz) s = execSpl a b o sz s := rfl
@[simp] theorem exec_sps (a : BitVec 5) (b : BitVec 5) (o : BitVec 13) (sz : StSize) (s : State) : exec (Instr.sps a b o sz) s = execSps a b o sz s := rfl
@[simp] theorem exec_amoAdd (a : BitVec 5) (b : BitVec 5) (c : BitVec 5) (o : AtomOrd) (d : Bool) (s : State) : exec (Instr.amoAdd a b c o d) s = execAmoAdd a b c o d s := rfl
@[simp] theorem exec_amoAnd (a : BitVec 5) (b : BitVec 5) (c : BitVec 5) (o : AtomOrd) (d : Bool) (s : State) : exec (Instr.amoAnd a b c o d) s = execAmoAnd a b c o d s := rfl
@[simp] theorem exec_amoOr (a : BitVec 5) (b : BitVec 5) (c : BitVec 5) (o : AtomOrd) (d : Bool) (s : State) : exec (Instr.amoOr a b c o d) s = execAmoOr a b c o d s := rfl
@[simp] theorem exec_amoXor (a : BitVec 5) (b : BitVec 5) (c : BitVec 5) (o : AtomOrd) (d : Bool) (s : State) : exec (Instr.amoXor a b c o d) s = execAmoXor a b c o d s := rfl
@[simp] theorem exec_amoMin (a : BitVec 5) (b : BitVec 5) (c : BitVec 5) (o : AtomOrd) (d : Bool) (s : State) : exec (Instr.amoMin a b c o d) s = execAmoMin a b c o d s := rfl
@[simp] theorem exec_amoMax (a : BitVec 5) (b : BitVec 5) (c : BitVec 5) (o : AtomOrd) (d : Bool) (s : State) : exec (Instr.amoMax a b c o d) s = execAmoMax a b c o d s := rfl
@[simp] theorem exec_amoMinu (a : BitVec 5) (b : BitVec 5) (c : BitVec 5) (o : AtomOrd) (d : Bool) (s : State) : exec (Instr.amoMinu a b c o d) s = execAmoMinu a b c o d s := rfl
@[simp] theorem exec_amoMaxu (a : BitVec 5) (b : BitVec 5) (c : BitVec 5) (o : AtomOrd) (d : Bool) (s : State) : exec (Instr.amoMaxu a b c o d) s = execAmoMaxu a b c o d s := rfl
@[simp] theorem exec_amoSwap (a : BitVec 5) (b : BitVec 5) (c : BitVec 5) (o : AtomOrd) (d : Bool) (s : State) : exec (Instr.amoSwap a b c o d) s = execAmoSwap a b c o d s := rfl
@[simp] theorem exec_cas (a : BitVec 5) (b : BitVec 5) (c : BitVec 5) (o : AtomOrd) (d : Bool) (s : State) : exec (Instr.cas a b c o d) s = execCas a b c o d s := rfl
@[simp] theorem exec_redAdd (b : BitVec 5) (c : BitVec 5) (d : Bool) (s : State) : exec (Instr.redAdd b c d) s = execRedAdd b c d s := rfl
@[simp] theorem exec_redFadd (b : BitVec 5) (c : BitVec 5) (d : Bool) (s : State) : exec (Instr.redFadd b c d) s = execRedFadd b c d s := rfl
@[simp] theorem exec_redMin (b : BitVec 5) (c : BitVec 5) (d : Bool) (s : State) : exec (Instr.redMin b c d) s = execRedMin b c d s := rfl
@[simp] theorem exec_redMax (b : BitVec 5) (c : BitVec 5) (d : Bool) (s : State) : exec (Instr.redMax b c d) s = execRedMax b c d s := rfl
@[simp] theorem exec_deleg (a : BitVec 5) (b : BitVec 5) (c : BitVec 5) (s : State) : exec (Instr.deleg a b c) s = execDeleg a b c s := rfl
@[simp] theorem exec_fence (p : Scope) (kinds : BitVec 4) (s : State) : exec (Instr.fence p kinds) s = execFence p kinds s := rfl
@[simp] theorem exec_monw (a : BitVec 5) (b : BitVec 5) (c : BitVec 5) (t : Bool) (n : MonCond) (mem : Bool) (s : State) : exec (Instr.monw a b c t n mem) s = execMonw a b c t n mem s := rfl
@[simp] theorem exec_gjoin (a : BitVec 5) (b : BitVec 5) (s : State) : exec (Instr.gjoin a b) s = execGjoin a b s := rfl
@[simp] theorem exec_gleave (b : BitVec 5) (s : State) : exec (Instr.gleave b) s = execGleave b s := rfl
@[simp] theorem exec_barArrive (a : BitVec 5) (b : BitVec 5) (s : State) : exec (Instr.barArrive a b) s = execBarArrive a b s := rfl
@[simp] theorem exec_barDrop (a : BitVec 5) (b : BitVec 5) (s : State) : exec (Instr.barDrop a b) s = execBarDrop a b s := rfl
@[simp] theorem exec_barWait (a : BitVec 5) (b : BitVec 5) (c : BitVec 5) (t : Bool) (s : State) : exec (Instr.barWait a b c t) s = execBarWait a b c t s := rfl
@[simp] theorem exec_spawn (a : BitVec 5) (b : BitVec 5) (c : BitVec 5) (n : BitVec 2) (s : State) : exec (Instr.spawn a b c n) s = execSpawn a b c n s := rfl
@[simp] theorem exec_exit (s : State) : exec (Instr.exit) s = execExit s := rfl
@[simp] theorem exec_exitR (b : BitVec 5) (s : State) : exec (Instr.exitR b) s = execExitR b s := rfl
@[simp] theorem exec_yield (s : State) : exec (Instr.yield) s = execYield s := rfl
@[simp] theorem exec_prio (b : BitVec 5) (s : State) : exec (Instr.prio b) s = execPrio b s := rfl
@[simp] theorem exec_jwait (a : BitVec 5) (t : Bool) (n : BitVec 2) (s : State) : exec (Instr.jwait a t n) s = execJwait a t n s := rfl
@[simp] theorem exec_self (a : BitVec 5) (s : State) : exec (Instr.self a) s = execSelf a s := rfl
@[simp] theorem exec_send (a : BitVec 5) (b : BitVec 5) (f : ItemFile) (d : BitVec 6) (t : Bool) (s : State) : exec (Instr.send a b f d t) s = execSend a b f d t s := rfl
@[simp] theorem exec_recv (a : BitVec 5) (b : BitVec 5) (f : ItemFile) (d : BitVec 6) (t : Bool) (s : State) : exec (Instr.recv a b f d t) s = execRecv a b f d t s := rfl
@[simp] theorem exec_alt (a : BitVec 5) (b : BitVec 5) (t : Bool) (s : State) : exec (Instr.alt a b t) s = execAlt a b t s := rfl
@[simp] theorem exec_poison (a : BitVec 5) (d : BitVec 6) (s : State) : exec (Instr.poison a d) s = execPoison a d s := rfl
@[simp] theorem exec_mark (a : BitVec 5) (s : State) : exec (Instr.mark a) s = execMark a s := rfl
@[simp] theorem exec_chnew (a : BitVec 5) (b : BitVec 5) (d : BitVec 6) (s : State) : exec (Instr.chnew a b d) s = execChnew a b d s := rfl
@[simp] theorem exec_chbind (a : BitVec 5) (b : BitVec 5) (c : BitVec 5) (d : BitVec 6) (s : State) : exec (Instr.chbind a b c d) s = execChbind a b c d s := rfl
@[simp] theorem exec_chbindD (a : BitVec 5) (b : BitVec 5) (s : State) : exec (Instr.chbindD a b) s = execChbindD a b s := rfl
@[simp] theorem exec_chclose (a : BitVec 5) (d : BitVec 6) (s : State) : exec (Instr.chclose a d) s = execChclose a d s := rfl
@[simp] theorem exec_amsg (a : BitVec 5) (b : BitVec 5) (c : BitVec 5) (t : Bool) (s : State) : exec (Instr.amsg a b c t) s = execAmsg a b c t s := rfl
@[simp] theorem exec_winopen (a : BitVec 5) (b : BitVec 5) (c : BitVec 5) (d : BitVec 6) (s : State) : exec (Instr.winopen a b c d) s = execWinopen a b c d s := rfl
@[simp] theorem exec_winclose (a : BitVec 5) (d : BitVec 6) (s : State) : exec (Instr.winclose a d) s = execWinclose a d s := rfl
@[simp] theorem exec_sendt (a : BitVec 5) (b : BitVec 5) (d : BitVec 6) (t : Bool) (s : State) : exec (Instr.sendt a b d t) s = execSendt a b d t s := rfl
@[simp] theorem exec_recvt (a : BitVec 5) (b : BitVec 5) (d : BitVec 6) (t : Bool) (s : State) : exec (Instr.recvt a b d t) s = execRecvt a b d t s := rfl
@[simp] theorem exec_thalo (a : BitVec 5) (b : BitVec 5) (c : BitVec 5) (d : BitVec 6) (t : Bool) (s : State) : exec (Instr.thalo a b c d t) s = execThalo a b c d t s := rfl
@[simp] theorem exec_vadd (a : BitVec 5) (b : BitVec 5) (c : BitVec 5) (k : BitVec 3) (ty : Ty) (s : State) : exec (Instr.vadd a b c k ty) s = execVadd a b c k ty s := rfl
@[simp] theorem exec_vsub (a : BitVec 5) (b : BitVec 5) (c : BitVec 5) (k : BitVec 3) (ty : Ty) (s : State) : exec (Instr.vsub a b c k ty) s = execVsub a b c k ty s := rfl
@[simp] theorem exec_vmul (a : BitVec 5) (b : BitVec 5) (c : BitVec 5) (k : BitVec 3) (ty : Ty) (s : State) : exec (Instr.vmul a b c k ty) s = execVmul a b c k ty s := rfl
@[simp] theorem exec_vfma (a : BitVec 5) (b : BitVec 5) (c : BitVec 5) (k : BitVec 3) (ty : Ty) (s : State) : exec (Instr.vfma a b c k ty) s = execVfma a b c k ty s := rfl
@[simp] theorem exec_vfms (a : BitVec 5) (b : BitVec 5) (c : BitVec 5) (k : BitVec 3) (ty : Ty) (s : State) : exec (Instr.vfms a b c k ty) s = execVfms a b c k ty s := rfl
@[simp] theorem exec_vmin (a : BitVec 5) (b : BitVec 5) (c : BitVec 5) (k : BitVec 3) (ty : Ty) (s : State) : exec (Instr.vmin a b c k ty) s = execVmin a b c k ty s := rfl
@[simp] theorem exec_vmax (a : BitVec 5) (b : BitVec 5) (c : BitVec 5) (k : BitVec 3) (ty : Ty) (s : State) : exec (Instr.vmax a b c k ty) s = execVmax a b c k ty s := rfl
@[simp] theorem exec_vabs (a : BitVec 5) (b : BitVec 5) (k : BitVec 3) (ty : Ty) (s : State) : exec (Instr.vabs a b k ty) s = execVabs a b k ty s := rfl
@[simp] theorem exec_vneg (a : BitVec 5) (b : BitVec 5) (k : BitVec 3) (ty : Ty) (s : State) : exec (Instr.vneg a b k ty) s = execVneg a b k ty s := rfl
@[simp] theorem exec_vadds (a : BitVec 5) (b : BitVec 5) (c : BitVec 5) (k : BitVec 3) (ty : Ty) (s : State) : exec (Instr.vadds a b c k ty) s = execVadds a b c k ty s := rfl
@[simp] theorem exec_vsubs (a : BitVec 5) (b : BitVec 5) (c : BitVec 5) (k : BitVec 3) (ty : Ty) (s : State) : exec (Instr.vsubs a b c k ty) s = execVsubs a b c k ty s := rfl
@[simp] theorem exec_vmulh (a : BitVec 5) (b : BitVec 5) (c : BitVec 5) (k : BitVec 3) (ty : Ty) (s : State) : exec (Instr.vmulh a b c k ty) s = execVmulh a b c k ty s := rfl
@[simp] theorem exec_vabsd (a : BitVec 5) (b : BitVec 5) (c : BitVec 5) (k : BitVec 3) (ty : Ty) (s : State) : exec (Instr.vabsd a b c k ty) s = execVabsd a b c k ty s := rfl
@[simp] theorem exec_vdiv (a : BitVec 5) (b : BitVec 5) (c : BitVec 5) (k : BitVec 3) (ty : Ty) (s : State) : exec (Instr.vdiv a b c k ty) s = execVdiv a b c k ty s := rfl
@[simp] theorem exec_vsqrt (a : BitVec 5) (b : BitVec 5) (k : BitVec 3) (ty : Ty) (s : State) : exec (Instr.vsqrt a b k ty) s = execVsqrt a b k ty s := rfl
@[simp] theorem exec_vand (a : BitVec 5) (b : BitVec 5) (c : BitVec 5) (k : BitVec 3) (ty : Ty) (s : State) : exec (Instr.vand a b c k ty) s = execVand a b c k ty s := rfl
@[simp] theorem exec_vor (a : BitVec 5) (b : BitVec 5) (c : BitVec 5) (k : BitVec 3) (ty : Ty) (s : State) : exec (Instr.vor a b c k ty) s = execVor a b c k ty s := rfl
@[simp] theorem exec_vxor (a : BitVec 5) (b : BitVec 5) (c : BitVec 5) (k : BitVec 3) (ty : Ty) (s : State) : exec (Instr.vxor a b c k ty) s = execVxor a b c k ty s := rfl
@[simp] theorem exec_vandn (a : BitVec 5) (b : BitVec 5) (c : BitVec 5) (k : BitVec 3) (ty : Ty) (s : State) : exec (Instr.vandn a b c k ty) s = execVandn a b c k ty s := rfl
@[simp] theorem exec_vnot (a : BitVec 5) (b : BitVec 5) (k : BitVec 3) (ty : Ty) (s : State) : exec (Instr.vnot a b k ty) s = execVnot a b k ty s := rfl
@[simp] theorem exec_vshl (a : BitVec 5) (b : BitVec 5) (c : BitVec 5) (k : BitVec 3) (ty : Ty) (s : State) : exec (Instr.vshl a b c k ty) s = execVshl a b c k ty s := rfl
@[simp] theorem exec_vshr (a : BitVec 5) (b : BitVec 5) (c : BitVec 5) (k : BitVec 3) (ty : Ty) (s : State) : exec (Instr.vshr a b c k ty) s = execVshr a b c k ty s := rfl
@[simp] theorem exec_vsra (a : BitVec 5) (b : BitVec 5) (c : BitVec 5) (k : BitVec 3) (ty : Ty) (s : State) : exec (Instr.vsra a b c k ty) s = execVsra a b c k ty s := rfl
@[simp] theorem exec_vrol (a : BitVec 5) (b : BitVec 5) (c : BitVec 5) (k : BitVec 3) (ty : Ty) (s : State) : exec (Instr.vrol a b c k ty) s = execVrol a b c k ty s := rfl
@[simp] theorem exec_vshlg (a : BitVec 5) (b : BitVec 5) (c : BitVec 5) (k : BitVec 3) (ty : Ty) (s : State) : exec (Instr.vshlg a b c k ty) s = execVshlg a b c k ty s := rfl
@[simp] theorem exec_vshrg (a : BitVec 5) (b : BitVec 5) (c : BitVec 5) (k : BitVec 3) (ty : Ty) (s : State) : exec (Instr.vshrg a b c k ty) s = execVshrg a b c k ty s := rfl
@[simp] theorem exec_vsrag (a : BitVec 5) (b : BitVec 5) (c : BitVec 5) (k : BitVec 3) (ty : Ty) (s : State) : exec (Instr.vsrag a b c k ty) s = execVsrag a b c k ty s := rfl
@[simp] theorem exec_vrolg (a : BitVec 5) (b : BitVec 5) (c : BitVec 5) (k : BitVec 3) (ty : Ty) (s : State) : exec (Instr.vrolg a b c k ty) s = execVrolg a b c k ty s := rfl
@[simp] theorem exec_vclz (a : BitVec 5) (b : BitVec 5) (k : BitVec 3) (ty : Ty) (s : State) : exec (Instr.vclz a b k ty) s = execVclz a b k ty s := rfl
@[simp] theorem exec_vpopc (a : BitVec 5) (b : BitVec 5) (k : BitVec 3) (ty : Ty) (s : State) : exec (Instr.vpopc a b k ty) s = execVpopc a b k ty s := rfl
@[simp] theorem exec_vctz (a : BitVec 5) (b : BitVec 5) (k : BitVec 3) (ty : Ty) (s : State) : exec (Instr.vctz a b k ty) s = execVctz a b k ty s := rfl
@[simp] theorem exec_vcmpEq (a : BitVec 3) (b : BitVec 5) (c : BitVec 5) (k : BitVec 3) (ty : Ty) (s : State) : exec (Instr.vcmpEq a b c k ty) s = execVcmpEq a b c k ty s := rfl
@[simp] theorem exec_vcmpNe (a : BitVec 3) (b : BitVec 5) (c : BitVec 5) (k : BitVec 3) (ty : Ty) (s : State) : exec (Instr.vcmpNe a b c k ty) s = execVcmpNe a b c k ty s := rfl
@[simp] theorem exec_vcmpLt (a : BitVec 3) (b : BitVec 5) (c : BitVec 5) (k : BitVec 3) (ty : Ty) (s : State) : exec (Instr.vcmpLt a b c k ty) s = execVcmpLt a b c k ty s := rfl
@[simp] theorem exec_vcmpLe (a : BitVec 3) (b : BitVec 5) (c : BitVec 5) (k : BitVec 3) (ty : Ty) (s : State) : exec (Instr.vcmpLe a b c k ty) s = execVcmpLe a b c k ty s := rfl
@[simp] theorem exec_vcmpUn (a : BitVec 3) (b : BitVec 5) (c : BitVec 5) (k : BitVec 3) (ty : Ty) (s : State) : exec (Instr.vcmpUn a b c k ty) s = execVcmpUn a b c k ty s := rfl
@[simp] theorem exec_vsel (a : BitVec 5) (b : BitVec 5) (c : BitVec 5) (k : BitVec 3) (ty : Ty) (s : State) : exec (Instr.vsel a b c k ty) s = execVsel a b c k ty s := rfl
@[simp] theorem exec_kand (a : BitVec 3) (b : BitVec 3) (c : BitVec 3) (s : State) : exec (Instr.kand a b c) s = execKand a b c s := rfl
@[simp] theorem exec_kor (a : BitVec 3) (b : BitVec 3) (c : BitVec 3) (s : State) : exec (Instr.kor a b c) s = execKor a b c s := rfl
@[simp] theorem exec_kxor (a : BitVec 3) (b : BitVec 3) (c : BitVec 3) (s : State) : exec (Instr.kxor a b c) s = execKxor a b c s := rfl
@[simp] theorem exec_knot (a : BitVec 3) (b : BitVec 3) (s : State) : exec (Instr.knot a b) s = execKnot a b s := rfl
@[simp] theorem exec_kmovg (a : BitVec 5) (b : BitVec 3) (s : State) : exec (Instr.kmovg a b) s = execKmovg a b s := rfl
@[simp] theorem exec_kmovk (a : BitVec 3) (b : BitVec 5) (s : State) : exec (Instr.kmovk a b) s = execKmovk a b s := rfl
@[simp] theorem exec_kpopc (a : BitVec 5) (b : BitVec 3) (s : State) : exec (Instr.kpopc a b) s = execKpopc a b s := rfl
@[simp] theorem exec_kfirst (a : BitVec 5) (b : BitVec 3) (s : State) : exec (Instr.kfirst a b) s = execKfirst a b s := rfl
@[simp] theorem exec_vcvt (a : BitVec 5) (b : BitVec 5) (rtz : Bool) (src : Ty) (k : BitVec 3) (ty : Ty) (q : BitVec 3) (sat : Bool) (s : State) : exec (Instr.vcvt a b rtz src k ty q sat) s = execVcvt a b rtz src k ty q sat s := rfl
@[simp] theorem exec_vredsum (a : BitVec 5) (b : BitVec 5) (k : BitVec 3) (ty : Ty) (s : State) : exec (Instr.vredsum a b k ty) s = execVredsum a b k ty s := rfl
@[simp] theorem exec_vredmin (a : BitVec 5) (b : BitVec 5) (k : BitVec 3) (ty : Ty) (s : State) : exec (Instr.vredmin a b k ty) s = execVredmin a b k ty s := rfl
@[simp] theorem exec_vredmax (a : BitVec 5) (b : BitVec 5) (k : BitVec 3) (ty : Ty) (s : State) : exec (Instr.vredmax a b k ty) s = execVredmax a b k ty s := rfl
@[simp] theorem exec_vredand (a : BitVec 5) (b : BitVec 5) (k : BitVec 3) (ty : Ty) (s : State) : exec (Instr.vredand a b k ty) s = execVredand a b k ty s := rfl
@[simp] theorem exec_vredor (a : BitVec 5) (b : BitVec 5) (k : BitVec 3) (ty : Ty) (s : State) : exec (Instr.vredor a b k ty) s = execVredor a b k ty s := rfl
@[simp] theorem exec_vredxor (a : BitVec 5) (b : BitVec 5) (k : BitVec 3) (ty : Ty) (s : State) : exec (Instr.vredxor a b k ty) s = execVredxor a b k ty s := rfl
@[simp] theorem exec_vredsumw (a : BitVec 5) (b : BitVec 5) (k : BitVec 3) (ty : Ty) (s : State) : exec (Instr.vredsumw a b k ty) s = execVredsumw a b k ty s := rfl
@[simp] theorem exec_vperm (a : BitVec 5) (b : BitVec 5) (c : BitVec 5) (k : BitVec 3) (ty : Ty) (s : State) : exec (Instr.vperm a b c k ty) s = execVperm a b c k ty s := rfl
@[simp] theorem exec_vpermx (a : BitVec 5) (b : BitVec 5) (c : BitVec 5) (k : BitVec 3) (ty : Ty) (s : State) : exec (Instr.vpermx a b c k ty) s = execVpermx a b c k ty s := rfl
@[simp] theorem exec_vsldn (a : BitVec 5) (b : BitVec 5) (c : BitVec 5) (k : BitVec 3) (ty : Ty) (s : State) : exec (Instr.vsldn a b c k ty) s = execVsldn a b c k ty s := rfl
@[simp] theorem exec_vslup (a : BitVec 5) (b : BitVec 5) (c : BitVec 5) (k : BitVec 3) (ty : Ty) (s : State) : exec (Instr.vslup a b c k ty) s = execVslup a b c k ty s := rfl
@[simp] theorem exec_vcomp (a : BitVec 5) (b : BitVec 5) (k : BitVec 3) (ty : Ty) (s : State) : exec (Instr.vcomp a b k ty) s = execVcomp a b k ty s := rfl
@[simp] theorem exec_vexpd (a : BitVec 5) (b : BitVec 5) (k : BitVec 3) (ty : Ty) (s : State) : exec (Instr.vexpd a b k ty) s = execVexpd a b k ty s := rfl
@[simp] theorem exec_vzipl (a : BitVec 5) (b : BitVec 5) (c : BitVec 5) (k : BitVec 3) (ty : Ty) (s : State) : exec (Instr.vzipl a b c k ty) s = execVzipl a b c k ty s := rfl
@[simp] theorem exec_vziph (a : BitVec 5) (b : BitVec 5) (c : BitVec 5) (k : BitVec 3) (ty : Ty) (s : State) : exec (Instr.vziph a b c k ty) s = execVziph a b c k ty s := rfl
@[simp] theorem exec_vuzpe (a : BitVec 5) (b : BitVec 5) (c : BitVec 5) (k : BitVec 3) (ty : Ty) (s : State) : exec (Instr.vuzpe a b c k ty) s = execVuzpe a b c k ty s := rfl
@[simp] theorem exec_vuzpo (a : BitVec 5) (b : BitVec 5) (c : BitVec 5) (k : BitVec 3) (ty : Ty) (s : State) : exec (Instr.vuzpo a b c k ty) s = execVuzpo a b c k ty s := rfl
@[simp] theorem exec_vrev (a : BitVec 5) (b : BitVec 5) (k : BitVec 3) (ty : Ty) (s : State) : exec (Instr.vrev a b k ty) s = execVrev a b k ty s := rfl
@[simp] theorem exec_vld (a : BitVec 5) (b : BitVec 5) (k : BitVec 3) (ty : Ty) (s : State) : exec (Instr.vld a b k ty) s = execVld a b k ty s := rfl
@[simp] theorem exec_vst (a : BitVec 5) (b : BitVec 5) (k : BitVec 3) (ty : Ty) (s : State) : exec (Instr.vst a b k ty) s = execVst a b k ty s := rfl
@[simp] theorem exec_vlds (a : BitVec 5) (b : BitVec 5) (c : BitVec 5) (k : BitVec 3) (ty : Ty) (s : State) : exec (Instr.vlds a b c k ty) s = execVlds a b c k ty s := rfl
@[simp] theorem exec_vsts (a : BitVec 5) (b : BitVec 5) (c : BitVec 5) (k : BitVec 3) (ty : Ty) (s : State) : exec (Instr.vsts a b c k ty) s = execVsts a b c k ty s := rfl
@[simp] theorem exec_vgath (a : BitVec 5) (b : BitVec 5) (c : BitVec 5) (k : BitVec 3) (ty : Ty) (s : State) : exec (Instr.vgath a b c k ty) s = execVgath a b c k ty s := rfl
@[simp] theorem exec_vscat (a : BitVec 5) (b : BitVec 5) (c : BitVec 5) (k : BitVec 3) (ty : Ty) (s : State) : exec (Instr.vscat a b c k ty) s = execVscat a b c k ty s := rfl
@[simp] theorem exec_vspl (a : BitVec 5) (b : BitVec 5) (k : BitVec 3) (ty : Ty) (s : State) : exec (Instr.vspl a b k ty) s = execVspl a b k ty s := rfl
@[simp] theorem exec_vsps (a : BitVec 5) (b : BitVec 5) (k : BitVec 3) (ty : Ty) (s : State) : exec (Instr.vsps a b k ty) s = execVsps a b k ty s := rfl
@[simp] theorem exec_vspga (a : BitVec 5) (b : BitVec 5) (c : BitVec 5) (k : BitVec 3) (ty : Ty) (s : State) : exec (Instr.vspga a b c k ty) s = execVspga a b c k ty s := rfl
@[simp] theorem exec_vspsc (a : BitVec 5) (b : BitVec 5) (c : BitVec 5) (k : BitVec 3) (ty : Ty) (s : State) : exec (Instr.vspsc a b c k ty) s = execVspsc a b c k ty s := rfl
@[simp] theorem exec_vrcp (a : BitVec 5) (b : BitVec 5) (k : BitVec 3) (ty : Ty) (s : State) : exec (Instr.vrcp a b k ty) s = execVrcp a b k ty s := rfl
@[simp] theorem exec_vrsq (a : BitVec 5) (b : BitVec 5) (k : BitVec 3) (ty : Ty) (s : State) : exec (Instr.vrsq a b k ty) s = execVrsq a b k ty s := rfl
@[simp] theorem exec_vexp2 (a : BitVec 5) (b : BitVec 5) (k : BitVec 3) (ty : Ty) (s : State) : exec (Instr.vexp2 a b k ty) s = execVexp2 a b k ty s := rfl
@[simp] theorem exec_vlog2 (a : BitVec 5) (b : BitVec 5) (k : BitVec 3) (ty : Ty) (s : State) : exec (Instr.vlog2 a b k ty) s = execVlog2 a b k ty s := rfl
@[simp] theorem exec_vbcast (a : BitVec 5) (b : BitVec 5) (k : BitVec 3) (ty : Ty) (s : State) : exec (Instr.vbcast a b k ty) s = execVbcast a b k ty s := rfl
@[simp] theorem exec_vins (a : BitVec 5) (b : BitVec 5) (c : BitVec 5) (ty : Ty) (s : State) : exec (Instr.vins a b c ty) s = execVins a b c ty s := rfl
@[simp] theorem exec_vext (a : BitVec 5) (b : BitVec 5) (c : BitVec 5) (ty : Ty) (s : State) : exec (Instr.vext a b c ty) s = execVext a b c ty s := rfl
@[simp] theorem exec_vmov (a : BitVec 5) (b : BitVec 5) (k : BitVec 3) (ty : Ty) (s : State) : exec (Instr.vmov a b k ty) s = execVmov a b k ty s := rfl
@[simp] theorem exec_viota (a : BitVec 5) (k : BitVec 3) (ty : Ty) (s : State) : exec (Instr.viota a k ty) s = execViota a k ty s := rfl
@[simp] theorem exec_vsplat (a : BitVec 5) (b : BitVec 5) (c : BitVec 5) (k : BitVec 3) (ty : Ty) (s : State) : exec (Instr.vsplat a b c k ty) s = execVsplat a b c k ty s := rfl
@[simp] theorem exec_tld (a : BitVec 3) (b : BitVec 5) (c : BitVec 5) (s : State) : exec (Instr.tld a b c) s = execTld a b c s := rfl
@[simp] theorem exec_tst (a : BitVec 3) (b : BitVec 5) (c : BitVec 5) (s : State) : exec (Instr.tst a b c) s = execTst a b c s := rfl
@[simp] theorem exec_tldt (a : BitVec 3) (b : BitVec 5) (c : BitVec 5) (ty : Ty) (s : State) : exec (Instr.tldt a b c ty) s = execTldt a b c ty s := rfl
@[simp] theorem exec_tswap (a : BitVec 3) (c : BitVec 5) (s : State) : exec (Instr.tswap a c) s = execTswap a c s := rfl
@[simp] theorem exec_tswapT (a : BitVec 3) (c : BitVec 5) (s : State) : exec (Instr.tswapT a c) s = execTswapT a c s := rfl
@[simp] theorem exec_tmma (a : BitVec 3) (b : BitVec 3) (c : BitVec 3) (ty : Ty) (s : State) : exec (Instr.tmma a b c ty) s = execTmma a b c ty s := rfl
@[simp] theorem exec_tzero (a : BitVec 3) (s : State) : exec (Instr.tzero a) s = execTzero a s := rfl
@[simp] theorem exec_tcvt (a : BitVec 3) (b : BitVec 3) (ty : Ty) (s : State) : exec (Instr.tcvt a b ty) s = execTcvt a b ty s := rfl
@[simp] theorem exec_tileClaim (place : Nat) (s : State) : exec (Instr.tileClaim place) s = execTileClaim place s := rfl
@[simp] theorem exec_rcfg (a : BitVec 5) (b : BitVec 5) (n : BitVec 2) (s : State) : exec (Instr.rcfg a b n) s = execRcfg a b n s := rfl
@[simp] theorem exec_rres (a : BitVec 5) (b : BitVec 5) (t : Bool) (s : State) : exec (Instr.rres a b t) s = execRres a b t s := rfl
@[simp] theorem exec_rpub (a : BitVec 5) (b : BitVec 5) (c : BitVec 5) (s : State) : exec (Instr.rpub a b c) s = execRpub a b c s := rfl
@[simp] theorem exec_rstat (a : BitVec 5) (b : BitVec 5) (s : State) : exec (Instr.rstat a b) s = execRstat a b s := rfl
@[simp] theorem exec_rstatMap (a : BitVec 5) (b : BitVec 5) (s : State) : exec (Instr.rstatMap a b) s = execRstatMap a b s := rfl
@[simp] theorem exec_rrst (a : BitVec 5) (n : BitVec 2) (s : State) : exec (Instr.rrst a n) s = execRrst a n s := rfl
@[simp] theorem exec_mstat (a : BitVec 5) (b : BitVec 5) (s : State) : exec (Instr.mstat a b) s = execMstat a b s := rfl
@[simp] theorem exec_mstatClr (a : BitVec 5) (b : BitVec 5) (s : State) : exec (Instr.mstatClr a b) s = execMstatClr a b s := rfl
@[simp] theorem exec_mzero (a : BitVec 5) (b : BitVec 5) (s : State) : exec (Instr.mzero a b) s = execMzero a b s := rfl
@[simp] theorem exec_mwgt (a : BitVec 5) (b : BitVec 5) (c : BitVec 5) (s : State) : exec (Instr.mwgt a b c) s = execMwgt a b c s := rfl
@[simp] theorem exec_nodeCmu (a : BitVec 5) (b : BitVec 5) (c : BitVec 5) (s : State) : exec (Instr.nodeCmu a b c) s = execNodeCmu a b c s := rfl
@[simp] theorem exec_nodeDrain (a : BitVec 5) (b : BitVec 5) (c : BitVec 5) (s : State) : exec (Instr.nodeDrain a b c) s = execNodeDrain a b c s := rfl
@[simp] theorem exec_nodeCopy (a : BitVec 5) (b : BitVec 5) (c : BitVec 5) (s : State) : exec (Instr.nodeCopy a b c) s = execNodeCopy a b c s := rfl
@[simp] theorem exec_nwait (a : BitVec 5) (b : BitVec 5) (t : Bool) (s : State) : exec (Instr.nwait a b t) s = execNwait a b t s := rfl
@[simp] theorem exec_npoll (a : BitVec 5) (b : BitVec 5) (s : State) : exec (Instr.npoll a b) s = execNpoll a b s := rfl
@[simp] theorem exec_nfree (a : BitVec 5) (b : BitVec 5) (s : State) : exec (Instr.nfree a b) s = execNfree a b s := rfl
@[simp] theorem exec_yclaim (a : BitVec 5) (t : Bool) (s : State) : exec (Instr.yclaim a t) s = execYclaim a t s := rfl
@[simp] theorem exec_yrel (a : BitVec 5) (s : State) : exec (Instr.yrel a) s = execYrel a s := rfl
@[simp] theorem exec_yload (a : BitVec 5) (b : BitVec 5) (s : State) : exec (Instr.yload a b) s = execYload a b s := rfl
@[simp] theorem exec_yclk (a : BitVec 5) (b : BitVec 5) (c : BitVec 5) (s : State) : exec (Instr.yclk a b c) s = execYclk a b c s := rfl
@[simp] theorem exec_yrun (a : BitVec 5) (b : BitVec 5) (s : State) : exec (Instr.yrun a b) s = execYrun a b s := rfl
@[simp] theorem exec_ystop (a : BitVec 5) (b : BitVec 5) (s : State) : exec (Instr.ystop a b) s = execYstop a b s := rfl
@[simp] theorem exec_ystopW (a : BitVec 5) (b : BitVec 5) (t : Bool) (s : State) : exec (Instr.ystopW a b t) s = execYstopW a b t s := rfl
@[simp] theorem exec_ysave (a : BitVec 5) (b : BitVec 5) (s : State) : exec (Instr.ysave a b) s = execYsave a b s := rfl
@[simp] theorem exec_yrest (a : BitVec 5) (b : BitVec 5) (s : State) : exec (Instr.yrest a b) s = execYrest a b s := rfl
@[simp] theorem exec_yget (a : BitVec 5) (b : BitVec 5) (s : State) : exec (Instr.yget a b) s = execYget a b s := rfl
@[simp] theorem exec_yset (a : BitVec 5) (b : BitVec 5) (c : BitVec 5) (s : State) : exec (Instr.yset a b c) s = execYset a b c s := rfl
@[simp] theorem exec_yinj (a : BitVec 5) (b : BitVec 5) (c : BitVec 5) (s : State) : exec (Instr.yinj a b c) s = execYinj a b c s := rfl
@[simp] theorem exec_ystat (a : BitVec 5) (s : State) : exec (Instr.ystat a) s = execYstat a s := rfl
@[simp] theorem exec_ystatClr (a : BitVec 5) (s : State) : exec (Instr.ystatClr a) s = execYstatClr a s := rfl
@[simp] theorem exec_qsearch (a : BitVec 5) (b : BitVec 5) (c : BitVec 5) (s : State) : exec (Instr.qsearch a b c) s = execQsearch a b c s := rfl
@[simp] theorem exec_bred (a : BitVec 5) (b : BitVec 5) (c : BitVec 5) (s : State) : exec (Instr.bred a b c) s = execBred a b c s := rfl
@[simp] theorem exec_chain (a : BitVec 5) (b : BitVec 5) (s : State) : exec (Instr.chain a b) s = execChain a b s := rfl
@[simp] theorem exec_bfpx (a : BitVec 5) (b : BitVec 5) (c : BitVec 5) (k : BitVec 3) (ty : Ty) (s : State) : exec (Instr.bfpx a b c k ty) s = execBfpx a b c k ty s := rfl
@[simp] theorem exec_bfpscl (a : BitVec 5) (b : BitVec 5) (c : BitVec 5) (s : State) : exec (Instr.bfpscl a b c) s = execBfpscl a b c s := rfl
@[simp] theorem exec_bfpq (a : BitVec 5) (b : BitVec 5) (c : BitVec 5) (n : BitVec 4) (s : State) : exec (Instr.bfpq a b c n) s = execBfpq a b c n s := rfl
@[simp] theorem exec_bfpcvt (a : BitVec 5) (b : BitVec 5) (ty : Ty) (n : BitVec 4) (s : State) : exec (Instr.bfpcvt a b ty n) s = execBfpcvt a b ty n s := rfl
@[simp] theorem exec_ecall (s : State) : exec (Instr.ecall) s = execEcall s := rfl
@[simp] theorem exec_eret (s : State) : exec (Instr.eret) s = execEret s := rfl
@[simp] theorem exec_mfs (a : BitVec 5) (num : BitVec 12) (s : State) : exec (Instr.mfs a num) s = execMfs a num s := rfl
@[simp] theorem exec_mts (a : BitVec 5) (num : BitVec 12) (s : State) : exec (Instr.mts a num) s = execMts a num s := rfl
@[simp] theorem exec_tlbinvPage (b : BitVec 5) (s : State) : exec (Instr.tlbinvPage b) s = execTlbinvPage b s := rfl
@[simp] theorem exec_tlbinvSpace (s : State) : exec (Instr.tlbinvSpace) s = execTlbinvSpace s := rfl
@[simp] theorem exec_cflushL (b : BitVec 5) (s : State) : exec (Instr.cflushL b) s = execCflushL b s := rfl
@[simp] theorem exec_cflushAll (s : State) : exec (Instr.cflushAll) s = execCflushAll s := rfl
@[simp] theorem exec_cflushRed (s : State) : exec (Instr.cflushRed) s = execCflushRed s := rfl
@[simp] theorem exec_isync (s : State) : exec (Instr.isync) s = execIsync s := rfl
@[simp] theorem exec_brk (code : BitVec 10) (s : State) : exec (Instr.brk code) s = execBrk code s := rfl
@[simp] theorem exec_wfe (a : BitVec 5) (t : Bool) (s : State) : exec (Instr.wfe a t) s = execWfe a t s := rfl
@[simp] theorem exec_preempt (a : BitVec 5) (b : BitVec 5) (s : State) : exec (Instr.preempt a b) s = execPreempt a b s := rfl
@[simp] theorem exec_takeAsyncTrap (proc : Nat) (s : State) : exec (Instr.takeAsyncTrap proc) s = execTakeAsyncTrap proc s := rfl
@[simp] theorem exec_timerEvent (proc : Nat) (s : State) : exec (Instr.timerEvent proc) s = execTimerEvent proc s := rfl
@[simp] theorem exec_fillArrival (n : Nat) (s : State) : exec (Instr.fillArrival n) s = execFillArrival n s := rfl
@[simp] theorem exec_waitDeadline (proc : Nat) (s : State) : exec (Instr.waitDeadline proc) s = execWaitDeadline proc s := rfl
@[simp] theorem exec_slotGiveUp (proc : Nat) (s : State) : exec (Instr.slotGiveUp proc) s = execSlotGiveUp proc s := rfl
@[simp] theorem exec_spillSwap (proc : Nat) (s : State) : exec (Instr.spillSwap proc) s = execSpillSwap proc s := rfl
@[simp] theorem exec_starvationRaise (proc : Nat) (s : State) : exec (Instr.starvationRaise proc) s = execStarvationRaise proc s := rfl
@[simp] theorem exec_quantumExpiry (proc : Nat) (s : State) : exec (Instr.quantumExpiry proc) s = execQuantumExpiry proc s := rfl
@[simp] theorem exec_preemptionHalt (proc : Nat) (s : State) : exec (Instr.preemptionHalt proc) s = execPreemptionHalt proc s := rfl
@[simp] theorem exec_stealRequest (place : Nat) (s : State) : exec (Instr.stealRequest place) s = execStealRequest place s := rfl
@[simp] theorem exec_stealExpiry (place : Nat) (s : State) : exec (Instr.stealExpiry place) s = execStealExpiry place s := rfl
@[simp] theorem exec_stealArrival (n : Nat) (s : State) : exec (Instr.stealArrival n) s = execStealArrival n s := rfl
@[simp] theorem exec_stealReturned (n : Nat) (s : State) : exec (Instr.stealReturned n) s = execStealReturned n s := rfl
@[simp] theorem exec_childEnd (n : Nat) (s : State) : exec (Instr.childEnd n) s = execChildEnd n s := rfl
@[simp] theorem exec_exitRetainTimeout (place : Nat) (s : State) : exec (Instr.exitRetainTimeout place) s = execExitRetainTimeout place s := rfl
@[simp] theorem exec_deadlockProbe (proc : Nat) (s : State) : exec (Instr.deadlockProbe proc) s = execDeadlockProbe proc s := rfl
@[simp] theorem exec_probeForward (n : Nat) (s : State) : exec (Instr.probeForward n) s = execProbeForward n s := rfl
@[simp] theorem exec_faultMessageRelease (place : Nat) (s : State) : exec (Instr.faultMessageRelease place) s = execFaultMessageRelease place s := rfl
@[simp] theorem exec_watchdogT1 (place : Nat) (asid : Nat) (queue : Nat) (s : State) : exec (Instr.watchdogT1 place asid queue) s = execWatchdogT1 place asid queue s := rfl
@[simp] theorem exec_watchdogT2 (place : Nat) (asid : Nat) (queue : Nat) (s : State) : exec (Instr.watchdogT2 place asid queue) s = execWatchdogT2 place asid queue s := rfl
@[simp] theorem exec_watchdogT3 (place : Nat) (asid : Nat) (queue : Nat) (s : State) : exec (Instr.watchdogT3 place asid queue) s = execWatchdogT3 place asid queue s := rfl
@[simp] theorem exec_feRefusal (n : Nat) (s : State) : exec (Instr.feRefusal n) s = execFeRefusal n s := rfl
@[simp] theorem exec_portRead (n : Nat) (s : State) : exec (Instr.portRead n) s = execPortRead n s := rfl
@[simp] theorem exec_portWrite (n : Nat) (s : State) : exec (Instr.portWrite n) s = execPortWrite n s := rfl
@[simp] theorem exec_portAtomic (n : Nat) (s : State) : exec (Instr.portAtomic n) s = execPortAtomic n s := rfl
@[simp] theorem exec_portCombine (n : Nat) (s : State) : exec (Instr.portCombine n) s = execPortCombine n s := rfl
@[simp] theorem exec_portRecall (home : Nat) (line : Nat) (s : State) : exec (Instr.portRecall home line) s = execPortRecall home line s := rfl
@[simp] theorem exec_portPush (n : Nat) (s : State) : exec (Instr.portPush n) s = execPortPush n s := rfl
@[simp] theorem exec_portChain (n : Nat) (s : State) : exec (Instr.portChain n) s = execPortChain n s := rfl
@[simp] theorem exec_portEread (n : Nat) (s : State) : exec (Instr.portEread n) s = execPortEread n s := rfl
@[simp] theorem exec_portEwrite (n : Nat) (s : State) : exec (Instr.portEwrite n) s = execPortEwrite n s := rfl
@[simp] theorem exec_portMigrate (n : Nat) (s : State) : exec (Instr.portMigrate n) s = execPortMigrate n s := rfl
@[simp] theorem exec_portHost (n : Nat) (s : State) : exec (Instr.portHost n) s = execPortHost n s := rfl
@[simp] theorem exec_budgetBoundary (home : Nat) (budget : Nat) (s : State) : exec (Instr.budgetBoundary home budget) s = execBudgetBoundary home budget s := rfl
@[simp] theorem exec_chainReturn (n : Nat) (s : State) : exec (Instr.chainReturn n) s = execChainReturn n s := rfl
@[simp] theorem exec_memoryServerRequest (place : Nat) (s : State) : exec (Instr.memoryServerRequest place) s = execMemoryServerRequest place s := rfl
@[simp] theorem exec_windowPush (n : Nat) (s : State) : exec (Instr.windowPush n) s = execWindowPush n s := rfl
@[simp] theorem exec_nodeFinish (n : Nat) (s : State) : exec (Instr.nodeFinish n) s = execNodeFinish n s := rfl
@[simp] theorem exec_matrixStepGrant (shed : Nat) (s : State) : exec (Instr.matrixStepGrant shed) s = execMatrixStepGrant shed s := rfl
@[simp] theorem exec_kstepRetire (shed : Nat) (s : State) : exec (Instr.kstepRetire shed) s = execKstepRetire shed s := rfl
@[simp] theorem exec_copyRun (place : Nat) (s : State) : exec (Instr.copyRun place) s = execCopyRun place s := rfl
@[simp] theorem exec_searchQueryStart (unit : Nat) (s : State) : exec (Instr.searchQueryStart unit) s = execSearchQueryStart unit s := rfl
@[simp] theorem exec_shardReport (n : Nat) (s : State) : exec (Instr.shardReport n) s = execShardReport n s := rfl
@[simp] theorem exec_bredChunk (unit : Nat) (s : State) : exec (Instr.bredChunk unit) s = execBredChunk unit s := rfl
@[simp] theorem exec_recordOffer (n : Nat) (s : State) : exec (Instr.recordOffer n) s = execRecordOffer n s := rfl
@[simp] theorem exec_recordReceive (n : Nat) (s : State) : exec (Instr.recordReceive n) s = execRecordReceive n s := rfl
@[simp] theorem exec_recordWithdrawal (n : Nat) (s : State) : exec (Instr.recordWithdrawal n) s = execRecordWithdrawal n s := rfl
@[simp] theorem exec_recordItem (n : Nat) (s : State) : exec (Instr.recordItem n) s = execRecordItem n s := rfl
@[simp] theorem exec_recordMarker (n : Nat) (s : State) : exec (Instr.recordMarker n) s = execRecordMarker n s := rfl
@[simp] theorem exec_recordErrorToken (n : Nat) (s : State) : exec (Instr.recordErrorToken n) s = execRecordErrorToken n s := rfl
@[simp] theorem exec_recordClose (n : Nat) (s : State) : exec (Instr.recordClose n) s = execRecordClose n s := rfl
@[simp] theorem exec_sendAck (n : Nat) (s : State) : exec (Instr.sendAck n) s = execSendAck n s := rfl
@[simp] theorem exec_tileGo (n : Nat) (s : State) : exec (Instr.tileGo n) s = execTileGo n s := rfl
@[simp] theorem exec_tileCopyLanded (n : Nat) (s : State) : exec (Instr.tileCopyLanded n) s = execTileCopyLanded n s := rfl
@[simp] theorem exec_slotToken (n : Nat) (s : State) : exec (Instr.slotToken n) s = execSlotToken n s := rfl
@[simp] theorem exec_lostEntry (dev : Nat) (port : Nat) (s : State) : exec (Instr.lostEntry dev port) s = execLostEntry dev port s := rfl
@[simp] theorem exec_recordCopy (n : Nat) (s : State) : exec (Instr.recordCopy n) s = execRecordCopy n s := rfl
@[simp] theorem exec_rebindAnnounce (n : Nat) (s : State) : exec (Instr.rebindAnnounce n) s = execRebindAnnounce n s := rfl
@[simp] theorem exec_rebindAck (n : Nat) (s : State) : exec (Instr.rebindAck n) s = execRebindAck n s := rfl
@[simp] theorem exec_inboxMessage (n : Nat) (s : State) : exec (Instr.inboxMessage n) s = execInboxMessage n s := rfl
@[simp] theorem exec_handlerDispatch (place : Nat) (asid : Nat) (s : State) : exec (Instr.handlerDispatch place asid) s = execHandlerDispatch place asid s := rfl
@[simp] theorem exec_delegRequest (n : Nat) (s : State) : exec (Instr.delegRequest n) s = execDelegRequest n s := rfl
@[simp] theorem exec_delegRoutineStart (place : Nat) (asid : Nat) (s : State) : exec (Instr.delegRoutineStart place asid) s = execDelegRoutineStart place asid s := rfl
@[simp] theorem exec_yardStep (place : Nat) (dom : Nat) (s : State) : exec (Instr.yardStep place dom) s = execYardStep place dom s := rfl
@[simp] theorem exec_yardInputItem (place : Nat) (input : Nat) (s : State) : exec (Instr.yardInputItem place input) s = execYardInputItem place input s := rfl
@[simp] theorem exec_yardClaimDone (place : Nat) (s : State) : exec (Instr.yardClaimDone place) s = execYardClaimDone place s := rfl
@[simp] theorem exec_yardRestore (place : Nat) (s : State) : exec (Instr.yardRestore place) s = execYardRestore place s := rfl
@[simp] theorem exec_moveHalt (proc : Nat) (s : State) : exec (Instr.moveHalt proc) s = execMoveHalt proc s := rfl
@[simp] theorem exec_moveCopy (proc : Nat) (s : State) : exec (Instr.moveCopy proc) s = execMoveCopy proc s := rfl
@[simp] theorem exec_migrationSwitch (page : Nat) (s : State) : exec (Instr.migrationSwitch page) s = execMigrationSwitch page s := rfl
@[simp] theorem exec_remapReload (home : Nat) (seg : Nat) (shadowOk : Bool) (s : State) : exec (Instr.remapReload home seg shadowOk) s = execRemapReload home seg shadowOk s := rfl
@[simp] theorem exec_flitAckTimeout (dev : Nat) (port : Nat) (s : State) : exec (Instr.flitAckTimeout dev port) s = execFlitAckTimeout dev port s := rfl
@[simp] theorem exec_laneSpare (dev : Nat) (port : Nat) (s : State) : exec (Instr.laneSpare dev port) s = execLaneSpare dev port s := rfl
@[simp] theorem exec_laneRetrain (dev : Nat) (port : Nat) (s : State) : exec (Instr.laneRetrain dev port) s = execLaneRetrain dev port s := rfl
@[simp] theorem exec_portDown (dev : Nat) (port : Nat) (s : State) : exec (Instr.portDown dev port) s = execPortDown dev port s := rfl
@[simp] theorem exec_pathGiveUp (dev : Nat) (port : Nat) (s : State) : exec (Instr.pathGiveUp dev port) s = execPathGiveUp dev port s := rfl
@[simp] theorem exec_reduceStep (binding : Nat) (s : State) : exec (Instr.reduceStep binding) s = execReduceStep binding s := rfl
@[simp] theorem exec_fanoutStep (binding : Nat) (s : State) : exec (Instr.fanoutStep binding) s = execFanoutStep binding s := rfl
@[simp] theorem exec_sessionAgreement (asid : Nat) (devA : Nat) (devB : Nat) (s : State) : exec (Instr.sessionAgreement asid devA devB) s = execSessionAgreement asid devA devB s := rfl
@[simp] theorem exec_launch (dev : Nat) (win : Nat) (tag : BitVec 16) (s : State) : exec (Instr.launch dev win tag) s = execLaunch dev win tag s := rfl
@[simp] theorem exec_endpoint (dev : Nat) (win : Nat) (tag : BitVec 16) (s : State) : exec (Instr.endpoint dev win tag) s = execEndpoint dev win tag s := rfl
@[simp] theorem exec_bind (dev : Nat) (win : Nat) (tag : BitVec 16) (s : State) : exec (Instr.bind dev win tag) s = execBind dev win tag s := rfl
@[simp] theorem exec_map (dev : Nat) (win : Nat) (tag : BitVec 16) (s : State) : exec (Instr.map dev win tag) s = execMap dev win tag s := rfl
@[simp] theorem exec_endpointDoorbell (dev : Nat) (win : Nat) (bell : BitVec 16) (s : State) : exec (Instr.endpointDoorbell dev win bell) s = execEndpointDoorbell dev win bell s := rfl
@[simp] theorem exec_hostAttest (dev : Nat) (win : Nat) (tag : BitVec 16) (s : State) : exec (Instr.hostAttest dev win tag) s = execHostAttest dev win tag s := rfl
@[simp] theorem exec_stage (dev : Nat) (win : Nat) (tag : BitVec 16) (s : State) : exec (Instr.stage dev win tag) s = execStage dev win tag s := rfl
@[simp] theorem exec_activate (dev : Nat) (win : Nat) (tag : BitVec 16) (s : State) : exec (Instr.activate dev win tag) s = execActivate dev win tag s := rfl
@[simp] theorem exec_service (dev : Nat) (win : Nat) (tag : BitVec 16) (s : State) : exec (Instr.service dev win tag) s = execService dev win tag s := rfl
@[simp] theorem exec_portTakeoutComplete (home : Nat) (s : State) : exec (Instr.portTakeoutComplete home) s = execPortTakeoutComplete home s := rfl
@[simp] theorem exec_hostCounter (dev : Nat) (win : Nat) (tag : BitVec 16) (s : State) : exec (Instr.hostCounter dev win tag) s = execHostCounter dev win tag s := rfl
@[simp] theorem exec_endSpace (dev : Nat) (win : Nat) (tag : BitVec 16) (s : State) : exec (Instr.endSpace dev win tag) s = execEndSpace dev win tag s := rfl
@[simp] theorem exec_hostMemAccess (dev : Nat) (off : Nat) (wr : Option (BitVec 64)) (s : State) : exec (Instr.hostMemAccess dev off wr) s = execHostMemAccess dev off wr s := rfl
@[simp] theorem exec_registerWrite (dev : Nat) (off : Nat) (val : Option (BitVec 64)) (s : State) : exec (Instr.registerWrite dev off val) s = execRegisterWrite dev off val s := rfl
@[simp] theorem exec_processMove (n : Nat) (s : State) : exec (Instr.processMove n) s = execProcessMove n s := rfl
@[simp] theorem exec_collectiveConfigure (n : Nat) (s : State) : exec (Instr.collectiveConfigure n) s = execCollectiveConfigure n s := rfl
@[simp] theorem exec_collectiveRelease (n : Nat) (s : State) : exec (Instr.collectiveRelease n) s = execCollectiveRelease n s := rfl
@[simp] theorem exec_root (n : Nat) (s : State) : exec (Instr.root n) s = execRoot n s := rfl
@[simp] theorem exec_migrate (n : Nat) (s : State) : exec (Instr.migrate n) s = execMigrate n s := rfl
@[simp] theorem exec_ovring (n : Nat) (s : State) : exec (Instr.ovring n) s = execOvring n s := rfl
@[simp] theorem exec_unitpool (n : Nat) (s : State) : exec (Instr.unitpool n) s = execUnitpool n s := rfl
@[simp] theorem exec_ttset (n : Nat) (s : State) : exec (Instr.ttset n) s = execTtset n s := rfl
@[simp] theorem exec_halt (n : Nat) (s : State) : exec (Instr.halt n) s = execHalt n s := rfl
@[simp] theorem exec_resume (n : Nat) (s : State) : exec (Instr.resume n) s = execResume n s := rfl
@[simp] theorem exec_kill (n : Nat) (s : State) : exec (Instr.kill n) s = execKill n s := rfl
@[simp] theorem exec_signal (n : Nat) (s : State) : exec (Instr.signal n) s = execSignal n s := rfl
@[simp] theorem exec_inbox (n : Nat) (s : State) : exec (Instr.inbox n) s = execInbox n s := rfl
@[simp] theorem exec_unfence (n : Nat) (s : State) : exec (Instr.unfence n) s = execUnfence n s := rfl
@[simp] theorem exec_counter (n : Nat) (s : State) : exec (Instr.counter n) s = execCounter n s := rfl
@[simp] theorem exec_attest (n : Nat) (s : State) : exec (Instr.attest n) s = execAttest n s := rfl
@[simp] theorem exec_powerOn (dev : Nat) (s : State) : exec (Instr.powerOn dev) s = execPowerOn dev s := rfl
@[simp] theorem exec_throttle (dev : Nat) (die : Nat) (s : State) : exec (Instr.throttle dev die) s = execThrottle dev die s := rfl
@[simp] theorem exec_overheatShutdown (dev : Nat) (die : Nat) (s : State) : exec (Instr.overheatShutdown dev die) s = execOverheatShutdown dev die s := rfl
@[simp] theorem exec_illegalWord (detail : BitVec 16) (tval : BitVec 64) (ext : Bool) (s : State) : exec (Instr.illegalWord detail tval ext) s = execIllegalWord detail tval ext s := rfl
@[simp] theorem exec_childCreation (n : Nat) (s : State) : exec (Instr.childCreation n) s = execChildCreation n s := rfl
@[simp] theorem exec_flitArrival (dev : Nat) (port : Nat) (crcOk : Bool) (tagOk : Bool) (s : State) : exec (Instr.flitArrival dev port crcOk tagOk) s = execFlitArrival dev port crcOk tagOk s := rfl
@[simp] theorem exec_linkPortUp (dev : Nat) (port : Nat) (s : State) : exec (Instr.linkPortUp dev port) s = execLinkPortUp dev port s := rfl
@[simp] theorem exec_toHostEndpointRoom (dev : Nat) (ep : Nat) (s : State) : exec (Instr.toHostEndpointRoom dev ep) s = execToHostEndpointRoom dev ep s := rfl
@[simp] theorem exec_throttleEnd (dev : Nat) (die : Nat) (s : State) : exec (Instr.throttleEnd dev die) s = execThrottleEnd dev die s := rfl

end Sys2Proof.Machine
end

