-- ==== Sys2Proof/Laws/Encode.lean ====
section
/-! SUPPORT. The fields of an encoded word are what the encoder put there; each major's words reach its decoder. -/

namespace Sys2Proof.Laws

theorem extract_append_low {m n : Nat} (x : BitVec m) (y : BitVec n) {lo len : Nat} (h : lo + len ≤ n) :
    (x ++ y).extractLsb' lo len = y.extractLsb' lo len := by
  ext i hi
  simp only [BitVec.getElem_extractLsb', BitVec.getLsbD_append]
  rw [if_pos (by omega)]

theorem extract_append_high {m n : Nat} (x : BitVec m) (y : BitVec n) {lo len : Nat} (h : n ≤ lo) :
    (x ++ y).extractLsb' lo len = x.extractLsb' (lo - n) len := by
  ext i hi
  simp only [BitVec.getElem_extractLsb', BitVec.getLsbD_append]
  rw [if_neg (by omega)]
  congr 1; omega

theorem extract_self {n : Nat} (x : BitVec n) : x.extractLsb' 0 n = x := by ext; simp

/-! ### The fields of R79 -/

theorem fldFn_encR (maj : BitVec 6) (a b c : BitVec 5) (fn : BitVec 11) : fldFn (encR maj a b c fn) = fn :=
  (extract_append_low (maj ++ a ++ b ++ c) fn (by omega)).trans (extract_self fn)

theorem fldC_encR (maj : BitVec 6) (a b c : BitVec 5) (fn : BitVec 11) : fldC (encR maj a b c fn) = c :=
  (extract_append_high (maj ++ a ++ b ++ c) fn (by omega)).trans
    ((extract_append_low (maj ++ a ++ b) c (by omega)).trans (extract_self c))

theorem fldB_encR (maj : BitVec 6) (a b c : BitVec 5) (fn : BitVec 11) : fldB (encR maj a b c fn) = b :=
  (extract_append_high (maj ++ a ++ b ++ c) fn (by omega)).trans ((extract_append_high (maj ++ a ++ b) c (by omega)).trans
    ((extract_append_low (maj ++ a) b (by omega)).trans (extract_self b)))

theorem fldA_encR (maj : BitVec 6) (a b c : BitVec 5) (fn : BitVec 11) : fldA (encR maj a b c fn) = a :=
  (extract_append_high (maj ++ a ++ b ++ c) fn (by omega)).trans ((extract_append_high (maj ++ a ++ b) c (by omega)).trans
    ((extract_append_high (maj ++ a) b (by omega)).trans ((extract_append_low maj a (by omega)).trans (extract_self a))))

theorem fldMaj_encR (maj : BitVec 6) (a b c : BitVec 5) (fn : BitVec 11) : fldMaj (encR maj a b c fn) = maj :=
  (extract_append_high (maj ++ a ++ b ++ c) fn (by omega)).trans ((extract_append_high (maj ++ a ++ b) c (by omega)).trans
    ((extract_append_high (maj ++ a) b (by omega)).trans ((extract_append_high maj a (by omega)).trans (extract_self maj))))

theorem fldImm_encI (maj : BitVec 6) (a b : BitVec 5) (i : BitVec 16) : fldImm (encI maj a b i) = i :=
  (extract_append_low (maj ++ a ++ b) i (by omega)).trans (extract_self i)

theorem fldB_encI (maj : BitVec 6) (a b : BitVec 5) (i : BitVec 16) : fldB (encI maj a b i) = b :=
  (extract_append_high (maj ++ a ++ b) i (by omega)).trans
    ((extract_append_low (maj ++ a) b (by omega)).trans (extract_self b))

theorem fldA_encI (maj : BitVec 6) (a b : BitVec 5) (i : BitVec 16) : fldA (encI maj a b i) = a :=
  (extract_append_high (maj ++ a ++ b) i (by omega)).trans ((extract_append_high (maj ++ a) b (by omega)).trans
    ((extract_append_low maj a (by omega)).trans (extract_self a)))

theorem fldMaj_encI (maj : BitVec 6) (a b : BitVec 5) (i : BitVec 16) : fldMaj (encI maj a b i) = maj :=
  (extract_append_high (maj ++ a ++ b) i (by omega)).trans ((extract_append_high (maj ++ a) b (by omega)).trans
    ((extract_append_high maj a (by omega)).trans (extract_self maj)))

theorem fldMaj_encJ (maj : BitVec 6) (x : BitVec 26) : fldMaj (encJ maj x) = maj :=
  (extract_append_high maj x (by omega)).trans (extract_self maj)

theorem fldImm26_encJ (maj : BitVec 6) (x : BitVec 26) : fldImm26 (encJ maj x) = x :=
  (extract_append_low maj x (by omega)).trans (extract_self x)

/-- The low four bits of a V-form's FN. -/
theorem low_kind (k : BitVec 3) (t f : BitVec 4) : (k ++ t ++ f : BitVec 11).extractLsb' 0 4 = f :=
  (extract_append_low (k ++ t) f (by omega)).trans (extract_self f)

theorem vFields_encR (maj : BitVec 6) (a b c : BitVec 5) (k : BitVec 3) (t f : BitVec 4) :
    vFields (encR maj a b c (k ++ t ++ f)) = ⟨a, b, c, k, t⟩ := by
  have hk : (k ++ t ++ f : BitVec 11).extractLsb' 8 3 = k :=
    (extract_append_high (k ++ t) f (by omega)).trans ((extract_append_high k t (by omega)).trans (extract_self k))
  have ht : (k ++ t ++ f : BitVec 11).extractLsb' 4 4 = t :=
    (extract_append_high (k ++ t) f (by omega)).trans ((extract_append_low k t (by omega)).trans (extract_self t))
  unfold vFields
  rw [fldA_encR, fldB_encR, fldC_encR, fldFn_encR, hk, ht]

/-! ### Codes -/

theorem ofCode_code (t : Ty) : Ty.ofCode t.code = some t := by cases t <;> rfl

theorem tyIn_code (acc : Ty → Bool) (t : Ty) (h : acc t = true) (k : Ty → Decoded) : tyIn acc t.code k = k t := by
  unfold tyIn; rw [ofCode_code]; unfold need; simp only [h, if_true]

theorem reg3_low (r : BitVec 3) (k : BitVec 3 → Decoded) : reg3 (0#2 ++ r) k = k r := by
  have h : (0#2 ++ r : BitVec 5).extractLsb' 3 2 = 0#2 := (extract_append_high 0#2 r (by omega)).trans (extract_self 0#2)
  have h' : (0#2 ++ r : BitVec 5).extractLsb' 0 3 = r := (extract_append_low 0#2 r (by omega)).trans (extract_self r)
  unfold reg3; rw [h, h']; rfl

theorem need_true {ok : Bool} (h : ok = true) {d : Nat} (k : Decoded) : need ok d k = k := by unfold need; rw [h]; rfl

theorem plain_zero (a b c : BitVec 5) (k : Decoded) : VFields.plain ⟨a, b, c, 0#3, 0#4⟩ k = k := rfl

theorem zero_field (k : Decoded) : need (0#5 == 0) 3 k = k := rfl

theorem two_bits (n : BitVec 2) : n = 0 ∨ n = 1 ∨ n = 2 ∨ n = 3 := by revert n; decide

theorem off_code (o : BitVec 13) (c : BitVec 3) : (o ++ c : BitVec 16).extractLsb' 0 3 = c :=
  (extract_append_low o c (by omega)).trans (extract_self c)

theorem off_value (o : BitVec 13) (c : BitVec 3) : (o ++ c : BitVec 16).extractLsb' 3 13 = o :=
  (extract_append_high o c (by omega)).trans (extract_self o)

theorem decShi_cat (a b : BitVec 5) (n : BitVec 6) (h : BitVec 10) (h0 : h.extractLsb' 2 8 = 0#8) :
    decShi a b (h ++ n) = match (h.extractLsb' 0 2).toNat with
      | 0 => .ok (.shiL a b n) | 1 => .ok (.shiR a b n) | 2 => .ok (.shiA a b n) | _ => .ok (.shiRol a b n) := by
  have e1 : (h ++ n : BitVec 16).extractLsb' 8 8 = 0#8 := (extract_append_high h n (by omega)).trans h0
  have e2 : (h ++ n : BitVec 16).extractLsb' 6 2 = h.extractLsb' 0 2 := extract_append_high h n (by omega)
  have e3 : (h ++ n : BitVec 16).extractLsb' 0 6 = n := (extract_append_low h n (by omega)).trans (extract_self n)
  unfold decShi; rw [e1, e2, e3]; rfl

/-! ### The majors -/

theorem decode1_encI (f : IForm) (a b : BitVec 5) (i : BitVec 16) : decode1 (encI f.major a b i) = decI f a b i := by
  unfold decode1; rw [fldMaj_encI, fldA_encI, fldB_encI, fldImm_encI]; cases f <;> rfl

theorem decode1_12 (x : BitVec 26) : decode1 (encJ 0x12#6 x) = .ok (.j x) := by
  unfold decode1 decMajor; rw [fldMaj_encJ, fldImm26_encJ]; rfl
theorem decode1_13 (x : BitVec 26) : decode1 (encJ 0x13#6 x) = .ok (.call x) := by
  unfold decode1 decMajor; rw [fldMaj_encJ, fldImm26_encJ]; rfl
theorem decode1_3E (x : BitVec 26) : decode1 (encJ 0x3E#6 x) = .ext x := by
  unfold decode1; rw [fldMaj_encJ, fldImm26_encJ]; rfl
theorem decode1_01 (a b c : BitVec 5) (fn : BitVec 11) : decode1 (encR 0x01#6 a b c fn) = dec01 a b c fn := by
  unfold decode1 decMajor; rw [fldMaj_encR, fldA_encR, fldB_encR, fldC_encR, fldFn_encR]; rfl
theorem decode1_14 (a b c : BitVec 5) (fn : BitVec 11) : decode1 (encR 0x14#6 a b c fn) = dec14 a b c fn := by
  unfold decode1 decMajor; rw [fldMaj_encR, fldA_encR, fldB_encR, fldC_encR, fldFn_encR]; rfl
theorem decode1_17 (a b c : BitVec 5) (fn : BitVec 11) : decode1 (encR 0x17#6 a b c fn) = dec17 a b c fn := by
  unfold decode1 decMajor; rw [fldMaj_encR, fldA_encR, fldB_encR, fldC_encR, fldFn_encR]; rfl
theorem decode1_1A (a b c : BitVec 5) (fn : BitVec 11) : decode1 (encR 0x1A#6 a b c fn) = dec1A a b c fn := by
  unfold decode1 decMajor; rw [fldMaj_encR, fldA_encR, fldB_encR, fldC_encR, fldFn_encR]; rfl
theorem decode1_1B (a b c : BitVec 5) (fn : BitVec 11) : decode1 (encR 0x1B#6 a b c fn) = dec1B a b c fn := by
  unfold decode1 decMajor; rw [fldMaj_encR, fldA_encR, fldB_encR, fldC_encR, fldFn_encR]; rfl
theorem decode1_1C (a b c : BitVec 5) (fn : BitVec 11) : decode1 (encR 0x1C#6 a b c fn) = dec1C a b c fn := by
  unfold decode1 decMajor; rw [fldMaj_encR, fldA_encR, fldB_encR, fldC_encR, fldFn_encR]; rfl
theorem decode1_1D (a b c : BitVec 5) (fn : BitVec 11) : decode1 (encR 0x1D#6 a b c fn) = dec1D a b c fn := by
  unfold decode1 decMajor; rw [fldMaj_encR, fldA_encR, fldB_encR, fldC_encR, fldFn_encR]; rfl
theorem decode1_1E (a b c : BitVec 5) (fn : BitVec 11) : decode1 (encR 0x1E#6 a b c fn) = dec1E a b c fn := by
  unfold decode1 decMajor; rw [fldMaj_encR, fldA_encR, fldB_encR, fldC_encR, fldFn_encR]; rfl
theorem decode1_29 (a b c : BitVec 5) (fn : BitVec 11) : decode1 (encR 0x29#6 a b c fn) = dec29 a b c fn := by
  unfold decode1 decMajor; rw [fldMaj_encR, fldA_encR, fldB_encR, fldC_encR, fldFn_encR]; rfl
theorem decode1_2A (a b c : BitVec 5) (fn : BitVec 11) : decode1 (encR 0x2A#6 a b c fn) = dec2A a b c fn := by
  unfold decode1 decMajor; rw [fldMaj_encR, fldA_encR, fldB_encR, fldC_encR, fldFn_encR]; rfl
theorem decode1_2B (a b c : BitVec 5) (fn : BitVec 11) : decode1 (encR 0x2B#6 a b c fn) = dec2B a b c fn := by
  unfold decode1 decMajor; rw [fldMaj_encR, fldA_encR, fldB_encR, fldC_encR, fldFn_encR]; rfl
theorem decode1_2C (a b c : BitVec 5) (fn : BitVec 11) : decode1 (encR 0x2C#6 a b c fn) = dec2C a b c fn := by
  unfold decode1 decMajor; rw [fldMaj_encR, fldA_encR, fldB_encR, fldC_encR, fldFn_encR]; rfl
theorem decode1_2D (a b c : BitVec 5) (fn : BitVec 11) : decode1 (encR 0x2D#6 a b c fn) = dec2D a b c fn := by
  unfold decode1 decMajor; rw [fldMaj_encR, fldA_encR, fldB_encR, fldC_encR, fldFn_encR]; rfl
theorem decode1_2F (a b c : BitVec 5) (fn : BitVec 11) : decode1 (encR 0x2F#6 a b c fn) = dec2F a b c fn := by
  unfold decode1 decMajor; rw [fldMaj_encR, fldA_encR, fldB_encR, fldC_encR, fldFn_encR]; rfl
theorem decode1_1F (a b c : BitVec 5) (k : BitVec 3) (t f : BitVec 4) :
    decode1 (encR 0x1F#6 a b c (k ++ t ++ f)) = dec1F ⟨a, b, c, k, t⟩ f := by
  unfold decode1 decMajor fldF; rw [vFields_encR, fldMaj_encR, fldFn_encR, low_kind]; rfl
theorem decode1_20 (a b c : BitVec 5) (k : BitVec 3) (t f : BitVec 4) :
    decode1 (encR 0x20#6 a b c (k ++ t ++ f)) = dec20 ⟨a, b, c, k, t⟩ f := by
  unfold decode1 decMajor fldF; rw [vFields_encR, fldMaj_encR, fldFn_encR, low_kind]; rfl
theorem decode1_21 (a b c : BitVec 5) (k : BitVec 3) (t f : BitVec 4) :
    decode1 (encR 0x21#6 a b c (k ++ t ++ f)) = dec21 ⟨a, b, c, k, t⟩ f := by
  unfold decode1 decMajor fldF; rw [vFields_encR, fldMaj_encR, fldFn_encR, low_kind]; rfl
theorem decode1_22 (a b c : BitVec 5) (k : BitVec 3) (t f : BitVec 4) :
    decode1 (encR 0x22#6 a b c (k ++ t ++ f)) = dec22 ⟨a, b, c, k, t⟩ f := by
  unfold decode1 decMajor fldF; rw [vFields_encR, fldMaj_encR, fldFn_encR, low_kind]; rfl
theorem decode1_23 (a b c : BitVec 5) (k : BitVec 3) (t f : BitVec 4) :
    decode1 (encR 0x23#6 a b c (k ++ t ++ f)) = dec23 ⟨a, b, c, k, t⟩ f := by
  unfold decode1 decMajor fldF; rw [vFields_encR, fldMaj_encR, fldFn_encR, low_kind]; rfl
theorem decode1_24 (a b c : BitVec 5) (k : BitVec 3) (t f : BitVec 4) :
    decode1 (encR 0x24#6 a b c (k ++ t ++ f)) = dec24 ⟨a, b, c, k, t⟩ f := by
  unfold decode1 decMajor fldF; rw [vFields_encR, fldMaj_encR, fldFn_encR, low_kind]; rfl
theorem decode1_25 (a b c : BitVec 5) (k : BitVec 3) (t f : BitVec 4) :
    decode1 (encR 0x25#6 a b c (k ++ t ++ f)) = dec25 ⟨a, b, c, k, t⟩ f := by
  unfold decode1 decMajor fldF; rw [vFields_encR, fldMaj_encR, fldFn_encR, low_kind]; rfl
theorem decode1_26 (a b c : BitVec 5) (k : BitVec 3) (t f : BitVec 4) :
    decode1 (encR 0x26#6 a b c (k ++ t ++ f)) = dec26 ⟨a, b, c, k, t⟩ f := by
  unfold decode1 decMajor fldF; rw [vFields_encR, fldMaj_encR, fldFn_encR, low_kind]; rfl
theorem decode1_27 (a b c : BitVec 5) (k : BitVec 3) (t f : BitVec 4) :
    decode1 (encR 0x27#6 a b c (k ++ t ++ f)) = dec27 ⟨a, b, c, k, t⟩ f := by
  unfold decode1 decMajor fldF; rw [vFields_encR, fldMaj_encR, fldFn_encR, low_kind]; rfl
theorem decode1_28 (a b c : BitVec 5) (k : BitVec 3) (t f : BitVec 4) :
    decode1 (encR 0x28#6 a b c (k ++ t ++ f)) = dec28 ⟨a, b, c, k, t⟩ f := by
  unfold decode1 decMajor fldF; rw [vFields_encR, fldMaj_encR, fldFn_encR, low_kind]; rfl
theorem decode1_2E (a b c : BitVec 5) (k : BitVec 3) (t f : BitVec 4) :
    decode1 (encR 0x2E#6 a b c (k ++ t ++ f)) = dec2E ⟨a, b, c, k, t⟩ f := by
  unfold decode1 decMajor fldF; rw [vFields_encR, fldMaj_encR, fldFn_encR, low_kind]; rfl

/-! ### Words with a door or another field that the table splits -/

theorem door_fields (d : BitVec 6) (x : BitVec 5) : (d ++ x : BitVec 11).extractLsb' 5 6 = d ∧
    (d ++ x : BitVec 11).getLsbD 4 = x.getLsbD 4 ∧ (d ++ x : BitVec 11).extractLsb' 0 4 = x.extractLsb' 0 4 :=
  ⟨(extract_append_high d x (by omega)).trans (extract_self d), (BitVec.getLsbD_append (x := d) (y := x) (i := 4)).trans (if_pos (by omega)), extract_append_low d x (by omega)⟩

theorem door_cat (d : BitVec 6) (t : BitVec 1) (op : BitVec 4) : (d ++ t ++ op : BitVec 11) = d ++ (t ++ op : BitVec 5) :=
  BitVec.append_assoc

theorem fence_word (p : Scope) (n : BitVec 4) : decode1 (encR 0x1B#6 0#5 0#5 (0#2 ++ p.code) (0#7 ++ n)) = .ok (.fence p n) := by
  have e1 : (0#7 ++ n : BitVec 11).getLsbD 10 = false :=
    (BitVec.getLsbD_append (x := 0#7) (y := n) (i := 10)).trans (if_neg (by omega))
  have e2 : (0#7 ++ n : BitVec 11).extractLsb' 5 5 = 0#5 := extract_append_high 0#7 n (by omega)
  have e3 : ((0#7 ++ n : BitVec 11).extractLsb' 0 5).extractLsb' 0 4 = n := by
    revert n; decide
  have e4 : ((0#7 ++ n : BitVec 11).extractLsb' 0 5).getLsbD 4 = false := by revert n; decide
  rw [decode1_1B]; unfold dec1B; simp only [e1, e2, e3, e4]; cases p <;> rfl

/-- Twelve bits are their upper five, their middle five and their lower two. -/
theorem num_split (n : BitVec 12) :
    (n.extractLsb' 7 5 ++ n.extractLsb' 2 5 ++ n.extractLsb' 0 2 : BitVec 12) = n := by
  revert n; decide +kernel

theorem mfs_word (a : BitVec 5) (num : BitVec 12) (h : sysNumOk num = true) :
    decode1 (encR 0x2F#6 a (num.extractLsb' 7 5) (num.extractLsb' 2 5) (16#9 ++ num.extractLsb' 0 2)) = .ok (.mfs a num) := by
  have e : ∀ (b c : BitVec 5) (n : BitVec 2), dec2F a b c (16#9 ++ n) =
      need (sysNumOk (b ++ c ++ n : BitVec 12)) 2 (.ok (.mfs a (b ++ c ++ n))) := by
    intro b c n; rcases two_bits n with rfl | rfl | rfl | rfl <;> rfl
  rw [decode1_2F, e, num_split]; exact need_true h _

theorem mts_word (a : BitVec 5) (num : BitVec 12) (h : sysNumOk num = true) :
    decode1 (encR 0x2F#6 a (num.extractLsb' 7 5) (num.extractLsb' 2 5) (24#9 ++ num.extractLsb' 0 2)) = .ok (.mts a num) := by
  have e : ∀ (b c : BitVec 5) (n : BitVec 2), dec2F a b c (24#9 ++ n) =
      need (sysNumOk (b ++ c ++ n : BitVec 12)) 2 (.ok (.mts a (b ++ c ++ n))) := by
    intro b c n; rcases two_bits n with rfl | rfl | rfl | rfl <;> rfl
  rw [decode1_2F, e, num_split]; exact need_true h _

theorem brk_word (code : BitVec 10) :
    decode1 (encR 0x2F#6 0#5 (code.extractLsb' 5 5) (code.extractLsb' 0 5) 0x0E0#11) = .ok (.brk code) := by
  have e : (code.extractLsb' 5 5 ++ code.extractLsb' 0 5 : BitVec 10) = code := by
    revert code; decide +kernel
  have e' : ∀ b c : BitVec 5, dec2F 0#5 b c 0x0E0#11 = .ok (.brk (b ++ c)) := fun _ _ => rfl
  rw [decode1_2F, e', e]

theorem vcvt_word (a b : BitVec 5) (rtz : Bool) (src : Ty) (k : BitVec 3) (ty : Ty) (q : BitVec 3) (sat : Bool)
    (h : (vcvtTypes src ty && vcvtParts src ty q sat) = true) :
    decode1 (encR 0x22#6 a b (BitVec.ofBool rtz ++ src.code) (k ++ ty.code ++ q ++ BitVec.ofBool sat)) =
      .ok (.vcvt a b rtz src k ty q sat) := by
  have hc : (k ++ ty.code ++ q ++ BitVec.ofBool sat : BitVec 11) = k ++ ty.code ++ (q ++ BitVec.ofBool sat : BitVec 4) :=
    BitVec.append_assoc
  have e1 : (BitVec.ofBool rtz ++ src.code : BitVec 5).extractLsb' 0 4 = src.code :=
    (extract_append_low (BitVec.ofBool rtz) src.code (by omega)).trans (extract_self _)
  have e2 : (BitVec.ofBool rtz ++ src.code : BitVec 5).getLsbD 4 = rtz := by cases rtz <;> cases src <;> rfl
  have e3 : (q ++ BitVec.ofBool sat : BitVec 4).extractLsb' 1 3 = q :=
    (extract_append_high q (BitVec.ofBool sat) (by omega)).trans (extract_self q)
  have e4 : (q ++ BitVec.ofBool sat : BitVec 4).getLsbD 0 = sat := by
    have : (q ++ BitVec.ofBool sat).getLsbD 0 = (BitVec.ofBool sat).getLsbD 0 := BitVec.getLsbD_append.trans (if_pos (by omega))
    exact this.trans (by cases sat <;> rfl)
  rw [Bool.and_eq_true] at h
  rw [hc, decode1_22]; unfold dec22
  simp only [e1, e2, e3, e4, ofCode_code]
  rw [need_true h.1, need_true h.2]

theorem bfpq_word (a b c : BitVec 5) (n : BitVec 4) (h : decide (2 ≤ n.toNat ∧ n.toNat ≤ 8) = true) :
    decode1 (encR 0x2E#6 a b c (14#7 ++ n)) = .ok (.bfpq a b c n) := by
  have e : dec2E ⟨a, b, c, 0#3, 14#4⟩ n = .ok (.bfpq a b c n) := by
    have hn := of_decide_eq_true h
    have h0 : (n == 0) = false := by rw [beq_eq_false_iff_ne]; rintro rfl; simp at hn
    have h1 : (n == 1) = false := by rw [beq_eq_false_iff_ne]; rintro rfl; simp at hn
    unfold dec2E; simp only [h0, h1]; rw [if_pos hn.2]; rfl
  exact (decode1_2E a b c 0#3 14#4 n).trans e

theorem bfpcvt_word (a b : BitVec 5) (ty : Ty) (n : BitVec 4)
    (h : (ty.isFn && decide (2 ≤ n.toNat ∧ n.toNat ≤ 8) && decide (b.toNat + bfpcvtRegs n.toNat ty ≤ 32)) = true) :
    decode1 (encR 0x2E#6 a b 0#5 (0#3 ++ ty.code ++ (n + 7))) = .ok (.bfpcvt a b ty n) := by
  simp only [Bool.and_eq_true, decide_eq_true_eq] at h
  have hn : n + 7 - 7 = n := by clear h; revert n; decide
  have h0 : (n + 7 == 0) = false ∧ (n + 7 == 1) = false ∧ ¬ (n + 7).toNat ≤ 8 := by
    have := h.1.2; revert this; clear h hn; revert n; decide
  rw [decode1_2E]; unfold dec2E
  simp only [h0.1, h0.2.1, hn]
  rw [if_neg (by decide), if_neg (by decide), if_neg h0.2.2]
  exact (tyIn_code Ty.isFn ty h.1.1 _).trans (need_true (decide_eq_true h.2) _)

end Sys2Proof.Laws
end

