-- ==== Sys2Proof/Laws/Memory.lean ====
section
/-! SUPPORT. The laws of maps, sets and memory: read after write, frames, and the canonical forms. -/

namespace Sys2Proof.Machine

/-! ### Maps -/

@[simp] theorem mget_mset_self {α : Type} (m : Map α) (i : Nat) (x : α) : mget (mset m i x) i = some x := by
  induction m with
  | nil => simp [mset, mget]
  | cons e r ih => obtain ⟨k, v⟩ := e; simp only [mset]; split_ifs <;> simp_all [mget]; omega

theorem mget_mset_of_ne {α : Type} (m : Map α) {i j : Nat} (x : α) (h : i ≠ j) : mget (mset m i x) j = mget m j := by
  induction m with
  | nil => simp [mset, mget, h]
  | cons e r ih => obtain ⟨k, v⟩ := e; simp only [mset]; split_ifs <;> simp_all [mget]

theorem mget_mset {α : Type} (m : Map α) (i j : Nat) (x : α) :
    mget (mset m i x) j = if i = j then some x else mget m j := by
  split_ifs with h
  · subst h; simp
  · exact mget_mset_of_ne m x h

/-- The keys of a map rise. -/
def Rising {α : Type} (m : Map α) : Prop := m.Pairwise fun a b => a.1 < b.1

/-! ### Sets -/

theorem mem_sadd {l : List Nat} {i x : Nat} : x ∈ sadd l i ↔ x = i ∨ x ∈ l := by
  induction l with
  | nil => simp [sadd]
  | cons k r ih => simp only [sadd]; split_ifs <;> simp_all <;> tauto

theorem mem_sdel_subset {l : List Nat} {i x : Nat} (h : x ∈ sdel l i) : x ∈ l := by
  induction l with
  | nil => simp [sdel] at h
  | cons k r ih => simp only [sdel] at h; split_ifs at h <;> simp_all <;> tauto

theorem sadd_pairwise {l : List Nat} (h : l.Pairwise (· < ·)) (i : Nat) : (sadd l i).Pairwise (· < ·) := by
  induction l with
  | nil => simp [sadd]
  | cons k r ih =>
    rw [List.pairwise_cons] at h
    simp only [sadd]
    split_ifs with h1 h2
    · exact List.pairwise_cons.2 ⟨fun a ha => by
        rcases List.mem_cons.1 ha with rfl | ha
        · exact h1
        · exact h1.trans (h.1 a ha), List.pairwise_cons.2 h⟩
    · exact List.pairwise_cons.2 h
    · refine List.pairwise_cons.2 ⟨fun a ha => ?_, ih h.2⟩
      rcases mem_sadd.1 ha with rfl | ha
      · omega
      · exact h.1 a ha

theorem sdel_pairwise {l : List Nat} (h : l.Pairwise (· < ·)) (i : Nat) : (sdel l i).Pairwise (· < ·) := by
  induction l with
  | nil => simp [sdel]
  | cons k r ih =>
    rw [List.pairwise_cons] at h
    simp only [sdel]
    split_ifs
    · exact h.2
    · exact List.pairwise_cons.2 ⟨fun a ha => h.1 a (mem_sdel_subset ha), ih h.2⟩

@[simp] theorem smem_sadd_self (l : List Nat) (i : Nat) : smem (sadd l i) i = true := by
  induction l with
  | nil => simp [sadd, smem]
  | cons k r ih => simp only [sadd]; split_ifs <;> simp_all [smem]

/-! ### Memory -/

theorem memWfFrom_mono {m : List Host.Cell} {lo hi : Nat} (h : memWfFrom hi m = true) (hl : lo ≤ hi) :
    memWfFrom lo m = true := by
  cases m with
  | nil => rfl
  | cons e r =>
    obtain ⟨k, v⟩ := e
    simp only [memWfFrom, Bool.and_eq_true, decide_eq_true_eq] at h ⊢
    exact ⟨⟨by omega, h.1.2⟩, h.2⟩

theorem memGet_of_wfFrom {m : List Host.Cell} {lo a : Nat} (h : memWfFrom lo m = true) (ha : a < lo) : memGet m a = 0 := by
  induction m generalizing lo with
  | nil => rfl
  | cons e r ih =>
    obtain ⟨k, v⟩ := e
    simp only [memWfFrom, Bool.and_eq_true, decide_eq_true_eq] at h
    rw [memGet, if_neg (by omega)]
    exact ih h.2 (by omega)

/-- A byte reads as it was last written, in memory of canonical form. -/
theorem memGet_memSet {m : List Host.Cell} {lo : Nat} (h : memWfFrom lo m = true) (a : Nat) (b : Byte) (x : Nat) :
    memGet (memSet m a b) x = if x = a then b else memGet m x := by
  induction m generalizing lo with
  | nil =>
    simp only [memSet]
    split_ifs with hb hx hx
    · simp only [memGet, hb]
    · rfl
    · subst hx; simp [memGet]
    · simp only [memGet]; rw [if_neg (Ne.symm hx)]
  | cons e r ih =>
    obtain ⟨k, v⟩ := e
    simp only [memWfFrom, Bool.and_eq_true, decide_eq_true_eq] at h
    have hr : ∀ y, y ≤ k → memGet r y = 0 := fun y hy => memGet_of_wfFrom h.2 (by omega)
    have ih := ih h.2
    have hc : ∀ (k : Nat) (v : Byte) (r : List Host.Cell), memGet ((k, v) :: r) x = if k = x then v else memGet r x :=
      fun _ _ _ => rfl
    have hs : memSet ((k, v) :: r) a b =
        if a < k then (if b = 0 then (k, v) :: r else (a, b) :: (k, v) :: r)
        else if a = k then (if b = 0 then r else (a, b) :: r) else (k, v) :: memSet r a b := rfl
    rw [hs]
    by_cases hx : x = a
    · subst hx
      rw [if_pos rfl] at ih ⊢
      split_ifs with h1 h2 h3 h4
      · rw [hc, if_neg (by omega), hr _ (by omega), h2]
      · rw [hc, if_pos rfl]
      · rw [hr _ (by omega), h4]
      · rw [hc, if_pos rfl]
      · rw [hc, if_neg (by omega), ih]
    · rw [if_neg hx] at ih ⊢
      split_ifs with h1 h2 h3 h4
      · rfl
      · rw [hc, if_neg (Ne.symm hx)]
      · rw [hc, if_neg (by omega)]
      · rw [hc, hc, if_neg (Ne.symm hx), if_neg (by omega)]
      · rw [hc, hc, ih]

/-- A write keeps the canonical form. -/
theorem memWfFrom_memSet {m : List Host.Cell} {lo : Nat} (h : memWfFrom lo m = true) {a : Nat} (ha : lo ≤ a) (b : Byte) :
    memWfFrom lo (memSet m a b) = true := by
  induction m generalizing lo with
  | nil =>
    simp only [memSet]
    split_ifs with hb
    · rfl
    · simp only [memWfFrom, Bool.and_eq_true, decide_eq_true_eq]; exact ⟨⟨ha, by simpa using hb⟩, trivial⟩
  | cons e r ih =>
    obtain ⟨k, v⟩ := e
    simp only [memWfFrom, Bool.and_eq_true, decide_eq_true_eq] at h
    simp only [memSet]
    split_ifs with h1 h2 h3 h4
    · simp only [memWfFrom, Bool.and_eq_true, decide_eq_true_eq]; exact h
    · simp only [memWfFrom, Bool.and_eq_true, decide_eq_true_eq]
      exact ⟨⟨ha, by simpa using h2⟩, ⟨by omega, h.1.2⟩, h.2⟩
    · exact memWfFrom_mono h.2 (by omega)
    · simp only [memWfFrom, Bool.and_eq_true, decide_eq_true_eq]
      subst h3
      exact ⟨⟨ha, by simpa using h4⟩, h.2⟩
    · simp only [memWfFrom, Bool.and_eq_true, decide_eq_true_eq]
      exact ⟨h.1, ih h.2 (by omega)⟩

theorem wf_memSet {m : List Host.Cell} (h : Memory.wf m = true) (a : Nat) (b : Byte) : Memory.wf (memSet m a b) = true :=
  memWfFrom_memSet h (Nat.zero_le a) b

/-- Storing bytes keeps the canonical form. -/
theorem wf_memPut {m : List Host.Cell} (h : Memory.wf m = true) (a : Nat) (bs : List Byte) :
    Memory.wf (memPut m a bs) = true := by
  induction bs generalizing m a with
  | nil => exact h
  | cons b r ih => exact ih (wf_memSet h a b) (a + 1)

/-- Storing bytes leaves every byte outside them as it was. -/
theorem memGet_memPut_of_out {m : List Host.Cell} (h : Memory.wf m = true) {a : Nat} {bs : List Byte} {x : Nat}
    (hx : x < a ∨ a + bs.length ≤ x) : memGet (memPut m a bs) x = memGet m x := by
  induction bs generalizing m a with
  | nil => rfl
  | cons b r ih =>
    rw [memPut, ih (wf_memSet h a b) (by simp only [List.length_cons] at hx; omega), memGet_memSet h, if_neg]
    simp only [List.length_cons] at hx; omega

/-- Stored bytes read back. -/
theorem memGet_memPut_in {m : List Host.Cell} (h : Memory.wf m = true) {a : Nat} {bs : List Byte} {i : Nat}
    (hi : i < bs.length) : memGet (memPut m a bs) (a + i) = bs[i] := by
  induction bs generalizing m a i with
  | nil => simp at hi
  | cons b r ih =>
    rw [memPut]
    cases i with
    | zero => rw [memGet_memPut_of_out (wf_memSet h a b) (by omega), memGet_memSet h]; simp
    | succ i =>
      have h1 := ih (wf_memSet h a b) (a := a + 1) (i := i) (by simpa using hi)
      rw [show a + (i + 1) = a + 1 + i by omega, h1]; simp

theorem memBytes_length (m : List Host.Cell) (a n : Nat) : (memBytes m a n).length = n := by
  induction n generalizing a with
  | zero => rfl
  | succ n ih => simp [memBytes, ih]

theorem leBytes_length (n x : Nat) : (leBytes n x).length = n := by
  induction n generalizing x with
  | zero => rfl
  | succ n ih => simp [leBytes, ih]

theorem leNat_leBytes (n x : Nat) : leNat (leBytes n x) = x % 256 ^ n := by
  induction n generalizing x with
  | zero => simp [leBytes, leNat, Nat.mod_one]
  | succ n ih =>
    rw [leBytes, leNat, ih, BitVec.toNat_ofNat, show (2 : Nat) ^ 8 = 256 from rfl, Nat.pow_succ', Nat.mod_mul]

/-- Stored bytes read back as a block. -/
theorem memBytes_memPut {m : List Host.Cell} (h : Memory.wf m = true) (a : Nat) (bs : List Byte) :
    memBytes (memPut m a bs) a bs.length = bs := by
  induction bs generalizing m a with
  | nil => rfl
  | cons b r ih =>
    rw [List.length_cons, memBytes, memPut, ih (wf_memSet h a b), memGet_memPut_of_out (wf_memSet h a b) (by omega),
      memGet_memSet h]
    simp

/-- A stored number reads back. -/
theorem memNat_memPut {m : List Host.Cell} (h : Memory.wf m = true) (a n x : Nat) :
    memNat (memPut m a (leBytes n x)) a n = x % 256 ^ n := by
  have h1 := memBytes_memPut h a (leBytes n x)
  rw [leBytes_length] at h1
  rw [memNat, h1, leNat_leBytes]

end Sys2Proof.Machine
end

