-- ==== Sys2Proof/Laws/State.lean ====
section
/-! SUPPORT. What each update of the state and of a process leaves alone and what it writes: one lemma for each
field and update, so that no proof unfolds a record update. -/

namespace Sys2Proof.Machine


@[simp] theorem State.setProc_mem (s : State) (k : Nat) (p : Proc) : (s.setProc k p).mem = s.mem := rfl
@[simp] theorem State.setProc_empties (s : State) (k : Nat) (p : Proc) : (s.setProc k p).empties = s.empties := rfl
@[simp] theorem State.setProc_poisoned (s : State) (k : Nat) (p : Proc) : (s.setProc k p).poisoned = s.poisoned := rfl
@[simp] theorem State.setProc_ecc (s : State) (k : Nat) (p : Proc) : (s.setProc k p).ecc = s.ecc := rfl
@[simp] theorem State.setProc_procs (s : State) (k : Nat) (p : Proc) : (s.setProc k p).procs = mset s.procs k p := rfl
@[simp] theorem State.setProc_cores (s : State) (k : Nat) (p : Proc) : (s.setProc k p).cores = s.cores := rfl
@[simp] theorem State.setProc_sheds (s : State) (k : Nat) (p : Proc) : (s.setProc k p).sheds = s.sheds := rfl
@[simp] theorem State.setProc_chans (s : State) (k : Nat) (p : Proc) : (s.setProc k p).chans = s.chans := rfl
@[simp] theorem State.setProc_homes (s : State) (k : Nat) (p : Proc) : (s.setProc k p).homes = s.homes := rfl
@[simp] theorem State.setProc_spaces (s : State) (k : Nat) (p : Proc) : (s.setProc k p).spaces = s.spaces := rfl
@[simp] theorem State.setProc_bases (s : State) (k : Nat) (p : Proc) : (s.setProc k p).bases = s.bases := rfl
@[simp] theorem State.setProc_merges (s : State) (k : Nat) (p : Proc) : (s.setProc k p).merges = s.merges := rfl
@[simp] theorem State.setProc_links (s : State) (k : Nat) (p : Proc) : (s.setProc k p).links = s.links := rfl
@[simp] theorem State.setProc_colls (s : State) (k : Nat) (p : Proc) : (s.setProc k p).colls = s.colls := rfl
@[simp] theorem State.setProc_windows (s : State) (k : Nat) (p : Proc) : (s.setProc k p).windows = s.windows := rfl
@[simp] theorem State.setProc_hostEps (s : State) (k : Nat) (p : Proc) : (s.setProc k p).hostEps = s.hostEps := rfl
@[simp] theorem State.setProc_devices (s : State) (k : Nat) (p : Proc) : (s.setProc k p).devices = s.devices := rfl
@[simp] theorem State.setProc_migrations (s : State) (k : Nat) (p : Proc) : (s.setProc k p).migrations = s.migrations := rfl
@[simp] theorem State.setProc_servers (s : State) (k : Nat) (p : Proc) : (s.setProc k p).servers = s.servers := rfl
@[simp] theorem State.setProc_sessions (s : State) (k : Nat) (p : Proc) : (s.setProc k p).sessions = s.sessions := rfl
@[simp] theorem State.setProc_counters (s : State) (k : Nat) (p : Proc) : (s.setProc k p).counters = s.counters := rfl
@[simp] theorem State.setProc_signals (s : State) (k : Nat) (p : Proc) : (s.setProc k p).signals = s.signals := rfl
@[simp] theorem State.setProc_net (s : State) (k : Nat) (p : Proc) : (s.setProc k p).net = s.net := rfl
@[simp] theorem State.setProc_agenda (s : State) (k : Nat) (p : Proc) : (s.setProc k p).agenda = s.agenda := rfl
@[simp] theorem State.setProc_cycle (s : State) (k : Nat) (p : Proc) : (s.setProc k p).cycle = s.cycle := rfl
@[simp] theorem State.setProc_pace (s : State) (k : Nat) (p : Proc) : (s.setProc k p).pace = s.pace := rfl
@[simp] theorem State.setProc_cur (s : State) (k : Nat) (p : Proc) : (s.setProc k p).cur = s.cur := rfl
@[simp] theorem State.setProc_turn (s : State) (k : Nat) (p : Proc) : (s.setProc k p).turn = s.turn := rfl
@[simp] theorem State.setProc_hostData (s : State) (k : Nat) (p : Proc) : (s.setProc k p).hostData = s.hostData := rfl
@[simp] theorem State.setProc_hostPoison (s : State) (k : Nat) (p : Proc) : (s.setProc k p).hostPoison = s.hostPoison := rfl
@[simp] theorem State.setProc_carried (s : State) (k : Nat) (p : Proc) : (s.setProc k p).carried = s.carried := rfl
@[simp] theorem State.setProc_nextChan (s : State) (k : Nat) (p : Proc) : (s.setProc k p).nextChan = s.nextChan := rfl
@[simp] theorem State.setProc_free (s : State) (k : Nat) (p : Proc) : (s.setProc k p).free = s.free := rfl

@[simp] theorem State.setCore_mem (s : State) (k : Nat) (p : Core) : (s.setCore k p).mem = s.mem := rfl
@[simp] theorem State.setCore_empties (s : State) (k : Nat) (p : Core) : (s.setCore k p).empties = s.empties := rfl
@[simp] theorem State.setCore_poisoned (s : State) (k : Nat) (p : Core) : (s.setCore k p).poisoned = s.poisoned := rfl
@[simp] theorem State.setCore_ecc (s : State) (k : Nat) (p : Core) : (s.setCore k p).ecc = s.ecc := rfl
@[simp] theorem State.setCore_procs (s : State) (k : Nat) (p : Core) : (s.setCore k p).procs = s.procs := rfl
@[simp] theorem State.setCore_cores (s : State) (k : Nat) (p : Core) : (s.setCore k p).cores = mset s.cores k p := rfl
@[simp] theorem State.setCore_sheds (s : State) (k : Nat) (p : Core) : (s.setCore k p).sheds = s.sheds := rfl
@[simp] theorem State.setCore_chans (s : State) (k : Nat) (p : Core) : (s.setCore k p).chans = s.chans := rfl
@[simp] theorem State.setCore_homes (s : State) (k : Nat) (p : Core) : (s.setCore k p).homes = s.homes := rfl
@[simp] theorem State.setCore_spaces (s : State) (k : Nat) (p : Core) : (s.setCore k p).spaces = s.spaces := rfl
@[simp] theorem State.setCore_bases (s : State) (k : Nat) (p : Core) : (s.setCore k p).bases = s.bases := rfl
@[simp] theorem State.setCore_merges (s : State) (k : Nat) (p : Core) : (s.setCore k p).merges = s.merges := rfl
@[simp] theorem State.setCore_links (s : State) (k : Nat) (p : Core) : (s.setCore k p).links = s.links := rfl
@[simp] theorem State.setCore_colls (s : State) (k : Nat) (p : Core) : (s.setCore k p).colls = s.colls := rfl
@[simp] theorem State.setCore_windows (s : State) (k : Nat) (p : Core) : (s.setCore k p).windows = s.windows := rfl
@[simp] theorem State.setCore_hostEps (s : State) (k : Nat) (p : Core) : (s.setCore k p).hostEps = s.hostEps := rfl
@[simp] theorem State.setCore_devices (s : State) (k : Nat) (p : Core) : (s.setCore k p).devices = s.devices := rfl
@[simp] theorem State.setCore_migrations (s : State) (k : Nat) (p : Core) : (s.setCore k p).migrations = s.migrations := rfl
@[simp] theorem State.setCore_servers (s : State) (k : Nat) (p : Core) : (s.setCore k p).servers = s.servers := rfl
@[simp] theorem State.setCore_sessions (s : State) (k : Nat) (p : Core) : (s.setCore k p).sessions = s.sessions := rfl
@[simp] theorem State.setCore_counters (s : State) (k : Nat) (p : Core) : (s.setCore k p).counters = s.counters := rfl
@[simp] theorem State.setCore_signals (s : State) (k : Nat) (p : Core) : (s.setCore k p).signals = s.signals := rfl
@[simp] theorem State.setCore_net (s : State) (k : Nat) (p : Core) : (s.setCore k p).net = s.net := rfl
@[simp] theorem State.setCore_agenda (s : State) (k : Nat) (p : Core) : (s.setCore k p).agenda = s.agenda := rfl
@[simp] theorem State.setCore_cycle (s : State) (k : Nat) (p : Core) : (s.setCore k p).cycle = s.cycle := rfl
@[simp] theorem State.setCore_pace (s : State) (k : Nat) (p : Core) : (s.setCore k p).pace = s.pace := rfl
@[simp] theorem State.setCore_cur (s : State) (k : Nat) (p : Core) : (s.setCore k p).cur = s.cur := rfl
@[simp] theorem State.setCore_turn (s : State) (k : Nat) (p : Core) : (s.setCore k p).turn = s.turn := rfl
@[simp] theorem State.setCore_hostData (s : State) (k : Nat) (p : Core) : (s.setCore k p).hostData = s.hostData := rfl
@[simp] theorem State.setCore_hostPoison (s : State) (k : Nat) (p : Core) : (s.setCore k p).hostPoison = s.hostPoison := rfl
@[simp] theorem State.setCore_carried (s : State) (k : Nat) (p : Core) : (s.setCore k p).carried = s.carried := rfl
@[simp] theorem State.setCore_nextChan (s : State) (k : Nat) (p : Core) : (s.setCore k p).nextChan = s.nextChan := rfl
@[simp] theorem State.setCore_free (s : State) (k : Nat) (p : Core) : (s.setCore k p).free = s.free := rfl

@[simp] theorem State.setChan_mem (s : State) (k : Nat) (p : Chan) : (s.setChan k p).mem = s.mem := rfl
@[simp] theorem State.setChan_empties (s : State) (k : Nat) (p : Chan) : (s.setChan k p).empties = s.empties := rfl
@[simp] theorem State.setChan_poisoned (s : State) (k : Nat) (p : Chan) : (s.setChan k p).poisoned = s.poisoned := rfl
@[simp] theorem State.setChan_ecc (s : State) (k : Nat) (p : Chan) : (s.setChan k p).ecc = s.ecc := rfl
@[simp] theorem State.setChan_procs (s : State) (k : Nat) (p : Chan) : (s.setChan k p).procs = s.procs := rfl
@[simp] theorem State.setChan_cores (s : State) (k : Nat) (p : Chan) : (s.setChan k p).cores = s.cores := rfl
@[simp] theorem State.setChan_sheds (s : State) (k : Nat) (p : Chan) : (s.setChan k p).sheds = s.sheds := rfl
@[simp] theorem State.setChan_chans (s : State) (k : Nat) (p : Chan) : (s.setChan k p).chans = mset s.chans k p := rfl
@[simp] theorem State.setChan_homes (s : State) (k : Nat) (p : Chan) : (s.setChan k p).homes = s.homes := rfl
@[simp] theorem State.setChan_spaces (s : State) (k : Nat) (p : Chan) : (s.setChan k p).spaces = s.spaces := rfl
@[simp] theorem State.setChan_bases (s : State) (k : Nat) (p : Chan) : (s.setChan k p).bases = s.bases := rfl
@[simp] theorem State.setChan_merges (s : State) (k : Nat) (p : Chan) : (s.setChan k p).merges = s.merges := rfl
@[simp] theorem State.setChan_links (s : State) (k : Nat) (p : Chan) : (s.setChan k p).links = s.links := rfl
@[simp] theorem State.setChan_colls (s : State) (k : Nat) (p : Chan) : (s.setChan k p).colls = s.colls := rfl
@[simp] theorem State.setChan_windows (s : State) (k : Nat) (p : Chan) : (s.setChan k p).windows = s.windows := rfl
@[simp] theorem State.setChan_hostEps (s : State) (k : Nat) (p : Chan) : (s.setChan k p).hostEps = s.hostEps := rfl
@[simp] theorem State.setChan_devices (s : State) (k : Nat) (p : Chan) : (s.setChan k p).devices = s.devices := rfl
@[simp] theorem State.setChan_migrations (s : State) (k : Nat) (p : Chan) : (s.setChan k p).migrations = s.migrations := rfl
@[simp] theorem State.setChan_servers (s : State) (k : Nat) (p : Chan) : (s.setChan k p).servers = s.servers := rfl
@[simp] theorem State.setChan_sessions (s : State) (k : Nat) (p : Chan) : (s.setChan k p).sessions = s.sessions := rfl
@[simp] theorem State.setChan_counters (s : State) (k : Nat) (p : Chan) : (s.setChan k p).counters = s.counters := rfl
@[simp] theorem State.setChan_signals (s : State) (k : Nat) (p : Chan) : (s.setChan k p).signals = s.signals := rfl
@[simp] theorem State.setChan_net (s : State) (k : Nat) (p : Chan) : (s.setChan k p).net = s.net := rfl
@[simp] theorem State.setChan_agenda (s : State) (k : Nat) (p : Chan) : (s.setChan k p).agenda = s.agenda := rfl
@[simp] theorem State.setChan_cycle (s : State) (k : Nat) (p : Chan) : (s.setChan k p).cycle = s.cycle := rfl
@[simp] theorem State.setChan_pace (s : State) (k : Nat) (p : Chan) : (s.setChan k p).pace = s.pace := rfl
@[simp] theorem State.setChan_cur (s : State) (k : Nat) (p : Chan) : (s.setChan k p).cur = s.cur := rfl
@[simp] theorem State.setChan_turn (s : State) (k : Nat) (p : Chan) : (s.setChan k p).turn = s.turn := rfl
@[simp] theorem State.setChan_hostData (s : State) (k : Nat) (p : Chan) : (s.setChan k p).hostData = s.hostData := rfl
@[simp] theorem State.setChan_hostPoison (s : State) (k : Nat) (p : Chan) : (s.setChan k p).hostPoison = s.hostPoison := rfl
@[simp] theorem State.setChan_carried (s : State) (k : Nat) (p : Chan) : (s.setChan k p).carried = s.carried := rfl
@[simp] theorem State.setChan_nextChan (s : State) (k : Nat) (p : Chan) : (s.setChan k p).nextChan = s.nextChan := rfl
@[simp] theorem State.setChan_free (s : State) (k : Nat) (p : Chan) : (s.setChan k p).free = s.free := rfl

@[simp] theorem State.setHome_mem (s : State) (k : Nat) (p : Home) : (s.setHome k p).mem = s.mem := rfl
@[simp] theorem State.setHome_empties (s : State) (k : Nat) (p : Home) : (s.setHome k p).empties = s.empties := rfl
@[simp] theorem State.setHome_poisoned (s : State) (k : Nat) (p : Home) : (s.setHome k p).poisoned = s.poisoned := rfl
@[simp] theorem State.setHome_ecc (s : State) (k : Nat) (p : Home) : (s.setHome k p).ecc = s.ecc := rfl
@[simp] theorem State.setHome_procs (s : State) (k : Nat) (p : Home) : (s.setHome k p).procs = s.procs := rfl
@[simp] theorem State.setHome_cores (s : State) (k : Nat) (p : Home) : (s.setHome k p).cores = s.cores := rfl
@[simp] theorem State.setHome_sheds (s : State) (k : Nat) (p : Home) : (s.setHome k p).sheds = s.sheds := rfl
@[simp] theorem State.setHome_chans (s : State) (k : Nat) (p : Home) : (s.setHome k p).chans = s.chans := rfl
@[simp] theorem State.setHome_homes (s : State) (k : Nat) (p : Home) : (s.setHome k p).homes = mset s.homes k p := rfl
@[simp] theorem State.setHome_spaces (s : State) (k : Nat) (p : Home) : (s.setHome k p).spaces = s.spaces := rfl
@[simp] theorem State.setHome_bases (s : State) (k : Nat) (p : Home) : (s.setHome k p).bases = s.bases := rfl
@[simp] theorem State.setHome_merges (s : State) (k : Nat) (p : Home) : (s.setHome k p).merges = s.merges := rfl
@[simp] theorem State.setHome_links (s : State) (k : Nat) (p : Home) : (s.setHome k p).links = s.links := rfl
@[simp] theorem State.setHome_colls (s : State) (k : Nat) (p : Home) : (s.setHome k p).colls = s.colls := rfl
@[simp] theorem State.setHome_windows (s : State) (k : Nat) (p : Home) : (s.setHome k p).windows = s.windows := rfl
@[simp] theorem State.setHome_hostEps (s : State) (k : Nat) (p : Home) : (s.setHome k p).hostEps = s.hostEps := rfl
@[simp] theorem State.setHome_devices (s : State) (k : Nat) (p : Home) : (s.setHome k p).devices = s.devices := rfl
@[simp] theorem State.setHome_migrations (s : State) (k : Nat) (p : Home) : (s.setHome k p).migrations = s.migrations := rfl
@[simp] theorem State.setHome_servers (s : State) (k : Nat) (p : Home) : (s.setHome k p).servers = s.servers := rfl
@[simp] theorem State.setHome_sessions (s : State) (k : Nat) (p : Home) : (s.setHome k p).sessions = s.sessions := rfl
@[simp] theorem State.setHome_counters (s : State) (k : Nat) (p : Home) : (s.setHome k p).counters = s.counters := rfl
@[simp] theorem State.setHome_signals (s : State) (k : Nat) (p : Home) : (s.setHome k p).signals = s.signals := rfl
@[simp] theorem State.setHome_net (s : State) (k : Nat) (p : Home) : (s.setHome k p).net = s.net := rfl
@[simp] theorem State.setHome_agenda (s : State) (k : Nat) (p : Home) : (s.setHome k p).agenda = s.agenda := rfl
@[simp] theorem State.setHome_cycle (s : State) (k : Nat) (p : Home) : (s.setHome k p).cycle = s.cycle := rfl
@[simp] theorem State.setHome_pace (s : State) (k : Nat) (p : Home) : (s.setHome k p).pace = s.pace := rfl
@[simp] theorem State.setHome_cur (s : State) (k : Nat) (p : Home) : (s.setHome k p).cur = s.cur := rfl
@[simp] theorem State.setHome_turn (s : State) (k : Nat) (p : Home) : (s.setHome k p).turn = s.turn := rfl
@[simp] theorem State.setHome_hostData (s : State) (k : Nat) (p : Home) : (s.setHome k p).hostData = s.hostData := rfl
@[simp] theorem State.setHome_hostPoison (s : State) (k : Nat) (p : Home) : (s.setHome k p).hostPoison = s.hostPoison := rfl
@[simp] theorem State.setHome_carried (s : State) (k : Nat) (p : Home) : (s.setHome k p).carried = s.carried := rfl
@[simp] theorem State.setHome_nextChan (s : State) (k : Nat) (p : Home) : (s.setHome k p).nextChan = s.nextChan := rfl
@[simp] theorem State.setHome_free (s : State) (k : Nat) (p : Home) : (s.setHome k p).free = s.free := rfl

@[simp] theorem State.setShed_mem (s : State) (k : Nat) (p : Shed) : (s.setShed k p).mem = s.mem := rfl
@[simp] theorem State.setShed_empties (s : State) (k : Nat) (p : Shed) : (s.setShed k p).empties = s.empties := rfl
@[simp] theorem State.setShed_poisoned (s : State) (k : Nat) (p : Shed) : (s.setShed k p).poisoned = s.poisoned := rfl
@[simp] theorem State.setShed_ecc (s : State) (k : Nat) (p : Shed) : (s.setShed k p).ecc = s.ecc := rfl
@[simp] theorem State.setShed_procs (s : State) (k : Nat) (p : Shed) : (s.setShed k p).procs = s.procs := rfl
@[simp] theorem State.setShed_cores (s : State) (k : Nat) (p : Shed) : (s.setShed k p).cores = s.cores := rfl
@[simp] theorem State.setShed_sheds (s : State) (k : Nat) (p : Shed) : (s.setShed k p).sheds = mset s.sheds k p := rfl
@[simp] theorem State.setShed_chans (s : State) (k : Nat) (p : Shed) : (s.setShed k p).chans = s.chans := rfl
@[simp] theorem State.setShed_homes (s : State) (k : Nat) (p : Shed) : (s.setShed k p).homes = s.homes := rfl
@[simp] theorem State.setShed_spaces (s : State) (k : Nat) (p : Shed) : (s.setShed k p).spaces = s.spaces := rfl
@[simp] theorem State.setShed_bases (s : State) (k : Nat) (p : Shed) : (s.setShed k p).bases = s.bases := rfl
@[simp] theorem State.setShed_merges (s : State) (k : Nat) (p : Shed) : (s.setShed k p).merges = s.merges := rfl
@[simp] theorem State.setShed_links (s : State) (k : Nat) (p : Shed) : (s.setShed k p).links = s.links := rfl
@[simp] theorem State.setShed_colls (s : State) (k : Nat) (p : Shed) : (s.setShed k p).colls = s.colls := rfl
@[simp] theorem State.setShed_windows (s : State) (k : Nat) (p : Shed) : (s.setShed k p).windows = s.windows := rfl
@[simp] theorem State.setShed_hostEps (s : State) (k : Nat) (p : Shed) : (s.setShed k p).hostEps = s.hostEps := rfl
@[simp] theorem State.setShed_devices (s : State) (k : Nat) (p : Shed) : (s.setShed k p).devices = s.devices := rfl
@[simp] theorem State.setShed_migrations (s : State) (k : Nat) (p : Shed) : (s.setShed k p).migrations = s.migrations := rfl
@[simp] theorem State.setShed_servers (s : State) (k : Nat) (p : Shed) : (s.setShed k p).servers = s.servers := rfl
@[simp] theorem State.setShed_sessions (s : State) (k : Nat) (p : Shed) : (s.setShed k p).sessions = s.sessions := rfl
@[simp] theorem State.setShed_counters (s : State) (k : Nat) (p : Shed) : (s.setShed k p).counters = s.counters := rfl
@[simp] theorem State.setShed_signals (s : State) (k : Nat) (p : Shed) : (s.setShed k p).signals = s.signals := rfl
@[simp] theorem State.setShed_net (s : State) (k : Nat) (p : Shed) : (s.setShed k p).net = s.net := rfl
@[simp] theorem State.setShed_agenda (s : State) (k : Nat) (p : Shed) : (s.setShed k p).agenda = s.agenda := rfl
@[simp] theorem State.setShed_cycle (s : State) (k : Nat) (p : Shed) : (s.setShed k p).cycle = s.cycle := rfl
@[simp] theorem State.setShed_pace (s : State) (k : Nat) (p : Shed) : (s.setShed k p).pace = s.pace := rfl
@[simp] theorem State.setShed_cur (s : State) (k : Nat) (p : Shed) : (s.setShed k p).cur = s.cur := rfl
@[simp] theorem State.setShed_turn (s : State) (k : Nat) (p : Shed) : (s.setShed k p).turn = s.turn := rfl
@[simp] theorem State.setShed_hostData (s : State) (k : Nat) (p : Shed) : (s.setShed k p).hostData = s.hostData := rfl
@[simp] theorem State.setShed_hostPoison (s : State) (k : Nat) (p : Shed) : (s.setShed k p).hostPoison = s.hostPoison := rfl
@[simp] theorem State.setShed_carried (s : State) (k : Nat) (p : Shed) : (s.setShed k p).carried = s.carried := rfl
@[simp] theorem State.setShed_nextChan (s : State) (k : Nat) (p : Shed) : (s.setShed k p).nextChan = s.nextChan := rfl
@[simp] theorem State.setShed_free (s : State) (k : Nat) (p : Shed) : (s.setShed k p).free = s.free := rfl

@[simp] theorem State.setSpace_mem (s : State) (k : Nat) (p : Space) : (s.setSpace k p).mem = s.mem := rfl
@[simp] theorem State.setSpace_empties (s : State) (k : Nat) (p : Space) : (s.setSpace k p).empties = s.empties := rfl
@[simp] theorem State.setSpace_poisoned (s : State) (k : Nat) (p : Space) : (s.setSpace k p).poisoned = s.poisoned := rfl
@[simp] theorem State.setSpace_ecc (s : State) (k : Nat) (p : Space) : (s.setSpace k p).ecc = s.ecc := rfl
@[simp] theorem State.setSpace_procs (s : State) (k : Nat) (p : Space) : (s.setSpace k p).procs = s.procs := rfl
@[simp] theorem State.setSpace_cores (s : State) (k : Nat) (p : Space) : (s.setSpace k p).cores = s.cores := rfl
@[simp] theorem State.setSpace_sheds (s : State) (k : Nat) (p : Space) : (s.setSpace k p).sheds = s.sheds := rfl
@[simp] theorem State.setSpace_chans (s : State) (k : Nat) (p : Space) : (s.setSpace k p).chans = s.chans := rfl
@[simp] theorem State.setSpace_homes (s : State) (k : Nat) (p : Space) : (s.setSpace k p).homes = s.homes := rfl
@[simp] theorem State.setSpace_spaces (s : State) (k : Nat) (p : Space) : (s.setSpace k p).spaces = mset s.spaces k p := rfl
@[simp] theorem State.setSpace_bases (s : State) (k : Nat) (p : Space) : (s.setSpace k p).bases = s.bases := rfl
@[simp] theorem State.setSpace_merges (s : State) (k : Nat) (p : Space) : (s.setSpace k p).merges = s.merges := rfl
@[simp] theorem State.setSpace_links (s : State) (k : Nat) (p : Space) : (s.setSpace k p).links = s.links := rfl
@[simp] theorem State.setSpace_colls (s : State) (k : Nat) (p : Space) : (s.setSpace k p).colls = s.colls := rfl
@[simp] theorem State.setSpace_windows (s : State) (k : Nat) (p : Space) : (s.setSpace k p).windows = s.windows := rfl
@[simp] theorem State.setSpace_hostEps (s : State) (k : Nat) (p : Space) : (s.setSpace k p).hostEps = s.hostEps := rfl
@[simp] theorem State.setSpace_devices (s : State) (k : Nat) (p : Space) : (s.setSpace k p).devices = s.devices := rfl
@[simp] theorem State.setSpace_migrations (s : State) (k : Nat) (p : Space) : (s.setSpace k p).migrations = s.migrations := rfl
@[simp] theorem State.setSpace_servers (s : State) (k : Nat) (p : Space) : (s.setSpace k p).servers = s.servers := rfl
@[simp] theorem State.setSpace_sessions (s : State) (k : Nat) (p : Space) : (s.setSpace k p).sessions = s.sessions := rfl
@[simp] theorem State.setSpace_counters (s : State) (k : Nat) (p : Space) : (s.setSpace k p).counters = s.counters := rfl
@[simp] theorem State.setSpace_signals (s : State) (k : Nat) (p : Space) : (s.setSpace k p).signals = s.signals := rfl
@[simp] theorem State.setSpace_net (s : State) (k : Nat) (p : Space) : (s.setSpace k p).net = s.net := rfl
@[simp] theorem State.setSpace_agenda (s : State) (k : Nat) (p : Space) : (s.setSpace k p).agenda = s.agenda := rfl
@[simp] theorem State.setSpace_cycle (s : State) (k : Nat) (p : Space) : (s.setSpace k p).cycle = s.cycle := rfl
@[simp] theorem State.setSpace_pace (s : State) (k : Nat) (p : Space) : (s.setSpace k p).pace = s.pace := rfl
@[simp] theorem State.setSpace_cur (s : State) (k : Nat) (p : Space) : (s.setSpace k p).cur = s.cur := rfl
@[simp] theorem State.setSpace_turn (s : State) (k : Nat) (p : Space) : (s.setSpace k p).turn = s.turn := rfl
@[simp] theorem State.setSpace_hostData (s : State) (k : Nat) (p : Space) : (s.setSpace k p).hostData = s.hostData := rfl
@[simp] theorem State.setSpace_hostPoison (s : State) (k : Nat) (p : Space) : (s.setSpace k p).hostPoison = s.hostPoison := rfl
@[simp] theorem State.setSpace_carried (s : State) (k : Nat) (p : Space) : (s.setSpace k p).carried = s.carried := rfl
@[simp] theorem State.setSpace_nextChan (s : State) (k : Nat) (p : Space) : (s.setSpace k p).nextChan = s.nextChan := rfl
@[simp] theorem State.setSpace_free (s : State) (k : Nat) (p : Space) : (s.setSpace k p).free = s.free := rfl

@[simp] theorem State.setDevice_mem (s : State) (k : Nat) (p : Device) : (s.setDevice k p).mem = s.mem := rfl
@[simp] theorem State.setDevice_empties (s : State) (k : Nat) (p : Device) : (s.setDevice k p).empties = s.empties := rfl
@[simp] theorem State.setDevice_poisoned (s : State) (k : Nat) (p : Device) : (s.setDevice k p).poisoned = s.poisoned := rfl
@[simp] theorem State.setDevice_ecc (s : State) (k : Nat) (p : Device) : (s.setDevice k p).ecc = s.ecc := rfl
@[simp] theorem State.setDevice_procs (s : State) (k : Nat) (p : Device) : (s.setDevice k p).procs = s.procs := rfl
@[simp] theorem State.setDevice_cores (s : State) (k : Nat) (p : Device) : (s.setDevice k p).cores = s.cores := rfl
@[simp] theorem State.setDevice_sheds (s : State) (k : Nat) (p : Device) : (s.setDevice k p).sheds = s.sheds := rfl
@[simp] theorem State.setDevice_chans (s : State) (k : Nat) (p : Device) : (s.setDevice k p).chans = s.chans := rfl
@[simp] theorem State.setDevice_homes (s : State) (k : Nat) (p : Device) : (s.setDevice k p).homes = s.homes := rfl
@[simp] theorem State.setDevice_spaces (s : State) (k : Nat) (p : Device) : (s.setDevice k p).spaces = s.spaces := rfl
@[simp] theorem State.setDevice_bases (s : State) (k : Nat) (p : Device) : (s.setDevice k p).bases = s.bases := rfl
@[simp] theorem State.setDevice_merges (s : State) (k : Nat) (p : Device) : (s.setDevice k p).merges = s.merges := rfl
@[simp] theorem State.setDevice_links (s : State) (k : Nat) (p : Device) : (s.setDevice k p).links = s.links := rfl
@[simp] theorem State.setDevice_colls (s : State) (k : Nat) (p : Device) : (s.setDevice k p).colls = s.colls := rfl
@[simp] theorem State.setDevice_windows (s : State) (k : Nat) (p : Device) : (s.setDevice k p).windows = s.windows := rfl
@[simp] theorem State.setDevice_hostEps (s : State) (k : Nat) (p : Device) : (s.setDevice k p).hostEps = s.hostEps := rfl
@[simp] theorem State.setDevice_devices (s : State) (k : Nat) (p : Device) : (s.setDevice k p).devices = mset s.devices k p := rfl
@[simp] theorem State.setDevice_migrations (s : State) (k : Nat) (p : Device) : (s.setDevice k p).migrations = s.migrations := rfl
@[simp] theorem State.setDevice_servers (s : State) (k : Nat) (p : Device) : (s.setDevice k p).servers = s.servers := rfl
@[simp] theorem State.setDevice_sessions (s : State) (k : Nat) (p : Device) : (s.setDevice k p).sessions = s.sessions := rfl
@[simp] theorem State.setDevice_counters (s : State) (k : Nat) (p : Device) : (s.setDevice k p).counters = s.counters := rfl
@[simp] theorem State.setDevice_signals (s : State) (k : Nat) (p : Device) : (s.setDevice k p).signals = s.signals := rfl
@[simp] theorem State.setDevice_net (s : State) (k : Nat) (p : Device) : (s.setDevice k p).net = s.net := rfl
@[simp] theorem State.setDevice_agenda (s : State) (k : Nat) (p : Device) : (s.setDevice k p).agenda = s.agenda := rfl
@[simp] theorem State.setDevice_cycle (s : State) (k : Nat) (p : Device) : (s.setDevice k p).cycle = s.cycle := rfl
@[simp] theorem State.setDevice_pace (s : State) (k : Nat) (p : Device) : (s.setDevice k p).pace = s.pace := rfl
@[simp] theorem State.setDevice_cur (s : State) (k : Nat) (p : Device) : (s.setDevice k p).cur = s.cur := rfl
@[simp] theorem State.setDevice_turn (s : State) (k : Nat) (p : Device) : (s.setDevice k p).turn = s.turn := rfl
@[simp] theorem State.setDevice_hostData (s : State) (k : Nat) (p : Device) : (s.setDevice k p).hostData = s.hostData := rfl
@[simp] theorem State.setDevice_hostPoison (s : State) (k : Nat) (p : Device) : (s.setDevice k p).hostPoison = s.hostPoison := rfl
@[simp] theorem State.setDevice_carried (s : State) (k : Nat) (p : Device) : (s.setDevice k p).carried = s.carried := rfl
@[simp] theorem State.setDevice_nextChan (s : State) (k : Nat) (p : Device) : (s.setDevice k p).nextChan = s.nextChan := rfl
@[simp] theorem State.setDevice_free (s : State) (k : Nat) (p : Device) : (s.setDevice k p).free = s.free := rfl

@[simp] theorem State.setWindow_mem (s : State) (k : Nat) (p : Window) : (s.setWindow k p).mem = s.mem := rfl
@[simp] theorem State.setWindow_empties (s : State) (k : Nat) (p : Window) : (s.setWindow k p).empties = s.empties := rfl
@[simp] theorem State.setWindow_poisoned (s : State) (k : Nat) (p : Window) : (s.setWindow k p).poisoned = s.poisoned := rfl
@[simp] theorem State.setWindow_ecc (s : State) (k : Nat) (p : Window) : (s.setWindow k p).ecc = s.ecc := rfl
@[simp] theorem State.setWindow_procs (s : State) (k : Nat) (p : Window) : (s.setWindow k p).procs = s.procs := rfl
@[simp] theorem State.setWindow_cores (s : State) (k : Nat) (p : Window) : (s.setWindow k p).cores = s.cores := rfl
@[simp] theorem State.setWindow_sheds (s : State) (k : Nat) (p : Window) : (s.setWindow k p).sheds = s.sheds := rfl
@[simp] theorem State.setWindow_chans (s : State) (k : Nat) (p : Window) : (s.setWindow k p).chans = s.chans := rfl
@[simp] theorem State.setWindow_homes (s : State) (k : Nat) (p : Window) : (s.setWindow k p).homes = s.homes := rfl
@[simp] theorem State.setWindow_spaces (s : State) (k : Nat) (p : Window) : (s.setWindow k p).spaces = s.spaces := rfl
@[simp] theorem State.setWindow_bases (s : State) (k : Nat) (p : Window) : (s.setWindow k p).bases = s.bases := rfl
@[simp] theorem State.setWindow_merges (s : State) (k : Nat) (p : Window) : (s.setWindow k p).merges = s.merges := rfl
@[simp] theorem State.setWindow_links (s : State) (k : Nat) (p : Window) : (s.setWindow k p).links = s.links := rfl
@[simp] theorem State.setWindow_colls (s : State) (k : Nat) (p : Window) : (s.setWindow k p).colls = s.colls := rfl
@[simp] theorem State.setWindow_windows (s : State) (k : Nat) (p : Window) : (s.setWindow k p).windows = mset s.windows k p := rfl
@[simp] theorem State.setWindow_hostEps (s : State) (k : Nat) (p : Window) : (s.setWindow k p).hostEps = s.hostEps := rfl
@[simp] theorem State.setWindow_devices (s : State) (k : Nat) (p : Window) : (s.setWindow k p).devices = s.devices := rfl
@[simp] theorem State.setWindow_migrations (s : State) (k : Nat) (p : Window) : (s.setWindow k p).migrations = s.migrations := rfl
@[simp] theorem State.setWindow_servers (s : State) (k : Nat) (p : Window) : (s.setWindow k p).servers = s.servers := rfl
@[simp] theorem State.setWindow_sessions (s : State) (k : Nat) (p : Window) : (s.setWindow k p).sessions = s.sessions := rfl
@[simp] theorem State.setWindow_counters (s : State) (k : Nat) (p : Window) : (s.setWindow k p).counters = s.counters := rfl
@[simp] theorem State.setWindow_signals (s : State) (k : Nat) (p : Window) : (s.setWindow k p).signals = s.signals := rfl
@[simp] theorem State.setWindow_net (s : State) (k : Nat) (p : Window) : (s.setWindow k p).net = s.net := rfl
@[simp] theorem State.setWindow_agenda (s : State) (k : Nat) (p : Window) : (s.setWindow k p).agenda = s.agenda := rfl
@[simp] theorem State.setWindow_cycle (s : State) (k : Nat) (p : Window) : (s.setWindow k p).cycle = s.cycle := rfl
@[simp] theorem State.setWindow_pace (s : State) (k : Nat) (p : Window) : (s.setWindow k p).pace = s.pace := rfl
@[simp] theorem State.setWindow_cur (s : State) (k : Nat) (p : Window) : (s.setWindow k p).cur = s.cur := rfl
@[simp] theorem State.setWindow_turn (s : State) (k : Nat) (p : Window) : (s.setWindow k p).turn = s.turn := rfl
@[simp] theorem State.setWindow_hostData (s : State) (k : Nat) (p : Window) : (s.setWindow k p).hostData = s.hostData := rfl
@[simp] theorem State.setWindow_hostPoison (s : State) (k : Nat) (p : Window) : (s.setWindow k p).hostPoison = s.hostPoison := rfl
@[simp] theorem State.setWindow_carried (s : State) (k : Nat) (p : Window) : (s.setWindow k p).carried = s.carried := rfl
@[simp] theorem State.setWindow_nextChan (s : State) (k : Nat) (p : Window) : (s.setWindow k p).nextChan = s.nextChan := rfl
@[simp] theorem State.setWindow_free (s : State) (k : Nat) (p : Window) : (s.setWindow k p).free = s.free := rfl

@[simp] theorem State.setLink_mem (s : State) (k : Nat) (p : Link) : (s.setLink k p).mem = s.mem := rfl
@[simp] theorem State.setLink_empties (s : State) (k : Nat) (p : Link) : (s.setLink k p).empties = s.empties := rfl
@[simp] theorem State.setLink_poisoned (s : State) (k : Nat) (p : Link) : (s.setLink k p).poisoned = s.poisoned := rfl
@[simp] theorem State.setLink_ecc (s : State) (k : Nat) (p : Link) : (s.setLink k p).ecc = s.ecc := rfl
@[simp] theorem State.setLink_procs (s : State) (k : Nat) (p : Link) : (s.setLink k p).procs = s.procs := rfl
@[simp] theorem State.setLink_cores (s : State) (k : Nat) (p : Link) : (s.setLink k p).cores = s.cores := rfl
@[simp] theorem State.setLink_sheds (s : State) (k : Nat) (p : Link) : (s.setLink k p).sheds = s.sheds := rfl
@[simp] theorem State.setLink_chans (s : State) (k : Nat) (p : Link) : (s.setLink k p).chans = s.chans := rfl
@[simp] theorem State.setLink_homes (s : State) (k : Nat) (p : Link) : (s.setLink k p).homes = s.homes := rfl
@[simp] theorem State.setLink_spaces (s : State) (k : Nat) (p : Link) : (s.setLink k p).spaces = s.spaces := rfl
@[simp] theorem State.setLink_bases (s : State) (k : Nat) (p : Link) : (s.setLink k p).bases = s.bases := rfl
@[simp] theorem State.setLink_merges (s : State) (k : Nat) (p : Link) : (s.setLink k p).merges = s.merges := rfl
@[simp] theorem State.setLink_links (s : State) (k : Nat) (p : Link) : (s.setLink k p).links = mset s.links k p := rfl
@[simp] theorem State.setLink_colls (s : State) (k : Nat) (p : Link) : (s.setLink k p).colls = s.colls := rfl
@[simp] theorem State.setLink_windows (s : State) (k : Nat) (p : Link) : (s.setLink k p).windows = s.windows := rfl
@[simp] theorem State.setLink_hostEps (s : State) (k : Nat) (p : Link) : (s.setLink k p).hostEps = s.hostEps := rfl
@[simp] theorem State.setLink_devices (s : State) (k : Nat) (p : Link) : (s.setLink k p).devices = s.devices := rfl
@[simp] theorem State.setLink_migrations (s : State) (k : Nat) (p : Link) : (s.setLink k p).migrations = s.migrations := rfl
@[simp] theorem State.setLink_servers (s : State) (k : Nat) (p : Link) : (s.setLink k p).servers = s.servers := rfl
@[simp] theorem State.setLink_sessions (s : State) (k : Nat) (p : Link) : (s.setLink k p).sessions = s.sessions := rfl
@[simp] theorem State.setLink_counters (s : State) (k : Nat) (p : Link) : (s.setLink k p).counters = s.counters := rfl
@[simp] theorem State.setLink_signals (s : State) (k : Nat) (p : Link) : (s.setLink k p).signals = s.signals := rfl
@[simp] theorem State.setLink_net (s : State) (k : Nat) (p : Link) : (s.setLink k p).net = s.net := rfl
@[simp] theorem State.setLink_agenda (s : State) (k : Nat) (p : Link) : (s.setLink k p).agenda = s.agenda := rfl
@[simp] theorem State.setLink_cycle (s : State) (k : Nat) (p : Link) : (s.setLink k p).cycle = s.cycle := rfl
@[simp] theorem State.setLink_pace (s : State) (k : Nat) (p : Link) : (s.setLink k p).pace = s.pace := rfl
@[simp] theorem State.setLink_cur (s : State) (k : Nat) (p : Link) : (s.setLink k p).cur = s.cur := rfl
@[simp] theorem State.setLink_turn (s : State) (k : Nat) (p : Link) : (s.setLink k p).turn = s.turn := rfl
@[simp] theorem State.setLink_hostData (s : State) (k : Nat) (p : Link) : (s.setLink k p).hostData = s.hostData := rfl
@[simp] theorem State.setLink_hostPoison (s : State) (k : Nat) (p : Link) : (s.setLink k p).hostPoison = s.hostPoison := rfl
@[simp] theorem State.setLink_carried (s : State) (k : Nat) (p : Link) : (s.setLink k p).carried = s.carried := rfl
@[simp] theorem State.setLink_nextChan (s : State) (k : Nat) (p : Link) : (s.setLink k p).nextChan = s.nextChan := rfl
@[simp] theorem State.setLink_free (s : State) (k : Nat) (p : Link) : (s.setLink k p).free = s.free := rfl

@[simp] theorem State.setBase_mem (s : State) (k : Nat) (p : Stack) : (s.setBase k p).mem = s.mem := rfl
@[simp] theorem State.setBase_empties (s : State) (k : Nat) (p : Stack) : (s.setBase k p).empties = s.empties := rfl
@[simp] theorem State.setBase_poisoned (s : State) (k : Nat) (p : Stack) : (s.setBase k p).poisoned = s.poisoned := rfl
@[simp] theorem State.setBase_ecc (s : State) (k : Nat) (p : Stack) : (s.setBase k p).ecc = s.ecc := rfl
@[simp] theorem State.setBase_procs (s : State) (k : Nat) (p : Stack) : (s.setBase k p).procs = s.procs := rfl
@[simp] theorem State.setBase_cores (s : State) (k : Nat) (p : Stack) : (s.setBase k p).cores = s.cores := rfl
@[simp] theorem State.setBase_sheds (s : State) (k : Nat) (p : Stack) : (s.setBase k p).sheds = s.sheds := rfl
@[simp] theorem State.setBase_chans (s : State) (k : Nat) (p : Stack) : (s.setBase k p).chans = s.chans := rfl
@[simp] theorem State.setBase_homes (s : State) (k : Nat) (p : Stack) : (s.setBase k p).homes = s.homes := rfl
@[simp] theorem State.setBase_spaces (s : State) (k : Nat) (p : Stack) : (s.setBase k p).spaces = s.spaces := rfl
@[simp] theorem State.setBase_bases (s : State) (k : Nat) (p : Stack) : (s.setBase k p).bases = mset s.bases k p := rfl
@[simp] theorem State.setBase_merges (s : State) (k : Nat) (p : Stack) : (s.setBase k p).merges = s.merges := rfl
@[simp] theorem State.setBase_links (s : State) (k : Nat) (p : Stack) : (s.setBase k p).links = s.links := rfl
@[simp] theorem State.setBase_colls (s : State) (k : Nat) (p : Stack) : (s.setBase k p).colls = s.colls := rfl
@[simp] theorem State.setBase_windows (s : State) (k : Nat) (p : Stack) : (s.setBase k p).windows = s.windows := rfl
@[simp] theorem State.setBase_hostEps (s : State) (k : Nat) (p : Stack) : (s.setBase k p).hostEps = s.hostEps := rfl
@[simp] theorem State.setBase_devices (s : State) (k : Nat) (p : Stack) : (s.setBase k p).devices = s.devices := rfl
@[simp] theorem State.setBase_migrations (s : State) (k : Nat) (p : Stack) : (s.setBase k p).migrations = s.migrations := rfl
@[simp] theorem State.setBase_servers (s : State) (k : Nat) (p : Stack) : (s.setBase k p).servers = s.servers := rfl
@[simp] theorem State.setBase_sessions (s : State) (k : Nat) (p : Stack) : (s.setBase k p).sessions = s.sessions := rfl
@[simp] theorem State.setBase_counters (s : State) (k : Nat) (p : Stack) : (s.setBase k p).counters = s.counters := rfl
@[simp] theorem State.setBase_signals (s : State) (k : Nat) (p : Stack) : (s.setBase k p).signals = s.signals := rfl
@[simp] theorem State.setBase_net (s : State) (k : Nat) (p : Stack) : (s.setBase k p).net = s.net := rfl
@[simp] theorem State.setBase_agenda (s : State) (k : Nat) (p : Stack) : (s.setBase k p).agenda = s.agenda := rfl
@[simp] theorem State.setBase_cycle (s : State) (k : Nat) (p : Stack) : (s.setBase k p).cycle = s.cycle := rfl
@[simp] theorem State.setBase_pace (s : State) (k : Nat) (p : Stack) : (s.setBase k p).pace = s.pace := rfl
@[simp] theorem State.setBase_cur (s : State) (k : Nat) (p : Stack) : (s.setBase k p).cur = s.cur := rfl
@[simp] theorem State.setBase_turn (s : State) (k : Nat) (p : Stack) : (s.setBase k p).turn = s.turn := rfl
@[simp] theorem State.setBase_hostData (s : State) (k : Nat) (p : Stack) : (s.setBase k p).hostData = s.hostData := rfl
@[simp] theorem State.setBase_hostPoison (s : State) (k : Nat) (p : Stack) : (s.setBase k p).hostPoison = s.hostPoison := rfl
@[simp] theorem State.setBase_carried (s : State) (k : Nat) (p : Stack) : (s.setBase k p).carried = s.carried := rfl
@[simp] theorem State.setBase_nextChan (s : State) (k : Nat) (p : Stack) : (s.setBase k p).nextChan = s.nextChan := rfl
@[simp] theorem State.setBase_free (s : State) (k : Nat) (p : Stack) : (s.setBase k p).free = s.free := rfl

@[simp] theorem State.modCore_mem (s : State) (k : Nat) (f : Core → Core) : (s.modCore k f).mem = s.mem := rfl
@[simp] theorem State.modCore_empties (s : State) (k : Nat) (f : Core → Core) : (s.modCore k f).empties = s.empties := rfl
@[simp] theorem State.modCore_poisoned (s : State) (k : Nat) (f : Core → Core) : (s.modCore k f).poisoned = s.poisoned := rfl
@[simp] theorem State.modCore_ecc (s : State) (k : Nat) (f : Core → Core) : (s.modCore k f).ecc = s.ecc := rfl
@[simp] theorem State.modCore_procs (s : State) (k : Nat) (f : Core → Core) : (s.modCore k f).procs = s.procs := rfl
@[simp] theorem State.modCore_cores (s : State) (k : Nat) (f : Core → Core) : (s.modCore k f).cores = mset s.cores k (f (s.core k)) := rfl
@[simp] theorem State.modCore_sheds (s : State) (k : Nat) (f : Core → Core) : (s.modCore k f).sheds = s.sheds := rfl
@[simp] theorem State.modCore_chans (s : State) (k : Nat) (f : Core → Core) : (s.modCore k f).chans = s.chans := rfl
@[simp] theorem State.modCore_homes (s : State) (k : Nat) (f : Core → Core) : (s.modCore k f).homes = s.homes := rfl
@[simp] theorem State.modCore_spaces (s : State) (k : Nat) (f : Core → Core) : (s.modCore k f).spaces = s.spaces := rfl
@[simp] theorem State.modCore_bases (s : State) (k : Nat) (f : Core → Core) : (s.modCore k f).bases = s.bases := rfl
@[simp] theorem State.modCore_merges (s : State) (k : Nat) (f : Core → Core) : (s.modCore k f).merges = s.merges := rfl
@[simp] theorem State.modCore_links (s : State) (k : Nat) (f : Core → Core) : (s.modCore k f).links = s.links := rfl
@[simp] theorem State.modCore_colls (s : State) (k : Nat) (f : Core → Core) : (s.modCore k f).colls = s.colls := rfl
@[simp] theorem State.modCore_windows (s : State) (k : Nat) (f : Core → Core) : (s.modCore k f).windows = s.windows := rfl
@[simp] theorem State.modCore_hostEps (s : State) (k : Nat) (f : Core → Core) : (s.modCore k f).hostEps = s.hostEps := rfl
@[simp] theorem State.modCore_devices (s : State) (k : Nat) (f : Core → Core) : (s.modCore k f).devices = s.devices := rfl
@[simp] theorem State.modCore_migrations (s : State) (k : Nat) (f : Core → Core) : (s.modCore k f).migrations = s.migrations := rfl
@[simp] theorem State.modCore_servers (s : State) (k : Nat) (f : Core → Core) : (s.modCore k f).servers = s.servers := rfl
@[simp] theorem State.modCore_sessions (s : State) (k : Nat) (f : Core → Core) : (s.modCore k f).sessions = s.sessions := rfl
@[simp] theorem State.modCore_counters (s : State) (k : Nat) (f : Core → Core) : (s.modCore k f).counters = s.counters := rfl
@[simp] theorem State.modCore_signals (s : State) (k : Nat) (f : Core → Core) : (s.modCore k f).signals = s.signals := rfl
@[simp] theorem State.modCore_net (s : State) (k : Nat) (f : Core → Core) : (s.modCore k f).net = s.net := rfl
@[simp] theorem State.modCore_agenda (s : State) (k : Nat) (f : Core → Core) : (s.modCore k f).agenda = s.agenda := rfl
@[simp] theorem State.modCore_cycle (s : State) (k : Nat) (f : Core → Core) : (s.modCore k f).cycle = s.cycle := rfl
@[simp] theorem State.modCore_pace (s : State) (k : Nat) (f : Core → Core) : (s.modCore k f).pace = s.pace := rfl
@[simp] theorem State.modCore_cur (s : State) (k : Nat) (f : Core → Core) : (s.modCore k f).cur = s.cur := rfl
@[simp] theorem State.modCore_turn (s : State) (k : Nat) (f : Core → Core) : (s.modCore k f).turn = s.turn := rfl
@[simp] theorem State.modCore_hostData (s : State) (k : Nat) (f : Core → Core) : (s.modCore k f).hostData = s.hostData := rfl
@[simp] theorem State.modCore_hostPoison (s : State) (k : Nat) (f : Core → Core) : (s.modCore k f).hostPoison = s.hostPoison := rfl
@[simp] theorem State.modCore_carried (s : State) (k : Nat) (f : Core → Core) : (s.modCore k f).carried = s.carried := rfl
@[simp] theorem State.modCore_nextChan (s : State) (k : Nat) (f : Core → Core) : (s.modCore k f).nextChan = s.nextChan := rfl
@[simp] theorem State.modCore_free (s : State) (k : Nat) (f : Core → Core) : (s.modCore k f).free = s.free := rfl

@[simp] theorem State.setFull_mem (s : State) (ga : Nat) : (s.setFull ga).mem = s.mem := rfl
@[simp] theorem State.setFull_empties (s : State) (ga : Nat) : (s.setFull ga).empties = sdel s.empties (ga / 8) := rfl
@[simp] theorem State.setFull_poisoned (s : State) (ga : Nat) : (s.setFull ga).poisoned = s.poisoned := rfl
@[simp] theorem State.setFull_ecc (s : State) (ga : Nat) : (s.setFull ga).ecc = s.ecc := rfl
@[simp] theorem State.setFull_procs (s : State) (ga : Nat) : (s.setFull ga).procs = s.procs := rfl
@[simp] theorem State.setFull_cores (s : State) (ga : Nat) : (s.setFull ga).cores = s.cores := rfl
@[simp] theorem State.setFull_sheds (s : State) (ga : Nat) : (s.setFull ga).sheds = s.sheds := rfl
@[simp] theorem State.setFull_chans (s : State) (ga : Nat) : (s.setFull ga).chans = s.chans := rfl
@[simp] theorem State.setFull_homes (s : State) (ga : Nat) : (s.setFull ga).homes = s.homes := rfl
@[simp] theorem State.setFull_spaces (s : State) (ga : Nat) : (s.setFull ga).spaces = s.spaces := rfl
@[simp] theorem State.setFull_bases (s : State) (ga : Nat) : (s.setFull ga).bases = s.bases := rfl
@[simp] theorem State.setFull_merges (s : State) (ga : Nat) : (s.setFull ga).merges = s.merges := rfl
@[simp] theorem State.setFull_links (s : State) (ga : Nat) : (s.setFull ga).links = s.links := rfl
@[simp] theorem State.setFull_colls (s : State) (ga : Nat) : (s.setFull ga).colls = s.colls := rfl
@[simp] theorem State.setFull_windows (s : State) (ga : Nat) : (s.setFull ga).windows = s.windows := rfl
@[simp] theorem State.setFull_hostEps (s : State) (ga : Nat) : (s.setFull ga).hostEps = s.hostEps := rfl
@[simp] theorem State.setFull_devices (s : State) (ga : Nat) : (s.setFull ga).devices = s.devices := rfl
@[simp] theorem State.setFull_migrations (s : State) (ga : Nat) : (s.setFull ga).migrations = s.migrations := rfl
@[simp] theorem State.setFull_servers (s : State) (ga : Nat) : (s.setFull ga).servers = s.servers := rfl
@[simp] theorem State.setFull_sessions (s : State) (ga : Nat) : (s.setFull ga).sessions = s.sessions := rfl
@[simp] theorem State.setFull_counters (s : State) (ga : Nat) : (s.setFull ga).counters = s.counters := rfl
@[simp] theorem State.setFull_signals (s : State) (ga : Nat) : (s.setFull ga).signals = s.signals := rfl
@[simp] theorem State.setFull_net (s : State) (ga : Nat) : (s.setFull ga).net = s.net := rfl
@[simp] theorem State.setFull_agenda (s : State) (ga : Nat) : (s.setFull ga).agenda = s.agenda := rfl
@[simp] theorem State.setFull_cycle (s : State) (ga : Nat) : (s.setFull ga).cycle = s.cycle := rfl
@[simp] theorem State.setFull_pace (s : State) (ga : Nat) : (s.setFull ga).pace = s.pace := rfl
@[simp] theorem State.setFull_cur (s : State) (ga : Nat) : (s.setFull ga).cur = s.cur := rfl
@[simp] theorem State.setFull_turn (s : State) (ga : Nat) : (s.setFull ga).turn = s.turn := rfl
@[simp] theorem State.setFull_hostData (s : State) (ga : Nat) : (s.setFull ga).hostData = s.hostData := rfl
@[simp] theorem State.setFull_hostPoison (s : State) (ga : Nat) : (s.setFull ga).hostPoison = s.hostPoison := rfl
@[simp] theorem State.setFull_carried (s : State) (ga : Nat) : (s.setFull ga).carried = s.carried := rfl
@[simp] theorem State.setFull_nextChan (s : State) (ga : Nat) : (s.setFull ga).nextChan = s.nextChan := rfl
@[simp] theorem State.setFull_free (s : State) (ga : Nat) : (s.setFull ga).free = s.free := rfl

@[simp] theorem State.setEmpty_mem (s : State) (ga : Nat) : (s.setEmpty ga).mem = s.mem := rfl
@[simp] theorem State.setEmpty_empties (s : State) (ga : Nat) : (s.setEmpty ga).empties = sadd s.empties (ga / 8) := rfl
@[simp] theorem State.setEmpty_poisoned (s : State) (ga : Nat) : (s.setEmpty ga).poisoned = s.poisoned := rfl
@[simp] theorem State.setEmpty_ecc (s : State) (ga : Nat) : (s.setEmpty ga).ecc = s.ecc := rfl
@[simp] theorem State.setEmpty_procs (s : State) (ga : Nat) : (s.setEmpty ga).procs = s.procs := rfl
@[simp] theorem State.setEmpty_cores (s : State) (ga : Nat) : (s.setEmpty ga).cores = s.cores := rfl
@[simp] theorem State.setEmpty_sheds (s : State) (ga : Nat) : (s.setEmpty ga).sheds = s.sheds := rfl
@[simp] theorem State.setEmpty_chans (s : State) (ga : Nat) : (s.setEmpty ga).chans = s.chans := rfl
@[simp] theorem State.setEmpty_homes (s : State) (ga : Nat) : (s.setEmpty ga).homes = s.homes := rfl
@[simp] theorem State.setEmpty_spaces (s : State) (ga : Nat) : (s.setEmpty ga).spaces = s.spaces := rfl
@[simp] theorem State.setEmpty_bases (s : State) (ga : Nat) : (s.setEmpty ga).bases = s.bases := rfl
@[simp] theorem State.setEmpty_merges (s : State) (ga : Nat) : (s.setEmpty ga).merges = s.merges := rfl
@[simp] theorem State.setEmpty_links (s : State) (ga : Nat) : (s.setEmpty ga).links = s.links := rfl
@[simp] theorem State.setEmpty_colls (s : State) (ga : Nat) : (s.setEmpty ga).colls = s.colls := rfl
@[simp] theorem State.setEmpty_windows (s : State) (ga : Nat) : (s.setEmpty ga).windows = s.windows := rfl
@[simp] theorem State.setEmpty_hostEps (s : State) (ga : Nat) : (s.setEmpty ga).hostEps = s.hostEps := rfl
@[simp] theorem State.setEmpty_devices (s : State) (ga : Nat) : (s.setEmpty ga).devices = s.devices := rfl
@[simp] theorem State.setEmpty_migrations (s : State) (ga : Nat) : (s.setEmpty ga).migrations = s.migrations := rfl
@[simp] theorem State.setEmpty_servers (s : State) (ga : Nat) : (s.setEmpty ga).servers = s.servers := rfl
@[simp] theorem State.setEmpty_sessions (s : State) (ga : Nat) : (s.setEmpty ga).sessions = s.sessions := rfl
@[simp] theorem State.setEmpty_counters (s : State) (ga : Nat) : (s.setEmpty ga).counters = s.counters := rfl
@[simp] theorem State.setEmpty_signals (s : State) (ga : Nat) : (s.setEmpty ga).signals = s.signals := rfl
@[simp] theorem State.setEmpty_net (s : State) (ga : Nat) : (s.setEmpty ga).net = s.net := rfl
@[simp] theorem State.setEmpty_agenda (s : State) (ga : Nat) : (s.setEmpty ga).agenda = s.agenda := rfl
@[simp] theorem State.setEmpty_cycle (s : State) (ga : Nat) : (s.setEmpty ga).cycle = s.cycle := rfl
@[simp] theorem State.setEmpty_pace (s : State) (ga : Nat) : (s.setEmpty ga).pace = s.pace := rfl
@[simp] theorem State.setEmpty_cur (s : State) (ga : Nat) : (s.setEmpty ga).cur = s.cur := rfl
@[simp] theorem State.setEmpty_turn (s : State) (ga : Nat) : (s.setEmpty ga).turn = s.turn := rfl
@[simp] theorem State.setEmpty_hostData (s : State) (ga : Nat) : (s.setEmpty ga).hostData = s.hostData := rfl
@[simp] theorem State.setEmpty_hostPoison (s : State) (ga : Nat) : (s.setEmpty ga).hostPoison = s.hostPoison := rfl
@[simp] theorem State.setEmpty_carried (s : State) (ga : Nat) : (s.setEmpty ga).carried = s.carried := rfl
@[simp] theorem State.setEmpty_nextChan (s : State) (ga : Nat) : (s.setEmpty ga).nextChan = s.nextChan := rfl
@[simp] theorem State.setEmpty_free (s : State) (ga : Nat) : (s.setEmpty ga).free = s.free := rfl

@[simp] theorem State.took_mem (s : State) (n : Nat) : (s.took n).mem = s.mem := rfl
@[simp] theorem State.took_empties (s : State) (n : Nat) : (s.took n).empties = s.empties := rfl
@[simp] theorem State.took_poisoned (s : State) (n : Nat) : (s.took n).poisoned = s.poisoned := rfl
@[simp] theorem State.took_ecc (s : State) (n : Nat) : (s.took n).ecc = s.ecc := rfl
@[simp] theorem State.took_procs (s : State) (n : Nat) : (s.took n).procs = s.procs := rfl
@[simp] theorem State.took_cores (s : State) (n : Nat) : (s.took n).cores = s.cores := rfl
@[simp] theorem State.took_sheds (s : State) (n : Nat) : (s.took n).sheds = s.sheds := rfl
@[simp] theorem State.took_chans (s : State) (n : Nat) : (s.took n).chans = s.chans := rfl
@[simp] theorem State.took_homes (s : State) (n : Nat) : (s.took n).homes = s.homes := rfl
@[simp] theorem State.took_spaces (s : State) (n : Nat) : (s.took n).spaces = s.spaces := rfl
@[simp] theorem State.took_bases (s : State) (n : Nat) : (s.took n).bases = s.bases := rfl
@[simp] theorem State.took_merges (s : State) (n : Nat) : (s.took n).merges = s.merges := rfl
@[simp] theorem State.took_links (s : State) (n : Nat) : (s.took n).links = s.links := rfl
@[simp] theorem State.took_colls (s : State) (n : Nat) : (s.took n).colls = s.colls := rfl
@[simp] theorem State.took_windows (s : State) (n : Nat) : (s.took n).windows = s.windows := rfl
@[simp] theorem State.took_hostEps (s : State) (n : Nat) : (s.took n).hostEps = s.hostEps := rfl
@[simp] theorem State.took_devices (s : State) (n : Nat) : (s.took n).devices = s.devices := rfl
@[simp] theorem State.took_migrations (s : State) (n : Nat) : (s.took n).migrations = s.migrations := rfl
@[simp] theorem State.took_servers (s : State) (n : Nat) : (s.took n).servers = s.servers := rfl
@[simp] theorem State.took_sessions (s : State) (n : Nat) : (s.took n).sessions = s.sessions := rfl
@[simp] theorem State.took_counters (s : State) (n : Nat) : (s.took n).counters = s.counters := rfl
@[simp] theorem State.took_signals (s : State) (n : Nat) : (s.took n).signals = s.signals := rfl
@[simp] theorem State.took_net (s : State) (n : Nat) : (s.took n).net = listDel s.net n := rfl
@[simp] theorem State.took_agenda (s : State) (n : Nat) : (s.took n).agenda = s.agenda := rfl
@[simp] theorem State.took_cycle (s : State) (n : Nat) : (s.took n).cycle = s.cycle := rfl
@[simp] theorem State.took_pace (s : State) (n : Nat) : (s.took n).pace = s.pace := rfl
@[simp] theorem State.took_cur (s : State) (n : Nat) : (s.took n).cur = s.cur := rfl
@[simp] theorem State.took_turn (s : State) (n : Nat) : (s.took n).turn = s.turn := rfl
@[simp] theorem State.took_hostData (s : State) (n : Nat) : (s.took n).hostData = s.hostData := rfl
@[simp] theorem State.took_hostPoison (s : State) (n : Nat) : (s.took n).hostPoison = s.hostPoison := rfl
@[simp] theorem State.took_carried (s : State) (n : Nat) : (s.took n).carried = s.carried := rfl
@[simp] theorem State.took_nextChan (s : State) (n : Nat) : (s.took n).nextChan = s.nextChan := rfl
@[simp] theorem State.took_free (s : State) (n : Nat) : (s.took n).free = s.free := rfl

@[simp] theorem State.count_mem (s : State) (d k i j n : Nat) : (s.count d k i j n).mem = s.mem := rfl
@[simp] theorem State.count_empties (s : State) (d k i j n : Nat) : (s.count d k i j n).empties = s.empties := rfl
@[simp] theorem State.count_poisoned (s : State) (d k i j n : Nat) : (s.count d k i j n).poisoned = s.poisoned := rfl
@[simp] theorem State.count_ecc (s : State) (d k i j n : Nat) : (s.count d k i j n).ecc = s.ecc := rfl
@[simp] theorem State.count_procs (s : State) (d k i j n : Nat) : (s.count d k i j n).procs = s.procs := rfl
@[simp] theorem State.count_cores (s : State) (d k i j n : Nat) : (s.count d k i j n).cores = s.cores := rfl
@[simp] theorem State.count_sheds (s : State) (d k i j n : Nat) : (s.count d k i j n).sheds = s.sheds := rfl
@[simp] theorem State.count_chans (s : State) (d k i j n : Nat) : (s.count d k i j n).chans = s.chans := rfl
@[simp] theorem State.count_homes (s : State) (d k i j n : Nat) : (s.count d k i j n).homes = s.homes := rfl
@[simp] theorem State.count_spaces (s : State) (d k i j n : Nat) : (s.count d k i j n).spaces = s.spaces := rfl
@[simp] theorem State.count_bases (s : State) (d k i j n : Nat) : (s.count d k i j n).bases = s.bases := rfl
@[simp] theorem State.count_merges (s : State) (d k i j n : Nat) : (s.count d k i j n).merges = s.merges := rfl
@[simp] theorem State.count_links (s : State) (d k i j n : Nat) : (s.count d k i j n).links = s.links := rfl
@[simp] theorem State.count_colls (s : State) (d k i j n : Nat) : (s.count d k i j n).colls = s.colls := rfl
@[simp] theorem State.count_windows (s : State) (d k i j n : Nat) : (s.count d k i j n).windows = s.windows := rfl
@[simp] theorem State.count_hostEps (s : State) (d k i j n : Nat) : (s.count d k i j n).hostEps = s.hostEps := rfl
@[simp] theorem State.count_devices (s : State) (d k i j n : Nat) : (s.count d k i j n).devices = s.devices := rfl
@[simp] theorem State.count_migrations (s : State) (d k i j n : Nat) : (s.count d k i j n).migrations = s.migrations := rfl
@[simp] theorem State.count_servers (s : State) (d k i j n : Nat) : (s.count d k i j n).servers = s.servers := rfl
@[simp] theorem State.count_sessions (s : State) (d k i j n : Nat) : (s.count d k i j n).sessions = s.sessions := rfl
@[simp] theorem State.count_signals (s : State) (d k i j n : Nat) : (s.count d k i j n).signals = s.signals := rfl
@[simp] theorem State.count_net (s : State) (d k i j n : Nat) : (s.count d k i j n).net = s.net := rfl
@[simp] theorem State.count_agenda (s : State) (d k i j n : Nat) : (s.count d k i j n).agenda = s.agenda := rfl
@[simp] theorem State.count_cycle (s : State) (d k i j n : Nat) : (s.count d k i j n).cycle = s.cycle := rfl
@[simp] theorem State.count_pace (s : State) (d k i j n : Nat) : (s.count d k i j n).pace = s.pace := rfl
@[simp] theorem State.count_cur (s : State) (d k i j n : Nat) : (s.count d k i j n).cur = s.cur := rfl
@[simp] theorem State.count_turn (s : State) (d k i j n : Nat) : (s.count d k i j n).turn = s.turn := rfl
@[simp] theorem State.count_hostData (s : State) (d k i j n : Nat) : (s.count d k i j n).hostData = s.hostData := rfl
@[simp] theorem State.count_hostPoison (s : State) (d k i j n : Nat) : (s.count d k i j n).hostPoison = s.hostPoison := rfl
@[simp] theorem State.count_carried (s : State) (d k i j n : Nat) : (s.count d k i j n).carried = s.carried := rfl
@[simp] theorem State.count_nextChan (s : State) (d k i j n : Nat) : (s.count d k i j n).nextChan = s.nextChan := rfl
@[simp] theorem State.count_free (s : State) (d k i j n : Nat) : (s.count d k i j n).free = s.free := rfl


@[simp] theorem Proc.wg_gen (p : Proc) (n : BitVec 5) (x : Word) : (p.wg n x).gen = p.gen := by unfold Proc.wg; split <;> rfl
@[simp] theorem Proc.wg_kind (p : Proc) (n : BitVec 5) (x : Word) : (p.wg n x).kind = p.kind := by unfold Proc.wg; split <;> rfl
@[simp] theorem Proc.wg_pc (p : Proc) (n : BitVec 5) (x : Word) : (p.wg n x).pc = p.pc := by unfold Proc.wg; split <;> rfl
@[simp] theorem Proc.wg_pstat (p : Proc) (n : BitVec 5) (x : Word) : (p.wg n x).pstat = p.pstat := by unfold Proc.wg; split <;> rfl
@[simp] theorem Proc.wg_numctl (p : Proc) (n : BitVec 5) (x : Word) : (p.wg n x).numctl = p.numctl := by unfold Proc.wg; split <;> rfl
@[simp] theorem Proc.wg_epol (p : Proc) (n : BitVec 5) (x : Word) : (p.wg n x).epol = p.epol := by unfold Proc.wg; split <;> rfl
@[simp] theorem Proc.wg_tmo (p : Proc) (n : BitVec 5) (x : Word) : (p.wg n x).tmo = p.tmo := by unfold Proc.wg; split <;> rfl
@[simp] theorem Proc.wg_tvec (p : Proc) (n : BitVec 5) (x : Word) : (p.wg n x).tvec = p.tvec := by unfold Proc.wg; split <;> rfl
@[simp] theorem Proc.wg_tcause (p : Proc) (n : BitVec 5) (x : Word) : (p.wg n x).tcause = p.tcause := by unfold Proc.wg; split <;> rfl
@[simp] theorem Proc.wg_tval (p : Proc) (n : BitVec 5) (x : Word) : (p.wg n x).tval = p.tval := by unfold Proc.wg; split <;> rfl
@[simp] theorem Proc.wg_tpc (p : Proc) (n : BitVec 5) (x : Word) : (p.wg n x).tpc = p.tpc := by unfold Proc.wg; split <;> rfl
@[simp] theorem Proc.wg_tstat (p : Proc) (n : BitVec 5) (x : Word) : (p.wg n x).tstat = p.tstat := by unfold Proc.wg; split <;> rfl
@[simp] theorem Proc.wg_prior (p : Proc) (n : BitVec 5) (x : Word) : (p.wg n x).prior = p.prior := by unfold Proc.wg; split <;> rfl
@[simp] theorem Proc.wg_qnt (p : Proc) (n : BitVec 5) (x : Word) : (p.wg n x).qnt = p.qnt := by unfold Proc.wg; split <;> rfl
@[simp] theorem Proc.wg_feretry (p : Proc) (n : BitVec 5) (x : Word) : (p.wg n x).feretry = p.feretry := by unfold Proc.wg; split <;> rfl
@[simp] theorem Proc.wg_timecmp (p : Proc) (n : BitVec 5) (x : Word) : (p.wg n x).timecmp = p.timecmp := by unfold Proc.wg; split <;> rfl
@[simp] theorem Proc.wg_swapsq (p : Proc) (n : BitVec 5) (x : Word) : (p.wg n x).swapsq = p.swapsq := by unfold Proc.wg; split <;> rfl
@[simp] theorem Proc.wg_round (p : Proc) (n : BitVec 5) (x : Word) : (p.wg n x).round = p.round := by unfold Proc.wg; split <;> rfl
@[simp] theorem Proc.wg_joins (p : Proc) (n : BitVec 5) (x : Word) : (p.wg n x).joins = p.joins := by unfold Proc.wg; split <;> rfl
@[simp] theorem Proc.wg_vFull (p : Proc) (n : BitVec 5) (x : Word) : (p.wg n x).vFull = p.vFull := by unfold Proc.wg; split <;> rfl
@[simp] theorem Proc.wg_k (p : Proc) (n : BitVec 5) (x : Word) : (p.wg n x).k = p.k := by unfold Proc.wg; split <;> rfl
@[simp] theorem Proc.wg_v (p : Proc) (n : BitVec 5) (x : Word) : (p.wg n x).v = p.v := by unfold Proc.wg; split <;> rfl
@[simp] theorem Proc.wg_rotor (p : Proc) (n : BitVec 5) (x : Word) : (p.wg n x).rotor = p.rotor := by unfold Proc.wg; split <;> rfl
@[simp] theorem Proc.wg_doors (p : Proc) (n : BitVec 5) (x : Word) : (p.wg n x).doors = p.doors := by unfold Proc.wg; split <;> rfl
@[simp] theorem Proc.wg_asid (p : Proc) (n : BitVec 5) (x : Word) : (p.wg n x).asid = p.asid := by unfold Proc.wg; split <;> rfl
@[simp] theorem Proc.wg_ttype (p : Proc) (n : BitVec 5) (x : Word) : (p.wg n x).ttype = p.ttype := by unfold Proc.wg; split <;> rfl
@[simp] theorem Proc.wg_maxPrio (p : Proc) (n : BitVec 5) (x : Word) : (p.wg n x).maxPrio = p.maxPrio := by unfold Proc.wg; split <;> rfl
@[simp] theorem Proc.wg_tile (p : Proc) (n : BitVec 5) (x : Word) : (p.wg n x).tile = p.tile := by unfold Proc.wg; split <;> rfl
@[simp] theorem Proc.wg_yard (p : Proc) (n : BitVec 5) (x : Word) : (p.wg n x).yard = p.yard := by unfold Proc.wg; split <;> rfl
@[simp] theorem Proc.wg_splog (p : Proc) (n : BitVec 5) (x : Word) : (p.wg n x).splog = p.splog := by unfold Proc.wg; split <;> rfl
@[simp] theorem Proc.wg_spBase (p : Proc) (n : BitVec 5) (x : Word) : (p.wg n x).spBase = p.spBase := by unfold Proc.wg; split <;> rfl
@[simp] theorem Proc.wg_usa (p : Proc) (n : BitVec 5) (x : Word) : (p.wg n x).usa = p.usa := by unfold Proc.wg; split <;> rfl
@[simp] theorem Proc.wg_parent (p : Proc) (n : BitVec 5) (x : Word) : (p.wg n x).parent = p.parent := by unfold Proc.wg; split <;> rfl
@[simp] theorem Proc.wg_join (p : Proc) (n : BitVec 5) (x : Word) : (p.wg n x).join = p.join := by unfold Proc.wg; split <;> rfl
@[simp] theorem Proc.wg_run (p : Proc) (n : BitVec 5) (x : Word) : (p.wg n x).run = p.run := by unfold Proc.wg; split <;> rfl
@[simp] theorem Proc.wg_spilled (p : Proc) (n : BitVec 5) (x : Word) : (p.wg n x).spilled = p.spilled := by unfold Proc.wg; split <;> rfl
@[simp] theorem Proc.wg_wait (p : Proc) (n : BitVec 5) (x : Word) : (p.wg n x).wait = p.wait := by unfold Proc.wg; split <;> rfl
@[simp] theorem Proc.wg_stall (p : Proc) (n : BitVec 5) (x : Word) : (p.wg n x).stall = p.stall := by unfold Proc.wg; split <;> rfl
@[simp] theorem Proc.wg_vfills (p : Proc) (n : BitVec 5) (x : Word) : (p.wg n x).vfills = p.vfills := by unfold Proc.wg; split <;> rfl
@[simp] theorem Proc.wg_nwaits (p : Proc) (n : BitVec 5) (x : Word) : (p.wg n x).nwaits = p.nwaits := by unfold Proc.wg; split <;> rfl
@[simp] theorem Proc.wg_nodeTraps (p : Proc) (n : BitVec 5) (x : Word) : (p.wg n x).nodeTraps = p.nodeTraps := by unfold Proc.wg; split <;> rfl
@[simp] theorem Proc.wg_yardTrap (p : Proc) (n : BitVec 5) (x : Word) : (p.wg n x).yardTrap = p.yardTrap := by unfold Proc.wg; split <;> rfl
@[simp] theorem Proc.wg_yardGrid (p : Proc) (n : BitVec 5) (x : Word) : (p.wg n x).yardGrid = p.yardGrid := by unfold Proc.wg; split <;> rfl
@[simp] theorem Proc.wg_sigVal (p : Proc) (n : BitVec 5) (x : Word) : (p.wg n x).sigVal = p.sigVal := by unfold Proc.wg; split <;> rfl
@[simp] theorem Proc.wg_reported (p : Proc) (n : BitVec 5) (x : Word) : (p.wg n x).reported = p.reported := by unfold Proc.wg; split <;> rfl
@[simp] theorem Proc.wg_started (p : Proc) (n : BitVec 5) (x : Word) : (p.wg n x).started = p.started := by unfold Proc.wg; split <;> rfl
@[simp] theorem Proc.wg_readySince (p : Proc) (n : BitVec 5) (x : Word) : (p.wg n x).readySince = p.readySince := by unfold Proc.wg; split <;> rfl
@[simp] theorem Proc.wg_slotSince (p : Proc) (n : BitVec 5) (x : Word) : (p.wg n x).slotSince = p.slotSince := by unfold Proc.wg; split <;> rfl
@[simp] theorem Proc.wg_quantSince (p : Proc) (n : BitVec 5) (x : Word) : (p.wg n x).quantSince = p.quantSince := by unfold Proc.wg; split <;> rfl
@[simp] theorem Proc.wg_blockedSince (p : Proc) (n : BitVec 5) (x : Word) : (p.wg n x).blockedSince = p.blockedSince := by unfold Proc.wg; split <;> rfl
@[simp] theorem Proc.wg_hardSince (p : Proc) (n : BitVec 5) (x : Word) : (p.wg n x).hardSince = p.hardSince := by unfold Proc.wg; split <;> rfl
@[simp] theorem Proc.wg_haltReq (p : Proc) (n : BitVec 5) (x : Word) : (p.wg n x).haltReq = p.haltReq := by unfold Proc.wg; split <;> rfl
@[simp] theorem Proc.wg_haltFor (p : Proc) (n : BitVec 5) (x : Word) : (p.wg n x).haltFor = p.haltFor := by unfold Proc.wg; split <;> rfl
@[simp] theorem Proc.wg_held (p : Proc) (n : BitVec 5) (x : Word) : (p.wg n x).held = p.held := by unfold Proc.wg; split <;> rfl
@[simp] theorem Proc.wg_sup (p : Proc) (n : BitVec 5) (x : Word) : (p.wg n x).sup = p.sup := by unfold Proc.wg; split <;> rfl
@[simp] theorem Proc.wg_serving (p : Proc) (n : BitVec 5) (x : Word) : (p.wg n x).serving = p.serving := by unfold Proc.wg; split <;> rfl

@[simp] theorem Proc.wk_gen (p : Proc) (n : BitVec 3) (x : Word) : (p.wk n x).gen = p.gen := by unfold Proc.wk; split <;> rfl
@[simp] theorem Proc.wk_kind (p : Proc) (n : BitVec 3) (x : Word) : (p.wk n x).kind = p.kind := by unfold Proc.wk; split <;> rfl
@[simp] theorem Proc.wk_pc (p : Proc) (n : BitVec 3) (x : Word) : (p.wk n x).pc = p.pc := by unfold Proc.wk; split <;> rfl
@[simp] theorem Proc.wk_pstat (p : Proc) (n : BitVec 3) (x : Word) : (p.wk n x).pstat = p.pstat := by unfold Proc.wk; split <;> rfl
@[simp] theorem Proc.wk_numctl (p : Proc) (n : BitVec 3) (x : Word) : (p.wk n x).numctl = p.numctl := by unfold Proc.wk; split <;> rfl
@[simp] theorem Proc.wk_epol (p : Proc) (n : BitVec 3) (x : Word) : (p.wk n x).epol = p.epol := by unfold Proc.wk; split <;> rfl
@[simp] theorem Proc.wk_tmo (p : Proc) (n : BitVec 3) (x : Word) : (p.wk n x).tmo = p.tmo := by unfold Proc.wk; split <;> rfl
@[simp] theorem Proc.wk_tvec (p : Proc) (n : BitVec 3) (x : Word) : (p.wk n x).tvec = p.tvec := by unfold Proc.wk; split <;> rfl
@[simp] theorem Proc.wk_tcause (p : Proc) (n : BitVec 3) (x : Word) : (p.wk n x).tcause = p.tcause := by unfold Proc.wk; split <;> rfl
@[simp] theorem Proc.wk_tval (p : Proc) (n : BitVec 3) (x : Word) : (p.wk n x).tval = p.tval := by unfold Proc.wk; split <;> rfl
@[simp] theorem Proc.wk_tpc (p : Proc) (n : BitVec 3) (x : Word) : (p.wk n x).tpc = p.tpc := by unfold Proc.wk; split <;> rfl
@[simp] theorem Proc.wk_tstat (p : Proc) (n : BitVec 3) (x : Word) : (p.wk n x).tstat = p.tstat := by unfold Proc.wk; split <;> rfl
@[simp] theorem Proc.wk_prior (p : Proc) (n : BitVec 3) (x : Word) : (p.wk n x).prior = p.prior := by unfold Proc.wk; split <;> rfl
@[simp] theorem Proc.wk_qnt (p : Proc) (n : BitVec 3) (x : Word) : (p.wk n x).qnt = p.qnt := by unfold Proc.wk; split <;> rfl
@[simp] theorem Proc.wk_feretry (p : Proc) (n : BitVec 3) (x : Word) : (p.wk n x).feretry = p.feretry := by unfold Proc.wk; split <;> rfl
@[simp] theorem Proc.wk_timecmp (p : Proc) (n : BitVec 3) (x : Word) : (p.wk n x).timecmp = p.timecmp := by unfold Proc.wk; split <;> rfl
@[simp] theorem Proc.wk_swapsq (p : Proc) (n : BitVec 3) (x : Word) : (p.wk n x).swapsq = p.swapsq := by unfold Proc.wk; split <;> rfl
@[simp] theorem Proc.wk_round (p : Proc) (n : BitVec 3) (x : Word) : (p.wk n x).round = p.round := by unfold Proc.wk; split <;> rfl
@[simp] theorem Proc.wk_joins (p : Proc) (n : BitVec 3) (x : Word) : (p.wk n x).joins = p.joins := by unfold Proc.wk; split <;> rfl
@[simp] theorem Proc.wk_gFull (p : Proc) (n : BitVec 3) (x : Word) : (p.wk n x).gFull = p.gFull := by unfold Proc.wk; split <;> rfl
@[simp] theorem Proc.wk_vFull (p : Proc) (n : BitVec 3) (x : Word) : (p.wk n x).vFull = p.vFull := by unfold Proc.wk; split <;> rfl
@[simp] theorem Proc.wk_g (p : Proc) (n : BitVec 3) (x : Word) : (p.wk n x).g = p.g := by unfold Proc.wk; split <;> rfl
@[simp] theorem Proc.wk_v (p : Proc) (n : BitVec 3) (x : Word) : (p.wk n x).v = p.v := by unfold Proc.wk; split <;> rfl
@[simp] theorem Proc.wk_rotor (p : Proc) (n : BitVec 3) (x : Word) : (p.wk n x).rotor = p.rotor := by unfold Proc.wk; split <;> rfl
@[simp] theorem Proc.wk_doors (p : Proc) (n : BitVec 3) (x : Word) : (p.wk n x).doors = p.doors := by unfold Proc.wk; split <;> rfl
@[simp] theorem Proc.wk_asid (p : Proc) (n : BitVec 3) (x : Word) : (p.wk n x).asid = p.asid := by unfold Proc.wk; split <;> rfl
@[simp] theorem Proc.wk_ttype (p : Proc) (n : BitVec 3) (x : Word) : (p.wk n x).ttype = p.ttype := by unfold Proc.wk; split <;> rfl
@[simp] theorem Proc.wk_maxPrio (p : Proc) (n : BitVec 3) (x : Word) : (p.wk n x).maxPrio = p.maxPrio := by unfold Proc.wk; split <;> rfl
@[simp] theorem Proc.wk_tile (p : Proc) (n : BitVec 3) (x : Word) : (p.wk n x).tile = p.tile := by unfold Proc.wk; split <;> rfl
@[simp] theorem Proc.wk_yard (p : Proc) (n : BitVec 3) (x : Word) : (p.wk n x).yard = p.yard := by unfold Proc.wk; split <;> rfl
@[simp] theorem Proc.wk_splog (p : Proc) (n : BitVec 3) (x : Word) : (p.wk n x).splog = p.splog := by unfold Proc.wk; split <;> rfl
@[simp] theorem Proc.wk_spBase (p : Proc) (n : BitVec 3) (x : Word) : (p.wk n x).spBase = p.spBase := by unfold Proc.wk; split <;> rfl
@[simp] theorem Proc.wk_usa (p : Proc) (n : BitVec 3) (x : Word) : (p.wk n x).usa = p.usa := by unfold Proc.wk; split <;> rfl
@[simp] theorem Proc.wk_parent (p : Proc) (n : BitVec 3) (x : Word) : (p.wk n x).parent = p.parent := by unfold Proc.wk; split <;> rfl
@[simp] theorem Proc.wk_join (p : Proc) (n : BitVec 3) (x : Word) : (p.wk n x).join = p.join := by unfold Proc.wk; split <;> rfl
@[simp] theorem Proc.wk_run (p : Proc) (n : BitVec 3) (x : Word) : (p.wk n x).run = p.run := by unfold Proc.wk; split <;> rfl
@[simp] theorem Proc.wk_spilled (p : Proc) (n : BitVec 3) (x : Word) : (p.wk n x).spilled = p.spilled := by unfold Proc.wk; split <;> rfl
@[simp] theorem Proc.wk_wait (p : Proc) (n : BitVec 3) (x : Word) : (p.wk n x).wait = p.wait := by unfold Proc.wk; split <;> rfl
@[simp] theorem Proc.wk_stall (p : Proc) (n : BitVec 3) (x : Word) : (p.wk n x).stall = p.stall := by unfold Proc.wk; split <;> rfl
@[simp] theorem Proc.wk_vfills (p : Proc) (n : BitVec 3) (x : Word) : (p.wk n x).vfills = p.vfills := by unfold Proc.wk; split <;> rfl
@[simp] theorem Proc.wk_nwaits (p : Proc) (n : BitVec 3) (x : Word) : (p.wk n x).nwaits = p.nwaits := by unfold Proc.wk; split <;> rfl
@[simp] theorem Proc.wk_nodeTraps (p : Proc) (n : BitVec 3) (x : Word) : (p.wk n x).nodeTraps = p.nodeTraps := by unfold Proc.wk; split <;> rfl
@[simp] theorem Proc.wk_yardTrap (p : Proc) (n : BitVec 3) (x : Word) : (p.wk n x).yardTrap = p.yardTrap := by unfold Proc.wk; split <;> rfl
@[simp] theorem Proc.wk_yardGrid (p : Proc) (n : BitVec 3) (x : Word) : (p.wk n x).yardGrid = p.yardGrid := by unfold Proc.wk; split <;> rfl
@[simp] theorem Proc.wk_sigVal (p : Proc) (n : BitVec 3) (x : Word) : (p.wk n x).sigVal = p.sigVal := by unfold Proc.wk; split <;> rfl
@[simp] theorem Proc.wk_reported (p : Proc) (n : BitVec 3) (x : Word) : (p.wk n x).reported = p.reported := by unfold Proc.wk; split <;> rfl
@[simp] theorem Proc.wk_started (p : Proc) (n : BitVec 3) (x : Word) : (p.wk n x).started = p.started := by unfold Proc.wk; split <;> rfl
@[simp] theorem Proc.wk_readySince (p : Proc) (n : BitVec 3) (x : Word) : (p.wk n x).readySince = p.readySince := by unfold Proc.wk; split <;> rfl
@[simp] theorem Proc.wk_slotSince (p : Proc) (n : BitVec 3) (x : Word) : (p.wk n x).slotSince = p.slotSince := by unfold Proc.wk; split <;> rfl
@[simp] theorem Proc.wk_quantSince (p : Proc) (n : BitVec 3) (x : Word) : (p.wk n x).quantSince = p.quantSince := by unfold Proc.wk; split <;> rfl
@[simp] theorem Proc.wk_blockedSince (p : Proc) (n : BitVec 3) (x : Word) : (p.wk n x).blockedSince = p.blockedSince := by unfold Proc.wk; split <;> rfl
@[simp] theorem Proc.wk_hardSince (p : Proc) (n : BitVec 3) (x : Word) : (p.wk n x).hardSince = p.hardSince := by unfold Proc.wk; split <;> rfl
@[simp] theorem Proc.wk_haltReq (p : Proc) (n : BitVec 3) (x : Word) : (p.wk n x).haltReq = p.haltReq := by unfold Proc.wk; split <;> rfl
@[simp] theorem Proc.wk_haltFor (p : Proc) (n : BitVec 3) (x : Word) : (p.wk n x).haltFor = p.haltFor := by unfold Proc.wk; split <;> rfl
@[simp] theorem Proc.wk_held (p : Proc) (n : BitVec 3) (x : Word) : (p.wk n x).held = p.held := by unfold Proc.wk; split <;> rfl
@[simp] theorem Proc.wk_sup (p : Proc) (n : BitVec 3) (x : Word) : (p.wk n x).sup = p.sup := by unfold Proc.wk; split <;> rfl
@[simp] theorem Proc.wk_serving (p : Proc) (n : BitVec 3) (x : Word) : (p.wk n x).serving = p.serving := by unfold Proc.wk; split <;> rfl

@[simp] theorem Proc.eg_gen (p : Proc) (n : BitVec 5) : (p.eg n).gen = p.gen := by unfold Proc.eg; split <;> rfl
@[simp] theorem Proc.eg_kind (p : Proc) (n : BitVec 5) : (p.eg n).kind = p.kind := by unfold Proc.eg; split <;> rfl
@[simp] theorem Proc.eg_pc (p : Proc) (n : BitVec 5) : (p.eg n).pc = p.pc := by unfold Proc.eg; split <;> rfl
@[simp] theorem Proc.eg_pstat (p : Proc) (n : BitVec 5) : (p.eg n).pstat = p.pstat := by unfold Proc.eg; split <;> rfl
@[simp] theorem Proc.eg_numctl (p : Proc) (n : BitVec 5) : (p.eg n).numctl = p.numctl := by unfold Proc.eg; split <;> rfl
@[simp] theorem Proc.eg_epol (p : Proc) (n : BitVec 5) : (p.eg n).epol = p.epol := by unfold Proc.eg; split <;> rfl
@[simp] theorem Proc.eg_tmo (p : Proc) (n : BitVec 5) : (p.eg n).tmo = p.tmo := by unfold Proc.eg; split <;> rfl
@[simp] theorem Proc.eg_tvec (p : Proc) (n : BitVec 5) : (p.eg n).tvec = p.tvec := by unfold Proc.eg; split <;> rfl
@[simp] theorem Proc.eg_tcause (p : Proc) (n : BitVec 5) : (p.eg n).tcause = p.tcause := by unfold Proc.eg; split <;> rfl
@[simp] theorem Proc.eg_tval (p : Proc) (n : BitVec 5) : (p.eg n).tval = p.tval := by unfold Proc.eg; split <;> rfl
@[simp] theorem Proc.eg_tpc (p : Proc) (n : BitVec 5) : (p.eg n).tpc = p.tpc := by unfold Proc.eg; split <;> rfl
@[simp] theorem Proc.eg_tstat (p : Proc) (n : BitVec 5) : (p.eg n).tstat = p.tstat := by unfold Proc.eg; split <;> rfl
@[simp] theorem Proc.eg_prior (p : Proc) (n : BitVec 5) : (p.eg n).prior = p.prior := by unfold Proc.eg; split <;> rfl
@[simp] theorem Proc.eg_qnt (p : Proc) (n : BitVec 5) : (p.eg n).qnt = p.qnt := by unfold Proc.eg; split <;> rfl
@[simp] theorem Proc.eg_feretry (p : Proc) (n : BitVec 5) : (p.eg n).feretry = p.feretry := by unfold Proc.eg; split <;> rfl
@[simp] theorem Proc.eg_timecmp (p : Proc) (n : BitVec 5) : (p.eg n).timecmp = p.timecmp := by unfold Proc.eg; split <;> rfl
@[simp] theorem Proc.eg_swapsq (p : Proc) (n : BitVec 5) : (p.eg n).swapsq = p.swapsq := by unfold Proc.eg; split <;> rfl
@[simp] theorem Proc.eg_round (p : Proc) (n : BitVec 5) : (p.eg n).round = p.round := by unfold Proc.eg; split <;> rfl
@[simp] theorem Proc.eg_joins (p : Proc) (n : BitVec 5) : (p.eg n).joins = p.joins := by unfold Proc.eg; split <;> rfl
@[simp] theorem Proc.eg_vFull (p : Proc) (n : BitVec 5) : (p.eg n).vFull = p.vFull := by unfold Proc.eg; split <;> rfl
@[simp] theorem Proc.eg_g (p : Proc) (n : BitVec 5) : (p.eg n).g = p.g := by unfold Proc.eg; split <;> rfl
@[simp] theorem Proc.eg_k (p : Proc) (n : BitVec 5) : (p.eg n).k = p.k := by unfold Proc.eg; split <;> rfl
@[simp] theorem Proc.eg_v (p : Proc) (n : BitVec 5) : (p.eg n).v = p.v := by unfold Proc.eg; split <;> rfl
@[simp] theorem Proc.eg_rotor (p : Proc) (n : BitVec 5) : (p.eg n).rotor = p.rotor := by unfold Proc.eg; split <;> rfl
@[simp] theorem Proc.eg_doors (p : Proc) (n : BitVec 5) : (p.eg n).doors = p.doors := by unfold Proc.eg; split <;> rfl
@[simp] theorem Proc.eg_asid (p : Proc) (n : BitVec 5) : (p.eg n).asid = p.asid := by unfold Proc.eg; split <;> rfl
@[simp] theorem Proc.eg_ttype (p : Proc) (n : BitVec 5) : (p.eg n).ttype = p.ttype := by unfold Proc.eg; split <;> rfl
@[simp] theorem Proc.eg_maxPrio (p : Proc) (n : BitVec 5) : (p.eg n).maxPrio = p.maxPrio := by unfold Proc.eg; split <;> rfl
@[simp] theorem Proc.eg_tile (p : Proc) (n : BitVec 5) : (p.eg n).tile = p.tile := by unfold Proc.eg; split <;> rfl
@[simp] theorem Proc.eg_yard (p : Proc) (n : BitVec 5) : (p.eg n).yard = p.yard := by unfold Proc.eg; split <;> rfl
@[simp] theorem Proc.eg_splog (p : Proc) (n : BitVec 5) : (p.eg n).splog = p.splog := by unfold Proc.eg; split <;> rfl
@[simp] theorem Proc.eg_spBase (p : Proc) (n : BitVec 5) : (p.eg n).spBase = p.spBase := by unfold Proc.eg; split <;> rfl
@[simp] theorem Proc.eg_usa (p : Proc) (n : BitVec 5) : (p.eg n).usa = p.usa := by unfold Proc.eg; split <;> rfl
@[simp] theorem Proc.eg_parent (p : Proc) (n : BitVec 5) : (p.eg n).parent = p.parent := by unfold Proc.eg; split <;> rfl
@[simp] theorem Proc.eg_join (p : Proc) (n : BitVec 5) : (p.eg n).join = p.join := by unfold Proc.eg; split <;> rfl
@[simp] theorem Proc.eg_run (p : Proc) (n : BitVec 5) : (p.eg n).run = p.run := by unfold Proc.eg; split <;> rfl
@[simp] theorem Proc.eg_spilled (p : Proc) (n : BitVec 5) : (p.eg n).spilled = p.spilled := by unfold Proc.eg; split <;> rfl
@[simp] theorem Proc.eg_wait (p : Proc) (n : BitVec 5) : (p.eg n).wait = p.wait := by unfold Proc.eg; split <;> rfl
@[simp] theorem Proc.eg_stall (p : Proc) (n : BitVec 5) : (p.eg n).stall = p.stall := by unfold Proc.eg; split <;> rfl
@[simp] theorem Proc.eg_vfills (p : Proc) (n : BitVec 5) : (p.eg n).vfills = p.vfills := by unfold Proc.eg; split <;> rfl
@[simp] theorem Proc.eg_nwaits (p : Proc) (n : BitVec 5) : (p.eg n).nwaits = p.nwaits := by unfold Proc.eg; split <;> rfl
@[simp] theorem Proc.eg_nodeTraps (p : Proc) (n : BitVec 5) : (p.eg n).nodeTraps = p.nodeTraps := by unfold Proc.eg; split <;> rfl
@[simp] theorem Proc.eg_yardTrap (p : Proc) (n : BitVec 5) : (p.eg n).yardTrap = p.yardTrap := by unfold Proc.eg; split <;> rfl
@[simp] theorem Proc.eg_yardGrid (p : Proc) (n : BitVec 5) : (p.eg n).yardGrid = p.yardGrid := by unfold Proc.eg; split <;> rfl
@[simp] theorem Proc.eg_sigVal (p : Proc) (n : BitVec 5) : (p.eg n).sigVal = p.sigVal := by unfold Proc.eg; split <;> rfl
@[simp] theorem Proc.eg_reported (p : Proc) (n : BitVec 5) : (p.eg n).reported = p.reported := by unfold Proc.eg; split <;> rfl
@[simp] theorem Proc.eg_started (p : Proc) (n : BitVec 5) : (p.eg n).started = p.started := by unfold Proc.eg; split <;> rfl
@[simp] theorem Proc.eg_readySince (p : Proc) (n : BitVec 5) : (p.eg n).readySince = p.readySince := by unfold Proc.eg; split <;> rfl
@[simp] theorem Proc.eg_slotSince (p : Proc) (n : BitVec 5) : (p.eg n).slotSince = p.slotSince := by unfold Proc.eg; split <;> rfl
@[simp] theorem Proc.eg_quantSince (p : Proc) (n : BitVec 5) : (p.eg n).quantSince = p.quantSince := by unfold Proc.eg; split <;> rfl
@[simp] theorem Proc.eg_blockedSince (p : Proc) (n : BitVec 5) : (p.eg n).blockedSince = p.blockedSince := by unfold Proc.eg; split <;> rfl
@[simp] theorem Proc.eg_hardSince (p : Proc) (n : BitVec 5) : (p.eg n).hardSince = p.hardSince := by unfold Proc.eg; split <;> rfl
@[simp] theorem Proc.eg_haltReq (p : Proc) (n : BitVec 5) : (p.eg n).haltReq = p.haltReq := by unfold Proc.eg; split <;> rfl
@[simp] theorem Proc.eg_haltFor (p : Proc) (n : BitVec 5) : (p.eg n).haltFor = p.haltFor := by unfold Proc.eg; split <;> rfl
@[simp] theorem Proc.eg_held (p : Proc) (n : BitVec 5) : (p.eg n).held = p.held := by unfold Proc.eg; split <;> rfl
@[simp] theorem Proc.eg_sup (p : Proc) (n : BitVec 5) : (p.eg n).sup = p.sup := by unfold Proc.eg; split <;> rfl
@[simp] theorem Proc.eg_serving (p : Proc) (n : BitVec 5) : (p.eg n).serving = p.serving := by unfold Proc.eg; split <;> rfl

@[simp] theorem Proc.wv_gen (p : Proc) (n : BitVec 5) (x : VReg) : (p.wv n x).gen = p.gen := rfl
@[simp] theorem Proc.wv_kind (p : Proc) (n : BitVec 5) (x : VReg) : (p.wv n x).kind = p.kind := rfl
@[simp] theorem Proc.wv_pc (p : Proc) (n : BitVec 5) (x : VReg) : (p.wv n x).pc = p.pc := rfl
@[simp] theorem Proc.wv_pstat (p : Proc) (n : BitVec 5) (x : VReg) : (p.wv n x).pstat = p.pstat := rfl
@[simp] theorem Proc.wv_numctl (p : Proc) (n : BitVec 5) (x : VReg) : (p.wv n x).numctl = p.numctl := rfl
@[simp] theorem Proc.wv_epol (p : Proc) (n : BitVec 5) (x : VReg) : (p.wv n x).epol = p.epol := rfl
@[simp] theorem Proc.wv_tmo (p : Proc) (n : BitVec 5) (x : VReg) : (p.wv n x).tmo = p.tmo := rfl
@[simp] theorem Proc.wv_tvec (p : Proc) (n : BitVec 5) (x : VReg) : (p.wv n x).tvec = p.tvec := rfl
@[simp] theorem Proc.wv_tcause (p : Proc) (n : BitVec 5) (x : VReg) : (p.wv n x).tcause = p.tcause := rfl
@[simp] theorem Proc.wv_tval (p : Proc) (n : BitVec 5) (x : VReg) : (p.wv n x).tval = p.tval := rfl
@[simp] theorem Proc.wv_tpc (p : Proc) (n : BitVec 5) (x : VReg) : (p.wv n x).tpc = p.tpc := rfl
@[simp] theorem Proc.wv_tstat (p : Proc) (n : BitVec 5) (x : VReg) : (p.wv n x).tstat = p.tstat := rfl
@[simp] theorem Proc.wv_prior (p : Proc) (n : BitVec 5) (x : VReg) : (p.wv n x).prior = p.prior := rfl
@[simp] theorem Proc.wv_qnt (p : Proc) (n : BitVec 5) (x : VReg) : (p.wv n x).qnt = p.qnt := rfl
@[simp] theorem Proc.wv_feretry (p : Proc) (n : BitVec 5) (x : VReg) : (p.wv n x).feretry = p.feretry := rfl
@[simp] theorem Proc.wv_timecmp (p : Proc) (n : BitVec 5) (x : VReg) : (p.wv n x).timecmp = p.timecmp := rfl
@[simp] theorem Proc.wv_swapsq (p : Proc) (n : BitVec 5) (x : VReg) : (p.wv n x).swapsq = p.swapsq := rfl
@[simp] theorem Proc.wv_round (p : Proc) (n : BitVec 5) (x : VReg) : (p.wv n x).round = p.round := rfl
@[simp] theorem Proc.wv_joins (p : Proc) (n : BitVec 5) (x : VReg) : (p.wv n x).joins = p.joins := rfl
@[simp] theorem Proc.wv_gFull (p : Proc) (n : BitVec 5) (x : VReg) : (p.wv n x).gFull = p.gFull := rfl
@[simp] theorem Proc.wv_g (p : Proc) (n : BitVec 5) (x : VReg) : (p.wv n x).g = p.g := rfl
@[simp] theorem Proc.wv_k (p : Proc) (n : BitVec 5) (x : VReg) : (p.wv n x).k = p.k := rfl
@[simp] theorem Proc.wv_rotor (p : Proc) (n : BitVec 5) (x : VReg) : (p.wv n x).rotor = p.rotor := rfl
@[simp] theorem Proc.wv_doors (p : Proc) (n : BitVec 5) (x : VReg) : (p.wv n x).doors = p.doors := rfl
@[simp] theorem Proc.wv_asid (p : Proc) (n : BitVec 5) (x : VReg) : (p.wv n x).asid = p.asid := rfl
@[simp] theorem Proc.wv_ttype (p : Proc) (n : BitVec 5) (x : VReg) : (p.wv n x).ttype = p.ttype := rfl
@[simp] theorem Proc.wv_maxPrio (p : Proc) (n : BitVec 5) (x : VReg) : (p.wv n x).maxPrio = p.maxPrio := rfl
@[simp] theorem Proc.wv_tile (p : Proc) (n : BitVec 5) (x : VReg) : (p.wv n x).tile = p.tile := rfl
@[simp] theorem Proc.wv_yard (p : Proc) (n : BitVec 5) (x : VReg) : (p.wv n x).yard = p.yard := rfl
@[simp] theorem Proc.wv_splog (p : Proc) (n : BitVec 5) (x : VReg) : (p.wv n x).splog = p.splog := rfl
@[simp] theorem Proc.wv_spBase (p : Proc) (n : BitVec 5) (x : VReg) : (p.wv n x).spBase = p.spBase := rfl
@[simp] theorem Proc.wv_usa (p : Proc) (n : BitVec 5) (x : VReg) : (p.wv n x).usa = p.usa := rfl
@[simp] theorem Proc.wv_parent (p : Proc) (n : BitVec 5) (x : VReg) : (p.wv n x).parent = p.parent := rfl
@[simp] theorem Proc.wv_join (p : Proc) (n : BitVec 5) (x : VReg) : (p.wv n x).join = p.join := rfl
@[simp] theorem Proc.wv_run (p : Proc) (n : BitVec 5) (x : VReg) : (p.wv n x).run = p.run := rfl
@[simp] theorem Proc.wv_spilled (p : Proc) (n : BitVec 5) (x : VReg) : (p.wv n x).spilled = p.spilled := rfl
@[simp] theorem Proc.wv_wait (p : Proc) (n : BitVec 5) (x : VReg) : (p.wv n x).wait = p.wait := rfl
@[simp] theorem Proc.wv_stall (p : Proc) (n : BitVec 5) (x : VReg) : (p.wv n x).stall = p.stall := rfl
@[simp] theorem Proc.wv_vfills (p : Proc) (n : BitVec 5) (x : VReg) : (p.wv n x).vfills = p.vfills := rfl
@[simp] theorem Proc.wv_nwaits (p : Proc) (n : BitVec 5) (x : VReg) : (p.wv n x).nwaits = p.nwaits := rfl
@[simp] theorem Proc.wv_nodeTraps (p : Proc) (n : BitVec 5) (x : VReg) : (p.wv n x).nodeTraps = p.nodeTraps := rfl
@[simp] theorem Proc.wv_yardTrap (p : Proc) (n : BitVec 5) (x : VReg) : (p.wv n x).yardTrap = p.yardTrap := rfl
@[simp] theorem Proc.wv_yardGrid (p : Proc) (n : BitVec 5) (x : VReg) : (p.wv n x).yardGrid = p.yardGrid := rfl
@[simp] theorem Proc.wv_sigVal (p : Proc) (n : BitVec 5) (x : VReg) : (p.wv n x).sigVal = p.sigVal := rfl
@[simp] theorem Proc.wv_reported (p : Proc) (n : BitVec 5) (x : VReg) : (p.wv n x).reported = p.reported := rfl
@[simp] theorem Proc.wv_started (p : Proc) (n : BitVec 5) (x : VReg) : (p.wv n x).started = p.started := rfl
@[simp] theorem Proc.wv_readySince (p : Proc) (n : BitVec 5) (x : VReg) : (p.wv n x).readySince = p.readySince := rfl
@[simp] theorem Proc.wv_slotSince (p : Proc) (n : BitVec 5) (x : VReg) : (p.wv n x).slotSince = p.slotSince := rfl
@[simp] theorem Proc.wv_quantSince (p : Proc) (n : BitVec 5) (x : VReg) : (p.wv n x).quantSince = p.quantSince := rfl
@[simp] theorem Proc.wv_blockedSince (p : Proc) (n : BitVec 5) (x : VReg) : (p.wv n x).blockedSince = p.blockedSince := rfl
@[simp] theorem Proc.wv_hardSince (p : Proc) (n : BitVec 5) (x : VReg) : (p.wv n x).hardSince = p.hardSince := rfl
@[simp] theorem Proc.wv_haltReq (p : Proc) (n : BitVec 5) (x : VReg) : (p.wv n x).haltReq = p.haltReq := rfl
@[simp] theorem Proc.wv_haltFor (p : Proc) (n : BitVec 5) (x : VReg) : (p.wv n x).haltFor = p.haltFor := rfl
@[simp] theorem Proc.wv_held (p : Proc) (n : BitVec 5) (x : VReg) : (p.wv n x).held = p.held := rfl
@[simp] theorem Proc.wv_sup (p : Proc) (n : BitVec 5) (x : VReg) : (p.wv n x).sup = p.sup := rfl
@[simp] theorem Proc.wv_serving (p : Proc) (n : BitVec 5) (x : VReg) : (p.wv n x).serving = p.serving := rfl

@[simp] theorem Proc.ev_gen (p : Proc) (n : BitVec 5) : (p.ev n).gen = p.gen := rfl
@[simp] theorem Proc.ev_kind (p : Proc) (n : BitVec 5) : (p.ev n).kind = p.kind := rfl
@[simp] theorem Proc.ev_pc (p : Proc) (n : BitVec 5) : (p.ev n).pc = p.pc := rfl
@[simp] theorem Proc.ev_pstat (p : Proc) (n : BitVec 5) : (p.ev n).pstat = p.pstat := rfl
@[simp] theorem Proc.ev_numctl (p : Proc) (n : BitVec 5) : (p.ev n).numctl = p.numctl := rfl
@[simp] theorem Proc.ev_epol (p : Proc) (n : BitVec 5) : (p.ev n).epol = p.epol := rfl
@[simp] theorem Proc.ev_tmo (p : Proc) (n : BitVec 5) : (p.ev n).tmo = p.tmo := rfl
@[simp] theorem Proc.ev_tvec (p : Proc) (n : BitVec 5) : (p.ev n).tvec = p.tvec := rfl
@[simp] theorem Proc.ev_tcause (p : Proc) (n : BitVec 5) : (p.ev n).tcause = p.tcause := rfl
@[simp] theorem Proc.ev_tval (p : Proc) (n : BitVec 5) : (p.ev n).tval = p.tval := rfl
@[simp] theorem Proc.ev_tpc (p : Proc) (n : BitVec 5) : (p.ev n).tpc = p.tpc := rfl
@[simp] theorem Proc.ev_tstat (p : Proc) (n : BitVec 5) : (p.ev n).tstat = p.tstat := rfl
@[simp] theorem Proc.ev_prior (p : Proc) (n : BitVec 5) : (p.ev n).prior = p.prior := rfl
@[simp] theorem Proc.ev_qnt (p : Proc) (n : BitVec 5) : (p.ev n).qnt = p.qnt := rfl
@[simp] theorem Proc.ev_feretry (p : Proc) (n : BitVec 5) : (p.ev n).feretry = p.feretry := rfl
@[simp] theorem Proc.ev_timecmp (p : Proc) (n : BitVec 5) : (p.ev n).timecmp = p.timecmp := rfl
@[simp] theorem Proc.ev_swapsq (p : Proc) (n : BitVec 5) : (p.ev n).swapsq = p.swapsq := rfl
@[simp] theorem Proc.ev_round (p : Proc) (n : BitVec 5) : (p.ev n).round = p.round := rfl
@[simp] theorem Proc.ev_joins (p : Proc) (n : BitVec 5) : (p.ev n).joins = p.joins := rfl
@[simp] theorem Proc.ev_gFull (p : Proc) (n : BitVec 5) : (p.ev n).gFull = p.gFull := rfl
@[simp] theorem Proc.ev_g (p : Proc) (n : BitVec 5) : (p.ev n).g = p.g := rfl
@[simp] theorem Proc.ev_k (p : Proc) (n : BitVec 5) : (p.ev n).k = p.k := rfl
@[simp] theorem Proc.ev_v (p : Proc) (n : BitVec 5) : (p.ev n).v = p.v := rfl
@[simp] theorem Proc.ev_rotor (p : Proc) (n : BitVec 5) : (p.ev n).rotor = p.rotor := rfl
@[simp] theorem Proc.ev_doors (p : Proc) (n : BitVec 5) : (p.ev n).doors = p.doors := rfl
@[simp] theorem Proc.ev_asid (p : Proc) (n : BitVec 5) : (p.ev n).asid = p.asid := rfl
@[simp] theorem Proc.ev_ttype (p : Proc) (n : BitVec 5) : (p.ev n).ttype = p.ttype := rfl
@[simp] theorem Proc.ev_maxPrio (p : Proc) (n : BitVec 5) : (p.ev n).maxPrio = p.maxPrio := rfl
@[simp] theorem Proc.ev_tile (p : Proc) (n : BitVec 5) : (p.ev n).tile = p.tile := rfl
@[simp] theorem Proc.ev_yard (p : Proc) (n : BitVec 5) : (p.ev n).yard = p.yard := rfl
@[simp] theorem Proc.ev_splog (p : Proc) (n : BitVec 5) : (p.ev n).splog = p.splog := rfl
@[simp] theorem Proc.ev_spBase (p : Proc) (n : BitVec 5) : (p.ev n).spBase = p.spBase := rfl
@[simp] theorem Proc.ev_usa (p : Proc) (n : BitVec 5) : (p.ev n).usa = p.usa := rfl
@[simp] theorem Proc.ev_parent (p : Proc) (n : BitVec 5) : (p.ev n).parent = p.parent := rfl
@[simp] theorem Proc.ev_join (p : Proc) (n : BitVec 5) : (p.ev n).join = p.join := rfl
@[simp] theorem Proc.ev_run (p : Proc) (n : BitVec 5) : (p.ev n).run = p.run := rfl
@[simp] theorem Proc.ev_spilled (p : Proc) (n : BitVec 5) : (p.ev n).spilled = p.spilled := rfl
@[simp] theorem Proc.ev_wait (p : Proc) (n : BitVec 5) : (p.ev n).wait = p.wait := rfl
@[simp] theorem Proc.ev_stall (p : Proc) (n : BitVec 5) : (p.ev n).stall = p.stall := rfl
@[simp] theorem Proc.ev_vfills (p : Proc) (n : BitVec 5) : (p.ev n).vfills = p.vfills := rfl
@[simp] theorem Proc.ev_nwaits (p : Proc) (n : BitVec 5) : (p.ev n).nwaits = p.nwaits := rfl
@[simp] theorem Proc.ev_nodeTraps (p : Proc) (n : BitVec 5) : (p.ev n).nodeTraps = p.nodeTraps := rfl
@[simp] theorem Proc.ev_yardTrap (p : Proc) (n : BitVec 5) : (p.ev n).yardTrap = p.yardTrap := rfl
@[simp] theorem Proc.ev_yardGrid (p : Proc) (n : BitVec 5) : (p.ev n).yardGrid = p.yardGrid := rfl
@[simp] theorem Proc.ev_sigVal (p : Proc) (n : BitVec 5) : (p.ev n).sigVal = p.sigVal := rfl
@[simp] theorem Proc.ev_reported (p : Proc) (n : BitVec 5) : (p.ev n).reported = p.reported := rfl
@[simp] theorem Proc.ev_started (p : Proc) (n : BitVec 5) : (p.ev n).started = p.started := rfl
@[simp] theorem Proc.ev_readySince (p : Proc) (n : BitVec 5) : (p.ev n).readySince = p.readySince := rfl
@[simp] theorem Proc.ev_slotSince (p : Proc) (n : BitVec 5) : (p.ev n).slotSince = p.slotSince := rfl
@[simp] theorem Proc.ev_quantSince (p : Proc) (n : BitVec 5) : (p.ev n).quantSince = p.quantSince := rfl
@[simp] theorem Proc.ev_blockedSince (p : Proc) (n : BitVec 5) : (p.ev n).blockedSince = p.blockedSince := rfl
@[simp] theorem Proc.ev_hardSince (p : Proc) (n : BitVec 5) : (p.ev n).hardSince = p.hardSince := rfl
@[simp] theorem Proc.ev_haltReq (p : Proc) (n : BitVec 5) : (p.ev n).haltReq = p.haltReq := rfl
@[simp] theorem Proc.ev_haltFor (p : Proc) (n : BitVec 5) : (p.ev n).haltFor = p.haltFor := rfl
@[simp] theorem Proc.ev_held (p : Proc) (n : BitVec 5) : (p.ev n).held = p.held := rfl
@[simp] theorem Proc.ev_sup (p : Proc) (n : BitVec 5) : (p.ev n).sup = p.sup := rfl
@[simp] theorem Proc.ev_serving (p : Proc) (n : BitVec 5) : (p.ev n).serving = p.serving := rfl

@[simp] theorem Proc.advance_gen (p : Proc) : (p.advance).gen = p.gen := rfl
@[simp] theorem Proc.advance_kind (p : Proc) : (p.advance).kind = p.kind := rfl
@[simp] theorem Proc.advance_pstat (p : Proc) : (p.advance).pstat = p.pstat := rfl
@[simp] theorem Proc.advance_numctl (p : Proc) : (p.advance).numctl = p.numctl := rfl
@[simp] theorem Proc.advance_epol (p : Proc) : (p.advance).epol = p.epol := rfl
@[simp] theorem Proc.advance_tmo (p : Proc) : (p.advance).tmo = p.tmo := rfl
@[simp] theorem Proc.advance_tvec (p : Proc) : (p.advance).tvec = p.tvec := rfl
@[simp] theorem Proc.advance_tcause (p : Proc) : (p.advance).tcause = p.tcause := rfl
@[simp] theorem Proc.advance_tval (p : Proc) : (p.advance).tval = p.tval := rfl
@[simp] theorem Proc.advance_tpc (p : Proc) : (p.advance).tpc = p.tpc := rfl
@[simp] theorem Proc.advance_tstat (p : Proc) : (p.advance).tstat = p.tstat := rfl
@[simp] theorem Proc.advance_prior (p : Proc) : (p.advance).prior = p.prior := rfl
@[simp] theorem Proc.advance_qnt (p : Proc) : (p.advance).qnt = p.qnt := rfl
@[simp] theorem Proc.advance_feretry (p : Proc) : (p.advance).feretry = p.feretry := rfl
@[simp] theorem Proc.advance_timecmp (p : Proc) : (p.advance).timecmp = p.timecmp := rfl
@[simp] theorem Proc.advance_swapsq (p : Proc) : (p.advance).swapsq = p.swapsq := rfl
@[simp] theorem Proc.advance_round (p : Proc) : (p.advance).round = p.round := rfl
@[simp] theorem Proc.advance_joins (p : Proc) : (p.advance).joins = p.joins := rfl
@[simp] theorem Proc.advance_gFull (p : Proc) : (p.advance).gFull = p.gFull := rfl
@[simp] theorem Proc.advance_vFull (p : Proc) : (p.advance).vFull = p.vFull := rfl
@[simp] theorem Proc.advance_g (p : Proc) : (p.advance).g = p.g := rfl
@[simp] theorem Proc.advance_k (p : Proc) : (p.advance).k = p.k := rfl
@[simp] theorem Proc.advance_v (p : Proc) : (p.advance).v = p.v := rfl
@[simp] theorem Proc.advance_rotor (p : Proc) : (p.advance).rotor = p.rotor := rfl
@[simp] theorem Proc.advance_doors (p : Proc) : (p.advance).doors = p.doors := rfl
@[simp] theorem Proc.advance_asid (p : Proc) : (p.advance).asid = p.asid := rfl
@[simp] theorem Proc.advance_ttype (p : Proc) : (p.advance).ttype = p.ttype := rfl
@[simp] theorem Proc.advance_maxPrio (p : Proc) : (p.advance).maxPrio = p.maxPrio := rfl
@[simp] theorem Proc.advance_tile (p : Proc) : (p.advance).tile = p.tile := rfl
@[simp] theorem Proc.advance_yard (p : Proc) : (p.advance).yard = p.yard := rfl
@[simp] theorem Proc.advance_splog (p : Proc) : (p.advance).splog = p.splog := rfl
@[simp] theorem Proc.advance_spBase (p : Proc) : (p.advance).spBase = p.spBase := rfl
@[simp] theorem Proc.advance_usa (p : Proc) : (p.advance).usa = p.usa := rfl
@[simp] theorem Proc.advance_parent (p : Proc) : (p.advance).parent = p.parent := rfl
@[simp] theorem Proc.advance_join (p : Proc) : (p.advance).join = p.join := rfl
@[simp] theorem Proc.advance_run (p : Proc) : (p.advance).run = p.run := rfl
@[simp] theorem Proc.advance_spilled (p : Proc) : (p.advance).spilled = p.spilled := rfl
@[simp] theorem Proc.advance_wait (p : Proc) : (p.advance).wait = p.wait := rfl
@[simp] theorem Proc.advance_stall (p : Proc) : (p.advance).stall = p.stall := rfl
@[simp] theorem Proc.advance_vfills (p : Proc) : (p.advance).vfills = p.vfills := rfl
@[simp] theorem Proc.advance_nwaits (p : Proc) : (p.advance).nwaits = p.nwaits := rfl
@[simp] theorem Proc.advance_nodeTraps (p : Proc) : (p.advance).nodeTraps = p.nodeTraps := rfl
@[simp] theorem Proc.advance_yardTrap (p : Proc) : (p.advance).yardTrap = p.yardTrap := rfl
@[simp] theorem Proc.advance_yardGrid (p : Proc) : (p.advance).yardGrid = p.yardGrid := rfl
@[simp] theorem Proc.advance_sigVal (p : Proc) : (p.advance).sigVal = p.sigVal := rfl
@[simp] theorem Proc.advance_reported (p : Proc) : (p.advance).reported = p.reported := rfl
@[simp] theorem Proc.advance_started (p : Proc) : (p.advance).started = p.started := rfl
@[simp] theorem Proc.advance_readySince (p : Proc) : (p.advance).readySince = p.readySince := rfl
@[simp] theorem Proc.advance_slotSince (p : Proc) : (p.advance).slotSince = p.slotSince := rfl
@[simp] theorem Proc.advance_quantSince (p : Proc) : (p.advance).quantSince = p.quantSince := rfl
@[simp] theorem Proc.advance_blockedSince (p : Proc) : (p.advance).blockedSince = p.blockedSince := rfl
@[simp] theorem Proc.advance_hardSince (p : Proc) : (p.advance).hardSince = p.hardSince := rfl
@[simp] theorem Proc.advance_haltReq (p : Proc) : (p.advance).haltReq = p.haltReq := rfl
@[simp] theorem Proc.advance_haltFor (p : Proc) : (p.advance).haltFor = p.haltFor := rfl
@[simp] theorem Proc.advance_held (p : Proc) : (p.advance).held = p.held := rfl
@[simp] theorem Proc.advance_sup (p : Proc) : (p.advance).sup = p.sup := rfl
@[simp] theorem Proc.advance_serving (p : Proc) : (p.advance).serving = p.serving := rfl

@[simp] theorem Proc.over_gen (p : Proc) (e : Bool) : (p.over e).gen = p.gen := rfl
@[simp] theorem Proc.over_kind (p : Proc) (e : Bool) : (p.over e).kind = p.kind := rfl
@[simp] theorem Proc.over_pstat (p : Proc) (e : Bool) : (p.over e).pstat = p.pstat := rfl
@[simp] theorem Proc.over_numctl (p : Proc) (e : Bool) : (p.over e).numctl = p.numctl := rfl
@[simp] theorem Proc.over_epol (p : Proc) (e : Bool) : (p.over e).epol = p.epol := rfl
@[simp] theorem Proc.over_tmo (p : Proc) (e : Bool) : (p.over e).tmo = p.tmo := rfl
@[simp] theorem Proc.over_tvec (p : Proc) (e : Bool) : (p.over e).tvec = p.tvec := rfl
@[simp] theorem Proc.over_tcause (p : Proc) (e : Bool) : (p.over e).tcause = p.tcause := rfl
@[simp] theorem Proc.over_tval (p : Proc) (e : Bool) : (p.over e).tval = p.tval := rfl
@[simp] theorem Proc.over_tpc (p : Proc) (e : Bool) : (p.over e).tpc = p.tpc := rfl
@[simp] theorem Proc.over_tstat (p : Proc) (e : Bool) : (p.over e).tstat = p.tstat := rfl
@[simp] theorem Proc.over_prior (p : Proc) (e : Bool) : (p.over e).prior = p.prior := rfl
@[simp] theorem Proc.over_qnt (p : Proc) (e : Bool) : (p.over e).qnt = p.qnt := rfl
@[simp] theorem Proc.over_feretry (p : Proc) (e : Bool) : (p.over e).feretry = p.feretry := rfl
@[simp] theorem Proc.over_timecmp (p : Proc) (e : Bool) : (p.over e).timecmp = p.timecmp := rfl
@[simp] theorem Proc.over_swapsq (p : Proc) (e : Bool) : (p.over e).swapsq = p.swapsq := rfl
@[simp] theorem Proc.over_round (p : Proc) (e : Bool) : (p.over e).round = p.round := rfl
@[simp] theorem Proc.over_joins (p : Proc) (e : Bool) : (p.over e).joins = p.joins := rfl
@[simp] theorem Proc.over_gFull (p : Proc) (e : Bool) : (p.over e).gFull = p.gFull := rfl
@[simp] theorem Proc.over_vFull (p : Proc) (e : Bool) : (p.over e).vFull = p.vFull := rfl
@[simp] theorem Proc.over_g (p : Proc) (e : Bool) : (p.over e).g = p.g := rfl
@[simp] theorem Proc.over_k (p : Proc) (e : Bool) : (p.over e).k = p.k := rfl
@[simp] theorem Proc.over_v (p : Proc) (e : Bool) : (p.over e).v = p.v := rfl
@[simp] theorem Proc.over_rotor (p : Proc) (e : Bool) : (p.over e).rotor = p.rotor := rfl
@[simp] theorem Proc.over_doors (p : Proc) (e : Bool) : (p.over e).doors = p.doors := rfl
@[simp] theorem Proc.over_asid (p : Proc) (e : Bool) : (p.over e).asid = p.asid := rfl
@[simp] theorem Proc.over_ttype (p : Proc) (e : Bool) : (p.over e).ttype = p.ttype := rfl
@[simp] theorem Proc.over_maxPrio (p : Proc) (e : Bool) : (p.over e).maxPrio = p.maxPrio := rfl
@[simp] theorem Proc.over_tile (p : Proc) (e : Bool) : (p.over e).tile = p.tile := rfl
@[simp] theorem Proc.over_yard (p : Proc) (e : Bool) : (p.over e).yard = p.yard := rfl
@[simp] theorem Proc.over_splog (p : Proc) (e : Bool) : (p.over e).splog = p.splog := rfl
@[simp] theorem Proc.over_spBase (p : Proc) (e : Bool) : (p.over e).spBase = p.spBase := rfl
@[simp] theorem Proc.over_usa (p : Proc) (e : Bool) : (p.over e).usa = p.usa := rfl
@[simp] theorem Proc.over_parent (p : Proc) (e : Bool) : (p.over e).parent = p.parent := rfl
@[simp] theorem Proc.over_join (p : Proc) (e : Bool) : (p.over e).join = p.join := rfl
@[simp] theorem Proc.over_run (p : Proc) (e : Bool) : (p.over e).run = p.run := rfl
@[simp] theorem Proc.over_spilled (p : Proc) (e : Bool) : (p.over e).spilled = p.spilled := rfl
@[simp] theorem Proc.over_wait (p : Proc) (e : Bool) : (p.over e).wait = p.wait := rfl
@[simp] theorem Proc.over_stall (p : Proc) (e : Bool) : (p.over e).stall = p.stall := rfl
@[simp] theorem Proc.over_vfills (p : Proc) (e : Bool) : (p.over e).vfills = p.vfills := rfl
@[simp] theorem Proc.over_nwaits (p : Proc) (e : Bool) : (p.over e).nwaits = p.nwaits := rfl
@[simp] theorem Proc.over_nodeTraps (p : Proc) (e : Bool) : (p.over e).nodeTraps = p.nodeTraps := rfl
@[simp] theorem Proc.over_yardTrap (p : Proc) (e : Bool) : (p.over e).yardTrap = p.yardTrap := rfl
@[simp] theorem Proc.over_yardGrid (p : Proc) (e : Bool) : (p.over e).yardGrid = p.yardGrid := rfl
@[simp] theorem Proc.over_sigVal (p : Proc) (e : Bool) : (p.over e).sigVal = p.sigVal := rfl
@[simp] theorem Proc.over_reported (p : Proc) (e : Bool) : (p.over e).reported = p.reported := rfl
@[simp] theorem Proc.over_started (p : Proc) (e : Bool) : (p.over e).started = p.started := rfl
@[simp] theorem Proc.over_readySince (p : Proc) (e : Bool) : (p.over e).readySince = p.readySince := rfl
@[simp] theorem Proc.over_slotSince (p : Proc) (e : Bool) : (p.over e).slotSince = p.slotSince := rfl
@[simp] theorem Proc.over_quantSince (p : Proc) (e : Bool) : (p.over e).quantSince = p.quantSince := rfl
@[simp] theorem Proc.over_blockedSince (p : Proc) (e : Bool) : (p.over e).blockedSince = p.blockedSince := rfl
@[simp] theorem Proc.over_hardSince (p : Proc) (e : Bool) : (p.over e).hardSince = p.hardSince := rfl
@[simp] theorem Proc.over_haltReq (p : Proc) (e : Bool) : (p.over e).haltReq = p.haltReq := rfl
@[simp] theorem Proc.over_haltFor (p : Proc) (e : Bool) : (p.over e).haltFor = p.haltFor := rfl
@[simp] theorem Proc.over_held (p : Proc) (e : Bool) : (p.over e).held = p.held := rfl
@[simp] theorem Proc.over_sup (p : Proc) (e : Bool) : (p.over e).sup = p.sup := rfl
@[simp] theorem Proc.over_serving (p : Proc) (e : Bool) : (p.over e).serving = p.serving := rfl

@[simp] theorem Proc.advance_pc (p : Proc) : p.advance.pc = p.pc + 4 := rfl
@[simp] theorem Proc.over_false (p : Proc) : p.over false = p.advance := rfl

end Sys2Proof.Machine
end

