-- ==== Sys2Proof/Laws/Ops.lean ====
section
/-! SUPPORT. What the shared operations do: registers, memory with its full bits, the end of an instruction, and the
outcomes of issuing. -/

namespace Sys2Proof.Machine

/-! ### Registers (R15) -/

@[simp] theorem Proc.rg_zero (p : Proc) : p.rg 0 = 0 := rfl
@[simp] theorem Proc.wg_zero (p : Proc) (x : Word) : p.wg 0 x = p := rfl
@[simp] theorem Proc.rk_zero (p : Proc) : p.rk 0 = BitVec.allOnes 64 := rfl
@[simp] theorem Proc.wk_zero (p : Proc) (x : Word) : p.wk 0 x = p := rfl

/-- A write to a g register other than g0 reads back. -/
theorem Proc.rg_wg_self (p : Proc) {n : BitVec 5} (h : n ≠ 0) (x : Word) : (p.wg n x).rg n = x := by
  unfold Proc.rg Proc.wg
  rw [if_neg h, if_neg h]
  simp

/-- A write to a g register leaves the others as they were. -/
theorem Proc.rg_wg_of_ne (p : Proc) {n m : BitVec 5} (h : n ≠ m) (x : Word) : (p.wg n x).rg m = p.rg m := by
  unfold Proc.rg Proc.wg
  by_cases hn : n = 0
  · simp [hn]
  · by_cases hm : m = 0
    · simp [hm]
    · simp only [if_neg hn, if_neg hm]
      exact Vector.getElem_set_ne _ _ (fun e => h (BitVec.eq_of_toNat_eq e))

@[simp] theorem Proc.rv_wv_self (p : Proc) (n : BitVec 5) (x : VReg) : (p.wv n x).rv n = x := by
  simp [Proc.rv, Proc.wv]

theorem Proc.rv_wv_of_ne (p : Proc) {n m : BitVec 5} (h : n ≠ m) (x : VReg) : (p.wv n x).rv m = p.rv m := by
  unfold Proc.rv Proc.wv
  exact Vector.getElem_set_ne n.isLt m.isLt (fun e => h (BitVec.eq_of_toNat_eq e))

/-- The process after an instruction that writes one g register. -/
theorem Proc.over_wg (p : Proc) (a : BitVec 5) (x : Word) (ext : Bool) :
    (p.wg a x).over ext = { p.wg a x with pc := p.pc + (if ext then 8 else 4) } := by
  simp [Proc.over]

theorem Proc.advance_wg (p : Proc) (a : BitVec 5) (x : Word) :
    (p.wg a x).advance = { p.wg a x with pc := p.pc + 4 } := by
  simp [Proc.advance]

/-! ### Memory and full bits (R8, R355) -/

/-- A store at an address whose page does not migrate writes memory there and nothing else. -/
theorem State.putBytes_of_none {s : State} {ga : Nat} (h : s.migratedTo ga = none) (bs : List Byte) :
    s.putBytes ga bs = { s with mem := memPut s.mem ga bs } := by
  have h' : ({ s with mem := memPut s.mem ga bs } : State).migratedTo ga = none := h
  simp only [State.putBytes, h']

theorem State.putBytes_wf {s : State} (h : Memory.wf s.mem = true) (ga : Nat) (bs : List Byte) :
    Memory.wf (s.putBytes ga bs).mem = true := by
  unfold State.putBytes
  simp only
  split
  · exact wf_memPut h _ _
  · exact wf_memPut (wf_memPut h _ _) _ _

@[simp] theorem State.full_setFull_self (s : State) (ga : Nat) (h : s.empties.Pairwise (· < ·)) :
    (s.setFull ga).full ga = true := by
  have key : ∀ l : List Nat, l.Pairwise (· < ·) → smem (sdel l (ga / 8)) (ga / 8) = false := by
    intro l hl
    induction l with
    | nil => rfl
    | cons k r ih =>
      rw [List.pairwise_cons] at hl
      simp only [sdel]
      split_ifs with hk
      · subst hk
        have : ∀ l : List Nat, (∀ a ∈ l, ga / 8 < a) → smem l (ga / 8) = false := by
          intro l hl
          induction l with
          | nil => rfl
          | cons a l ih2 =>
            have := hl a (by simp)
            rw [smem, if_neg (by omega)]
            exact ih2 fun b hb => hl b (by simp [hb])
        exact this r hl.1
      · rw [smem, if_neg hk]; exact ih hl.2
  simp [State.full, key _ h]

@[simp] theorem State.full_setEmpty_self (s : State) (ga : Nat) : (s.setEmpty ga).full ga = false := by
  simp [State.full]

/-! ### Outcomes -/

/-- What an issue can answer: no process in the issuing slot, or a next state (R84). -/
theorem issue_cases (nd : Need) (body : Nat → Proc → State → State) (s : State) :
    (issue nd body s = .fault .noProcess ∧ mget s.procs s.cur = none) ∨ ∃ t, issue nd body s = .next t := by
  unfold issue run
  cases h : mget s.procs s.cur with
  | none => exact .inl ⟨rfl, rfl⟩
  | some p => exact .inr ⟨_, rfl⟩

/-- A message inside one device is in flight at once. -/
theorem State.post_local {s : State} {src dst d : Nat} (hl : onLinks s src dst s.carried = false) (hs : agentDev s src = some d)
    (hd : agentDev s dst = some d) (own : Option Own) (b : Body) :
    s.post src dst own b = { s with net := s.net ++ [{ src := src, dst := dst, own := own, body := b }] } := by
  simp [State.post, hl, hs, hd]

/-- Everything a posting can do: the message is in flight, behind what the links still carry of its sender to the same
place, or in the queue of a link port. -/
theorem State.post_cases (s : State) (src dst : Nat) (own : Option Own) (b : Body) :
    (∃ n, s.post src dst own b = { s with net := s.net ++ [{ src := src, dst := dst, own := own, body := b, late := n }] }) ∨
      ∃ d e, agentDev s src = some d ∧ agentDev s dst = some e ∧ d ≠ e ∧
        s.post src dst own b = s.enlink d e { src := src, dst := dst, own := own, body := b } := by
  have here : ∃ n, ({ s with net := s.net ++ [if onLinks s src dst s.carried then
      ({ src := src, dst := dst, own := own, body := b, late := s.carried } : Msg) else { src := src, dst := dst, own := own, body := b }] }
        : State) = { s with net := s.net ++ [{ src := src, dst := dst, own := own, body := b, late := n }] } := by
    split
    · exact ⟨_, rfl⟩
    · exact ⟨0, rfl⟩
  unfold State.post
  cases h1 : agentDev s src with
  | none => exact .inl here
  | some d =>
    cases h2 : agentDev s dst with
    | none => exact .inl here
    | some e =>
      by_cases h : d = e
      · exact .inl (by simpa [h] using here)
      · exact .inr ⟨d, e, rfl, rfl, h, by simp [h]⟩

/-- A message that goes out over the links changes no memory and no process. -/
theorem State.enlink_mem (s : State) (d e : Nat) (m : Msg) : (s.enlink d e m).mem = s.mem := by
  unfold State.enlink State.enqLink State.useNonce
  dsimp only
  split <;> rfl

theorem State.enlink_procs (s : State) (d e : Nat) (m : Msg) : (s.enlink d e m).procs = s.procs := by
  unfold State.enlink State.enqLink State.useNonce
  dsimp only
  split <;> rfl

theorem State.post_mem (s : State) (src dst : Nat) (own : Option Own) (b : Body) :
    (s.post src dst own b).mem = s.mem := by
  rcases s.post_cases src dst own b with ⟨_, h⟩ | ⟨_, _, _, _, _, h⟩ <;> rw [h]
  exact s.enlink_mem _ _ _

theorem State.post_procs (s : State) (src dst : Nat) (own : Option Own) (b : Body) :
    (s.post src dst own b).procs = s.procs := by
  rcases s.post_cases src dst own b with ⟨_, h⟩ | ⟨_, _, _, _, _, h⟩ <;> rw [h]
  exact s.enlink_procs _ _ _

end Sys2Proof.Machine
end

