-- ==== Sys2Proof/Laws/Issue.lean ====
section
/-! SUPPORT. What issuing an instruction does (R84): an instruction that is ready runs its own description. -/

namespace Sys2Proof.Machine

open Sys2Proof.Safety

/-- The process of the issuing slot runs. -/
theorem run_of_get {s : State} {k : Nat} {p : Proc} (hk : s.cur = k) (hp : mget s.procs k = some p)
    (f : Nat → Proc → State) : run s f = .next (f k p) := by
  subst hk
  simp only [run, hp]

/-- With no process in the issuing slot, an instruction stops. -/
theorem run_of_none {s : State} (h : mget s.procs s.cur = none) (f : Nat → Proc → State) :
    run s f = .fault .noProcess := by
  simp only [run, h]

/-- Everything `run` can answer. -/
theorem run_cases (s : State) (f : Nat → Proc → State) :
    (run s f = .fault .noProcess ∧ mget s.procs s.cur = none) ∨
      ∃ p, mget s.procs s.cur = some p ∧ run s f = .next (f s.cur p) := by
  unfold run
  cases h : mget s.procs s.cur with
  | none => exact .inl ⟨rfl, rfl⟩
  | some p => exact .inr ⟨p, rfl, rfl⟩

theorem trapSource_none {s : State} {k : Nat} {p : Proc} {rs : List RegRef}
    (h : ∀ r ∈ rs, regFull s k p r = true) : trapSource s k p rs = none := by
  simp only [trapSource, List.find?_eq_none]
  intro r hr
  simp [h r hr]

theorem emptySource_none {s : State} {k : Nat} {p : Proc} {rs : List RegRef}
    (h : ∀ r ∈ rs, regFull s k p r = true) : emptySource s k p rs = none := by
  simp only [emptySource, List.find?_eq_none]
  intro r hr
  simp [h r hr]

/-- An instruction that has backed off leaves its clock alone. -/
theorem retired_of_backsOff {t : State} {k : Nat} {p : Proc} {exits : Bool} (h : backsOff t k p exits = true) :
    t.retired k p = t := by
  have h' : backsOff t k p false = true := by
    unfold backsOff at h ⊢
    cases ht : t.byOwn k p.gen with
    | none => rfl
    | some q => simpa only [ht] using h
  simp [State.retired, retires, h']

/-- A ready instruction issues and runs its body. -/
theorem issue_ready {s : State} {k : Nat} {p : Proc} {nd : Need} (h : Ready s k p nd)
    (body : Nat → Proc → State → State) :
    issue nd body s = .next ((body k (issued s k p).2 (issued s k p).1).retired k (issued s k p).2) := by
  have h1 : ¬ ((nd.unit = .tile ∧ (!p.tile) = true) ∨ (nd.unit = .yard ∧ (!p.yard) = true)) := by
    rintro (⟨hu, ht⟩ | ⟨hu, hy⟩)
    · simp [(h.tile hu).1] at ht
    · simp [h.yard hu] at hy
  have h2 : ¬ ((nd.noRoutine && p.kind != .normal) = true) := by
    intro hc
    simp only [Bool.and_eq_true, bne_iff_ne, ne_eq] at hc
    exact hc.2 (h.kind hc.1)
  have h3 : ¬ ((nd.needS && !p.smode) = true) := by
    intro hc
    simp only [Bool.and_eq_true, Bool.not_eq_true'] at hc
    simp [h.mode hc.1] at hc
  have h4 : ¬ (nd.unit = .tile ∧ (s.core (placeOf k)).tileOwner ≠ some k) := fun hc => hc.2 (h.tile hc.1).2
  have h5 : nd.dsts.find? (fun r => !regFull s k p r) = none := by
    simp only [List.find?_eq_none]
    intro r hr
    simp [h.dsts r hr]
  have h6 : ¬ ((nd.combines && linesHeld s (placeOf k) nd.scope) = true) := by
    intro hc
    simp only [Bool.and_eq_true] at hc
    simp [h.lines hc.1] at hc
  have h7 (t : State) (q : Proc) : (if backsOff t k q nd.exits then t else t.retired k q) = t.retired k q := by
    split
    · rename_i hb; exact (retired_of_backsOff hb).symm
    · rfl
  rw [issue, run_of_get h.cur h.here]
  simp only [if_neg h1, if_neg h2, if_neg h3, if_neg h4, trapSource_none h.srcs, emptySource_none h.srcs, h5, h.traps, if_neg h6,
    h.order, Bool.false_eq_true, if_false, h7]
  cases ht : nd.touches with
  | false => rfl
  | true => simp only [h.nodes ht]; rfl

/-- A release that goes on, and whose core holds reduction lines of its scope, sends them home first and issues again when
they have been combined (R141, R354). -/
theorem issue_combines {s : State} {k : Nat} {p : Proc} {nd : Need} {body : Nat → Proc → State → State}
    (hk : s.cur = k) (hp : mget s.procs k = some p) (hu : nd.unit = .none) (hn : nd.noRoutine = true → p.kind = .normal)
    (hm : nd.needS = true → p.smode = true) (hs : ∀ r ∈ nd.srcs, regFull s k p r = true)
    (hd : ∀ r ∈ nd.dsts, regFull s k p r = true) (ht : owedTrap p nd = none) (hw : p.nwaits = []) (hc : nd.combines = true)
    (hl : linesHeld s (placeOf k) nd.scope = true)
    (hb : backsOff (body k (issued s k p).2 (issued s k p).1) k (issued s k p).2 nd.exits = false) :
    issue nd body s = .next ((s.combineAll (placeOf k) nd.scope).stallOn k p .order none) := by
  have h2 : ¬ ((nd.noRoutine && p.kind != .normal) = true) := by
    intro hc
    simp only [Bool.and_eq_true, bne_iff_ne, ne_eq] at hc
    exact hc.2 (hn hc.1)
  have h3 : ¬ ((nd.needS && !p.smode) = true) := by
    intro hc
    simp only [Bool.and_eq_true, Bool.not_eq_true'] at hc
    simp [hm hc.1] at hc
  have h5 : nd.dsts.find? (fun r => !regFull s k p r) = none := by
    simp only [List.find?_eq_none]
    intro r hr
    simp [hd r hr]
  simp only [issued] at hb
  rw [issue, run_of_get hk hp]
  simp only [hu, if_neg h2, if_neg h3, trapSource_none hs, emptySource_none hs, h5, ht, hw, hc, hl, hb]
  simp

/-- The same in the terms of `Issues`. -/
theorem issue_of_issues {s s' : State} {k : Nat} {p q : Proc} {nd : Need} (h : Issues s k p nd s' q)
    (body : Nat → Proc → State → State) : issue nd body s = .next ((body k q s').retired k q) := by
  rw [issue_ready h.1, h.2]

/-- An instruction whose meaning is an issue completes with what its body does. -/
theorem completes_of_issue {nd : Need} {i : Instr} {body effect : Nat → Proc → State → State}
    (hi : ∀ s, exec i s = issue nd body s) (hb : ∀ k p s, body k p s = effect k p s) : Completes nd i effect := by
  intro s k p s' q h
  rw [hi, issue_of_issues h, hb]

theorem completesIf_of_issue {nd : Need} {i : Instr} {cond : Nat → Proc → State → Prop}
    {body effect : Nat → Proc → State → State} (hi : ∀ s, exec i s = issue nd body s)
    (hb : ∀ k p s, cond k p s → body k p s = effect k p s) : CompletesIf nd i cond effect := by
  intro s k p s' q h hc
  rw [hi, issue_of_issues h, hb _ _ _ hc]

/-- An access that finds its word goes on with it. -/
theorem access_of_maps {s s' : State} {k : Nat} {p : Proc} {va leaf : Word} {n ga : Nat} {a : Access}
    (h : Maps s k p va n a s' ga leaf) (ext : Bool) (go : State → Nat → Word → State) :
    s.access k p ext va n a go = go s' ga leaf := by
  unfold State.access
  rw [if_neg (by simp [h.1]), h.2.1]
  simp only [h.2.2]
  rfl

theorem accessCompletes_of_issue {nd : Need} {i : Instr} {va : Proc → Word} {n : Nat} {a : Access}
    {body : Nat → Proc → State → State} {effect : Nat → Proc → State → Nat → Word → State}
    (hi : ∀ s, exec i s = issue nd body s)
    (hb : ∀ k p s s' ga leaf, Maps s k p (va p) n a s' ga leaf → body k p s = effect k p s' ga leaf) :
    AccessCompletes nd i va n a effect := by
  intro s k p s₀ q s' ga leaf h hm
  rw [hi, issue_of_issues h, hb _ _ _ _ _ _ hm]

/-- Writing a g register and going on is the common end of an instruction. -/
theorem putsG_eq (a : BitVec 5) (f : Proc → Word) (k : Nat) (p : Proc) (s : State) :
    putsG a f k p s = s.fin k (p.wg a (f p)) := by
  simp [putsG, State.fin, Proc.advance]

/-- The answer of a status word. -/
theorem status_eq (s : State) (k : Nat) (p : Proc) (a : BitVec 5) (code door : Nat) :
    s.status k p a code door = putsG a (fun _ => statusWord code door) k p s := by
  simp [putsG_eq, State.status]

end Sys2Proof.Machine
end

