-- ==== Sys2Proof/Laws/PerInstr.lean ====
section
/-! SUPPORT. One lemma per constructor: the words of a well-formed instruction decode to it. -/

namespace Sys2Proof.Laws.Enc

/-- The words of the instruction, if it has any and is well formed, decode to it. -/
def Statement (i : Instr) : Prop := ∀ ws, i.wf = true → encode i = some ws → decode ws = .ok i

theorem of_word {i : Instr} {w : IWord} (h : encode i = some [w]) (hd : i.wf = true → decode1 w = .ok i) : Statement i := by
  intro ws hw he
  rw [h] at he; cases he
  show (match decode1 w with | .ext _ => _ | r => r) = _
  rw [hd hw]

theorem of_none {i : Instr} (h : encode i = none) : Statement i := by
  intro ws _ he; rw [h] at he; cases he

theorem of_pair (x : BitVec 26) (f : IForm) (a b : BitVec 5) (i : BitVec 16) : Statement (.extPair x f a b i) := by
  intro ws hw he
  cases he
  show (match decode1 (encJ 0x3E#6 x) with | .ext x => decodePair x (encI f.major a b i) | r => r) = _
  rw [decode1_3E]
  show decodePair x (encI f.major a b i) = _
  unfold decodePair
  rw [fldMaj_encI, fldA_encI, fldB_encI, fldImm_encI]
  have hz : ∀ c : BitVec 3, c.toNat < 7 → ∃ z, LdSize.ofCode c = some z := fun c h => Option.isSome_iff_exists.1 (by revert c; decide)
  have hy : ∀ c : BitVec 3, c.toNat < 4 → ∃ z, StSize.ofCode c = some z := fun c h => Option.isSome_iff_exists.1 (by revert c; decide)
  cases f
  case shi =>
    have h : x == 0 ∧ i.extractLsb' 8 8 == 0 := by simpa [Instr.wf, extOk] using hw
    show (match decShi a b i with | .ok _ => need (IForm.shi != IForm.shi || x == 0) 3 _ | r => r) = _
    unfold decShi
    rw [need_true h.2]
    generalize (i.extractLsb' 6 2).toNat = n
    have hx : (IForm.shi != IForm.shi || x == 0) = true := by rw [h.1]; rfl
    rcases n with _ | _ | _ | n <;> exact need_true hx _
  case dbnz =>
    have h : (a != 0 && b == 0) = true := hw
    show (match need (a != 0 && b == 0) 3 _ with | .ok _ => _ | r => r) = _
    rw [need_true h]; rfl
  case ld =>
    obtain ⟨z, hz⟩ := hz _ (of_decide_eq_true hw)
    show (match ldSz _ _ with | .ok _ => _ | r => r) = _
    unfold ldSz; rw [hz]; rfl
  case spl =>
    obtain ⟨z, hz⟩ := hz _ (of_decide_eq_true hw)
    show (match ldSz _ _ with | .ok _ => _ | r => r) = _
    unfold ldSz; rw [hz]; rfl
  case st =>
    obtain ⟨z, hz⟩ := hy _ (of_decide_eq_true hw)
    show (match stSz _ _ with | .ok _ => _ | r => r) = _
    unfold stSz; rw [hz]; rfl
  case sps =>
    obtain ⟨z, hz⟩ := hy _ (of_decide_eq_true hw)
    show (match stSz _ _ with | .ok _ => _ | r => r) = _
    unfold stSz; rw [hz]; rfl
  all_goals rfl

theorem add (a : BitVec 5) (b : BitVec 5) (c : BitVec 5) : Statement (.add a b c) := of_word rfl fun _ => decode1_01 _ _ _ _
theorem sub (a : BitVec 5) (b : BitVec 5) (c : BitVec 5) : Statement (.sub a b c) := of_word rfl fun _ => decode1_01 _ _ _ _
theorem and (a : BitVec 5) (b : BitVec 5) (c : BitVec 5) : Statement (.and a b c) := of_word rfl fun _ => decode1_01 _ _ _ _
theorem or (a : BitVec 5) (b : BitVec 5) (c : BitVec 5) : Statement (.or a b c) := of_word rfl fun _ => decode1_01 _ _ _ _
theorem xor (a : BitVec 5) (b : BitVec 5) (c : BitVec 5) : Statement (.xor a b c) := of_word rfl fun _ => decode1_01 _ _ _ _
theorem andn (a : BitVec 5) (b : BitVec 5) (c : BitVec 5) : Statement (.andn a b c) := of_word rfl fun _ => decode1_01 _ _ _ _
theorem shl (a : BitVec 5) (b : BitVec 5) (c : BitVec 5) : Statement (.shl a b c) := of_word rfl fun _ => decode1_01 _ _ _ _
theorem shr (a : BitVec 5) (b : BitVec 5) (c : BitVec 5) : Statement (.shr a b c) := of_word rfl fun _ => decode1_01 _ _ _ _
theorem sra (a : BitVec 5) (b : BitVec 5) (c : BitVec 5) : Statement (.sra a b c) := of_word rfl fun _ => decode1_01 _ _ _ _
theorem rol (a : BitVec 5) (b : BitVec 5) (c : BitVec 5) : Statement (.rol a b c) := of_word rfl fun _ => decode1_01 _ _ _ _
theorem mul (a : BitVec 5) (b : BitVec 5) (c : BitVec 5) : Statement (.mul a b c) := of_word rfl fun _ => decode1_01 _ _ _ _
theorem mulh (a : BitVec 5) (b : BitVec 5) (c : BitVec 5) : Statement (.mulh a b c) := of_word rfl fun _ => decode1_01 _ _ _ _
theorem mulhu (a : BitVec 5) (b : BitVec 5) (c : BitVec 5) : Statement (.mulhu a b c) := of_word rfl fun _ => decode1_01 _ _ _ _
theorem div (a : BitVec 5) (b : BitVec 5) (c : BitVec 5) : Statement (.div a b c) := of_word rfl fun _ => decode1_01 _ _ _ _
theorem divu (a : BitVec 5) (b : BitVec 5) (c : BitVec 5) : Statement (.divu a b c) := of_word rfl fun _ => decode1_01 _ _ _ _
theorem rem (a : BitVec 5) (b : BitVec 5) (c : BitVec 5) : Statement (.rem a b c) := of_word rfl fun _ => decode1_01 _ _ _ _
theorem remu (a : BitVec 5) (b : BitVec 5) (c : BitVec 5) : Statement (.remu a b c) := of_word rfl fun _ => decode1_01 _ _ _ _
theorem min (a : BitVec 5) (b : BitVec 5) (c : BitVec 5) : Statement (.min a b c) := of_word rfl fun _ => decode1_01 _ _ _ _
theorem max (a : BitVec 5) (b : BitVec 5) (c : BitVec 5) : Statement (.max a b c) := of_word rfl fun _ => decode1_01 _ _ _ _
theorem minu (a : BitVec 5) (b : BitVec 5) (c : BitVec 5) : Statement (.minu a b c) := of_word rfl fun _ => decode1_01 _ _ _ _
theorem maxu (a : BitVec 5) (b : BitVec 5) (c : BitVec 5) : Statement (.maxu a b c) := of_word rfl fun _ => decode1_01 _ _ _ _
theorem slt (a : BitVec 5) (b : BitVec 5) (c : BitVec 5) : Statement (.slt a b c) := of_word rfl fun _ => decode1_01 _ _ _ _
theorem sltu (a : BitVec 5) (b : BitVec 5) (c : BitVec 5) : Statement (.sltu a b c) := of_word rfl fun _ => decode1_01 _ _ _ _
theorem seq (a : BitVec 5) (b : BitVec 5) (c : BitVec 5) : Statement (.seq a b c) := of_word rfl fun _ => decode1_01 _ _ _ _
theorem clz (a : BitVec 5) (b : BitVec 5) : Statement (.clz a b) := of_word rfl fun _ => decode1_01 _ _ _ _
theorem ctz (a : BitVec 5) (b : BitVec 5) : Statement (.ctz a b) := of_word rfl fun _ => decode1_01 _ _ _ _
theorem popc (a : BitVec 5) (b : BitVec 5) : Statement (.popc a b) := of_word rfl fun _ => decode1_01 _ _ _ _
theorem brev (a : BitVec 5) (b : BitVec 5) : Statement (.brev a b) := of_word rfl fun _ => decode1_01 _ _ _ _
theorem bswap (a : BitVec 5) (b : BitVec 5) : Statement (.bswap a b) := of_word rfl fun _ => decode1_01 _ _ _ _
theorem sextB (a : BitVec 5) (b : BitVec 5) : Statement (.sextB a b) := of_word rfl fun _ => decode1_01 _ _ _ _
theorem sextH (a : BitVec 5) (b : BitVec 5) : Statement (.sextH a b) := of_word rfl fun _ => decode1_01 _ _ _ _
theorem sextW (a : BitVec 5) (b : BitVec 5) : Statement (.sextW a b) := of_word rfl fun _ => decode1_01 _ _ _ _
theorem zextB (a : BitVec 5) (b : BitVec 5) : Statement (.zextB a b) := of_word rfl fun _ => decode1_01 _ _ _ _
theorem zextH (a : BitVec 5) (b : BitVec 5) : Statement (.zextH a b) := of_word rfl fun _ => decode1_01 _ _ _ _
theorem zextW (a : BitVec 5) (b : BitVec 5) : Statement (.zextW a b) := of_word rfl fun _ => decode1_01 _ _ _ _
theorem lea1 (a : BitVec 5) (b : BitVec 5) (c : BitVec 5) : Statement (.lea1 a b c) := of_word rfl fun _ => decode1_01 _ _ _ _
theorem lea2 (a : BitVec 5) (b : BitVec 5) (c : BitVec 5) : Statement (.lea2 a b c) := of_word rfl fun _ => decode1_01 _ _ _ _
theorem lea4 (a : BitVec 5) (b : BitVec 5) (c : BitVec 5) : Statement (.lea4 a b c) := of_word rfl fun _ => decode1_01 _ _ _ _
theorem lea8 (a : BitVec 5) (b : BitVec 5) (c : BitVec 5) : Statement (.lea8 a b c) := of_word rfl fun _ => decode1_01 _ _ _ _
theorem addi (a : BitVec 5) (b : BitVec 5) (imm : BitVec 16) : Statement (.addi a b imm) := of_word rfl fun _ => (decode1_encI .addi a b imm)
theorem andi (a : BitVec 5) (b : BitVec 5) (imm : BitVec 16) : Statement (.andi a b imm) := of_word rfl fun _ => (decode1_encI .andi a b imm)
theorem ori (a : BitVec 5) (b : BitVec 5) (imm : BitVec 16) : Statement (.ori a b imm) := of_word rfl fun _ => (decode1_encI .ori a b imm)
theorem xori (a : BitVec 5) (b : BitVec 5) (imm : BitVec 16) : Statement (.xori a b imm) := of_word rfl fun _ => (decode1_encI .xori a b imm)
theorem slti (a : BitVec 5) (b : BitVec 5) (imm : BitVec 16) : Statement (.slti a b imm) := of_word rfl fun _ => (decode1_encI .slti a b imm)
theorem sltiu (a : BitVec 5) (b : BitVec 5) (imm : BitVec 16) : Statement (.sltiu a b imm) := of_word rfl fun _ => (decode1_encI .sltiu a b imm)
theorem shiL (a : BitVec 5) (b : BitVec 5) (n : BitVec 6) : Statement (.shiL a b n) := of_word rfl fun _ => (decode1_encI .shi a b (0#10 ++ n)).trans (decShi_cat a b n 0#10 rfl)
theorem shiR (a : BitVec 5) (b : BitVec 5) (n : BitVec 6) : Statement (.shiR a b n) := of_word rfl fun _ => (decode1_encI .shi a b (1#10 ++ n)).trans (decShi_cat a b n 1#10 rfl)
theorem shiA (a : BitVec 5) (b : BitVec 5) (n : BitVec 6) : Statement (.shiA a b n) := of_word rfl fun _ => (decode1_encI .shi a b (2#10 ++ n)).trans (decShi_cat a b n 2#10 rfl)
theorem shiRol (a : BitVec 5) (b : BitVec 5) (n : BitVec 6) : Statement (.shiRol a b n) := of_word rfl fun _ => (decode1_encI .shi a b (3#10 ++ n)).trans (decShi_cat a b n 3#10 rfl)
theorem movhi (a : BitVec 5) (b : BitVec 5) (imm : BitVec 16) : Statement (.movhi a b imm) := of_word rfl fun _ => (decode1_encI .movhi a b imm)
theorem muli (a : BitVec 5) (b : BitVec 5) (imm : BitVec 16) : Statement (.muli a b imm) := of_word rfl fun _ => (decode1_encI .muli a b imm)
theorem extPair (x : BitVec 26) (f : IForm) (a : BitVec 5) (b : BitVec 5) (imm : BitVec 16) : Statement (.extPair x f a b imm) := of_pair x f a b imm
theorem beq (a : BitVec 5) (b : BitVec 5) (imm : BitVec 16) : Statement (.beq a b imm) := of_word rfl fun _ => (decode1_encI .beq a b imm)
theorem bne (a : BitVec 5) (b : BitVec 5) (imm : BitVec 16) : Statement (.bne a b imm) := of_word rfl fun _ => (decode1_encI .bne a b imm)
theorem blt (a : BitVec 5) (b : BitVec 5) (imm : BitVec 16) : Statement (.blt a b imm) := of_word rfl fun _ => (decode1_encI .blt a b imm)
theorem bge (a : BitVec 5) (b : BitVec 5) (imm : BitVec 16) : Statement (.bge a b imm) := of_word rfl fun _ => (decode1_encI .bge a b imm)
theorem bltu (a : BitVec 5) (b : BitVec 5) (imm : BitVec 16) : Statement (.bltu a b imm) := of_word rfl fun _ => (decode1_encI .bltu a b imm)
theorem bgeu (a : BitVec 5) (b : BitVec 5) (imm : BitVec 16) : Statement (.bgeu a b imm) := of_word rfl fun _ => (decode1_encI .bgeu a b imm)
theorem dbnz (a : BitVec 5) (imm : BitVec 16) : Statement (.dbnz a imm) := of_word rfl fun h => (decode1_encI .dbnz a 0#5 imm).trans (by
    show need (a != 0 && (0#5 == 0)) 3 _ = _
    rw [show (a != 0) = true from h]; rfl)
theorem j (imm : BitVec 26) : Statement (.j imm) := of_word rfl fun _ => decode1_12 imm
theorem call (imm : BitVec 26) : Statement (.call imm) := of_word rfl fun _ => decode1_13 imm
theorem jr (b : BitVec 5) : Statement (.jr b) := of_word rfl fun _ => decode1_14 _ _ _ _
theorem callr (a : BitVec 5) (b : BitVec 5) : Statement (.callr a b) := of_word rfl fun _ => decode1_14 _ _ _ _
theorem ret : Statement (.ret) := of_word rfl fun _ => decode1_14 _ _ _ _
theorem ld (a : BitVec 5) (b : BitVec 5) (o : BitVec 13) (sz : LdSize) : Statement (.ld a b o sz) := of_word rfl fun _ => (decode1_encI .ld a b (o ++ sz.code)).trans (by
    show ldSz _ _ = _
    rw [off_code, off_value]; cases sz <;> rfl)
theorem st (a : BitVec 5) (b : BitVec 5) (o : BitVec 13) (sz : StSize) : Statement (.st a b o sz) := of_word rfl fun _ => (decode1_encI .st a b (o ++ sz.code)).trans (by
    show stSz _ _ = _
    rw [off_code, off_value]; cases sz <;> rfl)
theorem ldx (a : BitVec 5) (b : BitVec 5) (c : BitVec 5) (sz : LdSize) : Statement (.ldx a b c sz) := of_word rfl fun _ => by cases sz <;> exact decode1_17 _ _ _ _
theorem stx (a : BitVec 5) (b : BitVec 5) (c : BitVec 5) (sz : StSize) : Statement (.stx a b c sz) := of_word rfl fun _ => by cases sz <;> exact decode1_17 _ _ _ _
theorem lda (a : BitVec 5) (b : BitVec 5) (p : Scope) (sz : LdSize) : Statement (.lda a b p sz) := of_word rfl fun _ => by cases p <;> cases sz <;> exact decode1_17 _ _ _ _
theorem stl (a : BitVec 5) (b : BitVec 5) (p : Scope) (sz : StSize) : Statement (.stl a b p sz) := of_word rfl fun _ => by cases p <;> cases sz <;> exact decode1_17 _ _ _ _
theorem lds (a : BitVec 5) (b : BitVec 5) (c : BitVec 5) (t : Bool) : Statement (.lds a b c t) := of_word rfl fun _ => by cases t <;> exact decode1_17 _ _ _ _
theorem sts (a : BitVec 5) (b : BitVec 5) (c : BitVec 5) (t : Bool) : Statement (.sts a b c t) := of_word rfl fun _ => by cases t <;> exact decode1_17 _ _ _ _
theorem ldf (a : BitVec 5) (b : BitVec 5) (c : BitVec 5) (t : Bool) : Statement (.ldf a b c t) := of_word rfl fun _ => by cases t <;> exact decode1_17 _ _ _ _
theorem feget (a : BitVec 5) (b : BitVec 5) : Statement (.feget a b) := of_word rfl fun _ => decode1_17 _ _ _ _
theorem feset (a : BitVec 5) (b : BitVec 5) : Statement (.feset a b) := of_word rfl fun _ => decode1_17 _ _ _ _
theorem spl (a : BitVec 5) (b : BitVec 5) (o : BitVec 13) (sz : LdSize) : Statement (.spl a b o sz) := of_word rfl fun _ => (decode1_encI .spl a b (o ++ sz.code)).trans (by
    show ldSz _ _ = _
    rw [off_code, off_value]; cases sz <;> rfl)
theorem sps (a : BitVec 5) (b : BitVec 5) (o : BitVec 13) (sz : StSize) : Statement (.sps a b o sz) := of_word rfl fun _ => (decode1_encI .sps a b (o ++ sz.code)).trans (by
    show stSz _ _ = _
    rw [off_code, off_value]; cases sz <;> rfl)
theorem amoAdd (a : BitVec 5) (b : BitVec 5) (c : BitVec 5) (o : AtomOrd) (d : Bool) : Statement (.amoAdd a b c o d) := of_word rfl fun _ => by cases o <;> cases d <;> exact decode1_1A _ _ _ _
theorem amoAnd (a : BitVec 5) (b : BitVec 5) (c : BitVec 5) (o : AtomOrd) (d : Bool) : Statement (.amoAnd a b c o d) := of_word rfl fun _ => by cases o <;> cases d <;> exact decode1_1A _ _ _ _
theorem amoOr (a : BitVec 5) (b : BitVec 5) (c : BitVec 5) (o : AtomOrd) (d : Bool) : Statement (.amoOr a b c o d) := of_word rfl fun _ => by cases o <;> cases d <;> exact decode1_1A _ _ _ _
theorem amoXor (a : BitVec 5) (b : BitVec 5) (c : BitVec 5) (o : AtomOrd) (d : Bool) : Statement (.amoXor a b c o d) := of_word rfl fun _ => by cases o <;> cases d <;> exact decode1_1A _ _ _ _
theorem amoMin (a : BitVec 5) (b : BitVec 5) (c : BitVec 5) (o : AtomOrd) (d : Bool) : Statement (.amoMin a b c o d) := of_word rfl fun _ => by cases o <;> cases d <;> exact decode1_1A _ _ _ _
theorem amoMax (a : BitVec 5) (b : BitVec 5) (c : BitVec 5) (o : AtomOrd) (d : Bool) : Statement (.amoMax a b c o d) := of_word rfl fun _ => by cases o <;> cases d <;> exact decode1_1A _ _ _ _
theorem amoMinu (a : BitVec 5) (b : BitVec 5) (c : BitVec 5) (o : AtomOrd) (d : Bool) : Statement (.amoMinu a b c o d) := of_word rfl fun _ => by cases o <;> cases d <;> exact decode1_1A _ _ _ _
theorem amoMaxu (a : BitVec 5) (b : BitVec 5) (c : BitVec 5) (o : AtomOrd) (d : Bool) : Statement (.amoMaxu a b c o d) := of_word rfl fun _ => by cases o <;> cases d <;> exact decode1_1A _ _ _ _
theorem amoSwap (a : BitVec 5) (b : BitVec 5) (c : BitVec 5) (o : AtomOrd) (d : Bool) : Statement (.amoSwap a b c o d) := of_word rfl fun _ => by cases o <;> cases d <;> exact decode1_1A _ _ _ _
theorem cas (a : BitVec 5) (b : BitVec 5) (c : BitVec 5) (o : AtomOrd) (d : Bool) : Statement (.cas a b c o d) := of_word rfl fun _ => by cases o <;> cases d <;> exact decode1_1A _ _ _ _
theorem redAdd (b : BitVec 5) (c : BitVec 5) (d : Bool) : Statement (.redAdd b c d) := of_word rfl fun _ => by cases d <;> exact decode1_1A _ _ _ _
theorem redFadd (b : BitVec 5) (c : BitVec 5) (d : Bool) : Statement (.redFadd b c d) := of_word rfl fun _ => by cases d <;> exact decode1_1A _ _ _ _
theorem redMin (b : BitVec 5) (c : BitVec 5) (d : Bool) : Statement (.redMin b c d) := of_word rfl fun _ => by cases d <;> exact decode1_1A _ _ _ _
theorem redMax (b : BitVec 5) (c : BitVec 5) (d : Bool) : Statement (.redMax b c d) := of_word rfl fun _ => by cases d <;> exact decode1_1A _ _ _ _
theorem deleg (a : BitVec 5) (b : BitVec 5) (c : BitVec 5) : Statement (.deleg a b c) := of_word rfl fun _ => decode1_1A _ _ _ _
theorem fence (p : Scope) (kinds : BitVec 4) : Statement (.fence p kinds) := of_word rfl fun _ => fence_word p kinds
theorem monw (a : BitVec 5) (b : BitVec 5) (c : BitVec 5) (t : Bool) (n : MonCond) (mem : Bool) : Statement (.monw a b c t n mem) := of_word rfl fun _ => by cases n <;> cases t <;> cases mem <;> exact decode1_1B _ _ _ _
theorem gjoin (a : BitVec 5) (b : BitVec 5) : Statement (.gjoin a b) := of_word rfl fun _ => decode1_1B _ _ _ _
theorem gleave (b : BitVec 5) : Statement (.gleave b) := of_word rfl fun _ => decode1_1B _ _ _ _
theorem barArrive (a : BitVec 5) (b : BitVec 5) : Statement (.barArrive a b) := of_word rfl fun _ => decode1_1B _ _ _ _
theorem barDrop (a : BitVec 5) (b : BitVec 5) : Statement (.barDrop a b) := of_word rfl fun _ => decode1_1B _ _ _ _
theorem barWait (a : BitVec 5) (b : BitVec 5) (c : BitVec 5) (t : Bool) : Statement (.barWait a b c t) := of_word rfl fun _ => by cases t <;> exact decode1_1B _ _ _ _
theorem spawn (a : BitVec 5) (b : BitVec 5) (c : BitVec 5) (n : BitVec 2) : Statement (.spawn a b c n) := of_word rfl fun _ => by rcases two_bits n with rfl | rfl | rfl | rfl <;> exact decode1_1C _ _ _ _
theorem exit : Statement (.exit) := of_word rfl fun _ => decode1_1C _ _ _ _
theorem exitR (b : BitVec 5) : Statement (.exitR b) := of_word rfl fun _ => decode1_1C _ _ _ _
theorem yield : Statement (.yield) := of_word rfl fun _ => decode1_1C _ _ _ _
theorem prio (b : BitVec 5) : Statement (.prio b) := of_word rfl fun _ => decode1_1C _ _ _ _
theorem jwait (a : BitVec 5) (t : Bool) (n : BitVec 2) : Statement (.jwait a t n) := of_word rfl fun _ => by cases t <;> rcases two_bits n with rfl | rfl | rfl | rfl <;> exact decode1_1C _ _ _ _
theorem self (a : BitVec 5) : Statement (.self a) := of_word rfl fun _ => decode1_1C _ _ _ _
theorem send (a : BitVec 5) (b : BitVec 5) (f : ItemFile) (d : BitVec 6) (t : Bool) : Statement (.send a b f d t) := of_word rfl fun _ => by
  cases f <;> cases t <;> exact (decode1_1D _ _ _ _).trans (by unfold dec1D; rw [door_cat, (door_fields d _).1, (door_fields d _).2.1, (door_fields d _).2.2]; rfl)
theorem recv (a : BitVec 5) (b : BitVec 5) (f : ItemFile) (d : BitVec 6) (t : Bool) : Statement (.recv a b f d t) := of_word rfl fun _ => by
  cases f <;> cases t <;> exact (decode1_1D _ _ _ _).trans (by unfold dec1D; rw [door_cat, (door_fields d _).1, (door_fields d _).2.1, (door_fields d _).2.2]; rfl)
theorem alt (a : BitVec 5) (b : BitVec 5) (t : Bool) : Statement (.alt a b t) := of_word rfl fun _ => by cases t <;> exact decode1_1D _ _ _ _
theorem poison (a : BitVec 5) (d : BitVec 6) : Statement (.poison a d) := of_word rfl fun _ => by
  exact (decode1_1D _ _ _ _).trans (by unfold dec1D; rw [(door_fields d _).1, (door_fields d _).2.1, (door_fields d _).2.2]; rfl)
theorem mark (a : BitVec 5) : Statement (.mark a) := of_word rfl fun _ => decode1_1D _ _ _ _
theorem chnew (a : BitVec 5) (b : BitVec 5) (d : BitVec 6) : Statement (.chnew a b d) := of_word rfl fun _ => by
  exact (decode1_1D _ _ _ _).trans (by unfold dec1D; rw [(door_fields d _).1, (door_fields d _).2.1, (door_fields d _).2.2]; rfl)
theorem chbind (a : BitVec 5) (b : BitVec 5) (c : BitVec 5) (d : BitVec 6) : Statement (.chbind a b c d) := of_word rfl fun _ => by
  exact (decode1_1D _ _ _ _).trans (by unfold dec1D; rw [(door_fields d _).1, (door_fields d _).2.1, (door_fields d _).2.2]; rfl)
theorem chbindD (a : BitVec 5) (b : BitVec 5) : Statement (.chbindD a b) := of_word rfl fun _ => decode1_1D _ _ _ _
theorem chclose (a : BitVec 5) (d : BitVec 6) : Statement (.chclose a d) := of_word rfl fun _ => by
  exact (decode1_1D _ _ _ _).trans (by unfold dec1D; rw [(door_fields d _).1, (door_fields d _).2.1, (door_fields d _).2.2]; rfl)
theorem amsg (a : BitVec 5) (b : BitVec 5) (c : BitVec 5) (t : Bool) : Statement (.amsg a b c t) := of_word rfl fun _ => by cases t <;> exact decode1_1D _ _ _ _
theorem winopen (a : BitVec 5) (b : BitVec 5) (c : BitVec 5) (d : BitVec 6) : Statement (.winopen a b c d) := of_word rfl fun _ => by
  exact (decode1_1D _ _ _ _).trans (by unfold dec1D; rw [(door_fields d _).1, (door_fields d _).2.1, (door_fields d _).2.2]; rfl)
theorem winclose (a : BitVec 5) (d : BitVec 6) : Statement (.winclose a d) := of_word rfl fun _ => by
  exact (decode1_1D _ _ _ _).trans (by unfold dec1D; rw [(door_fields d _).1, (door_fields d _).2.1, (door_fields d _).2.2]; rfl)
theorem sendt (a : BitVec 5) (b : BitVec 5) (d : BitVec 6) (t : Bool) : Statement (.sendt a b d t) := of_word rfl fun _ => by
  cases t <;> exact (decode1_1E _ _ _ _).trans (by unfold dec1E; rw [door_cat, (door_fields d _).1, (door_fields d _).2.1, (door_fields d _).2.2]; rfl)
theorem recvt (a : BitVec 5) (b : BitVec 5) (d : BitVec 6) (t : Bool) : Statement (.recvt a b d t) := of_word rfl fun _ => by
  cases t <;> exact (decode1_1E _ _ _ _).trans (by unfold dec1E; rw [door_cat, (door_fields d _).1, (door_fields d _).2.1, (door_fields d _).2.2]; rfl)
theorem thalo (a : BitVec 5) (b : BitVec 5) (c : BitVec 5) (d : BitVec 6) (t : Bool) : Statement (.thalo a b c d t) := of_word rfl fun h => by
  cases t <;> exact (decode1_1E _ _ _ _).trans (by unfold dec1E; rw [door_cat, (door_fields d _).1, (door_fields d _).2.1, (door_fields d _).2.2]; exact need_true h _)
theorem vadd (a : BitVec 5) (b : BitVec 5) (c : BitVec 5) (k : BitVec 3) (ty : Ty) : Statement (.vadd a b c k ty) := of_word rfl fun h => (decode1_1F a b c k (ty.code) 0#4).trans ((tyIn_code Ty.isArith ty h _))
theorem vsub (a : BitVec 5) (b : BitVec 5) (c : BitVec 5) (k : BitVec 3) (ty : Ty) : Statement (.vsub a b c k ty) := of_word rfl fun h => (decode1_1F a b c k (ty.code) 1#4).trans ((tyIn_code Ty.isArith ty h _))
theorem vmul (a : BitVec 5) (b : BitVec 5) (c : BitVec 5) (k : BitVec 3) (ty : Ty) : Statement (.vmul a b c k ty) := of_word rfl fun h => (decode1_1F a b c k (ty.code) 2#4).trans ((tyIn_code Ty.isArith ty h _))
theorem vfma (a : BitVec 5) (b : BitVec 5) (c : BitVec 5) (k : BitVec 3) (ty : Ty) : Statement (.vfma a b c k ty) := of_word rfl fun h => (decode1_1F a b c k (ty.code) 3#4).trans ((tyIn_code Ty.isArith ty h _))
theorem vfms (a : BitVec 5) (b : BitVec 5) (c : BitVec 5) (k : BitVec 3) (ty : Ty) : Statement (.vfms a b c k ty) := of_word rfl fun h => (decode1_1F a b c k (ty.code) 4#4).trans ((tyIn_code Ty.isArith ty h _))
theorem vmin (a : BitVec 5) (b : BitVec 5) (c : BitVec 5) (k : BitVec 3) (ty : Ty) : Statement (.vmin a b c k ty) := of_word rfl fun h => (decode1_1F a b c k (ty.code) 5#4).trans ((tyIn_code Ty.isArith ty h _))
theorem vmax (a : BitVec 5) (b : BitVec 5) (c : BitVec 5) (k : BitVec 3) (ty : Ty) : Statement (.vmax a b c k ty) := of_word rfl fun h => (decode1_1F a b c k (ty.code) 6#4).trans ((tyIn_code Ty.isArith ty h _))
theorem vabs (a : BitVec 5) (b : BitVec 5) (k : BitVec 3) (ty : Ty) : Statement (.vabs a b k ty) := of_word rfl fun h => (decode1_1F a b 0#5 k (ty.code) 7#4).trans ((tyIn_code Ty.isSignable ty h _))
theorem vneg (a : BitVec 5) (b : BitVec 5) (k : BitVec 3) (ty : Ty) : Statement (.vneg a b k ty) := of_word rfl fun h => (decode1_1F a b 0#5 k (ty.code) 8#4).trans ((tyIn_code Ty.isSignable ty h _))
theorem vadds (a : BitVec 5) (b : BitVec 5) (c : BitVec 5) (k : BitVec 3) (ty : Ty) : Statement (.vadds a b c k ty) := of_word rfl fun h => (decode1_1F a b c k (ty.code) 9#4).trans ((tyIn_code Ty.isInt ty h _))
theorem vsubs (a : BitVec 5) (b : BitVec 5) (c : BitVec 5) (k : BitVec 3) (ty : Ty) : Statement (.vsubs a b c k ty) := of_word rfl fun h => (decode1_1F a b c k (ty.code) 10#4).trans ((tyIn_code Ty.isInt ty h _))
theorem vmulh (a : BitVec 5) (b : BitVec 5) (c : BitVec 5) (k : BitVec 3) (ty : Ty) : Statement (.vmulh a b c k ty) := of_word rfl fun h => (decode1_1F a b c k (ty.code) 11#4).trans ((tyIn_code Ty.isInt ty h _))
theorem vabsd (a : BitVec 5) (b : BitVec 5) (c : BitVec 5) (k : BitVec 3) (ty : Ty) : Statement (.vabsd a b c k ty) := of_word rfl fun h => (decode1_1F a b c k (ty.code) 12#4).trans ((tyIn_code Ty.isInt ty h _))
theorem vdiv (a : BitVec 5) (b : BitVec 5) (c : BitVec 5) (k : BitVec 3) (ty : Ty) : Statement (.vdiv a b c k ty) := of_word rfl fun h => (decode1_1F a b c k (ty.code) 13#4).trans ((tyIn_code Ty.isArith ty h _))
theorem vsqrt (a : BitVec 5) (b : BitVec 5) (k : BitVec 3) (ty : Ty) : Statement (.vsqrt a b k ty) := of_word rfl fun h => (decode1_1F a b 0#5 k (ty.code) 14#4).trans ((tyIn_code Ty.isFp ty h _))
theorem vand (a : BitVec 5) (b : BitVec 5) (c : BitVec 5) (k : BitVec 3) (ty : Ty) : Statement (.vand a b c k ty) := of_word rfl fun h => (decode1_20 a b c k (ty.code) 0#4).trans ((tyIn_code Ty.isElem ty h _))
theorem vor (a : BitVec 5) (b : BitVec 5) (c : BitVec 5) (k : BitVec 3) (ty : Ty) : Statement (.vor a b c k ty) := of_word rfl fun h => (decode1_20 a b c k (ty.code) 1#4).trans ((tyIn_code Ty.isElem ty h _))
theorem vxor (a : BitVec 5) (b : BitVec 5) (c : BitVec 5) (k : BitVec 3) (ty : Ty) : Statement (.vxor a b c k ty) := of_word rfl fun h => (decode1_20 a b c k (ty.code) 2#4).trans ((tyIn_code Ty.isElem ty h _))
theorem vandn (a : BitVec 5) (b : BitVec 5) (c : BitVec 5) (k : BitVec 3) (ty : Ty) : Statement (.vandn a b c k ty) := of_word rfl fun h => (decode1_20 a b c k (ty.code) 3#4).trans ((tyIn_code Ty.isElem ty h _))
theorem vnot (a : BitVec 5) (b : BitVec 5) (k : BitVec 3) (ty : Ty) : Statement (.vnot a b k ty) := of_word rfl fun h => (decode1_20 a b 0#5 k (ty.code) 4#4).trans ((tyIn_code Ty.isElem ty h _))
theorem vshl (a : BitVec 5) (b : BitVec 5) (c : BitVec 5) (k : BitVec 3) (ty : Ty) : Statement (.vshl a b c k ty) := of_word rfl fun h => (decode1_20 a b c k (ty.code) 5#4).trans ((tyIn_code Ty.isInt ty h _))
theorem vshr (a : BitVec 5) (b : BitVec 5) (c : BitVec 5) (k : BitVec 3) (ty : Ty) : Statement (.vshr a b c k ty) := of_word rfl fun h => (decode1_20 a b c k (ty.code) 6#4).trans ((tyIn_code Ty.isInt ty h _))
theorem vsra (a : BitVec 5) (b : BitVec 5) (c : BitVec 5) (k : BitVec 3) (ty : Ty) : Statement (.vsra a b c k ty) := of_word rfl fun h => (decode1_20 a b c k (ty.code) 7#4).trans ((tyIn_code Ty.isInt ty h _))
theorem vrol (a : BitVec 5) (b : BitVec 5) (c : BitVec 5) (k : BitVec 3) (ty : Ty) : Statement (.vrol a b c k ty) := of_word rfl fun h => (decode1_20 a b c k (ty.code) 8#4).trans ((tyIn_code Ty.isInt ty h _))
theorem vshlg (a : BitVec 5) (b : BitVec 5) (c : BitVec 5) (k : BitVec 3) (ty : Ty) : Statement (.vshlg a b c k ty) := of_word rfl fun h => (decode1_20 a b c k (ty.code) 9#4).trans ((tyIn_code Ty.isInt ty h _))
theorem vshrg (a : BitVec 5) (b : BitVec 5) (c : BitVec 5) (k : BitVec 3) (ty : Ty) : Statement (.vshrg a b c k ty) := of_word rfl fun h => (decode1_20 a b c k (ty.code) 10#4).trans ((tyIn_code Ty.isInt ty h _))
theorem vsrag (a : BitVec 5) (b : BitVec 5) (c : BitVec 5) (k : BitVec 3) (ty : Ty) : Statement (.vsrag a b c k ty) := of_word rfl fun h => (decode1_20 a b c k (ty.code) 11#4).trans ((tyIn_code Ty.isInt ty h _))
theorem vrolg (a : BitVec 5) (b : BitVec 5) (c : BitVec 5) (k : BitVec 3) (ty : Ty) : Statement (.vrolg a b c k ty) := of_word rfl fun h => (decode1_20 a b c k (ty.code) 12#4).trans ((tyIn_code Ty.isInt ty h _))
theorem vclz (a : BitVec 5) (b : BitVec 5) (k : BitVec 3) (ty : Ty) : Statement (.vclz a b k ty) := of_word rfl fun h => (decode1_20 a b 0#5 k (ty.code) 13#4).trans ((tyIn_code Ty.isInt ty h _))
theorem vpopc (a : BitVec 5) (b : BitVec 5) (k : BitVec 3) (ty : Ty) : Statement (.vpopc a b k ty) := of_word rfl fun h => (decode1_20 a b 0#5 k (ty.code) 14#4).trans ((tyIn_code Ty.isInt ty h _))
theorem vctz (a : BitVec 5) (b : BitVec 5) (k : BitVec 3) (ty : Ty) : Statement (.vctz a b k ty) := of_word rfl fun h => (decode1_20 a b 0#5 k (ty.code) 15#4).trans ((tyIn_code Ty.isInt ty h _))
theorem vcmpEq (a : BitVec 3) (b : BitVec 5) (c : BitVec 5) (k : BitVec 3) (ty : Ty) : Statement (.vcmpEq a b c k ty) := of_word rfl fun h => (decode1_21 (0#2 ++ a) b c k (ty.code) 0#4).trans ((tyIn_code Ty.isElem ty h _).trans (reg3_low  a _))
theorem vcmpNe (a : BitVec 3) (b : BitVec 5) (c : BitVec 5) (k : BitVec 3) (ty : Ty) : Statement (.vcmpNe a b c k ty) := of_word rfl fun h => (decode1_21 (0#2 ++ a) b c k (ty.code) 1#4).trans ((tyIn_code Ty.isElem ty h _).trans (reg3_low  a _))
theorem vcmpLt (a : BitVec 3) (b : BitVec 5) (c : BitVec 5) (k : BitVec 3) (ty : Ty) : Statement (.vcmpLt a b c k ty) := of_word rfl fun h => (decode1_21 (0#2 ++ a) b c k (ty.code) 2#4).trans ((tyIn_code Ty.isElem ty h _).trans (reg3_low  a _))
theorem vcmpLe (a : BitVec 3) (b : BitVec 5) (c : BitVec 5) (k : BitVec 3) (ty : Ty) : Statement (.vcmpLe a b c k ty) := of_word rfl fun h => (decode1_21 (0#2 ++ a) b c k (ty.code) 3#4).trans ((tyIn_code Ty.isElem ty h _).trans (reg3_low  a _))
theorem vcmpUn (a : BitVec 3) (b : BitVec 5) (c : BitVec 5) (k : BitVec 3) (ty : Ty) : Statement (.vcmpUn a b c k ty) := of_word rfl fun h => (decode1_21 (0#2 ++ a) b c k (ty.code) 4#4).trans ((tyIn_code Ty.isFloat ty h _).trans (reg3_low  a _))
theorem vsel (a : BitVec 5) (b : BitVec 5) (c : BitVec 5) (k : BitVec 3) (ty : Ty) : Statement (.vsel a b c k ty) := of_word rfl fun h => (decode1_21 a b c k (ty.code) 5#4).trans ((tyIn_code Ty.isElem ty h _))
theorem kand (a : BitVec 3) (b : BitVec 3) (c : BitVec 3) : Statement (.kand a b c) := of_word rfl fun _ => (decode1_21 (0#2 ++ a) (0#2 ++ b) (0#2 ++ c) 0#3 (0#4) 6#4).trans (by
  refine (plain_zero (0#2 ++ a) (0#2 ++ b) (0#2 ++ c) _).trans ?_; refine (reg3_low  a _).trans ?_; refine (reg3_low  b _).trans ?_; refine (reg3_low  c _).trans ?_; rfl)
theorem kor (a : BitVec 3) (b : BitVec 3) (c : BitVec 3) : Statement (.kor a b c) := of_word rfl fun _ => (decode1_21 (0#2 ++ a) (0#2 ++ b) (0#2 ++ c) 0#3 (0#4) 7#4).trans (by
  refine (plain_zero (0#2 ++ a) (0#2 ++ b) (0#2 ++ c) _).trans ?_; refine (reg3_low  a _).trans ?_; refine (reg3_low  b _).trans ?_; refine (reg3_low  c _).trans ?_; rfl)
theorem kxor (a : BitVec 3) (b : BitVec 3) (c : BitVec 3) : Statement (.kxor a b c) := of_word rfl fun _ => (decode1_21 (0#2 ++ a) (0#2 ++ b) (0#2 ++ c) 0#3 (0#4) 8#4).trans (by
  refine (plain_zero (0#2 ++ a) (0#2 ++ b) (0#2 ++ c) _).trans ?_; refine (reg3_low  a _).trans ?_; refine (reg3_low  b _).trans ?_; refine (reg3_low  c _).trans ?_; rfl)
theorem knot (a : BitVec 3) (b : BitVec 3) : Statement (.knot a b) := of_word rfl fun _ => (decode1_21 (0#2 ++ a) (0#2 ++ b) 0#5 0#3 (0#4) 9#4).trans (by
  refine (plain_zero (0#2 ++ a) (0#2 ++ b) 0#5 _).trans ?_; refine (zero_field _).trans ?_; refine (reg3_low  a _).trans ?_; refine (reg3_low  b _).trans ?_; rfl)
theorem kmovg (a : BitVec 5) (b : BitVec 3) : Statement (.kmovg a b) := of_word rfl fun _ => (decode1_21 a (0#2 ++ b) 0#5 0#3 (0#4) 10#4).trans (by
  refine (plain_zero a (0#2 ++ b) 0#5 _).trans ?_; refine (zero_field _).trans ?_; refine (reg3_low  b _).trans ?_; rfl)
theorem kmovk (a : BitVec 3) (b : BitVec 5) : Statement (.kmovk a b) := of_word rfl fun _ => (decode1_21 (0#2 ++ a) b 0#5 0#3 (0#4) 11#4).trans (by
  refine (plain_zero (0#2 ++ a) b 0#5 _).trans ?_; refine (zero_field _).trans ?_; refine (reg3_low  a _).trans ?_; rfl)
theorem kpopc (a : BitVec 5) (b : BitVec 3) : Statement (.kpopc a b) := of_word rfl fun _ => (decode1_21 a (0#2 ++ b) 0#5 0#3 (0#4) 12#4).trans (by
  refine (plain_zero a (0#2 ++ b) 0#5 _).trans ?_; refine (zero_field _).trans ?_; refine (reg3_low  b _).trans ?_; rfl)
theorem kfirst (a : BitVec 5) (b : BitVec 3) : Statement (.kfirst a b) := of_word rfl fun _ => (decode1_21 a (0#2 ++ b) 0#5 0#3 (0#4) 13#4).trans (by
  refine (plain_zero a (0#2 ++ b) 0#5 _).trans ?_; refine (zero_field _).trans ?_; refine (reg3_low  b _).trans ?_; rfl)
theorem vcvt (a : BitVec 5) (b : BitVec 5) (rtz : Bool) (src : Ty) (k : BitVec 3) (ty : Ty) (q : BitVec 3) (sat : Bool) : Statement (.vcvt a b rtz src k ty q sat) := of_word rfl fun h => vcvt_word a b rtz src k ty q sat h
theorem vredsum (a : BitVec 5) (b : BitVec 5) (k : BitVec 3) (ty : Ty) : Statement (.vredsum a b k ty) := of_word rfl fun h => (decode1_23 a b 0#5 k (ty.code) 0#4).trans ((tyIn_code Ty.isArith ty h _))
theorem vredmin (a : BitVec 5) (b : BitVec 5) (k : BitVec 3) (ty : Ty) : Statement (.vredmin a b k ty) := of_word rfl fun h => (decode1_23 a b 0#5 k (ty.code) 1#4).trans ((tyIn_code Ty.isArith ty h _))
theorem vredmax (a : BitVec 5) (b : BitVec 5) (k : BitVec 3) (ty : Ty) : Statement (.vredmax a b k ty) := of_word rfl fun h => (decode1_23 a b 0#5 k (ty.code) 2#4).trans ((tyIn_code Ty.isArith ty h _))
theorem vredand (a : BitVec 5) (b : BitVec 5) (k : BitVec 3) (ty : Ty) : Statement (.vredand a b k ty) := of_word rfl fun h => (decode1_23 a b 0#5 k (ty.code) 3#4).trans ((tyIn_code Ty.isInt ty h _))
theorem vredor (a : BitVec 5) (b : BitVec 5) (k : BitVec 3) (ty : Ty) : Statement (.vredor a b k ty) := of_word rfl fun h => (decode1_23 a b 0#5 k (ty.code) 4#4).trans ((tyIn_code Ty.isInt ty h _))
theorem vredxor (a : BitVec 5) (b : BitVec 5) (k : BitVec 3) (ty : Ty) : Statement (.vredxor a b k ty) := of_word rfl fun h => (decode1_23 a b 0#5 k (ty.code) 5#4).trans ((tyIn_code Ty.isInt ty h _))
theorem vredsumw (a : BitVec 5) (b : BitVec 5) (k : BitVec 3) (ty : Ty) : Statement (.vredsumw a b k ty) := of_word rfl fun h => (decode1_23 a b 0#5 k (ty.code) 6#4).trans ((tyIn_code Ty.isWidenable ty h _))
theorem vperm (a : BitVec 5) (b : BitVec 5) (c : BitVec 5) (k : BitVec 3) (ty : Ty) : Statement (.vperm a b c k ty) := of_word rfl fun h => (decode1_24 a b c k (ty.code) 0#4).trans ((tyIn_code Ty.isElem ty h _))
theorem vpermx (a : BitVec 5) (b : BitVec 5) (c : BitVec 5) (k : BitVec 3) (ty : Ty) : Statement (.vpermx a b c k ty) := of_word rfl fun h => (decode1_24 a b c k (ty.code) 1#4).trans ((tyIn_code Ty.isElem ty h _))
theorem vsldn (a : BitVec 5) (b : BitVec 5) (c : BitVec 5) (k : BitVec 3) (ty : Ty) : Statement (.vsldn a b c k ty) := of_word rfl fun h => (decode1_24 a b c k (ty.code) 2#4).trans ((tyIn_code Ty.isElem ty h _))
theorem vslup (a : BitVec 5) (b : BitVec 5) (c : BitVec 5) (k : BitVec 3) (ty : Ty) : Statement (.vslup a b c k ty) := of_word rfl fun h => (decode1_24 a b c k (ty.code) 3#4).trans ((tyIn_code Ty.isElem ty h _))
theorem vcomp (a : BitVec 5) (b : BitVec 5) (k : BitVec 3) (ty : Ty) : Statement (.vcomp a b k ty) := of_word rfl fun h => (decode1_24 a b 0#5 k (ty.code) 4#4).trans ((tyIn_code Ty.isElem ty h _))
theorem vexpd (a : BitVec 5) (b : BitVec 5) (k : BitVec 3) (ty : Ty) : Statement (.vexpd a b k ty) := of_word rfl fun h => (decode1_24 a b 0#5 k (ty.code) 5#4).trans ((tyIn_code Ty.isElem ty h _))
theorem vzipl (a : BitVec 5) (b : BitVec 5) (c : BitVec 5) (k : BitVec 3) (ty : Ty) : Statement (.vzipl a b c k ty) := of_word rfl fun h => (decode1_24 a b c k (ty.code) 6#4).trans ((tyIn_code Ty.isElem ty h _))
theorem vziph (a : BitVec 5) (b : BitVec 5) (c : BitVec 5) (k : BitVec 3) (ty : Ty) : Statement (.vziph a b c k ty) := of_word rfl fun h => (decode1_24 a b c k (ty.code) 7#4).trans ((tyIn_code Ty.isElem ty h _))
theorem vuzpe (a : BitVec 5) (b : BitVec 5) (c : BitVec 5) (k : BitVec 3) (ty : Ty) : Statement (.vuzpe a b c k ty) := of_word rfl fun h => (decode1_24 a b c k (ty.code) 8#4).trans ((tyIn_code Ty.isElem ty h _))
theorem vuzpo (a : BitVec 5) (b : BitVec 5) (c : BitVec 5) (k : BitVec 3) (ty : Ty) : Statement (.vuzpo a b c k ty) := of_word rfl fun h => (decode1_24 a b c k (ty.code) 9#4).trans ((tyIn_code Ty.isElem ty h _))
theorem vrev (a : BitVec 5) (b : BitVec 5) (k : BitVec 3) (ty : Ty) : Statement (.vrev a b k ty) := of_word rfl fun h => (decode1_24 a b 0#5 k (ty.code) 10#4).trans ((tyIn_code Ty.isElem ty h _))
theorem vld (a : BitVec 5) (b : BitVec 5) (k : BitVec 3) (ty : Ty) : Statement (.vld a b k ty) := of_word rfl fun _ => (decode1_25 a b 0#5 k (ty.code) 0#4).trans ((tyIn_code (fun _ => true) ty rfl _))
theorem vst (a : BitVec 5) (b : BitVec 5) (k : BitVec 3) (ty : Ty) : Statement (.vst a b k ty) := of_word rfl fun _ => (decode1_25 a b 0#5 k (ty.code) 1#4).trans ((tyIn_code (fun _ => true) ty rfl _))
theorem vlds (a : BitVec 5) (b : BitVec 5) (c : BitVec 5) (k : BitVec 3) (ty : Ty) : Statement (.vlds a b c k ty) := of_word rfl fun h => (decode1_25 a b c k (ty.code) 2#4).trans ((tyIn_code Ty.isElem ty h _))
theorem vsts (a : BitVec 5) (b : BitVec 5) (c : BitVec 5) (k : BitVec 3) (ty : Ty) : Statement (.vsts a b c k ty) := of_word rfl fun h => (decode1_25 a b c k (ty.code) 3#4).trans ((tyIn_code Ty.isElem ty h _))
theorem vgath (a : BitVec 5) (b : BitVec 5) (c : BitVec 5) (k : BitVec 3) (ty : Ty) : Statement (.vgath a b c k ty) := of_word rfl fun h => (decode1_25 a b c k (ty.code) 4#4).trans ((tyIn_code Ty.isElem ty h _))
theorem vscat (a : BitVec 5) (b : BitVec 5) (c : BitVec 5) (k : BitVec 3) (ty : Ty) : Statement (.vscat a b c k ty) := of_word rfl fun h => (decode1_25 a b c k (ty.code) 5#4).trans ((tyIn_code Ty.isElem ty h _))
theorem vspl (a : BitVec 5) (b : BitVec 5) (k : BitVec 3) (ty : Ty) : Statement (.vspl a b k ty) := of_word rfl fun _ => (decode1_25 a b 0#5 k (ty.code) 6#4).trans ((tyIn_code (fun _ => true) ty rfl _))
theorem vsps (a : BitVec 5) (b : BitVec 5) (k : BitVec 3) (ty : Ty) : Statement (.vsps a b k ty) := of_word rfl fun _ => (decode1_25 a b 0#5 k (ty.code) 7#4).trans ((tyIn_code (fun _ => true) ty rfl _))
theorem vspga (a : BitVec 5) (b : BitVec 5) (c : BitVec 5) (k : BitVec 3) (ty : Ty) : Statement (.vspga a b c k ty) := of_word rfl fun h => (decode1_25 a b c k (ty.code) 8#4).trans ((tyIn_code Ty.isElem ty h _))
theorem vspsc (a : BitVec 5) (b : BitVec 5) (c : BitVec 5) (k : BitVec 3) (ty : Ty) : Statement (.vspsc a b c k ty) := of_word rfl fun h => (decode1_25 a b c k (ty.code) 9#4).trans ((tyIn_code Ty.isElem ty h _))
theorem vrcp (a : BitVec 5) (b : BitVec 5) (k : BitVec 3) (ty : Ty) : Statement (.vrcp a b k ty) := of_word rfl fun h => (decode1_26 a b 0#5 k (ty.code) 0#4).trans ((tyIn_code Ty.isFn ty h _))
theorem vrsq (a : BitVec 5) (b : BitVec 5) (k : BitVec 3) (ty : Ty) : Statement (.vrsq a b k ty) := of_word rfl fun h => (decode1_26 a b 0#5 k (ty.code) 1#4).trans ((tyIn_code Ty.isFn ty h _))
theorem vexp2 (a : BitVec 5) (b : BitVec 5) (k : BitVec 3) (ty : Ty) : Statement (.vexp2 a b k ty) := of_word rfl fun h => (decode1_26 a b 0#5 k (ty.code) 2#4).trans ((tyIn_code Ty.isFn ty h _))
theorem vlog2 (a : BitVec 5) (b : BitVec 5) (k : BitVec 3) (ty : Ty) : Statement (.vlog2 a b k ty) := of_word rfl fun h => (decode1_26 a b 0#5 k (ty.code) 3#4).trans ((tyIn_code Ty.isFn ty h _))
theorem vbcast (a : BitVec 5) (b : BitVec 5) (k : BitVec 3) (ty : Ty) : Statement (.vbcast a b k ty) := of_word rfl fun h => (decode1_27 a b 0#5 k (ty.code) 0#4).trans ((tyIn_code Ty.isElem ty h _))
theorem vins (a : BitVec 5) (b : BitVec 5) (c : BitVec 5) (ty : Ty) : Statement (.vins a b c ty) := of_word rfl fun h => (decode1_27 a b c 0#3 (ty.code) 1#4).trans ((tyIn_code Ty.isElem ty h _))
theorem vext (a : BitVec 5) (b : BitVec 5) (c : BitVec 5) (ty : Ty) : Statement (.vext a b c ty) := of_word rfl fun h => (decode1_27 a b c 0#3 (ty.code) 2#4).trans ((tyIn_code Ty.isElem ty h _))
theorem vmov (a : BitVec 5) (b : BitVec 5) (k : BitVec 3) (ty : Ty) : Statement (.vmov a b k ty) := of_word rfl fun h => (decode1_27 a b 0#5 k (ty.code) 3#4).trans ((tyIn_code Ty.isElem ty h _))
theorem viota (a : BitVec 5) (k : BitVec 3) (ty : Ty) : Statement (.viota a k ty) := of_word rfl fun h => (decode1_27 a 0#5 0#5 k (ty.code) 4#4).trans ((tyIn_code Ty.isInt ty h _))
theorem vsplat (a : BitVec 5) (b : BitVec 5) (c : BitVec 5) (k : BitVec 3) (ty : Ty) : Statement (.vsplat a b c k ty) := of_word rfl fun h => (decode1_27 a b c k (ty.code) 5#4).trans ((tyIn_code Ty.isElem ty h _))
theorem tld (a : BitVec 3) (b : BitVec 5) (c : BitVec 5) : Statement (.tld a b c) := of_word rfl fun _ => (decode1_28 (0#2 ++ a) b c 0#3 (0#4) 0#4).trans (by
  simp [dec28, need, reg3_low])
theorem tst (a : BitVec 3) (b : BitVec 5) (c : BitVec 5) : Statement (.tst a b c) := of_word rfl fun _ => (decode1_28 (0#2 ++ a) b c 0#3 (0#4) 1#4).trans (by
  simp [dec28, need, reg3_low])
theorem tldt (a : BitVec 3) (b : BitVec 5) (c : BitVec 5) (ty : Ty) : Statement (.tldt a b c ty) := of_word rfl fun h => (decode1_28 (0#2 ++ a) b c 0#3 (ty.code) 2#4).trans (by
  simp [dec28, need, reg3_low, tyIn_code Ty.isElem ty h])
theorem tswap (a : BitVec 3) (c : BitVec 5) : Statement (.tswap a c) := of_word rfl fun _ => (decode1_28 (0#2 ++ a) 0#5 c 0#3 (0#4) 3#4).trans (by
  simp [dec28, need, reg3_low])
theorem tswapT (a : BitVec 3) (c : BitVec 5) : Statement (.tswapT a c) := of_word rfl fun _ => (decode1_28 (0#2 ++ a) 0#5 c 0#3 (0#4) 4#4).trans (by
  simp [dec28, need, reg3_low])
theorem tmma (a : BitVec 3) (b : BitVec 3) (c : BitVec 3) (ty : Ty) : Statement (.tmma a b c ty) := of_word rfl fun h => (decode1_28 (0#2 ++ a) (0#2 ++ b) (0#2 ++ c) 0#3 (ty.code) 5#4).trans (by
  simp [dec28, need, reg3_low, tyIn_code Ty.isTile ty h])
theorem tzero (a : BitVec 3) : Statement (.tzero a) := of_word rfl fun _ => (decode1_28 (0#2 ++ a) 0#5 0#5 0#3 (0#4) 6#4).trans (by
  simp [dec28, need, reg3_low])
theorem tcvt (a : BitVec 3) (b : BitVec 3) (ty : Ty) : Statement (.tcvt a b ty) := of_word rfl fun h => (decode1_28 (0#2 ++ a) (0#2 ++ b) 0#5 0#3 (ty.code) 7#4).trans (by
  simp [dec28, need, reg3_low, tyIn_code Ty.isTile ty h])
theorem tileClaim (place : Nat) : Statement (.tileClaim place) := of_none rfl
theorem rcfg (a : BitVec 5) (b : BitVec 5) (n : BitVec 2) : Statement (.rcfg a b n) := of_word rfl fun _ => by rcases two_bits n with rfl | rfl | rfl | rfl <;> exact decode1_29 _ _ _ _
theorem rres (a : BitVec 5) (b : BitVec 5) (t : Bool) : Statement (.rres a b t) := of_word rfl fun _ => by cases t <;> exact decode1_29 _ _ _ _
theorem rpub (a : BitVec 5) (b : BitVec 5) (c : BitVec 5) : Statement (.rpub a b c) := of_word rfl fun _ => decode1_29 _ _ _ _
theorem rstat (a : BitVec 5) (b : BitVec 5) : Statement (.rstat a b) := of_word rfl fun _ => decode1_29 _ _ _ _
theorem rstatMap (a : BitVec 5) (b : BitVec 5) : Statement (.rstatMap a b) := of_word rfl fun _ => decode1_29 _ _ _ _
theorem rrst (a : BitVec 5) (n : BitVec 2) : Statement (.rrst a n) := of_word rfl fun _ => by rcases two_bits n with rfl | rfl | rfl | rfl <;> exact decode1_29 _ _ _ _
theorem mstat (a : BitVec 5) (b : BitVec 5) : Statement (.mstat a b) := of_word rfl fun _ => decode1_2A _ _ _ _
theorem mstatClr (a : BitVec 5) (b : BitVec 5) : Statement (.mstatClr a b) := of_word rfl fun _ => decode1_2A _ _ _ _
theorem mzero (a : BitVec 5) (b : BitVec 5) : Statement (.mzero a b) := of_word rfl fun _ => decode1_2A _ _ _ _
theorem mwgt (a : BitVec 5) (b : BitVec 5) (c : BitVec 5) : Statement (.mwgt a b c) := of_word rfl fun _ => decode1_2A _ _ _ _
theorem nodeCmu (a : BitVec 5) (b : BitVec 5) (c : BitVec 5) : Statement (.nodeCmu a b c) := of_word rfl fun _ => decode1_2B _ _ _ _
theorem nodeDrain (a : BitVec 5) (b : BitVec 5) (c : BitVec 5) : Statement (.nodeDrain a b c) := of_word rfl fun _ => decode1_2B _ _ _ _
theorem nodeCopy (a : BitVec 5) (b : BitVec 5) (c : BitVec 5) : Statement (.nodeCopy a b c) := of_word rfl fun _ => decode1_2B _ _ _ _
theorem nwait (a : BitVec 5) (b : BitVec 5) (t : Bool) : Statement (.nwait a b t) := of_word rfl fun _ => by cases t <;> exact decode1_2B _ _ _ _
theorem npoll (a : BitVec 5) (b : BitVec 5) : Statement (.npoll a b) := of_word rfl fun _ => decode1_2B _ _ _ _
theorem nfree (a : BitVec 5) (b : BitVec 5) : Statement (.nfree a b) := of_word rfl fun _ => decode1_2B _ _ _ _
theorem yclaim (a : BitVec 5) (t : Bool) : Statement (.yclaim a t) := of_word rfl fun _ => by cases t <;> exact decode1_2C _ _ _ _
theorem yrel (a : BitVec 5) : Statement (.yrel a) := of_word rfl fun _ => decode1_2C _ _ _ _
theorem yload (a : BitVec 5) (b : BitVec 5) : Statement (.yload a b) := of_word rfl fun _ => decode1_2C _ _ _ _
theorem yclk (a : BitVec 5) (b : BitVec 5) (c : BitVec 5) : Statement (.yclk a b c) := of_word rfl fun _ => decode1_2C _ _ _ _
theorem yrun (a : BitVec 5) (b : BitVec 5) : Statement (.yrun a b) := of_word rfl fun _ => decode1_2C _ _ _ _
theorem ystop (a : BitVec 5) (b : BitVec 5) : Statement (.ystop a b) := of_word rfl fun _ => decode1_2C _ _ _ _
theorem ystopW (a : BitVec 5) (b : BitVec 5) (t : Bool) : Statement (.ystopW a b t) := of_word rfl fun _ => by cases t <;> exact decode1_2C _ _ _ _
theorem ysave (a : BitVec 5) (b : BitVec 5) : Statement (.ysave a b) := of_word rfl fun _ => decode1_2C _ _ _ _
theorem yrest (a : BitVec 5) (b : BitVec 5) : Statement (.yrest a b) := of_word rfl fun _ => decode1_2C _ _ _ _
theorem yget (a : BitVec 5) (b : BitVec 5) : Statement (.yget a b) := of_word rfl fun _ => decode1_2C _ _ _ _
theorem yset (a : BitVec 5) (b : BitVec 5) (c : BitVec 5) : Statement (.yset a b c) := of_word rfl fun _ => decode1_2C _ _ _ _
theorem yinj (a : BitVec 5) (b : BitVec 5) (c : BitVec 5) : Statement (.yinj a b c) := of_word rfl fun _ => decode1_2C _ _ _ _
theorem ystat (a : BitVec 5) : Statement (.ystat a) := of_word rfl fun _ => decode1_2C _ _ _ _
theorem ystatClr (a : BitVec 5) : Statement (.ystatClr a) := of_word rfl fun _ => decode1_2C _ _ _ _
theorem qsearch (a : BitVec 5) (b : BitVec 5) (c : BitVec 5) : Statement (.qsearch a b c) := of_word rfl fun _ => decode1_2D _ _ _ _
theorem bred (a : BitVec 5) (b : BitVec 5) (c : BitVec 5) : Statement (.bred a b c) := of_word rfl fun _ => decode1_2D _ _ _ _
theorem chain (a : BitVec 5) (b : BitVec 5) : Statement (.chain a b) := of_word rfl fun _ => decode1_2D _ _ _ _
theorem bfpx (a : BitVec 5) (b : BitVec 5) (c : BitVec 5) (k : BitVec 3) (ty : Ty) : Statement (.bfpx a b c k ty) := of_word rfl fun h => (decode1_2E a b c k (ty.code) 0#4).trans ((tyIn_code Ty.isFn ty h _))
theorem bfpscl (a : BitVec 5) (b : BitVec 5) (c : BitVec 5) : Statement (.bfpscl a b c) := of_word rfl fun _ => (decode1_2E a b c 0#3 (14#4) 1#4)
theorem bfpq (a : BitVec 5) (b : BitVec 5) (c : BitVec 5) (n : BitVec 4) : Statement (.bfpq a b c n) := of_word rfl fun h => bfpq_word a b c n h
theorem bfpcvt (a : BitVec 5) (b : BitVec 5) (ty : Ty) (n : BitVec 4) : Statement (.bfpcvt a b ty n) := of_word rfl fun h => bfpcvt_word a b ty n h
theorem ecall : Statement (.ecall) := of_word rfl fun _ => decode1_2F _ _ _ _
theorem eret : Statement (.eret) := of_word rfl fun _ => decode1_2F _ _ _ _
theorem mfs (a : BitVec 5) (num : BitVec 12) : Statement (.mfs a num) := of_word rfl fun h => mfs_word a num h
theorem mts (a : BitVec 5) (num : BitVec 12) : Statement (.mts a num) := of_word rfl fun h => mts_word a num h
theorem tlbinvPage (b : BitVec 5) : Statement (.tlbinvPage b) := of_word rfl fun _ => decode1_2F _ _ _ _
theorem tlbinvSpace : Statement (.tlbinvSpace) := of_word rfl fun _ => decode1_2F _ _ _ _
theorem cflushL (b : BitVec 5) : Statement (.cflushL b) := of_word rfl fun _ => decode1_2F _ _ _ _
theorem cflushAll : Statement (.cflushAll) := of_word rfl fun _ => decode1_2F _ _ _ _
theorem cflushRed : Statement (.cflushRed) := of_word rfl fun _ => decode1_2F _ _ _ _
theorem isync : Statement (.isync) := of_word rfl fun _ => decode1_2F _ _ _ _
theorem brk (code : BitVec 10) : Statement (.brk code) := of_word rfl fun _ => brk_word code
theorem wfe (a : BitVec 5) (t : Bool) : Statement (.wfe a t) := of_word rfl fun _ => by cases t <;> exact decode1_2F _ _ _ _
theorem preempt (a : BitVec 5) (b : BitVec 5) : Statement (.preempt a b) := of_word rfl fun _ => decode1_2F _ _ _ _
theorem takeAsyncTrap (proc : Nat) : Statement (.takeAsyncTrap proc) := of_none rfl
theorem timerEvent (proc : Nat) : Statement (.timerEvent proc) := of_none rfl
theorem fillArrival (n : Nat) : Statement (.fillArrival n) := of_none rfl
theorem waitDeadline (proc : Nat) : Statement (.waitDeadline proc) := of_none rfl
theorem slotGiveUp (proc : Nat) : Statement (.slotGiveUp proc) := of_none rfl
theorem spillSwap (proc : Nat) : Statement (.spillSwap proc) := of_none rfl
theorem starvationRaise (proc : Nat) : Statement (.starvationRaise proc) := of_none rfl
theorem quantumExpiry (proc : Nat) : Statement (.quantumExpiry proc) := of_none rfl
theorem preemptionHalt (proc : Nat) : Statement (.preemptionHalt proc) := of_none rfl
theorem stealRequest (place : Nat) : Statement (.stealRequest place) := of_none rfl
theorem stealExpiry (place : Nat) : Statement (.stealExpiry place) := of_none rfl
theorem stealArrival (n : Nat) : Statement (.stealArrival n) := of_none rfl
theorem stealReturned (n : Nat) : Statement (.stealReturned n) := of_none rfl
theorem childEnd (n : Nat) : Statement (.childEnd n) := of_none rfl
theorem exitRetainTimeout (place : Nat) : Statement (.exitRetainTimeout place) := of_none rfl
theorem deadlockProbe (proc : Nat) : Statement (.deadlockProbe proc) := of_none rfl
theorem probeForward (n : Nat) : Statement (.probeForward n) := of_none rfl
theorem faultMessageRelease (place : Nat) : Statement (.faultMessageRelease place) := of_none rfl
theorem watchdogT1 (place : Nat) (asid : Nat) (queue : Nat) : Statement (.watchdogT1 place asid queue) := of_none rfl
theorem watchdogT2 (place : Nat) (asid : Nat) (queue : Nat) : Statement (.watchdogT2 place asid queue) := of_none rfl
theorem watchdogT3 (place : Nat) (asid : Nat) (queue : Nat) : Statement (.watchdogT3 place asid queue) := of_none rfl
theorem feRefusal (n : Nat) : Statement (.feRefusal n) := of_none rfl
theorem portRead (n : Nat) : Statement (.portRead n) := of_none rfl
theorem portWrite (n : Nat) : Statement (.portWrite n) := of_none rfl
theorem portAtomic (n : Nat) : Statement (.portAtomic n) := of_none rfl
theorem portCombine (n : Nat) : Statement (.portCombine n) := of_none rfl
theorem portRecall (home : Nat) (line : Nat) : Statement (.portRecall home line) := of_none rfl
theorem portPush (n : Nat) : Statement (.portPush n) := of_none rfl
theorem portChain (n : Nat) : Statement (.portChain n) := of_none rfl
theorem portEread (n : Nat) : Statement (.portEread n) := of_none rfl
theorem portEwrite (n : Nat) : Statement (.portEwrite n) := of_none rfl
theorem portMigrate (n : Nat) : Statement (.portMigrate n) := of_none rfl
theorem portHost (n : Nat) : Statement (.portHost n) := of_none rfl
theorem budgetBoundary (home : Nat) (budget : Nat) : Statement (.budgetBoundary home budget) := of_none rfl
theorem chainReturn (n : Nat) : Statement (.chainReturn n) := of_none rfl
theorem memoryServerRequest (place : Nat) : Statement (.memoryServerRequest place) := of_none rfl
theorem windowPush (n : Nat) : Statement (.windowPush n) := of_none rfl
theorem nodeFinish (n : Nat) : Statement (.nodeFinish n) := of_none rfl
theorem matrixStepGrant (shed : Nat) : Statement (.matrixStepGrant shed) := of_none rfl
theorem kstepRetire (shed : Nat) : Statement (.kstepRetire shed) := of_none rfl
theorem copyRun (place : Nat) : Statement (.copyRun place) := of_none rfl
theorem searchQueryStart (unit : Nat) : Statement (.searchQueryStart unit) := of_none rfl
theorem shardReport (n : Nat) : Statement (.shardReport n) := of_none rfl
theorem bredChunk (unit : Nat) : Statement (.bredChunk unit) := of_none rfl
theorem recordOffer (n : Nat) : Statement (.recordOffer n) := of_none rfl
theorem recordReceive (n : Nat) : Statement (.recordReceive n) := of_none rfl
theorem recordWithdrawal (n : Nat) : Statement (.recordWithdrawal n) := of_none rfl
theorem recordItem (n : Nat) : Statement (.recordItem n) := of_none rfl
theorem recordMarker (n : Nat) : Statement (.recordMarker n) := of_none rfl
theorem recordErrorToken (n : Nat) : Statement (.recordErrorToken n) := of_none rfl
theorem recordClose (n : Nat) : Statement (.recordClose n) := of_none rfl
theorem sendAck (n : Nat) : Statement (.sendAck n) := of_none rfl
theorem tileGo (n : Nat) : Statement (.tileGo n) := of_none rfl
theorem tileCopyLanded (n : Nat) : Statement (.tileCopyLanded n) := of_none rfl
theorem slotToken (n : Nat) : Statement (.slotToken n) := of_none rfl
theorem lostEntry (dev : Nat) (port : Nat) : Statement (.lostEntry dev port) := of_none rfl
theorem recordCopy (n : Nat) : Statement (.recordCopy n) := of_none rfl
theorem rebindAnnounce (n : Nat) : Statement (.rebindAnnounce n) := of_none rfl
theorem rebindAck (n : Nat) : Statement (.rebindAck n) := of_none rfl
theorem inboxMessage (n : Nat) : Statement (.inboxMessage n) := of_none rfl
theorem handlerDispatch (place : Nat) (asid : Nat) : Statement (.handlerDispatch place asid) := of_none rfl
theorem delegRequest (n : Nat) : Statement (.delegRequest n) := of_none rfl
theorem delegRoutineStart (place : Nat) (asid : Nat) : Statement (.delegRoutineStart place asid) := of_none rfl
theorem yardStep (place : Nat) (dom : Nat) : Statement (.yardStep place dom) := of_none rfl
theorem yardInputItem (place : Nat) (input : Nat) : Statement (.yardInputItem place input) := of_none rfl
theorem yardClaimDone (place : Nat) : Statement (.yardClaimDone place) := of_none rfl
theorem yardRestore (place : Nat) : Statement (.yardRestore place) := of_none rfl
theorem moveHalt (proc : Nat) : Statement (.moveHalt proc) := of_none rfl
theorem moveCopy (proc : Nat) : Statement (.moveCopy proc) := of_none rfl
theorem migrationSwitch (page : Nat) : Statement (.migrationSwitch page) := of_none rfl
theorem remapReload (home : Nat) (seg : Nat) (shadowOk : Bool) : Statement (.remapReload home seg shadowOk) := of_none rfl
theorem flitAckTimeout (dev : Nat) (port : Nat) : Statement (.flitAckTimeout dev port) := of_none rfl
theorem laneSpare (dev : Nat) (port : Nat) : Statement (.laneSpare dev port) := of_none rfl
theorem laneRetrain (dev : Nat) (port : Nat) : Statement (.laneRetrain dev port) := of_none rfl
theorem portDown (dev : Nat) (port : Nat) : Statement (.portDown dev port) := of_none rfl
theorem pathGiveUp (dev : Nat) (port : Nat) : Statement (.pathGiveUp dev port) := of_none rfl
theorem reduceStep (binding : Nat) : Statement (.reduceStep binding) := of_none rfl
theorem fanoutStep (binding : Nat) : Statement (.fanoutStep binding) := of_none rfl
theorem sessionAgreement (asid : Nat) (devA : Nat) (devB : Nat) : Statement (.sessionAgreement asid devA devB) := of_none rfl
theorem launch (dev : Nat) (win : Nat) (tag : BitVec 16) : Statement (.launch dev win tag) := of_none rfl
theorem endpoint (dev : Nat) (win : Nat) (tag : BitVec 16) : Statement (.endpoint dev win tag) := of_none rfl
theorem bind (dev : Nat) (win : Nat) (tag : BitVec 16) : Statement (.bind dev win tag) := of_none rfl
theorem map (dev : Nat) (win : Nat) (tag : BitVec 16) : Statement (.map dev win tag) := of_none rfl
theorem endpointDoorbell (dev : Nat) (win : Nat) (bell : BitVec 16) : Statement (.endpointDoorbell dev win bell) := of_none rfl
theorem hostAttest (dev : Nat) (win : Nat) (tag : BitVec 16) : Statement (.hostAttest dev win tag) := of_none rfl
theorem stage (dev : Nat) (win : Nat) (tag : BitVec 16) : Statement (.stage dev win tag) := of_none rfl
theorem activate (dev : Nat) (win : Nat) (tag : BitVec 16) : Statement (.activate dev win tag) := of_none rfl
theorem service (dev : Nat) (win : Nat) (tag : BitVec 16) : Statement (.service dev win tag) := of_none rfl
theorem portTakeoutComplete (home : Nat) : Statement (.portTakeoutComplete home) := of_none rfl
theorem hostCounter (dev : Nat) (win : Nat) (tag : BitVec 16) : Statement (.hostCounter dev win tag) := of_none rfl
theorem endSpace (dev : Nat) (win : Nat) (tag : BitVec 16) : Statement (.endSpace dev win tag) := of_none rfl
theorem hostMemAccess (dev : Nat) (off : Nat) (wr : Option (BitVec 64)) : Statement (.hostMemAccess dev off wr) := of_none rfl
theorem registerWrite (dev : Nat) (off : Nat) (val : Option (BitVec 64)) : Statement (.registerWrite dev off val) := of_none rfl
theorem processMove (n : Nat) : Statement (.processMove n) := of_none rfl
theorem collectiveConfigure (n : Nat) : Statement (.collectiveConfigure n) := of_none rfl
theorem collectiveRelease (n : Nat) : Statement (.collectiveRelease n) := of_none rfl
theorem root (n : Nat) : Statement (.root n) := of_none rfl
theorem migrate (n : Nat) : Statement (.migrate n) := of_none rfl
theorem ovring (n : Nat) : Statement (.ovring n) := of_none rfl
theorem unitpool (n : Nat) : Statement (.unitpool n) := of_none rfl
theorem ttset (n : Nat) : Statement (.ttset n) := of_none rfl
theorem halt (n : Nat) : Statement (.halt n) := of_none rfl
theorem resume (n : Nat) : Statement (.resume n) := of_none rfl
theorem kill (n : Nat) : Statement (.kill n) := of_none rfl
theorem signal (n : Nat) : Statement (.signal n) := of_none rfl
theorem inbox (n : Nat) : Statement (.inbox n) := of_none rfl
theorem unfence (n : Nat) : Statement (.unfence n) := of_none rfl
theorem counter (n : Nat) : Statement (.counter n) := of_none rfl
theorem attest (n : Nat) : Statement (.attest n) := of_none rfl
theorem powerOn (dev : Nat) : Statement (.powerOn dev) := of_none rfl
theorem throttle (dev : Nat) (die : Nat) : Statement (.throttle dev die) := of_none rfl
theorem overheatShutdown (dev : Nat) (die : Nat) : Statement (.overheatShutdown dev die) := of_none rfl
theorem illegalWord (detail : BitVec 16) (tval : BitVec 64) (ext : Bool) : Statement (.illegalWord detail tval ext) := of_none rfl
theorem childCreation (n : Nat) : Statement (.childCreation n) := of_none rfl
theorem flitArrival (dev : Nat) (port : Nat) (crcOk : Bool) (tagOk : Bool) : Statement (.flitArrival dev port crcOk tagOk) := of_none rfl
theorem linkPortUp (dev : Nat) (port : Nat) : Statement (.linkPortUp dev port) := of_none rfl
theorem toHostEndpointRoom (dev : Nat) (ep : Nat) : Statement (.toHostEndpointRoom dev ep) := of_none rfl
theorem throttleEnd (dev : Nat) (die : Nat) : Statement (.throttleEnd dev die) := of_none rfl

end Sys2Proof.Laws.Enc
end

