-- ==== Sys2Proof/Tests/Slice0.lean ====
section
/-! SUPPORT. Decoding checked on words written out from the spec's encodings, ill-formed terms refused, small steps, and a
witness for the hypotheses of every statement. -/

namespace Sys2Proof.Tests

set_option Elab.async false

open Sys2Proof.Machine Sys2Proof.Safety

/-- The decoder reads each word as the instruction beside it. -/
noncomputable def reads (l : List (IWord × Instr)) : Bool := l.all fun e => decide (decode1 e.1 = .ok e.2)

/-- No instruction of the list is well formed. -/
def refusedAll (l : List Instr) : Bool := l.all fun i => !i.wf

/-- The machine with one supervisor process about to issue. -/
def boot : State := State.reset.withFetchWord 32 0

/-- Nothing of the process itself is in the way of its next instruction, and it declares both units. -/
def still (p : Proc) : Bool :=
  p.tile && p.yard && p.gFull == BitVec.allOnes 32 && p.vFull == BitVec.allOnes 32 &&
  p.nodeTraps.isEmpty && p.nwaits.isEmpty && p.stall.isNone && p.started

/-- The same of a process that is no handler and no routine. -/
def calm (p : Proc) : Bool := still p && decide (p.kind = .normal)

/-- Every instruction that the mode may run, but a FENCE, can issue for `p` at `s`, and its own description begins with `s` and `p`. -/
def Issuing (s : State) (p : Proc) : Prop :=
  ∀ nd : Need, (nd.needS = true → p.smode = true) → nd.fence = none → Issues s 0 p nd s p

theorem full5 : ∀ n : BitVec 5, (BitVec.allOnes 32).getLsbD n.toNat = true := by decide
theorem full3 : ∀ n : BitVec 3, (BitVec.allOnes 8).getLsbD n.toNat = true := by decide

theorem noStall (p : Proc) (h : p.stall = none) : ({ p with stall := none } : Proc) = p := by cases p; simp_all

/-- Whether a message may hold back the instructions of process `k`: an access of its own, or a combine. -/
def mayHold (k : Nat) (m : Msg) : Bool :=
  (match m.own with | none => false | some o => o.p == k) || (match m.body with | .combine _ => true | _ => false)

theorem quiet_at {s : State} {k : Nat} {p : Proc} {c : Core} (hc : s.cur = k) (h2 : mget s.procs k = some p)
    (hps : mset s.procs k p = s.procs) (hcore : s.core (placeOf k) = c)
    (h5 : c.tileOwner = some k) (h9 : c.mFull = BitVec.allOnes 8) (b4 : c.redLines = [])
    (hn : s.net.any (mayHold k) = false) (hh : s.homes = []) (h : still p = true) (nd : Need) (h6 : nd.noRoutine = true → p.kind = .normal) (hm : nd.needS = true → p.smode = true)
    (hfe : nd.fence = none ∨ c.nodes = []) : Issues s k p nd s p := by
  simp only [still, Bool.and_eq_true, beq_iff_eq, List.isEmpty_iff, Option.isNone_iff_eq_none] at h
  obtain ⟨⟨⟨⟨⟨⟨⟨h3, h4⟩, h7⟩, h8⟩, h10⟩, h11⟩, hst⟩, hsd⟩ := h
  have h15 : ∀ sc, linesHeld s (placeOf k) sc = false := by intro sc; simp [linesHeld, hcore, b4]
  have hf : ∀ r, regFull s k p r = true := by
    intro r
    cases r with
    | g n => simp only [regFull, Proc.gOk, h7, full5, Bool.or_true]
    | v n => simp only [regFull, Proc.vOk, h8, full5]
    | m n => simp only [regFull, hcore, h5, h9, full3, if_pos]
  have h14 : s.start k p = (s, p) := by
    have e := noStall p hst
    have e' : s.setProc k p = s := by unfold State.setProc; rw [hps]
    have i : s.start k p = (s.setProc k { p with stall := none }, { p with stall := none }) := by
      unfold State.start
      exact if_pos hsd
    rw [i, e, e']
  refine ⟨⟨hc, h2, fun _ => ⟨h3, hcore ▸ h5⟩, fun _ => h4, h6, hm, fun r _ => hf r, fun r _ => hf r, ?_, fun _ => h11, fun _ => h15 _, ?_⟩, ?_⟩
  · simp [owedTrap, h10]
  · have hout : ∀ f, outstanding s k p.gen f = false := by
      intro f
      unfold outstanding
      rw [hh, List.any_nil, Bool.or_false, List.any_eq_false]
      intro m hmem
      have := List.any_eq_false.1 hn m hmem
      cases ho : m.own <;> simp_all [mayHold]
    have hcom : ∀ sc, combining s (placeOf k) sc = false := by
      intro sc
      unfold combining
      rw [List.any_eq_false]
      intro m hmem
      have := List.any_eq_false.1 hn m hmem
      cases hb : m.body <;> simp_all [mayHold]
    rcases hfe with hfe | hfe
    · simp [mustWait, hout, hcom, hfe]
    · have he : engineReads s k p.gen = false := by simp [engineReads, hcore, hfe]
      cases hq : nd.fence <;> simp [mustWait, fenceWaits, hout, hcom, he, hq]
  · simp [issued, h14]

/-- The same whatever is under way, for an instruction that need not wait for it. -/
theorem quiet_plain {s : State} {k : Nat} {p : Proc} {c : Core} (hc : s.cur = k) (h2 : mget s.procs k = some p)
    (hps : mset s.procs k p = s.procs) (hcore : s.core (placeOf k) = c) (h5 : c.tileOwner = some k) (h9 : c.mFull = BitVec.allOnes 8)
    (b4 : c.redLines = []) (h : still p = true) (nd : Need) (h6 : nd.noRoutine = true → p.kind = .normal)
    (hm : nd.needS = true → p.smode = true) (ho : mustWait s k p nd = false) (hfe : nd.fence = none) : Issues s k p nd s p := by
  let t : State := { s with net := [], homes := [] }
  have q : Issues t k p nd t p := quiet_at (s := t) hc h2 hps hcore h5 h9 b4 rfl rfl h nd h6 hm (.inl hfe)
  have e : s.start k p = (s.setProc k { p with stall := none }, { p with stall := none }) := by
    simp only [still, Bool.and_eq_true] at h
    unfold State.start
    exact if_pos h.2
  have hst : p.stall = none := by
    simp only [still, Bool.and_eq_true, Option.isNone_iff_eq_none] at h
    exact h.1.2
  refine ⟨⟨hc, h2, q.1.tile, q.1.yard, h6, hm, q.1.srcs, q.1.dsts, q.1.traps, q.1.nodes, q.1.lines, ho⟩, ?_⟩
  · rw [issued, e, noStall p hst]
    unfold State.setProc
    rw [hps]

theorem quiet_core {s : State} {p : Proc} {c : Core} {rest : Map Proc} (hc : s.cur = 0) (hp : s.procs = (0, p) :: rest)
    (hk : s.cores = [(0, c)]) (h5 : c.tileOwner = some 0) (h9 : c.mFull = BitVec.allOnes 8) (b4 : c.redLines = [])
    (hn : s.net = []) (hh : s.homes = []) (h : calm p = true) : Issuing s p := by
  simp only [calm, Bool.and_eq_true, decide_eq_true_eq] at h
  exact fun nd hm hf => quiet_at hc (by rw [hp]; rfl) (by rw [hp]; rfl) (by unfold State.core; rw [hk]; rfl) h5 h9 b4 (by rw [hn]; rfl) hh
    h.1 nd (fun _ => h.2) hm (.inl hf)

theorem quiet_of {s : State} {p : Proc} {rest : Map Proc} (hc : s.cur = 0) (hp : s.procs = (0, p) :: rest)
    (hk : s.cores = boot.cores) (hn : s.net = []) (hh : s.homes = []) (h : calm p = true) : Issuing s p :=
  quiet_core hc hp (hk.trans rfl) rfl rfl rfl hn hh h

/-- The core of `boot`. -/
def bootCore : Core :=
  { Core.reset with gens := [(0, 1)], tileOwner := some 0, yardOwner := some 0, slots := Core.reset.slots.set 0 (some 0) }

/-- The machine with the process `p` and the records `c`. -/
def world (p : Proc) (c : Map Chan) : State := { boot with procs := [(0, p)], chans := c }

/-- The machine with another core, process and records in its place. -/
def cored (p : Proc) (c : Core) (x : Map Chan) : State := { boot with procs := [(0, p)], cores := [(0, c)], chans := x }

theorem quiet_world {p : Proc} {c : Map Chan} (h : calm p = true) : Issuing (world p c) p := quiet_of rfl rfl rfl rfl rfl h

theorem quiet_boot : Issuing boot bootProc := quiet_of rfl rfl rfl rfl rfl rfl
theorem quiet_cored {p : Proc} {c : Core} {x : Map Chan} (h : calm p = true) (h5 : c.tileOwner = some 0)
    (h9 : c.mFull = BitVec.allOnes 8) (b4 : c.redLines = []) : Issuing (cored p c x) p :=
  quiet_core rfl rfl rfl h5 h9 b4 rfl rfl h

theorem test_decode_01_1 : reads [
    (0x06329800, .add 17 18 19),
    (0x06329801, .sub 17 18 19),
    (0x06329802, .and 17 18 19),
    (0x06329803, .or 17 18 19),
    (0x06329804, .xor 17 18 19),
    (0x06329805, .andn 17 18 19),
    (0x06329806, .shl 17 18 19),
    (0x06329807, .shr 17 18 19),
    (0x06329808, .sra 17 18 19),
    (0x06329809, .rol 17 18 19),
    (0x0632980A, .mul 17 18 19),
    (0x0632980B, .mulh 17 18 19),
    (0x0632980C, .mulhu 17 18 19),
    (0x0632980D, .div 17 18 19),
    (0x0632980E, .divu 17 18 19),
    (0x0632980F, .rem 17 18 19)] = true := by decide +kernel

theorem test_decode_01_2 : reads [
    (0x06329810, .remu 17 18 19),
    (0x06329811, .min 17 18 19),
    (0x06329812, .max 17 18 19),
    (0x06329813, .minu 17 18 19),
    (0x06329814, .maxu 17 18 19),
    (0x06329815, .slt 17 18 19),
    (0x06329816, .sltu 17 18 19),
    (0x06329817, .seq 17 18 19),
    (0x06320018, .clz 17 18),
    (0x06320019, .ctz 17 18),
    (0x0632001A, .popc 17 18),
    (0x0632001B, .brev 17 18),
    (0x0632001C, .bswap 17 18),
    (0x0632001D, .sextB 17 18),
    (0x0632001E, .sextH 17 18),
    (0x0632001F, .sextW 17 18)] = true := by decide +kernel

theorem test_decode_01_3 : reads [
    (0x06320020, .zextB 17 18),
    (0x06320021, .zextH 17 18),
    (0x06320022, .zextW 17 18),
    (0x06329823, .lea1 17 18 19),
    (0x06329824, .lea2 17 18 19),
    (0x06329825, .lea4 17 18 19),
    (0x06329826, .lea8 17 18 19)] = true := by decide +kernel

theorem test_decode_02 : reads [
    (0x0A32BEEF, .addi 17 18 0xBEEF)] = true := by decide +kernel

theorem test_decode_03 : reads [
    (0x0E32BEEF, .andi 17 18 0xBEEF)] = true := by decide +kernel

theorem test_decode_04 : reads [
    (0x1232BEEF, .ori 17 18 0xBEEF)] = true := by decide +kernel

theorem test_decode_05 : reads [
    (0x1632BEEF, .xori 17 18 0xBEEF)] = true := by decide +kernel

theorem test_decode_06 : reads [
    (0x1A32BEEF, .slti 17 18 0xBEEF)] = true := by decide +kernel

theorem test_decode_07 : reads [
    (0x1E32BEEF, .sltiu 17 18 0xBEEF)] = true := by decide +kernel

theorem test_decode_08 : reads [
    (0x2232002D, .shiL 17 18 45),
    (0x2232006D, .shiR 17 18 45),
    (0x223200AD, .shiA 17 18 45),
    (0x223200ED, .shiRol 17 18 45)] = true := by decide +kernel

theorem test_decode_09 : reads [
    (0x2632BEEF, .movhi 17 18 0xBEEF)] = true := by decide +kernel

theorem test_decode_0A : reads [
    (0x2A32BEEF, .muli 17 18 0xBEEF)] = true := by decide +kernel

theorem test_decode_0B : reads [
    (0x2E32BEEF, .beq 17 18 0xBEEF)] = true := by decide +kernel

theorem test_decode_0C : reads [
    (0x3232BEEF, .bne 17 18 0xBEEF)] = true := by decide +kernel

theorem test_decode_0D : reads [
    (0x3632BEEF, .blt 17 18 0xBEEF)] = true := by decide +kernel

theorem test_decode_0E : reads [
    (0x3A32BEEF, .bge 17 18 0xBEEF)] = true := by decide +kernel

theorem test_decode_0F : reads [
    (0x3E32BEEF, .bltu 17 18 0xBEEF)] = true := by decide +kernel

theorem test_decode_10 : reads [
    (0x4232BEEF, .bgeu 17 18 0xBEEF)] = true := by decide +kernel

theorem test_decode_11 : reads [
    (0x4620BEEF, .dbnz 17 0xBEEF)] = true := by decide +kernel

theorem test_decode_12 : reads [
    (0x4AABCDEF, .j 0x2ABCDEF)] = true := by decide +kernel

theorem test_decode_13 : reads [
    (0x4EABCDEF, .call 0x2ABCDEF)] = true := by decide +kernel

theorem test_decode_14 : reads [
    (0x50120000, .jr 18),
    (0x52320001, .callr 17 18),
    (0x50000002, .ret)] = true := by decide +kernel

theorem test_decode_15 : reads [
    (0x563291A1, .ld 17 18 0x1234 .h)] = true := by decide +kernel

theorem test_decode_16 : reads [
    (0x5A3291A1, .st 17 18 0x1234 .h)] = true := by decide +kernel

theorem test_decode_17 : reads [
    (0x5E329801, .ldx 17 18 19 .h),
    (0x5E329809, .stx 17 18 19 .h),
    (0x5E321011, .lda 17 18 .die .h),
    (0x5E321019, .stl 17 18 .die .h),
    (0x5E329C23, .lds 17 18 19 true),
    (0x5E329C2B, .sts 17 18 19 true),
    (0x5E329C33, .ldf 17 18 19 true),
    (0x5E32003B, .feget 17 18),
    (0x5E320043, .feset 17 18)] = true := by decide +kernel

theorem test_decode_18 : reads [
    (0x623291A1, .spl 17 18 0x1234 .h)] = true := by decide +kernel

theorem test_decode_19 : reads [
    (0x663291A1, .sps 17 18 0x1234 .h)] = true := by decide +kernel

theorem test_decode_1A : reads [
    (0x6A329A03, .amoAdd 17 18 19 .rl true),
    (0x6A329A0B, .amoAnd 17 18 19 .rl true),
    (0x6A329A13, .amoOr 17 18 19 .rl true),
    (0x6A329A1B, .amoXor 17 18 19 .rl true),
    (0x6A329A23, .amoMin 17 18 19 .rl true),
    (0x6A329A2B, .amoMax 17 18 19 .rl true),
    (0x6A329A33, .amoMinu 17 18 19 .rl true),
    (0x6A329A3B, .amoMaxu 17 18 19 .rl true),
    (0x6A329A43, .amoSwap 17 18 19 .rl true),
    (0x6A329A4B, .cas 17 18 19 .rl true),
    (0x68129853, .redAdd 18 19 true),
    (0x6812985B, .redFadd 18 19 true),
    (0x68129863, .redMin 18 19 true),
    (0x6812986B, .redMax 18 19 true),
    (0x6A329870, .deleg 17 18 19)] = true := by decide +kernel

theorem test_decode_1B : reads [
    (0x6C001009, .fence .die 9),
    (0x6E329C25, .monw 17 18 19 true .ne true),
    (0x6E320040, .gjoin 17 18),
    (0x6C120060, .gleave 18),
    (0x6E320080, .barArrive 17 18),
    (0x6E3200A0, .barDrop 17 18),
    (0x6E329CC0, .barWait 17 18 19 true)] = true := by decide +kernel

theorem test_decode_1C : reads [
    (0x72329802, .spawn 17 18 19 2),
    (0x70000020, .exit),
    (0x70120021, .exitR 18),
    (0x70000040, .yield),
    (0x70120060, .prio 18),
    (0x72200482, .jwait 17 true 2),
    (0x722000A0, .self 17)] = true := by decide +kernel

theorem test_decode_1D : reads [
    (0x76320CB0, .send 17 18 .v 37 true),
    (0x76320CB1, .recv 17 18 .v 37 true),
    (0x76320012, .alt 17 18 true),
    (0x762004A3, .poison 17 37),
    (0x76200004, .mark 17),
    (0x763204A5, .chnew 17 18 37),
    (0x76329CA6, .chbind 17 18 19 37),
    (0x76320016, .chbindD 17 18),
    (0x762004A7, .chclose 17 37),
    (0x76329818, .amsg 17 18 19 true),
    (0x76329CA9, .winopen 17 18 19 37),
    (0x762004AA, .winclose 17 37)] = true := by decide +kernel

theorem test_decode_1E : reads [
    (0x7A3204B0, .sendt 17 18 37 true),
    (0x7A3204B1, .recvt 17 18 37 true),
    (0x7A329CB2, .thalo 17 18 19 37 true)] = true := by decide +kernel

theorem test_decode_1F : reads [
    (0x7E329DC0, .vadd 17 18 19 5 .fp32),
    (0x7E329DC1, .vsub 17 18 19 5 .fp32),
    (0x7E329DC2, .vmul 17 18 19 5 .fp32),
    (0x7E329DC3, .vfma 17 18 19 5 .fp32),
    (0x7E329DC4, .vfms 17 18 19 5 .fp32),
    (0x7E329DC5, .vmin 17 18 19 5 .fp32),
    (0x7E329DC6, .vmax 17 18 19 5 .fp32),
    (0x7E320527, .vabs 17 18 5 .i32),
    (0x7E320528, .vneg 17 18 5 .i32),
    (0x7E329D59, .vadds 17 18 19 5 .n16),
    (0x7E329D5A, .vsubs 17 18 19 5 .n16),
    (0x7E329D5B, .vmulh 17 18 19 5 .n16),
    (0x7E329D5C, .vabsd 17 18 19 5 .n16),
    (0x7E329DCD, .vdiv 17 18 19 5 .fp32),
    (0x7E3205DE, .vsqrt 17 18 5 .fp64)] = true := by decide +kernel

theorem test_decode_20 : reads [
    (0x82329D90, .vand 17 18 19 5 .e5m2),
    (0x82329D91, .vor 17 18 19 5 .e5m2),
    (0x82329D92, .vxor 17 18 19 5 .e5m2),
    (0x82329D93, .vandn 17 18 19 5 .e5m2),
    (0x82320594, .vnot 17 18 5 .e5m2),
    (0x82329D55, .vshl 17 18 19 5 .n16),
    (0x82329D56, .vshr 17 18 19 5 .n16),
    (0x82329D57, .vsra 17 18 19 5 .n16),
    (0x82329D58, .vrol 17 18 19 5 .n16),
    (0x82329D59, .vshlg 17 18 19 5 .n16),
    (0x82329D5A, .vshrg 17 18 19 5 .n16),
    (0x82329D5B, .vsrag 17 18 19 5 .n16),
    (0x82329D5C, .vrolg 17 18 19 5 .n16),
    (0x8232055D, .vclz 17 18 5 .n16),
    (0x8232055E, .vpopc 17 18 5 .n16),
    (0x8232055F, .vctz 17 18 5 .n16)] = true := by decide +kernel

theorem test_decode_21 : reads [
    (0x84B29D90, .vcmpEq 5 18 19 5 .e5m2),
    (0x84B29D91, .vcmpNe 5 18 19 5 .e5m2),
    (0x84B29D92, .vcmpLt 5 18 19 5 .e5m2),
    (0x84B29D93, .vcmpLe 5 18 19 5 .e5m2),
    (0x84B29D84, .vcmpUn 5 18 19 5 .e4m3),
    (0x86329D95, .vsel 17 18 19 5 .e5m2),
    (0x84A63806, .kand 5 6 7),
    (0x84A63807, .kor 5 6 7),
    (0x84A63808, .kxor 5 6 7),
    (0x84A60009, .knot 5 6),
    (0x8626000A, .kmovg 17 6),
    (0x84B2000B, .kmovk 5 18),
    (0x8626000C, .kpopc 17 6),
    (0x8626000D, .kfirst 17 6)] = true := by decide +kernel

theorem test_decode_22 : reads [
    (0x8A328DC2, .vcvt 17 18 true .i16 5 .fp32 1 false)] = true := by decide +kernel

theorem test_decode_23 : reads [
    (0x8E3205C0, .vredsum 17 18 5 .fp32),
    (0x8E3205C1, .vredmin 17 18 5 .fp32),
    (0x8E3205C2, .vredmax 17 18 5 .fp32),
    (0x8E320553, .vredand 17 18 5 .n16),
    (0x8E320554, .vredor 17 18 5 .n16),
    (0x8E320555, .vredxor 17 18 5 .n16),
    (0x8E3205A6, .vredsumw 17 18 5 .fp16)] = true := by decide +kernel

theorem test_decode_24 : reads [
    (0x92329D90, .vperm 17 18 19 5 .e5m2),
    (0x92329D91, .vpermx 17 18 19 5 .e5m2),
    (0x92329D92, .vsldn 17 18 19 5 .e5m2),
    (0x92329D93, .vslup 17 18 19 5 .e5m2),
    (0x92320594, .vcomp 17 18 5 .e5m2),
    (0x92320595, .vexpd 17 18 5 .e5m2),
    (0x92329D96, .vzipl 17 18 19 5 .e5m2),
    (0x92329D97, .vziph 17 18 19 5 .e5m2),
    (0x92329D98, .vuzpe 17 18 19 5 .e5m2),
    (0x92329D99, .vuzpo 17 18 19 5 .e5m2),
    (0x9232059A, .vrev 17 18 5 .e5m2)] = true := by decide +kernel

theorem test_decode_25 : reads [
    (0x963205E0, .vld 17 18 5 .bfp),
    (0x963205E1, .vst 17 18 5 .bfp),
    (0x96329D92, .vlds 17 18 19 5 .e5m2),
    (0x96329D93, .vsts 17 18 19 5 .e5m2),
    (0x96329D94, .vgath 17 18 19 5 .e5m2),
    (0x96329D95, .vscat 17 18 19 5 .e5m2),
    (0x963205E6, .vspl 17 18 5 .bfp),
    (0x963205E7, .vsps 17 18 5 .bfp),
    (0x96329D98, .vspga 17 18 19 5 .e5m2),
    (0x96329D99, .vspsc 17 18 19 5 .e5m2)] = true := by decide +kernel

theorem test_decode_26 : reads [
    (0x9A3205B0, .vrcp 17 18 5 .bf16),
    (0x9A3205B1, .vrsq 17 18 5 .bf16),
    (0x9A3205B2, .vexp2 17 18 5 .bf16),
    (0x9A3205B3, .vlog2 17 18 5 .bf16)] = true := by decide +kernel

theorem test_decode_27 : reads [
    (0x9E320590, .vbcast 17 18 5 .e5m2),
    (0x9E329891, .vins 17 18 19 .e5m2),
    (0x9E329892, .vext 17 18 19 .e5m2),
    (0x9E320593, .vmov 17 18 5 .e5m2),
    (0x9E200554, .viota 17 5 .n16),
    (0x9E329D95, .vsplat 17 18 19 5 .e5m2)] = true := by decide +kernel

theorem test_decode_28 : reads [
    (0xA0B29800, .tld 5 18 19),
    (0xA0B29801, .tst 5 18 19),
    (0xA0B29892, .tldt 5 18 19 .e5m2),
    (0xA0A09803, .tswap 5 19),
    (0xA0A09804, .tswapT 5 19),
    (0xA0A63895, .tmma 5 6 7 .e5m2),
    (0xA0A00006, .tzero 5),
    (0xA0A60097, .tcvt 5 6 .e5m2)] = true := by decide +kernel

theorem test_decode_29 : reads [
    (0xA6320002, .rcfg 17 18 2),
    (0xA6320420, .rres 17 18 true),
    (0xA6329840, .rpub 17 18 19),
    (0xA6320060, .rstat 17 18),
    (0xA6320061, .rstatMap 17 18),
    (0xA6200082, .rrst 17 2)] = true := by decide +kernel

theorem test_decode_2A : reads [
    (0xAA320000, .mstat 17 18),
    (0xAA320001, .mstatClr 17 18),
    (0xAA320020, .mzero 17 18),
    (0xAA329840, .mwgt 17 18 19)] = true := by decide +kernel

theorem test_decode_2B : reads [
    (0xAE329800, .nodeCmu 17 18 19),
    (0xAE329820, .nodeDrain 17 18 19),
    (0xAE329840, .nodeCopy 17 18 19),
    (0xAE320460, .nwait 17 18 true),
    (0xAE320080, .npoll 17 18),
    (0xAE3200A0, .nfree 17 18)] = true := by decide +kernel

theorem test_decode_2C : reads [
    (0xB2200400, .yclaim 17 true),
    (0xB2200020, .yrel 17),
    (0xB2320040, .yload 17 18),
    (0xB2329860, .yclk 17 18 19),
    (0xB2320080, .yrun 17 18),
    (0xB23200A0, .ystop 17 18),
    (0xB23204A1, .ystopW 17 18 true),
    (0xB23200C0, .ysave 17 18),
    (0xB23200E0, .yrest 17 18),
    (0xB2320100, .yget 17 18),
    (0xB2329920, .yset 17 18 19),
    (0xB2329940, .yinj 17 18 19),
    (0xB2200160, .ystat 17),
    (0xB2200161, .ystatClr 17)] = true := by decide +kernel

theorem test_decode_2D : reads [
    (0xB6329800, .qsearch 17 18 19),
    (0xB6329820, .bred 17 18 19),
    (0xB6320040, .chain 17 18)] = true := by decide +kernel

theorem test_decode_2E : reads [
    (0xBA329DB0, .bfpx 17 18 19 5 .bf16),
    (0xBA3298E1, .bfpscl 17 18 19),
    (0xBA3298E5, .bfpq 17 18 19 5),
    (0xBA3200AC, .bfpcvt 17 18 .fp16 5)] = true := by decide +kernel

theorem test_decode_2F : reads [
    (0xBC000000, .ecall),
    (0xBC000020, .eret),
    (0xBE20A042, .mfs 17 0x052),
    (0xBE20A062, .mts 17 0x052),
    (0xBC120080, .tlbinvPage 18),
    (0xBC000081, .tlbinvSpace),
    (0xBC1200A0, .cflushL 18),
    (0xBC0000A1, .cflushAll),
    (0xBC0000A2, .cflushRed),
    (0xBC0000C0, .isync),
    (0xBC1528E0, .brk 0x2A5),
    (0xBE200500, .wfe 17 true),
    (0xBE320120, .preempt 17 18)] = true := by decide +kernel


theorem test_ill_formed_fields : refusedAll [
    .extPair 1 .shi 1 2 3, .extPair 0 .shi 1 2 0x100, .extPair 0 .dbnz 0 0 4, .extPair 0 .dbnz 1 2 4,
    .extPair 0 .ld 1 2 7, .extPair 0 .spl 1 2 7, .extPair 0 .st 1 2 4, .extPair 0 .sps 1 2 7,
    .dbnz 0 4, .thalo 1 2 3 61 false, .thalo 1 2 3 63 true, .vcvt 1 2 false .i8 0 .i8 0 false,
    .vcvt 1 2 false .bfp 0 .fp32 0 false, .vcvt 1 2 false .fp32 0 .bfp 0 false, .vcvt 1 2 false .i8 0 .fp16 2 false, .vcvt 1 2 false .i8 0 .i16 0 true,
    .vcvt 1 2 false .fp32 0 .i16 0 true, .bfpx 1 2 3 0 .fp64, .bfpq 1 2 3 1, .bfpq 1 2 3 9,
    .bfpcvt 1 2 .fp64 4, .bfpcvt 1 2 .fp32 1, .bfpcvt 1 2 .fp32 9, .bfpcvt 1 31 .fp32 4,
    .mfs 1 0x004, .mts 1 0x7FF, .illegalWord 0 0 false, .illegalWord 8 0 true] = true := by decide +kernel

theorem test_ill_formed_types_1 : refusedAll [
    .vadd 1 1 1 1 .e4m3, .vsub 1 1 1 1 .e4m3, .vmul 1 1 1 1 .e4m3, .vfma 1 1 1 1 .e4m3,
    .vfms 1 1 1 1 .e4m3, .vmin 1 1 1 1 .e4m3, .vmax 1 1 1 1 .e4m3, .vabs 1 1 1 .n8,
    .vneg 1 1 1 .n8, .vadds 1 1 1 1 .fp32, .vsubs 1 1 1 1 .fp32, .vmulh 1 1 1 1 .fp32,
    .vabsd 1 1 1 1 .fp32, .vdiv 1 1 1 1 .e4m3, .vsqrt 1 1 1 .i8, .vand 1 1 1 1 .bfp,
    .vor 1 1 1 1 .bfp, .vxor 1 1 1 1 .bfp, .vandn 1 1 1 1 .bfp, .vnot 1 1 1 .bfp,
    .vshl 1 1 1 1 .fp32, .vshr 1 1 1 1 .fp32, .vsra 1 1 1 1 .fp32, .vrol 1 1 1 1 .fp32] = true := by decide +kernel

theorem test_ill_formed_types_2 : refusedAll [
    .vshlg 1 1 1 1 .fp32, .vshrg 1 1 1 1 .fp32, .vsrag 1 1 1 1 .fp32, .vrolg 1 1 1 1 .fp32,
    .vclz 1 1 1 .fp32, .vpopc 1 1 1 .fp32, .vctz 1 1 1 .fp32, .vcmpEq 1 1 1 1 .bfp,
    .vcmpNe 1 1 1 1 .bfp, .vcmpLt 1 1 1 1 .bfp, .vcmpLe 1 1 1 1 .bfp, .vcmpUn 1 1 1 1 .i64,
    .vsel 1 1 1 1 .bfp, .vredsum 1 1 1 .e4m3, .vredmin 1 1 1 .e4m3, .vredmax 1 1 1 .e4m3,
    .vredand 1 1 1 .fp32, .vredor 1 1 1 .fp32, .vredxor 1 1 1 .fp32, .vredsumw 1 1 1 .fp64,
    .vperm 1 1 1 1 .bfp, .vpermx 1 1 1 1 .bfp, .vsldn 1 1 1 1 .bfp, .vslup 1 1 1 1 .bfp] = true := by decide +kernel

theorem test_ill_formed_types_3 : refusedAll [
    .vcomp 1 1 1 .bfp, .vexpd 1 1 1 .bfp, .vzipl 1 1 1 1 .bfp, .vziph 1 1 1 1 .bfp,
    .vuzpe 1 1 1 1 .bfp, .vuzpo 1 1 1 1 .bfp, .vrev 1 1 1 .bfp, .vlds 1 1 1 1 .bfp,
    .vsts 1 1 1 1 .bfp, .vgath 1 1 1 1 .bfp, .vscat 1 1 1 1 .bfp, .vspga 1 1 1 1 .bfp,
    .vspsc 1 1 1 1 .bfp, .vrcp 1 1 1 .fp64, .vrsq 1 1 1 .fp64, .vexp2 1 1 1 .fp64,
    .vlog2 1 1 1 .fp64, .vbcast 1 1 1 .bfp, .vins 1 1 1 .bfp, .vext 1 1 1 .bfp,
    .vmov 1 1 1 .bfp, .viota 1 1 .fp32, .vsplat 1 1 1 1 .bfp, .tldt 1 1 1 .bfp] = true := by decide +kernel

theorem test_ill_formed_types_4 : refusedAll [
    .tmma 1 1 1 .fp32, .tcvt 1 1 .fp32, .bfpx 1 1 1 1 .fp64] = true := by decide +kernel


/-! ### Witnesses: decoding, stepping, registers -/

theorem witness_DecodeOfEncode : (Instr.wf (.thalo 1 2 3 60 true) = true ∧ encode (.thalo 1 2 3 60 true) = some [0x78221F92]) ∧
    (Instr.wf (.extPair 0x3FFFFFF .dbnz 1 0 0xFFFF) = true ∧
      encode (.extPair 0x3FFFFFF .dbnz 1 0 0xFFFF) = some [0xFBFFFFFF, 0x4420FFFF]) := by decide +kernel

theorem witness_EncodeOfDecode : decode1 0x4420FFFF = .ok (.dbnz 1 0xFFFF) ∧ decode1 0xFBFFFFFF = .ext 0x3FFFFFF ∧
    decodePair 0x3FFFFFF 0x4420FFFF = .ok (.extPair 0x3FFFFFF .dbnz 1 0 0xFFFF) := by decide +kernel

/-- The machine with the first words of the code page replaced. -/
def code (n : Nat) (x : Nat) : State := { boot with mem := memPut boot.mem bootCode (leBytes n x) }

/-- What the fetch of the word at the PC gives. -/
def fetched (s : State) : FetchedWord := (fetchWord { s.tick with cur := 0 } 0 bootProc bootProc.pc).2

theorem witness_Step_agenda : ({ boot with agenda := [.yield] } : State).agenda = .yield :: [] := rfl
theorem witness_Step_due : ∃ i, due { boot with procs := [(0, { bootProc with haltReq := 2 })] } = some i := by
  have h : (due { boot with procs := [(0, { bootProc with haltReq := 2 })] }).isSome = true := by decide +kernel
  exact Option.isSome_iff_exists.1 h
theorem witness_Step_idle : State.reset.agenda = [] ∧ due State.reset = none ∧ pick State.reset = none := by decide +kernel
theorem witness_Step_issue : boot.agenda = [] ∧ due boot = none ∧ pick boot = some (0, bootProc) := by decide +kernel
theorem witness_Step_word : fetched (code 4 0x08642004) = .word 0x08642004 ∧ decode1 0x08642004 = .ok (.addi 3 4 0x2004) := by
  decide +kernel
theorem witness_Step_ill : fetched boot = .word 0 ∧ decode1 0 = .ill 1 := by decide +kernel
theorem witness_Step_pair : fetched (code 8 0x08642004F8000001) = .word 0xF8000001 ∧ decode1 0xF8000001 = .ext 1 ∧
    (fetchWord { (code 8 0x08642004F8000001).tick with cur := 0 } 0 bootProc (bootProc.pc + 4)).2 = .word 0x08642004 ∧
    decodePair 1 0x08642004 = .ok (.extPair 1 .addi 3 4 0x2004) ∧ decodePair 1 0xF8000001 = .ill 5 := by decide +kernel
theorem witness_Step_fault : fetched { boot with mem := memPut boot.mem (bootTable 4 + 8) [0x2A] } = .fault 5 1 := by
  decide +kernel

/-- The machine with the home of its code as `h` (at the budget: 0 of 100 MB left, and 0 more may be borrowed). -/
def homed (h : Home) (s : State) : State := { s with homes := [(0, h)] }
def spent : Home := { Home.reset with budget := some 100000000, left := 0, borrowed := 10000000 }

/-- The second word of a pair lies on a page that is not mapped; the home of the first takes no read now; and a tile word of a
process whose type declares no tile unit. -/
theorem witness_Step_second : (fetchWord boot 0 bootProc 0x1FFFC).2 = .word 0 ∧ (fetchWord boot 0 bootProc 0x20000).2 = .fault 5 1 ∧
    fetched (homed spent (code 4 0xF8000001)) = .wait ∧ (fetchWord (code 4 0xF8000001) 0 bootProc bootProc.pc).2 = .word 0xF8000001 := by
  decide +kernel
theorem witness_Step_undeclared : (0xA0000000#32).extractLsb' 26 6 = 0x28 ∧ ({ bootProc with tile := false } : Proc).tile = false ∧
    fetched (code 4 0xA0000000) = .word 0xA0000000 := by decide +kernel
theorem witness_Step_bytes :
    (translate boot (placeOf 0) 1 true 0x10000 .exec).2 = .ok 0x10000 0x1002B ∧ leafPois 0x1002B = false ∧
    mget (((translate boot (placeOf 0) 1 true 0x10000 .exec).1).core (placeOf 0)).icache (0x10000 / 64) = none ∧
    (let s₁ := (translate boot (placeOf 0) 1 true 0x10000 .exec).1
     (s₁.readDone (0x10000 / 64 * 64) 64).bad 0x10000 = false ∧ readWaits s₁ 0 (0x10000 / 64 * 64) 64 = false ∧
     sealedFrom (s₁.readDone (0x10000 / 64 * 64) 64) 0x10000 (some 1) = false) ∧
    0x10000 % 4 = 0 := by decide +kernel
theorem witness_Step_readWaits :
    (let s₁ := (translate (homed { spent with left := 128 } boot) (placeOf 0) 1 true 0x10000 .exec).1
     mget (s₁.core 0).icache (0x10000 / 64) = none) ∧ readWaits (homed spent boot) 0 (0x10000 / 64 * 64) 64 = true := by decide +kernel
theorem witness_Step_interrupted : interrupted { boot.tick with cur := 0 } 0 bootProc = false ∧
    (let p : Proc := { bootProc with pstat := 0x01010011, tvec := 0x10000 }
     pick { boot with procs := [(0, p)] } = some (0, p) ∧ interrupted { boot.tick with procs := [(0, p)], cur := 0 } 0 p = true) := by
  decide +kernel

theorem witness_EveryStepAnswers : boot.agenda = [] := rfl

theorem inv_boot : Inv boot := ⟨by show Memory.wf boot.mem = true; decide +kernel, List.Pairwise.nil⟩
theorem witness_StepsKeepTheInvariant : Inv boot ∧ ∃ t, step boot = .next t := by
  refine ⟨inv_boot, ?_⟩
  have h : (match step boot with | .next _ => true | _ => false) = true := by decide +kernel
  revert h; cases step boot <;> simp

/-- Register `n` of each file empty, with the EPOL bits `e`. -/
def emptyG (n : Nat) (e : Word) : Proc := { bootProc with gFull := ~~~(1#32 <<< n), epol := e }
def emptyV (n : Nat) (e : Word) : Proc := { bootProc with vFull := ~~~(1#32 <<< n), epol := e }

/-- A process stalled on register `n`. -/
def stalledG (n : BitVec 5) : Proc := { emptyG n.toNat 0 with stall := some { kind := .reg (.g n), since := 0, deadline := none } }

/-- One register of 1, 30 and 31 empty and the others full, as the clauses with a = 1, b = 30, c = 31 ask; then a stall. -/
theorem witness_Registers : mget (world (emptyG 30 0) []).procs 0 = some (emptyG 30 0) ∧ (world (emptyG 30 0) []).cur = 0 ∧
    (emptyG 30 0).stall = none ∧ (emptyG 30 0).epol.getLsbD 30 = false ∧ (emptyV 30 (BitVec.allOnes 64)).epol.getLsbD 30 = true :=
  ⟨rfl, rfl, rfl, rfl, by decide⟩
theorem witness_Registers_empty : ([1#5, 30#5, 31#5].all fun n => [1#5, 30#5, 31#5].all fun m =>
    regFull boot 0 (emptyG n.toNat 0) (.g m) == (m != n) && regFull boot 0 (emptyV n.toNat 0) (.v m) == (m != n)) = true := by
  decide +kernel
theorem witness_Registers_stalled : (stalledG 30).stall.map (·.kind) = some (.reg (.g 30)) ∧
    regFull boot 0 (stalledG 30) (.g 30) = false := by decide +kernel

/-! ### Witnesses: the scalar instructions. Where a statement asks only that the instruction can issue, this is it. -/

theorem witness_IntegerRegister : Issuing boot bootProc := quiet_boot
theorem witness_Immediates : Issuing boot bootProc := quiet_boot
theorem witness_ShiftImmediate : Issuing boot bootProc ∧ (0#8 = 0 ∧ (0#26 = 0)) := ⟨quiet_boot, by decide⟩
theorem witness_Branches : Issuing boot bootProc := quiet_boot
theorem witness_CountedBranch : Issuing boot bootProc := quiet_boot
theorem witness_Jumps : Issuing boot bootProc := quiet_boot
theorem witness_RegisterJumps : Issuing boot bootProc ∧ bootProc.kind = .normal ∧ (bootProc.rg 31).extractLsb' 0 2 = 0 ∧
    Issuing (world (bootProc.wg 31 0x10003) []) (bootProc.wg 31 0x10003) ∧ ((bootProc.wg 31 0x10003).rg 31).extractLsb' 0 2 ≠ 0 :=
  ⟨quiet_boot, rfl, by decide, quiet_world rfl, by decide +kernel⟩
/-- A routine that serves process 1, or a handler, at its return point, and an access of it under way or none. -/
def serving (k : ProcKind) : Proc := { bootProc.wg 31 returnPoint with kind := k, serving := some (1, 1, 3) }
def servingState (k : ProcKind) (n : List Msg) : State := { world (serving k) [] with net := n }
def ownRead : Msg := { src := 0, dst := 7, own := some { p := 0, gen := 1, acq := false, rel := false }, body := .read 0 8 (.g 1 .d) 0 false false none }
theorem witness_RegisterJumps_end (k : ProcKind) (n : List Msg) (nd : Need) (h : nd = { srcs := [.g 31] }) :
    Issues (servingState k n) 0 (serving k) nd (servingState k n) (serving k) := by
  subst h
  exact quiet_plain (k := 0) (c := bootCore) rfl rfl rfl rfl rfl rfl rfl (by cases k <;> rfl) _ (fun h => by cases h) (fun h => by cases h) rfl rfl
theorem witness_RegisterJumps_serving (k : ProcKind) : ProcKind.deleg ≠ .normal ∧ ProcKind.inbox ≠ .normal ∧ (serving k).kind = k ∧
    (serving k).rg 31 = returnPoint ∧ (serving k).serving = some (1, 1, 3) ∧
    outstanding (servingState k []) 0 (serving k).gen (fun _ _ => true) = false ∧
    outstanding (servingState k [ownRead]) 0 (serving k).gen (fun _ _ => true) = true :=
  ⟨by decide, by decide, rfl, rfl, rfl, rfl, rfl⟩
theorem witness_RegisterFrame : Issuing boot bootProc := quiet_boot
theorem witness_VectorArithmetic : Issuing boot bootProc ∧ Ty.isInt .n64 = true ∧ 7 < 64 / Ty.bytes .n64 := ⟨quiet_boot, by decide⟩
theorem witness_VectorMasksMoves : Issuing boot bootProc := quiet_boot
theorem witness_VectorPermutes : Issuing boot bootProc := quiet_boot

/-! ### Witnesses: memory and synchronisation -/

/-- The machine with its page readable, writable and executable, and a process with addresses on it in g2 (and 0x40 in g3). -/
def page : State := { boot with mem := memPut boot.mem (bootTable 4 + 8) (leBytes 8 (bootCode + 0x2F)) }
def atPage : Proc := (bootProc.wg 2 0x10FF8).wg 3 0x10FC0
def pageState : State := { page with procs := [(0, atPage)] }

theorem maps_of {s : State} {p : Proc} {va : Word} {n : Nat} {a : Access} {ga : Nat} {leaf : Word} (h : va.toNat % n = 0)
    (ht : (translate s (placeOf 0) p.asid p.smode va a).2 = .ok ga leaf)
    (hf : feWaits (translate s (placeOf 0) p.asid p.smode va a).1 0 p.gen ga = false) :
    Maps s 0 p va n a (translate s (placeOf 0) p.asid p.smode va a).1 ga leaf := ⟨h, by rw [← ht], hf⟩

theorem quiet_page : Issuing pageState atPage := quiet_of rfl rfl rfl rfl rfl rfl

/-- A load, a store and an atomic of 8 bytes at the last word of the page, one of 64 bytes, and the code read. -/
theorem page_read : ∃ s' leaf, Maps pageState 0 atPage (atPage.rg 2) 8 .read s' 0x10FF8 leaf ∧ leafPois leaf = false :=
  ⟨_, 0x1002F, maps_of (by decide +kernel) (by decide +kernel) (by decide +kernel), by decide⟩
theorem page_write : ∃ s' leaf, Maps pageState 0 atPage (atPage.rg 2) 8 .write s' 0x10FF8 leaf ∧
    lineWaits s' 0 atPage.gen 0x10FF8 = false ∧ leafPois leaf = false :=
  ⟨_, 0x1002F, maps_of (by decide +kernel) (by decide +kernel) (by decide +kernel), by decide +kernel, by decide⟩
theorem page_block (a : Access) (h : a = .read ∨ a = .write) :
    ∃ s' leaf, Maps pageState 0 atPage (atPage.rg 3) 64 a s' 0x10FC0 leaf := by
  rcases h with rfl | rfl
  · exact ⟨_, 0x1002F, maps_of (by decide +kernel) (by decide +kernel) (by decide +kernel)⟩
  · exact ⟨_, 0x1002F, maps_of (by decide +kernel) (by decide +kernel) (by decide +kernel)⟩
theorem page_inDevice : InDevice 0x10FF8 ∧ InDevice 0x10FC0 := by unfold InDevice; decide

theorem witness_Loads : Issuing pageState atPage ∧ (∃ s' leaf, Maps pageState 0 atPage (atPage.rg 2) 8 .read s' 0x10FF8 leaf) ∧
    (0xFFFB#16).extractLsb' 0 3 = LdSize.d.code := ⟨quiet_page, page_read.imp fun _ h => h.imp fun _ h => h.1, by decide⟩
theorem witness_Stores : Issuing pageState atPage ∧ (∃ s' leaf, Maps pageState 0 atPage (atPage.rg 2) 8 .write s' 0x10FF8 leaf) ∧
    (0xFFFB#16).extractLsb' 0 3 = StSize.d.code := ⟨quiet_page, page_write.imp fun _ h => h.imp fun _ h => h.1, by decide⟩
theorem witness_MisalignedAccess : Issuing boot bootProc ∧ ¬ 2 ∣ (bootProc.rg 1 + (1#13).signExtend 64 * BitVec.ofNat 64 2 + 1).toNat ∧
    Issuing (world (bootProc.wg 2 0x10FFF) []) (bootProc.wg 2 0x10FFF) ∧ ¬ 8 ∣ ((bootProc.wg 2 0x10FFF).rg 2).toNat :=
  ⟨quiet_boot, by decide +kernel, quiet_world rfl, by decide +kernel⟩
theorem witness_SynchronisedAccesses : Issuing pageState atPage ∧
    (∃ s' leaf, Maps pageState 0 atPage (atPage.rg 2) 8 .read s' 0x10FF8 leaf) ∧
    (∃ s' leaf, Maps pageState 0 atPage (atPage.rg 2) 8 .write s' 0x10FF8 leaf) ∧ InDevice 0x10FF8 :=
  ⟨quiet_page, page_read.imp fun _ h => h.imp fun _ h => h.1, page_write.imp fun _ h => h.imp fun _ h => h.1, page_inDevice.1⟩
theorem witness_ScratchpadAccesses : (Issuing boot bootProc ∧ bootProc.splog ≠ 0 ∧ spadWaits boot 0 bootProc.gen = false) ∧
    (Issuing (world { bootProc with splog := 0 } []) { bootProc with splog := 0 }) ∧
    (0xFFFB#16).extractLsb' 0 3 = LdSize.d.code ∧ (0xFFFB#16).extractLsb' 0 3 = StSize.d.code :=
  ⟨⟨quiet_boot, by decide, rfl⟩, quiet_world rfl, by decide, by decide⟩
theorem witness_AtomicOperations : Issuing pageState atPage ∧
    (∃ s' leaf, Maps pageState 0 atPage (atPage.rg 2) 8 .write s' 0x10FF8 leaf) ∧ InDevice 0x10FF8 :=
  ⟨quiet_page, page_write.imp fun _ h => h.imp fun _ h => h.1, page_inDevice.1⟩
theorem witness_Reductions : Issuing pageState atPage ∧ (∃ s' leaf, Maps pageState 0 atPage (atPage.rg 2) 8 .write s' 0x10FF8 leaf ∧
    lineWaits s' 0 atPage.gen 0x10FF8 = false ∧ leafPois leaf = false) ∧ InDevice 0x10FF8 := ⟨quiet_page, page_write, page_inDevice.1⟩
theorem witness_Synchronisation_fence (sc : Scope) (f : Option (Bool × Bool)) :
    Issues boot 0 bootProc { scope := sc, fence := f } boot bootProc :=
  quiet_at (k := 0) (c := boot.core 0) rfl rfl rfl rfl rfl rfl rfl rfl rfl rfl _ (fun _ => rfl) (fun h => by cases h) (.inr rfl)
/-- The core holds a reduction line that the scope covers. -/
def lined : State := cored bootProc { bootCore with redLines := [{ line := 0x43F, op := 0, w := false, els := [(7, 1)] }] } []
theorem witness_Synchronisation_lines : lined.cur = 0 ∧ mget lined.procs 0 = some bootProc ∧
    owedTrap bootProc { fence := some (true, true) } = none ∧ (4#4).getLsbD 2 = true ∧ bootProc.stall = none ∧ bootProc.held = false ∧
    linesHeld lined (placeOf 0) .shed = true ∧ linesHeld lined (placeOf 0) .device = true := by decide +kernel
theorem witness_Synchronisation : Issuing pageState atPage ∧
    (∃ s' leaf, Maps pageState 0 atPage (atPage.rg 3) 64 .read s' 0x10FC0 leaf) ∧
    (∃ s' leaf, Maps pageState 0 atPage (atPage.rg 3) 64 .write s' 0x10FC0 leaf) ∧ InDevice 0x10FC0 :=
  ⟨quiet_page, page_block _ (.inl rfl), page_block _ (.inr rfl), page_inDevice.2⟩
theorem witness_Synchronisation_monS : Issuing boot bootProc ∧ bootProc.splog ≠ 0 ∧ spadWaits boot 0 bootProc.gen = false ∧
    feWaits boot 0 bootProc.gen (spadGa 0 bootProc (scratchOff bootProc (bootProc.rg 0) 0 8)) = false ∧
    BitVec.ofNat 64 (leNat (spadBytes boot 0 bootProc (scratchOff bootProc (bootProc.rg 0) 0 8) 8)) = bootProc.rg 0 ∧
    (bootProc.wg 3 1).rg 3 ≠ bootProc.rg 0 ∧ Issuing (world (bootProc.wg 3 1) []) (bootProc.wg 3 1) :=
  ⟨quiet_boot, by decide, rfl, rfl, by decide +kernel, by decide +kernel, quiet_world rfl⟩
theorem witness_Delegation : Issuing pageState atPage ∧ (∃ s' leaf, Maps pageState 0 atPage (atPage.rg 2) 1 .read s' 0x10FF8 leaf) ∧
    0x10FF8 % 2 ^ 44 < 768 * 2 ^ 30 :=
  ⟨quiet_page, ⟨_, 0x1002F, maps_of (by decide +kernel) (by decide +kernel) (by decide +kernel)⟩, by decide⟩
/-- The page in tier 2, which no core serves; and with POIS = 1. -/
def leafed (leaf : Nat) : State := { pageState with mem := memPut boot.mem (bootTable 4 + 8) (leBytes 8 leaf) }
theorem witness_Delegation_trap : Issuing (leafed 0x1000000002F) atPage ∧
    (∃ s' leaf, Maps (leafed 0x1000000002F) 0 atPage (atPage.rg 2) 1 .read s' 0x10000000FF8 leaf) ∧ ¬ 0x10000000FF8 % 2 ^ 44 < 768 * 2 ^ 30 :=
  ⟨quiet_of rfl rfl rfl rfl rfl rfl, ⟨_, 0x1000000002F, maps_of (by decide +kernel) (by decide +kernel) (by decide +kernel)⟩, by decide⟩
theorem witness_Reductions_pois : Issuing (leafed 0x1006F) atPage ∧
    (∃ s' leaf, Maps (leafed 0x1006F) 0 atPage (atPage.rg 2) 8 .write s' 0x10FF8 leaf ∧ lineWaits s' 0 atPage.gen 0x10FF8 = false ∧
      leafPois leaf = true) :=
  ⟨quiet_of rfl rfl rfl rfl rfl rfl, ⟨_, 0x1006F, maps_of (by decide +kernel) (by decide +kernel) (by decide +kernel), by decide +kernel,
    by decide⟩⟩
theorem witness_MemoryFrame : MemWf pageState ∧ Issuing pageState atPage ∧ atPage.splog ≠ 0 ∧
    (∃ s' leaf, Maps pageState 0 atPage (atPage.rg 2) 8 .read s' 0x10FF8 leaf) ∧
    (∃ s' leaf, Maps pageState 0 atPage (atPage.rg 2) 8 .write s' 0x10FF8 leaf) :=
  ⟨by show Memory.wf pageState.mem = true; decide +kernel, quiet_page, by decide, page_read.imp fun _ h => h.imp fun _ h => h.1,
    page_write.imp fun _ h => h.imp fun _ h => h.1⟩

/-- The machine with one message under way. -/
def mail (b : Body) : State := { boot with net := [{ src := 5, dst := 0, own := some { p := 0, gen := 1, acq := false, rel := false }, body := b }] }

theorem witness_MemoryFrame_port : (mail (.write 0x10FF8 [1, 2] false)).arriving 0 =
      some { src := 5, dst := 0, own := some { p := 0, gen := 1, acq := false, rel := false }, body := .write 0x10FF8 [1, 2] false } ∧
    (∀ h, ((mail (.write 0x10FF8 [1, 2] false)).home h).parked = []) ∧
    (match exec (.portWrite 0) (mail (.write 0x10FF8 [1, 2] false)) with | .next _ => true | _ => false) = true ∧
    (match exec (.portHost 0) (mail (.host 0x10FF8 2 (some [1, 2]) none false false)) with | .next _ => true | _ => false) = true :=
  ⟨rfl, fun _ => rfl, by decide +kernel, by decide +kernel⟩

/-! ### Witnesses: processes and homes -/

/-- The space with one task-type entry, the process naming it in g2. -/
def typed : State := { boot with spaces := mset boot.spaces 1 { bootSpace with types := [0] }, procs := [(0, bootProc.wg 2 0)] }
theorem witness_Processes_spawn : Issuing typed (bootProc.wg 2 0) ∧ (1#5 ≠ 2#5) ∧ ((bootProc.wg 2 0).rg 2).toNat < 4096 ∧
    (typed.space 1).types[0]? = some 0 ∧ (bootProc.wg 2 0).smode = true ∧ ((bootProc.wg 2 0).joinAt 3).count ≠ BitVec.allOnes 32 ∧
    (typed.core (placeOf 0)).mailbox = [] ∧ (spawnOrder (coreOf (placeOf 0)) (placeSet 0)).head? = some 0 :=
  ⟨quiet_of rfl rfl rfl rfl rfl rfl, by decide, by decide +kernel, rfl, by decide, by decide, rfl, by decide +kernel⟩
/-- The entry asks for S mode in a U-mode process, the join counter is full, the space has no second type. -/
theorem witness_Processes_refused : ttFlag (2 ^ 155) 3 = true ∧ ({ bootProc with pstat := 0x10 } : Proc).smode = false ∧
    calm { bootProc with pstat := 0x10 } = true ∧ ({ bootProc with joins := Vector.replicate 4 { count := BitVec.allOnes 32, canc := 0, flt := 0 } } :
      Proc).joinAt 3 = { count := BitVec.allOnes 32, canc := 0, flt := 0 } ∧ (typed.space 1).types[1]? = none ∧ ttFlag 0 3 = false := by decide +kernel
/-- A type that may be stolen, of the cores of shed 0, and core 1 asking in the mailbox of core 0. -/
def stolenEntry : BitVec 512 := 2 ^ 152 + 2 ^ 144
def stolen : State := { cored (bootProc.wg 2 0) { bootCore with mailbox := [{ thief := 1, expires := 10000 }] } [] with
  spaces := mset boot.spaces 1 { bootSpace with types := [stolenEntry] } }
def stolenChild : Child :=
  { asid := 1, ttype := 0, g1 := 0, parent := handleOf 0 1, join := 3, autop := true, dropTrap := false, numctl := 4, epol := 0, tvec := 0
    order := spawnOrder 0 (placeSet stolenEntry), victim := none, entry := stolenEntry }
theorem witness_Processes_stolen : Issuing stolen (bootProc.wg 2 0) ∧ ttFlag stolenEntry 0 = true ∧ ttFlag stolenEntry 3 = false ∧
    stolenChild.order = 0 :: [1, 2, 3, 4, 5, 6, 7] ∧
    canTake (stolen.waitIn 0 (bootProc.wg 2 0) (.spawn 2 3) 1 0 none) 0 stolenChild = true ∧
    ((stolen.core 0).mailbox.find? fun x => (placeSet stolenEntry).contains (coreOf x.thief) && decide (stolen.timeb < x.expires)) =
      some { thief := 1, expires := 10000 } := ⟨quiet_core (c := { bootCore with mailbox := [{ thief := 1, expires := 10000 }] })
      rfl rfl rfl rfl rfl rfl rfl rfl rfl, by decide +kernel⟩
theorem witness_Processes_noType : Issuing (world (bootProc.wg 2 4096) []) (bootProc.wg 2 4096) ∧
    4096 ≤ ((bootProc.wg 2 4096).rg 2).toNat := ⟨quiet_world rfl, by decide +kernel⟩
/-- A second process of the space on the core, not yet started, named by g2 of the first. -/
def nextProc : Proc := { bootProc with run := .ready, started := false }
def parentProc : Proc := bootProc.wg 2 (handleOf 1 1)
def pair : State := { boot with procs := [(0, parentProc), (1, nextProc)] }
theorem witness_Processes_settled : ∀ d ∈ bootProc.doors, d.2.isSend = false → pushesOn boot d.2.chan = false := fun _ h => by cases h
theorem witness_Processes_exitR : Issuing pair parentProc ∧ pair.byHandle (parentProc.rg 2) = some (1, nextProc) ∧
    placeOf 1 = placeOf 0 ∧ nextProc.splog = parentProc.splog ∧ parentProc.splog ≠ 0 ∧ nextProc.started = false ∧
    ∀ d ∈ parentProc.doors, d.2.isSend = false → pushesOn pair d.2.chan = false :=
  ⟨quiet_of rfl rfl rfl rfl rfl rfl, by decide +kernel, by decide, by decide +kernel, by decide +kernel, rfl, fun _ h => by cases h⟩
theorem witness_Processes_exitR_not : Issuing boot bootProc ∧
    ¬ ∃ j q, boot.byHandle (bootProc.rg 2) = some (j, q) ∧ placeOf j = placeOf 0 ∧ j ≠ 0 ∧ q.splog = bootProc.splog ∧
      bootProc.splog ≠ 0 ∧ q.started = false := by
  refine ⟨quiet_boot, ?_⟩
  have h : boot.byHandle (bootProc.rg 2) = none := by decide +kernel
  rw [h]; rintro ⟨j, q, h, _⟩; cases h
/-- A process with one child in join counter 3. -/
def joining : Proc := { bootProc with joins := bootProc.joins.set 3 { count := 1, canc := 0, flt := 0 } }
theorem witness_Processes_jwait : Issuing (world joining []) joining ∧ (joining.joinAt 3).count ≠ 0 ∧ (joining.joinAt 0).count = 0 :=
  ⟨quiet_world rfl, by decide +kernel, by decide +kernel⟩

/-- Charging the home goes through, and `f` holds then. -/
def charged (s : State) (ga n : Nat) (f : State → Bool) : Bool :=
  match s.charge ga n with
  | some s₁ => f s₁
  | none => false
theorem witness_Homes : (let s := mail (.read 0x10FF8 8 (.g 2 .d) 0x10FF8 false false none);
      charged s 0x10FF8 8 fun s₁ => let r := (s₁.took 0).recall (0x10FF8 / 64)
        !r.bad 0x10FF8 && !sealedFrom r 0x10FF8 (some 1)) = true ∧
    (let s := mail (.write 0x10FF8 [1] false);
      charged s 0x10FF8 1 fun s₁ => let r := s₁.took 0
        !r.bad 0x10FF8 && !sealedFrom r 0x10FF8 (some 1)) = true := by
  decide +kernel
/-- A home that has spent its budget. -/
theorem witness_Homes_held : (let s := mail (.read 0x10FF8 8 (.g 2 .d) 0x10FF8 false false none);
      charged (s.setHome (homeOf 0x10FF8) { s.home (homeOf 0x10FF8) with budget := some 4194304, left := 0, borrowed := 4194304 })
        0x10FF8 8 fun _ => true) = false := by decide +kernel
theorem witness_Homes_budget : (boot.home 0).heldSince = none ∧
    (boot.home 0).ms < ({ boot with cycle := 1800000 }.timebOf (0 / 2048)) / 1000000 := ⟨rfl, by decide +kernel⟩

/-- An 8-byte access to the last word of the page, with a deadline and with retries left. -/
def asked (op : AtomOp) (retries : Nat) (deadline : Option Nat) : AtomReq :=
  { ga := 0x10FF8, va := 0x10FF8, op := op, own := { p := 0, gen := 1, acq := false, rel := false }, retries := retries
    deadline := deadline, dropTrap := false, core := 0, pois := false }
/-- The word is empty. -/
def emptied (b : Body) : State := { mail b with empties := [0x10FF8 / 8] }

theorem witness_PortAtomics_ready : (charged (mail (.atomic (asked (.lds 2 3) 16 none))) 0x10FF8 8 fun s =>
    (asked (.lds 2 3) 16 none).ready ((s.took 0).recall (0x10FF8 / 64))) = true := by decide +kernel
theorem witness_PortAtomics_refused : ([(16, none), (0, some 0)].all fun x =>
    charged (emptied (.atomic (asked (.lds 2 3) x.1 x.2))) 0x10FF8 8 fun s₁ =>
      let s := (s₁.took 0).recall (0x10FF8 / 64)
      !(asked (.lds 2 3) x.1 x.2).ready s && (pastDeadline s x.2 || x.1 != 0)) = true := by decide +kernel
theorem witness_PortAtomics_parked : (charged (emptied (.atomic (asked (.lds 2 3) 0 none))) 0x10FF8 8 fun s₁ =>
    let s := (s₁.took 0).recall (0x10FF8 / 64)
    !(asked (.lds 2 3) 0 none).ready s && !pastDeadline s none) = true := by decide +kernel
theorem witness_PortAtomics_retry : ((mail (.refused (asked (.lds 2 3) 1 none))).took 0).byOwn 0 1 = some bootProc ∧
    pastDeadline ((mail (.refused (asked (.lds 2 3) 1 none))).took 0) none = false := ⟨rfl, rfl⟩
def oneLine : RedLine := { line := 0x43F, op := 0, w := false, els := [(7, 1)] }
theorem witness_PortAtomics_combine : ((mail (.combine oneLine)).arriving 0).map (·.body) = some (.combine oneLine) ∧
    oneLine.els ≠ [] ∧ charged (mail (.combine oneLine)) (0x43F * 64) 64 (fun _ => true) = true := ⟨rfl, by decide, by decide +kernel⟩
theorem witness_AtomicPerformed : MemWf boot ∧ boot.empties.Pairwise (· < ·) ∧
    ([0, 9].all fun op => !(asked (.amo op false 2 1 0) 0 none).bad boot) = true ∧ boot.migratedTo 0x10FF8 = none :=
  ⟨inv_boot.1, inv_boot.2, by decide +kernel, rfl⟩

/-! ### Witnesses: channels -/

/-- A process that holds both ends of channel 1, at doors 1 and 61, and that channel. -/
def sendDoor : Door := { chan := 1, isSend := true, bindCap := true, marks := 0 }
def recvDoor : Door := { sendDoor with isSend := false }
def holding : Proc := { bootProc with doors := [(1, sendDoor), (61, recvDoor)] }
def chanOf (t : ChanType) (cap : Nat) : Chan :=
  newChan { rdoor := 61, typ := t, cap := cap, ety := none, rows := 0, rowb := 0 } 1 0 (.proc 0 1 1) (.proc 0 1 61)
def lane (t : ChanType) (cap : Nat) : State := world holding [(1, chanOf t cap)]
/-- The same with a message under way and another process in slot 0. -/
def letter (p : Proc) (x : Chan) (b : Body) : State := { mail b with procs := [(0, p)], chans := [(1, x)] }

theorem witness_Sending (t : ChanType) (cap : Nat) : Issuing (lane t cap) holding ∧ mget holding.doors 1 = some sendDoor ∧
    sendDoor.isSend = true ∧ mget (lane t cap).chans 1 = some (chanOf t cap) ∧ (chanOf t cap).typ = t ∧ (chanOf t cap).cap = cap ∧
    (chanOf t cap).sstate = .opened ∧ (chanOf t cap).rclosed = false := ⟨quiet_world rfl, rfl, rfl, rfl, rfl, rfl, rfl, rfl⟩
theorem witness_Sending_trap : Issuing (lane .word 0) holding ∧ (∀ e, mget holding.doors 61 = some e → e.isSend = false) ∧
    mget holding.doors 63 = none := ⟨quiet_world rfl, by intro e h; cases h; rfl, rfl⟩
theorem witness_Receiving : mget holding.doors 61 = some recvDoor ∧ recvDoor.isSend = false ∧
    61 ∉ attachedDoors (lane .word 0) 0 holding ∧ (1#5 ≠ 2#5) := ⟨rfl, rfl, by decide +kernel, by decide⟩

def alting : Proc := holding.wg 2 0x2000000000000002
theorem witness_DoorInstructions_alt : Issuing (world alting [(1, chanOf .word 0)]) alting ∧ alting.rg 2 ≠ 0 ∧ alting.rg 3 = 0 ∧
    (∀ i < 64, (alting.rg 2).getLsbD i = true → (mget alting.doors i).isSome = true) ∧
    attachedDoors (world alting [(1, chanOf .word 0)]) 0 alting = [] := ⟨quiet_world rfl, by decide +kernel⟩
theorem witness_DoorInstructions_close : Issuing (lane .word 0) holding ∧ holding.smode = true ∧ mget holding.doors 1 = some sendDoor ∧
    mget holding.doors 61 = some recvDoor ∧ mget (lane .word 0).chans 1 = some (chanOf .word 0) ∧ (chanOf .word 0).landing = false :=
  ⟨quiet_world rfl, rfl, rfl, rfl, rfl, rfl⟩
/-- A receive door of a window channel, closed and open, and a size of 2^6 bytes in g3. -/
def windowing : Proc := holding.wg 3 6
def opened : Chan := { chanOf .window 0 with win := .opened 0 64 }
theorem witness_DoorInstructions_window : Issuing (world windowing [(1, chanOf .window 0)]) windowing ∧ windowing.smode = true ∧
    mget windowing.doors 61 = some recvDoor ∧ mget (world windowing [(1, chanOf .window 0)]).chans 1 = some (chanOf .window 0) ∧
    (∀ u v, (chanOf .window 0).win ≠ .opened u v) ∧ 6 ≤ (windowing.rg 3).toNat ∧ (windowing.rg 3).toNat ≤ windowing.splog ∧
    Issuing (world windowing [(1, opened)]) windowing ∧ ∃ u v, opened.win = .opened u v :=
  ⟨quiet_world rfl, rfl, rfl, rfl, (by intro u v h; cases h), by decide +kernel, by decide +kernel, quiet_world rfl, 0, 64, rfl⟩

theorem witness_ChannelEnds_chnew : ([0x0006#64, 0x4046#64].all fun w => let p := bootProc.wg 2 w
    (mget p.doors 5).isNone && (mget p.doors ((p.rg 2).extractLsb' 0 6).toNat).isNone && ((p.rg 2).extractLsb' 0 6).toNat != 5 &&
    (chanShape w).isSome && decide (recordsAt (world p []) (placeOf 0) < 8192)) = true ∧
    chanShape 0x8006 = none ∧ calm (bootProc.wg 2 0x4046) = true := by decide +kernel
/-- The owner of both ends beside a process that takes one: its handle in g2, its door in g3. -/
def mover : Proc := (holding.wg 2 (handleOf 1 1)).wg 3 5
def moving : State := { pair with procs := [(0, mover), (1, nextProc)], chans := [(1, chanOf .word 0)] }
theorem witness_ChannelEnds_chbind : Issuing moving mover ∧ mover.smode = true ∧ mget mover.doors 1 = some sendDoor ∧
    mget moving.chans 1 = some (chanOf .word 0) ∧ isFaultChan moving 1 = false ∧ (chanOf .word 0).copying = false ∧
    (chanOf .word 0).moving = false ∧ quietOf moving 1 (chanOf .word 0) true = .free ∧
    (mover.rg 3).extractLsb' 6 2 = 0 ∧ (mover.rg 3).extractLsb' 10 6 = 0 ∧ (mover.rg 3).extractLsb' 17 47 = 0 ∧
    (match bindHolder moving 0 mover (chanOf .word 0) true (field (mover.rg 3) 8 2) (mover.rg 2) (field (mover.rg 3) 0 6) with
      | .ok h => h == .proc 1 1 5 | .error _ => false) = true :=
  ⟨quiet_of rfl rfl rfl rfl rfl rfl, rfl, rfl, rfl, by decide +kernel, rfl, rfl, by decide +kernel, by decide +kernel, by decide +kernel,
    by decide +kernel, by decide +kernel⟩
/-- A user process without the right to bind. -/
def userMover : Proc := { holding with pstat := 0x10, doors := [(1, { sendDoor with bindCap := false })] }
theorem witness_ChannelEnds_user : Issuing (world userMover []) userMover ∧ userMover.smode = false ∧
    (mget userMover.doors 1).map (·.bindCap) = some false := ⟨quiet_world rfl, by decide, rfl⟩
/-- The same request as a block of memory at 0x10FC0, named by g3 of `atPage`. -/
def blockProc : Proc := { atPage with doors := holding.doors }
def blockState : State := { moving with
  mem := memPut (memPut page.mem 0x10FC8 (leBytes 8 0x0501)) 0x10FD0 (leBytes 8 1), procs := [(0, blockProc)] }
/-- What reading the words of the block leaves, and the words. -/
def blockRead : State × Except (Option (Nat × Nat × Word)) (List Word) := blockState.issueWords 0 blockProc (blockProc.rg 3) 4
theorem witness_ChannelEnds_chbindD : Issuing blockState blockProc ∧ blockProc.smode = true ∧ (blockProc.rg 3).toNat % 8 = 0 ∧
    blockState.issueWords 0 blockProc (blockProc.rg 3) 4 = (blockRead.1, .ok [0, 0x0501, 1, 0]) ∧
    field (0x0501 : Word) 0 8 = 1 ∧ field (0x0501 : Word) 8 8 = 5 ∧ field (0x0501 : Word) 16 8 = 0 ∧ field (0x0501 : Word) 24 8 = 0 ∧
    field (0x0501 : Word) 32 32 = 0 ∧ mget blockProc.doors 1 = some sendDoor ∧
    mget blockRead.1.chans 1 = some (chanOf .word 0) ∧ quietOf blockRead.1 1 (chanOf .word 0) true = .free ∧
    (match bindHolder blockRead.1 0 blockProc (chanOf .word 0) true 0 1 5 with | .ok h => h == .proc 0 1 5 | .error _ => false) = true :=
  ⟨quiet_of rfl rfl rfl rfl rfl rfl, rfl, by decide +kernel, by
    have h : (match blockRead.2 with | .ok ws => decide (ws = [0, 0x0501, 1, 0]) | .error _ => false) = true := by decide +kernel
    have e : blockState.issueWords 0 blockProc (blockProc.rg 3) 4 = (blockRead.1, blockRead.2) := rfl
    rw [e]
    cases hr : blockRead.2 <;> simp_all, by decide +kernel⟩
def ownA : Own := { p := 0, gen := 1, acq := false, rel := false }
theorem witness_ChannelEnds_copy (b : Bool) : let s : State := { mail (.recordCopy 1 b (.proc 1 1 5) 1 true ownA) with
      procs := [(0, holding), (1, nextProc)], chans := [(1, chanOf .word 0)] }
    (s.arriving 0).map (·.body) = some (.recordCopy 1 b (.proc 1 1 5) 1 true ownA) ∧ mget s.chans 1 = some (chanOf .word 0) ∧
    (if b then (chanOf .word 0).send else (chanOf .word 0).recv) ≠ .gone ∧
    targetCode (s.took 0) (.proc 1 1 5) (chanOf .word 0) b = 0 ∧ quietOf (s.took 0) 1 (chanOf .word 0) b = .free ∧
    (chanOf .word 0).copying = false := by
  cases b <;> exact ⟨rfl, rfl, by decide, by decide +kernel, by decide +kernel, rfl⟩
/-- A process in a wait of a kind. -/
def waiting (k : WaitKind) : Proc :=
  { holding with wait := some { kind := k, status := 1, door := 1, since := 0, deadline := none, pc := 0x10000, ext := false, nan := false } }
theorem witness_ChannelEnds_ack : let s := letter (waiting (.bind 1)) (chanOf .word 0) (.announceAck 1 (.proc 1 1 5) ownA)
    (s.arriving 0).map (·.body) = some (.announceAck 1 (.proc 1 1 5) ownA) ∧
    ((s.took 0).dropEnd (.proc 1 1 5)).byOwn 0 1 = some (waiting (.bind 1)) ∧
    (waiting (.bind 1)).wait.map (·.kind) = some (.bind 1) ∧
    ((letter (waiting (.bind 1)) (chanOf .word 0) (.announce 1 (.proc 1 1 5) ownA)).arriving 0).map (·.body) =
      some (.announce 1 (.proc 1 1 5) ownA) := ⟨rfl, by decide +kernel, rfl, rfl⟩

/-- A region of one word in g3, send doors 2 and 3 toward E and S of core 0, which has no neighbour to N and W. -/
def haloing : Proc := { bootProc.wg 3 0x10100010008 with doors := [(2, sendDoor), (3, sendDoor)] }
/-- The machine with an inbox process of its space on core 0. -/
def inboxed : State := { boot with procs := [(0, bootProc), (1, { nextProc with kind := .inbox })] }
theorem witness_MessagesAndTiles : Issuing inboxed bootProc ∧
    field (bootProc.rg 2) 42 22 / 1024 * 1024 + field (bootProc.rg 2) 42 10 = 0 ∧ inService inboxed 0 0 0 = true ∧
    (reserved inboxed 0 bootProc.asid .inbox).isSome = true ∧ reachable inboxed (keyDev 0) (devOf 0) bootProc.asid = true ∧
    (Issuing (lane .tile 0) holding ∧ holding.splog ≠ 0 ∧ spadWaits (lane .tile 0) 0 holding.gen = false ∧ (chanOf .tile 1).typ = .tile) ∧
    (Issuing (world haloing []) haloing ∧ spadWaits (world haloing []) 0 haloing.gen = false ∧ (haloShape (haloing.rg 3)).isSome = true ∧
      ((List.range 4).all fun i => match mget haloing.doors (1 + i) with | none => atEdge (coreOf (placeOf 0)) i | some e => e.isSend) =
        true) :=
  ⟨quiet_of rfl rfl rfl rfl rfl rfl, by decide +kernel, by decide +kernel, by decide +kernel, by decide +kernel,
    ⟨quiet_world rfl, by decide, rfl, rfl⟩, quiet_world rfl, rfl, by decide +kernel, by decide +kernel⟩

def anItem : Item := { words := [1], nan1 := false, seq := 0 }
def aRecv : RecvOp := { p := 0, gen := 1, file := .g, dst := 2, status := 1, door := 61, tile := none }
theorem witness_Records : ([Body.offer 1 (.item anItem), .item 1 anItem, .marker 1, .token 1, .close 1, .recv 1 aRecv].all fun b =>
    let s := letter holding (chanOf .word 4) b
    (s.arriving 0).map (·.body) == some b && mget s.chans 1 == some (chanOf .word 4)) = true ∧ 5 < 2 ^ 37 ∧
    (chanOf .word 4).recv = .proc 0 1 61 ∧ (chanOf .word 4).moving = false ∧ (chanOf .word 4).rclosed = false := by decide +kernel
def offered : Chan := { chanOf .word 0 with q := [.offer anItem 0 1] }
def awaited : Chan := { chanOf .word 0 with rwait := some aRecv }
theorem witness_Records_withdrawal : ((letter holding offered (.withdraw 1 0 1 true)).arriving 0).map (·.body) = some (.withdraw 1 0 1 true) ∧
    (offered.q ++ offered.held).any (fun e => e.isOfferOf 0 1) = true ∧
    ((letter holding awaited (.withdraw 1 0 1 false)).arriving 0).map (·.body) = some (.withdraw 1 0 1 false) ∧
    awaited.rwait = some aRecv ∧ aRecv.p = 0 ∧ aRecv.gen = 1 := ⟨rfl, rfl, rfl, rfl, rfl, rfl⟩
theorem witness_SendEnds_ack : let s := letter (waiting (.offer 1 none)) (chanOf .word 0) (.ack 1 0 1 0)
    (s.arriving 0).map (·.body) = some (.ack 1 0 1 0) ∧ (s.took 0).byOwn 0 1 = some (waiting (.offer 1 none)) ∧
    (waiting (.offer 1 none)).wait.map (·.kind) = some (.offer 1 none) := ⟨rfl, rfl, rfl⟩
theorem witness_SendEnds_go : let s := letter (waiting (.offer 1 (some 64))) (chanOf .tile 0) (.tileGo 1 0 1 aRecv)
    (s.arriving 0).map (·.body) = some (.tileGo 1 0 1 aRecv) ∧ (s.took 0).byOwn 0 1 = some (waiting (.offer 1 (some 64))) ∧
    mget s.chans 1 = some (chanOf .tile 0) ∧ (waiting (.offer 1 (some 64))).wait.map (·.kind) = some (.offer 1 (some 64)) :=
  ⟨rfl, rfl, rfl, rfl⟩
def aPush : Push := { chan := 1, off := 0, bytes := [1], need := 8, stamp := none, halo := none, node := none, waiter := none }
theorem witness_SendEnds_rest : ([Body.slotToken 1, .tileLanded 1 0 1 none anItem, .winPush aPush].all fun b =>
    ((letter holding (chanOf .tile 1) b).arriving 0).map (·.body) == some b) = true := by decide +kernel

/-! ### Witnesses: vector memory, the tile unit, rings, nodes, chains and the yard -/

theorem pages_ok {r : State × Except (Option (Nat × Nat × Word)) (List (Nat × Word × Nat × Word))} (w : State → Nat → Bool)
    (h : (match r.2 with | .ok xs => xs.all fun x => !w r.1 x.2.2.1 | .error _ => false) = true) :
    ∃ s' xs, r = (s', .ok xs) ∧ ∀ x ∈ xs, w s' x.2.2.1 = false := by
  obtain ⟨s', e | xs⟩ := r
  · cases h
  · exact ⟨s', xs, rfl, by simpa using h⟩
theorem reach_ok {r : State × List (Nat × Word × Nat × Word) × Option (Option (Nat × Nat × Word))} (w : State → Nat → Bool)
    (e : Option (Option (Nat × Nat × Word))) (h : (decide (r.2.2 = e) && r.2.1.all fun x => !w r.1 x.2.2.1) = true) :
    ∃ s' xs, r = (s', xs, e) ∧ ∀ x ∈ xs, w s' x.2.2.1 = false := by
  obtain ⟨s', xs, e'⟩ := r
  rw [Bool.and_eq_true] at h
  have h₁ : e' = e := of_decide_eq_true h.1
  exact ⟨s', xs, by rw [h₁], by simpa using h.2⟩

/-- The elements named by mask k1 = 1 and by mask k2 = 0, at g2; a second element 8 bytes on, on a page that is not mapped. -/
def masked : Proc := ((atPage.wk 1 1).wk 2 0).wg 3 0x1FFF8
def maskState : State := { page with procs := [(0, masked)] }
def oneEl : List (Nat × Word) := ((List.range 8).filter fun j => (masked.rk 1).getLsbD j).map fun j => (j, masked.rg 2 + BitVec.ofNat 64 (j * 8))
def twoEls : List (Nat × Word) := (List.range 2).map fun j => (j, masked.rg 3 + BitVec.ofNat 64 (j * 8))
theorem witness_VectorMemory : Issuing maskState masked ∧ elsTrap oneEl 8 = none ∧
    (∃ s' xs, pagesXlate maskState 0 masked oneEl .read (pagesOf oneEl) = (s', .ok xs) ∧ ∀ x ∈ xs, feWaits s' 0 masked.gen x.2.2.1 = false) ∧
    (masked.splog ≠ 0 ∧ spadWaits maskState 0 masked.gen = false ∧ calm { masked with splog := 0 } = true ∧
      ∀ ga, feWaits maskState 0 masked.gen ga = false) :=
  ⟨quiet_of rfl rfl rfl rfl rfl rfl, by decide +kernel, pages_ok (fun s g => feWaits s 0 masked.gen g) (by decide +kernel),
    by decide +kernel, by decide +kernel, by decide +kernel, fun _ => rfl⟩
theorem witness_VectorMemory_store : masked.kind = .normal ∧ elsTrap twoEls 8 = none ∧
    (∃ s' xs, pagesReach maskState 0 masked oneEl (pagesOf oneEl) = (s', xs, none) ∧ ∀ x ∈ xs, feWaits s' 0 masked.gen x.2.2.1 = false) ∧
    ∃ s' xs, pagesReach maskState 0 masked twoEls (pagesOf twoEls) = (s', xs, some (some (5, 1, 0x20000))) ∧
      ∀ x ∈ xs, feWaits s' 0 masked.gen x.2.2.1 = false :=
  ⟨rfl, by decide +kernel, reach_ok (fun s g => feWaits s 0 masked.gen g) _ (by decide +kernel),
    reach_ok (fun s g => feWaits s 0 masked.gen g) _ (by decide +kernel)⟩
theorem witness_VectorMemory_none : elsTrap [] 8 = none ∧ pagesXlate maskState 0 masked [] .read (pagesOf []) = (maskState, .ok []) :=
  ⟨rfl, rfl⟩

/-- A process that waits for a tile unit no one owns. -/
def tileWaiter : Proc := { bootProc with stall := some { kind := .tclaim, since := 0, deadline := none } }
theorem witness_Tiles : Issuing boot bootProc ∧ bootProc.splog ≠ 0 ∧ spadWaits boot 0 bootProc.gen = false ∧
    ((cored tileWaiter { bootCore with tileOwner := none } []).core 0).tileOwner = none ∧
    tileClaimant (cored tileWaiter { bootCore with tileOwner := none } []) 0 = some (0, tileWaiter) :=
  ⟨quiet_boot, by decide, rfl, rfl, by decide +kernel⟩
/-- Core 1 at (1, 0) and its partner core 2 at (0, 1) of the square of side 2 at the origin, the partner waiting or not there. -/
def swapper : Proc := { bootProc with swapsq := 0x80000000 }
def partner : Proc := { swapper with stall := some { kind := .tswap 3 9, since := 0, deadline := none } }
def square (two : Option Nat) : State :=
  { boot with procs := [(4096, swapper), (8192, partner)]
              cores := [(1, { bootCore with tileOwner := some 4096 }), (2, { bootCore with tileOwner := two })], cur := 4096 }
theorem witness_Tiles_swap (two : Option Nat) (nd : Need) : Issues (square two) 4096 swapper nd (square two) swapper :=
  quiet_at (k := 4096) (p := swapper) (c := { bootCore with tileOwner := some 4096 }) rfl rfl rfl rfl rfl rfl rfl rfl rfl rfl nd
    (fun _ => rfl) (fun _ => rfl) (.inr rfl)
theorem witness_Tiles_square : swapper.swapsq.getLsbD 31 = true ∧ field swapper.swapsq 8 5 + 2 ^ (field swapper.swapsq 0 2 + 1) ≤ 24 ∧
    field swapper.swapsq 16 5 + 2 ^ (field swapper.swapsq 0 2 + 1) ≤ 32 ∧ coreOf (placeOf 4096) < 768 ∧
    coreX (coreOf (placeOf 4096)) = 1 ∧ coreY (coreOf (placeOf 4096)) = 0 ∧ coreAt 0 1 = 2 ∧
    ((square (some 8192)).core 2).tileOwner = some 8192 ∧ (square (some 8192)).live 8192 = some partner ∧
    partner.swapsq = swapper.swapsq ∧ ((square none).core 2).tileOwner = none := by decide +kernel
theorem witness_Tiles_here : Issuing (world swapper []) swapper ∧ coreX 0 = 0 ∧ coreY 0 = 0 ∧ coreAt 0 0 = 0 ∧
    bootProc.swapsq.getLsbD 31 = false := ⟨quiet_world rfl, by decide +kernel⟩

/-- A ring of the process in slot 1 with one entry reserved, and a full one; g2 names it, g3 its entry 0. -/
def aRing : Ring :=
  { owner := 0, ogen := 1, asid := 1, base := 0, logcap := 1, head := 0, ptail := 0, rtail := 1, map := 0, poisoned := 0
    taken := false, waiters := [] }
def ringProc : Proc := bootProc.wg 2 8
def ringed (r : Option Ring) : Core := { bootCore with rings := bootCore.rings.set 1 r }
theorem witness_RingsAndMatrix : ∀ r, Issuing (cored ringProc (ringed r) []) ringProc := fun _ => quiet_cored rfl rfl rfl rfl
theorem witness_RingsAndMatrix_at :
    ringAt (cored ringProc (ringed (some aRing)) []) 0 ringProc (ringProc.rg 2) = .inr (0, 1, aRing) ∧
    aRing.isFull = false ∧ aRing.pending ((ringProc.rg 3).setWidth 16) = true ∧ aRing.owner = 0 ∧ aRing.ogen = ringProc.gen ∧
    ringAt (cored ringProc (ringed (some { aRing with rtail := 2 })) []) 0 ringProc (ringProc.rg 2) = .inr (0, 1, { aRing with rtail := 2 }) ∧
    ({ aRing with rtail := 2 } : Ring).isFull = true ∧ ({ aRing with rtail := 0 } : Ring).pending ((ringProc.rg 3).setWidth 16) = false ∧
    ringAt (cored ringProc (ringed none) []) 0 ringProc (ringProc.rg 2) = .inl 4 ∧
    (cored ringProc (ringed none) []).ring (placeOf 0) 1 = none ∧
    (cored ringProc (ringed (some aRing)) []).ring (placeOf 0) 1 = some aRing := by decide +kernel
/-- Base 0 and capacity 2 for RCFG in g2; base 62 and capacity 2 end at the scratchpad's size when that is 2^19. -/
def ringMaker : Proc := { bootProc.wg 2 0x13E with splog := 19 }
theorem witness_RingsAndMatrix_rcfg : Issuing (cored ringMaker (ringed none) []) ringMaker ∧ field (ringMaker.rg 2) 6 2 = 0 ∧
    field (ringMaker.rg 2) 11 53 = 0 ∧ field (ringMaker.rg 2) 8 3 = 1 ∧
    (field (ringMaker.rg 2) 0 6 + 2 ^ field (ringMaker.rg 2) 8 3) * 8192 ≤ 2 ^ ringMaker.splog ∧ ringMaker.splog ≠ 0 ∧
    field (ringProc.rg 2) 8 3 = 0 := ⟨quiet_cored rfl rfl rfl rfl, by decide +kernel⟩
theorem witness_RingsAndMatrix_bounds : (31#64).toNat < 32 ∧ 32 ≤ (32#64).toNat ∧
    (cored bootProc (ringed (some { aRing with asid := 2 })) []).ring (placeOf 0 - coreOf (placeOf 0) % 8 + (8#64).toNat % 8)
      ((8#64).toNat / 8 % 4) = some { aRing with asid := 2 } ∧ (2 : Nat) ≠ bootProc.asid := by decide +kernel

/-- Command words in range: a CMU, a DRAIN to door 1, a COPY to door 1 and one into a ring, and the predecessor 0x0401 in g3. -/
def cmuWord : Word := 0x10020BB0
def drainWord : Word := 0x1B0
def copyWord : Word := 0x2000100000
def ringWord_ : Word := 0x40080000
def aNode (st : NodeState) : Node :=
  { gen := 1, live := true, owner := 0, ogen := 1, asid := 1, kind := .bred, st := st, detached := false, cmd := 0, preds := []
    status := 0, drop := false, dropTrap := false, numctl := 4, smode := true, steps := 0, stamp := none, chan := 1
    data := [], reset := false, waiters := [] }
theorem witness_EngineCommands : cmuOk cmuWord = true ∧ cmuOk 0 = false ∧ drainOk drainWord = true ∧ drainOk 1 = false ∧
    copyOk copyWord = true ∧ copyOk ringWord_ = true ∧ copyOk 0 = false ∧ field drainWord 8 6 = 1 ∧ field copyWord 37 6 = 1 ∧
    copyWord.getLsbD 19 = false ∧ ringWord_.getLsbD 19 = true ∧
    (let p := holding.wg 2 cmuWord
     spadWaits (world p []) 0 p.gen = false ∧ (predIds (p.rg 3)).find? (foreignNode (world p []) 0 p) = none ∧ freeNode (world p []) (placeOf 0) = some (0, 1) ∧
     mget p.doors 1 = some sendDoor ∧ sendDoor.isSend = true ∧
     (mget (world p [(1, chanOf .window 0)]).chans 1).all (·.typ == .window) = true) := by decide +kernel
theorem witness_EngineCommands_issue (w : Word) (h : w = cmuWord ∨ w = 0 ∨ w = drainWord ∨ w = copyWord) :
    Issuing (world (holding.wg 2 w) [(1, chanOf .window 0)]) (holding.wg 2 w) := by
  rcases h with rfl | rfl | rfl | rfl <;> exact quiet_world rfl
/-- A node of another process as predecessor, and a full node table. -/
def foreign : Proc := (bootProc.wg 2 cmuWord).wg 3 0x40
def nodeCore (l : Map Node) : Core := { bootCore with nodes := l }
theorem witness_EngineCommands_foreign : Issuing (cored foreign (nodeCore [(0, { aNode .waiting with ogen := 2 })]) []) foreign ∧
    (predIds (foreign.rg 3)).find? (foreignNode (cored foreign (nodeCore [(0, { aNode .waiting with ogen := 2 })]) []) 0 foreign) =
      some 0x40 := ⟨quiet_cored rfl rfl rfl rfl, by decide +kernel⟩
theorem witness_EngineCommands_full :
    freeNode (cored foreign (nodeCore ((List.range 64).map fun i => (i, aNode .waiting))) []) (placeOf 0) = none := by decide +kernel

/-- A process with the id of node 0 in g2, and the node in each state. -/
def nodeProc : Proc := bootProc.wg 2 0x40
theorem witness_NodeWaits : Issuing (cored nodeProc (nodeCore [(0, aNode .done)]) []) nodeProc ∧
    Issuing (cored nodeProc (nodeCore [(0, aNode .launched)]) []) nodeProc ∧
    (cored nodeProc (nodeCore [(0, aNode .done)]) []).nodeOf (placeOf 0) (field (nodeProc.rg 2) 0 16) = some (aNode .done) ∧
    (cored nodeProc (nodeCore [(0, aNode .launched)]) []).nodeOf (placeOf 0) (field (nodeProc.rg 2) 0 16) = some (aNode .launched) ∧
    (cored nodeProc bootCore []).nodeOf (placeOf 0) (field (nodeProc.rg 2) 0 16) = none ∧
    (aNode .done).owner = 0 ∧ (aNode .done).ogen = nodeProc.gen ∧ ({ aNode .done with ogen := 2 } : Node).ogen ≠ nodeProc.gen ∧
    pastDeadline boot (deadlineOf boot 0 nodeProc true) = false ∧
    pastDeadline boot (deadlineOf boot 0 { nodeProc with tmo := 0 } true) = true :=
  ⟨quiet_cored rfl rfl rfl rfl, quiet_cored rfl rfl rfl rfl, by decide +kernel⟩
theorem witness_NodeWaits_finish : let s : State := { mail (.nodeDone 0 0 1 0 false) with cores := [(0, nodeCore [(0, aNode .launched)])] }
    (s.arriving 0).map (·.body) = some (.nodeDone 0 0 1 0 false) ∧ (s.took 0).node 0 0 = some (aNode .launched) ∧
    (aNode .launched).live = true := ⟨rfl, rfl, rfl⟩
/-- A COPY into ring 1 of core 0, entry 0, and one into a window. -/
def copyNode (w : Word) : Node := { aNode .launched with kind := .copy, cmd := w }
def copyCore (w : Word) : Core := { nodeCore [(0, copyNode w)] with copyQ := [0], rings := bootCore.rings.set 1 (some aRing) }
theorem witness_NodeWaits_copy : ((cored bootProc (copyCore 0x10000080000) []).core 0).copyQ = [0] ∧
    (cored bootProc (copyCore 0x10000080000) []).node 0 0 = some (copyNode 0x10000080000) ∧ (copyNode copyWord).steps = 0 ∧
    (0x10000080000#64).getLsbD 19 = true ∧ copyWord.getLsbD 19 = false ∧ field (0x10000080000#64) 37 5 = 8 ∧ ringPlace 0 8 = 0 ∧
    (cored bootProc (copyCore 0x10000080000) []).ring 0 1 = some aRing ∧ aRing.asid = (copyNode 0).asid ∧ aRing.pending 0 = true := by
  decide +kernel

/-- A block of 2-bit mantissas and a word that is no block; with and without DROPTRAP. -/
def blockProc2 (drop : Bool) : Proc := { bootProc with pstat := if drop then 0x31 else 0x11, v := bootProc.v.set 1 (BitVec.allOnes 512) }
theorem witness_ChainAndBlocks : Issuing (world (blockProc2 false) []) (blockProc2 false) ∧
    Issuing (world (blockProc2 true) []) (blockProc2 true) ∧
    (blockProc2 false).dropTrap = false ∧ (blockProc2 true).dropTrap = true ∧ blockN ((blockProc2 true).rv 1) = none :=
  ⟨quiet_world rfl, quiet_world rfl, by decide +kernel⟩
/-- A descriptor of one step at scratchpad offset 0, and a parameter word outside the scratchpad. -/
def chainState : State := { boot with mem := memPut boot.mem 0x20000000018 [1] }
theorem witness_ChainAndBlocks_chain : Issuing chainState bootProc ∧ bootProc.splog ≠ 0 ∧ spadWaits chainState 0 bootProc.gen = false ∧ field (bootProc.rg 2) 19 45 = 0 ∧
    (let d := spadBytes chainState 0 bootProc (field (bootProc.rg 2) 0 19 / 64 * 64) 160
     1 ≤ bytesAt d 0x18 1 ∧ bytesAt d 0x18 1 ≤ 8 ∧ bytesZero d 0x19 7 = true ∧
      ∀ i < bytesAt d 0x18 1, bytesZero d (0x24 + 16 * i) 4 = true) ∧
    field ((bootProc.wg 2 0x80000).rg 2) 19 45 ≠ 0 := ⟨quiet_of rfl rfl rfl rfl rfl rfl, by decide +kernel⟩

/-- A yard whose domains are as `f` makes them, on the core of `boot`. -/
def yardCore (y : Yard) : Core := { bootCore with yard := y }
def ran : Yard := { Yard.empty with valid := true, doms := Vector.replicate 4 { YDom.reset with run := true } }
theorem quiet_yard (p : Proc) (y : Yard) (h : calm p = true) : Issuing (cored p (yardCore y) []) p := quiet_cored h rfl rfl rfl
theorem witness_YardInstructions : Issuing (cored bootProc (yardCore Yard.empty) []) bootProc ∧
    Issuing (cored bootProc (yardCore ran) []) bootProc ∧ ((cored bootProc (yardCore ran) []).core (placeOf 0)).yardOwner = some 0 ∧
    ran.running = true ∧ ran.valid = true ∧ (ran.dom 3).run = true ∧ (ran.dom 0).mode ≠ 1 ∧ bootProc.splog ≠ 0 ∧ spadWaits (cored bootProc (yardCore ran) []) 0 bootProc.gen = false ∧
    (Yard.empty.dom 3).run = false ∧ (clockOf 0x100000 (Yard.empty.dom 3)).isSome = true ∧ (clockOf 0x100001 (Yard.empty.dom 3)) = none ∧
    (Yard.empty.put boot bootProc 0x200 5).isSome = true ∧ Yard.empty.put boot bootProc 0x0F00 5 = none ∧
    ([3, 4, 15, 16].all fun x => calm (bootProc.wg 2 x)) = true :=
  ⟨quiet_yard _ _ rfl, quiet_yard _ _ rfl, by decide +kernel⟩
/-- Patch images of zeros, which load: the bytes of an empty scratchpad. -/
theorem leNat_zeros (n : Nat) : leNat (List.replicate n 0) = 0 := by
  induction n with
  | zero => rfl
  | succ n ih => rw [List.replicate_succ, leNat, ih]; rfl
theorem bytesNat_zeros (n o m : Nat) : bytesNat (List.replicate n 0) o m = 0 := by
  rw [bytesNat, List.drop_replicate, List.take_replicate, leNat_zeros]
theorem cellOf_zeros (n k : Nat) : cellOf (List.replicate n 0) k = cellOf (List.replicate 0 0) 0 := by
  simp only [cellOf, bytesInt, bytesNat_zeros]
theorem mapM_const (c : YCell) (l : List Nat) : l.mapM (fun _ => some c) = some (l.map fun _ => c) := by
  induction l with
  | nil => rfl
  | cons a l ih => rw [List.mapM_cons, ih]; rfl
theorem cell_zeros : ∃ c, (∀ n k, cellOf (List.replicate n 0) k = some c) ∧ c.w = 0 ∧ c.oen = false := by
  have h : (cellOf (List.replicate 0 0) 0).any (fun c => c.w == 0 && !c.oen) = true := by decide +kernel
  obtain ⟨c, hc, h⟩ := (Option.any_eq_true _ _).1 h
  exact ⟨c, fun n k => (cellOf_zeros n k).trans hc, by simpa using h⟩
theorem patch_zeros (s : State) (p : Proc) (n : Nat) : ∃ cells pairs, patchOf s p (List.replicate n 0) = some (cells, pairs) := by
  obtain ⟨c, hc, h0⟩ := cell_zeros
  have hf : cellOf (List.replicate n 0) = fun _ => some c := funext (hc n)
  have hr : ∀ l : List Nat, readersOf (l.map fun _ => c) = [] := fun l => by simp [readersOf, h0.1]
  have hp : ∀ l : List Nat, crossPairs (l.map fun _ => c) = [] := fun l =>
    List.flatMap_eq_nil_iff.2 fun id _ => List.filterMap_eq_nil_iff.2 fun d _ => by rw [hr]; rfl
  unfold patchOf
  rw [hf]
  generalize List.range 256 = l
  generalize List.range 12 = r
  rw [mapM_const]
  refine ⟨l.map fun _ => c, [], ?_⟩
  simp only [hr, hp]
  rw [if_pos]
  simp [h0.2]
/-- The image at scratchpad offset 0, and a saved state at 0x4000 that is valid and names it. -/
def savedProc : Proc := bootProc.wg 2 0x4000
def savedState : State := { cored savedProc (yardCore Yard.empty) [] with mem := [(0x20000004898, 0x10)] }
theorem saved_zeros (p : Proc) (h : p.spBase = 0) (h' : p.splog = 16) (o n : Nat) (hn : o + n ≤ 0x4898) :
    spadBytes savedState 0 p o n = List.replicate n 0 := by
  unfold spadBytes
  rw [List.eq_replicate_iff]
  refine ⟨by simp, ?_⟩
  intro b hb
  obtain ⟨i, hi, rfl⟩ := List.mem_map.1 hb
  have : i < n := List.mem_range.1 hi
  have hg : spadGa 0 p (o + i) = 0x20000000000 + (o + i) := by
    simp [spadGa, scratchGa, h, h', placeOf, gaOf, devOf, coreOf]; omega
  rw [hg]
  show memGet [(0x20000004898, 0x10)] _ = 0
  unfold memGet
  rw [if_neg (by omega)]; rfl
theorem witness_YardInstructions_load : Issuing savedState savedProc ∧ savedProc.splog ≠ 0 ∧ spadWaits savedState 0 savedProc.gen = false ∧ Yard.empty.running = false ∧
    ((savedProc.rg 3).toNat / 64 * 64 % 2 ^ savedProc.splog = 0 ∧
      ∃ cells pairs, patchOf savedState savedProc (patchBytes savedState 0 savedProc 0) = some (cells, pairs)) :=
  ⟨quiet_core rfl rfl rfl rfl rfl rfl rfl rfl rfl, by decide, rfl, by decide +kernel, by decide +kernel, by
    rw [patchBytes, saved_zeros savedProc rfl rfl _ _ (by omega)]; exact patch_zeros _ _ _⟩
theorem witness_YardInstructions_rest : let z := yardFrom (spadBytes savedState 0 savedProc ((savedProc.rg 2).toNat / 64 * 64) 2304) blankCells []
    z.valid = true ∧ z.patch = 0 := by decide +kernel

/-- A running domain whose step is due, and one that is not. -/
theorem witness_YardByItself_step : ((cored bootProc (yardCore ran) []).core 0).yardOwner = some 0 ∧
    ran.turn 0 1000 0 = true ∧ Yard.empty.turn 0 1000 3 = false ∧ ran.turn 0 1000 3 = false := by decide +kernel
/-- Input 7 attached to receive door 61, with a word at its head. -/
def inputYard : Yard := { Yard.empty with attach := listSet Yard.empty.attach 7 0xBD }
theorem witness_YardByItself_input : let x : Chan := { chanOf .word 4 with q := [.item anItem] }
    let s := cored holding (yardCore inputYard) [(1, x)]
    (s.core 0).yardOwner = some 0 ∧ ((s.core 0).yard.attach.getD 7 0).getLsbD 7 = true ∧
    mget holding.doors (((s.core 0).yard.attach.getD 7 0).toNat % 64) = some recvDoor ∧ mget s.chans recvDoor.chan = some x ∧
    recvDoor.isSend = false ∧ recvDoor.marks = 0 ∧ x.moving = false ∧ x.q = .item anItem :: [] := by decide +kernel
/-- A process waiting for the yard, displaced or claiming. -/
def yardWaiter : Proc := { bootProc with stall := some { kind := .yclaim, since := 0, deadline := none } }
def lostCore (l : List Nat) : Core := { bootCore with yardOwner := none, displaced := l }
theorem witness_YardByItself_claim : ((cored yardWaiter (lostCore [0]) []).core 0).yardOwner = none ∧
    ((cored yardWaiter (lostCore [0]) []).core 0).displaced = [0] ∧
    ((cored yardWaiter (lostCore []) []).procsAt 0).filter (fun e => claimsYard e.2) = [(0, yardWaiter)] := by decide +kernel
theorem witness_YardByItself_other : Issuing (cored bootProc (lostCore []) []) bootProc ∧ Issuing (cored bootProc (lostCore [0]) []) bootProc ∧
    ((lostCore []).yardOwner ≠ some 0 ∧ (lostCore []).displaced.contains 0 = false ∧ (lostCore [0]).displaced.contains 0 = true) :=
  ⟨quiet_cored rfl rfl rfl rfl, quiet_cored rfl rfl rfl rfl, by decide +kernel⟩

/-! ### Witnesses: the system, traps and the scheduler -/

theorem witness_SystemRegisters : Issuing boot bootProc ∧ bootProc.smode = true := ⟨quiet_boot, rfl⟩
/-- A user process, one that asks a service, and one that waits at a user-mode trap handler. -/
def userProc : Proc := { bootProc with pstat := 0x10 }
def asker : Proc := bootProc.wg 1 0x0101
theorem witness_SystemInstructions_ecall : Issuing (world userProc []) userProc ∧ userProc.smode = false ∧
    Issuing (world asker []) asker ∧ asker.smode = true ∧ serviceCode (asker.rg 1).toNat = true :=
  ⟨quiet_world rfl, by decide, quiet_world rfl, rfl, by decide +kernel⟩
/-- Another process of the space has a read under way. -/
def busyState : State := { pair with net := [{ src := 0, dst := 7, own := some { p := 1, gen := 1, acq := false, rel := false, asid := 1 }, body := .marker 1 }] }
theorem witness_SystemInstructions_tlbinv : (∀ nd, Issues busyState 0 parentProc nd busyState parentProc) ∧
    ([none, some (parentProc.rg 2)].all fun va =>
      let s := boot.invalidate (keyDev 0) parentProc.asid va
      let t := busyState.invalidate (keyDev 0) parentProc.asid va
      s.net.all (fun m => !usesSpace s m (keyDev 0) parentProc.asid) && t.net.any (fun m => usesSpace t m (keyDev 0) parentProc.asid)) =
        true :=
  ⟨fun nd => quiet_at (k := 0) (c := bootCore) rfl rfl rfl rfl rfl rfl rfl rfl rfl rfl nd (fun _ => rfl) (fun _ => rfl) (.inr rfl), by decide +kernel⟩
theorem witness_SystemInstructions_cflush : (translate pageState (placeOf 0) 1 true (atPage.rg 2) .read).2 = .ok 0x10FF8 0x1002F ∧
    (match (translate boot (placeOf 0) 1 true (bootProc.rg 2) .read).2 with | .fault _ _ => true | _ => false) = true := by decide +kernel
theorem witness_SystemInstructions_wfe : (let p : Proc := { bootProc with pstat := 0x4000011 }
    calm p = true ∧ field p.pstat 24 3 ≠ 0) ∧ field bootProc.pstat 24 3 = 0 ∧
    boot.timebOf (keyDev 0) < bootProc.timecmp.toNat ∧ ({ bootProc with timecmp := 0 } : Proc).timecmp.toNat ≤ boot.timebOf (keyDev 0) := by decide +kernel
/-- PREEMPT of a service core, of no process, of the process itself, of another space, of a process that does not run and of one that does. -/
theorem witness_SystemInstructions_preempt :
    768 ≤ coreOf (placeOf (handleKey ((bootProc.wg 2 (handleOf (768 * 4096) 1)).rg 2))) ∧
    coreOf (placeOf (handleKey ((bootProc.wg 2 (handleOf (768 * 4096) 1)).rg 2))) < 772 ∧
    coreOf (placeOf (handleKey (bootProc.rg 2))) < 768 ∧ boot.byHandle (bootProc.rg 2) = none ∧
    (boot.byHandle ((bootProc.wg 2 1).rg 2)).map (·.1) = some 0 ∧
    pair.byHandle (parentProc.rg 2) = some (1, nextProc) ∧ nextProc.isRunning = false ∧ nextProc.asid = parentProc.asid ∧
    ({ nextProc with run := .running 1 } : Proc).isRunning = true ∧ ({ nextProc with asid := 2 } : Proc).asid ≠ parentProc.asid ∧
    calm parentProc = true ∧ calm (bootProc.wg 2 1) = true := by decide +kernel
/-- The timer event pending in user and in supervisor mode, and the yard's cause. -/
theorem witness_SystemInstructions_async : ([({ bootProc with pstat := 0x01010010, tvec := 0x10000 } : Proc), { bootProc with pstat := 0x01010011, tvec := 0x10000 },
    { bootProc with pstat := 0x00010011, yardTrap := some (true, 5) }].all fun p =>
      p.isRunning && p.wait.isNone && p.kind == .normal && (asyncCause boot 0 p).isSome) = true := by decide +kernel
theorem witness_ReturnFromException : Issuing boot bootProc ∧
    (let p : Proc := { userProc with tvec := 0x10000 }
     (world p []).live 0 = some p ∧ p.kind = .normal ∧ p.spilled = none ∧ p.smode = false ∧ p.tvec ≠ 0) :=
  ⟨quiet_boot, by decide +kernel⟩
/-- In the order of R397: S mode with EVMASK 0, S mode, U mode without a handler, with one, S mode with EVMASK set. -/
theorem witness_TrapEntry : ([bootProc, userProc, { userProc with tvec := 0x10000 }, { bootProc with pstat := 0x70011, tvec := 0x10000 }].all
    fun p => (world p []).live 0 == some p && p.kind == .normal && p.spilled.isNone) = true ∧ 255 < 256 ∧ 65535 < 65536 ∧
    bootProc.smode = true ∧ field bootProc.pstat 16 3 = 0 ∧ userProc.smode = false ∧ userProc.tvec = 0 ∧
    field (0x70011#64) 16 3 ≠ 0 := by decide +kernel
theorem witness_Privileged : mget (world userProc []).procs (world userProc []).cur = some userProc ∧ userProc.smode = false ∧
    (0x014#12 ∈ [0x010#12, 0x011, 0x012, 0x013, 0x014] ∧ 0x800 ≤ (0x800#12).toNat ∧ (0x7FF#12).toNat < 0x800) :=
  ⟨rfl, by decide, by decide⟩

/-- The machine at a cycle, with one process, and its core's ready queue 0. -/
def later (c : Nat) (p : Proc) (q : List Nat) : State :=
  { cored p { bootCore with ready := bootCore.ready.set 0 q } [] with cycle := c }
theorem witness_SchedulerSteps_timer : let p : Proc := { bootProc with timecmp := 0 }
    mget (later 0 p []).procs 0 = some p ∧ (later 0 p []).live 0 = some p ∧ timerLevel (later 0 p []) (keyDev 0) p = true ∧
    p.pstat.getLsbD 24 = false := by decide +kernel
def joiner : Proc := { waiting (.join 3) with
  wait := some { kind := .join 3, status := 1, door := 0, since := 0, deadline := some 0, pc := 0x10000, ext := false } }
theorem witness_SchedulerSteps_deadline : (later 0 joiner []).live 0 = some joiner ∧ joiner.wait.map (·.kind) = some (.join 3) ∧
    joiner.wait.bind (·.deadline) = some 0 ∧ 0 ≤ (((later 0 joiner []).expireParked 0 1).expireNodes 0 1).cycle ∧
    joiner.isRunning = true ∧ (0 : Nat) + 64 ≤ (later 64 joiner []).cycle := by decide +kernel
theorem witness_SchedulerSteps_spill : let p : Proc := { bootProc with run := .ready, spilled := some (1, 0) }
    ((later 0 p [0]).core 0).readyOrder.find? (isSpilled (later 0 p [0])) = some 0 ∧ contextsFull (later 0 p [0]) 0 = false := by
  decide +kernel
theorem witness_SchedulerSteps_raise : let p : Proc := { bootProc with run := .ready, prior := 0x10001 }
    p.eff < 11 ∧ p.eff < p.prioBase + ((later 115200 p []).timeb - p.readySince) / 64000 := by decide +kernel
theorem witness_SchedulerSteps_quantum : bootProc.isRunning = true ∧ bootProc.haltReq = 0 ∧
    bootProc.quantSince + field bootProc.qnt 0 32 ≤ (later 180000 bootProc []).timeb ∧
    ((later 180000 bootProc []).core (placeOf 0)).readyOrder = [] ∧
    (let q : Proc := { nextProc with prior := 0x40004 }
     let s : State := { later 180000 bootProc [1] with procs := [(0, bootProc), (1, q)] }
     1 ∈ (s.core (placeOf 0)).readyOrder ∧ mget s.procs 1 = some q ∧ q.resident = true ∧ bootProc.prioBase ≤ q.eff) ∧
    ({ bootProc with haltReq := 2 } : Proc).haltReq ≠ 0 := by decide +kernel
def blocked : Proc := waiting (.recv 1)
theorem witness_SchedulerSteps_probe : hardBlocked blocked = true ∧ blocked.reported = false ∧
    hardStart blocked + 100000 ≤ (later 180000 blocked []).timeb := by decide +kernel
theorem witness_SchedulerSteps_forward : ([({ origin := 1, path := [1], alt := false, toKey := 0 } : Probe),
    { origin := 1, path := List.replicate 64 1, alt := false, toKey := 0 }, { origin := 0, path := [0, 1], alt := false, toKey := 0 }].all fun r =>
      ((letter blocked (chanOf .word 0) (.probe r)).arriving 0).map (·.body) == some (.probe r) &&
      (if r.origin = 0 then r.path.all fun j => decide (0 ≤ j) else true)) = true := by decide +kernel
/-- The watchdog of the space on and its clock started long ago; every slot of the core taken. -/
def watched (p : Proc) (q : List Nat) : State :=
  { later 2000000000000 p q with
    spaces := mset boot.spaces 1 { bootSpace with wdog := 1 }
    cores := [(0, { bootCore with wdog := [(20, (0, 0))], ready := bootCore.ready.set 0 q, slots := Vector.replicate 8 (some 0) })] }
theorem witness_SchedulerSteps_watchdog : ([1, 2, 3].all fun i => wdogDue (watched bootProc []) 0 1 4 i && !wdogDue boot 0 1 4 i) = true := by
  decide +kernel
def queued : Proc := { nextProc with prior := 0x40004 }
def watchedPair : State := { watched bootProc [1] with procs := [(0, bootProc), (1, queued)] }
theorem witness_SchedulerSteps_watchdogT1 : let t := (watchedPair.wdogActed 0 1 4 1).countCore 0 16
    wdogDue watchedPair 0 1 4 1 = true ∧ (t.core 0).readyOrder.find? (ofQueue t 1 4) = some 1 ∧
    ((t.core 0).slots.toList.all (·.isSome)) = true ∧ lowestSlot t (t.core 0) = some (0, bootProc) ∧ bootProc.run = .running 0 := by
  decide +kernel
theorem witness_SchedulerSteps_watchdogT2 : let p : Proc := { bootProc with held := true }
    let t := ((watched p []).wdogActed 0 1 4 2).countCore 0 16
    (t.procsAt 0).filter (fun e => e.2.kind == .normal && e.2.asid == 1 && e.2.prioBase == 4 && (e.2.held || e.2.run == .ready)) =
      [(0, p)] := by decide +kernel

/-! ### Witnesses: tasks and calls -/

theorem some_of {α β : Type} {x : α × Option β} (h : x.2.isSome = true) : ∃ u y, x = (u, some y) :=
  ⟨x.1, x.2.get h, Prod.ext rfl (Option.some_get h).symm⟩
theorem none_of {α β : Type} {x : α × Option β} (h : x.2.isNone = true) : ∃ u, x = (u, none) :=
  ⟨x.1, Prod.ext rfl (Option.isNone_iff_eq_none.1 h)⟩

/-- A task of the space of `typed`, the machine with a message about it, and the same with the core fenced for the space. -/
def aChild : Child :=
  { asid := 1, ttype := 0, g1 := 0, parent := handleOf 0 1, join := 0, autop := true, dropTrap := false, numctl := 4, epol := 0, tvec := 0
    order := [], victim := none, entry := 0 }
def tasked (b : Body) : State := { mail b with spaces := typed.spaces }
def fencedOff (b : Body) : State := { tasked b with cores := [(0, { bootCore with fenced := [1] })] }
theorem witness_TasksAndCalls_child (b : Body)
    (h : b = .childCreate 0 aChild ownA ∨ b = .stealTask 0 aChild ownA) :
    ((tasked b).arriving 0).map (·.body) = some b ∧ ∃ u x, ((tasked b).took 0).create 0 aChild = (u, some x) := by
  rcases h with rfl | rfl <;> exact ⟨rfl, some_of (by decide +kernel)⟩
theorem witness_TasksAndCalls_noChild (b : Body)
    (h : b = .childCreate 0 aChild ownA ∨ b = .stealTask 0 aChild ownA ∨ b = .stealBack 0 aChild ownA) :
    ((fencedOff b).arriving 0).map (·.body) = some b ∧ ∃ u, ((fencedOff b).took 0).create 0 aChild = (u, none) := by
  rcases h with rfl | rfl | rfl <;> exact ⟨rfl, none_of (by decide +kernel)⟩
theorem witness_TasksAndCalls_end : let s : State := { mail (.childEnd (handleOf 0 1) 3 2) with procs := [(0, joining)] }
    (s.arriving 0).map (·.body) = some (.childEnd (handleOf 0 1) 3 2) ∧ (s.took 0).byHandle (handleOf 0 1) = some (0, joining) ∧
    joining.spilled = none ∧ joining.wait = none ∧ joining.joins[3]? = some { count := 1, canc := 0, flt := 0 } := by decide +kernel
/-- A core idle for 1 µs, its turn in the shed and in the die. -/
theorem witness_TasksAndCalls_steal : ([0, 7].all fun n =>
    let c : Core := { bootCore with stealTried := n }
    let s : State := later 1800 bootProc []
    (s.core 0).stealOut.isNone && c.idle && decide (c.idleSince.getD 0 + 1000 ≤ s.timeb) && decide (coreOf 0 < 768) &&
    (nextVictim (if n < 7 then shedRing 0 else dieRing 0) 0).isSome &&
    decide ((s.core (devOf 0 * 1024 + 8)).mailbox.length < 8)) = true := by decide +kernel
def aCall : Call := { words := [0x10000], numctl := 4, p := 0, gen := 1, reg := 2, asid := 1, prio := 4 }
theorem witness_TasksAndCalls_inbox : let s : State := { inboxed with net := (mail (.inbox 0 aCall)).net }
    (s.arriving 0).map (·.body) = some (.inbox 0 aCall) ∧ inService (s.took 0) (devOf 0) 0 (coreOf 0) = true ∧
    (reserved (s.took 0) 0 aCall.asid .inbox).isSome = true ∧ inboxLoad (s.took 0) 0 aCall.asid < 64 := by
  refine ⟨rfl, by decide +kernel, by decide +kernel, by decide +kernel⟩
/-- A reserved process of each kind, and a call waiting for it. -/
def reservedProc (k : ProcKind) : Proc := { bootProc with kind := k, run := .blocked }
def calledState (k : ProcKind) : State := { boot with
  procs := [(4095, reservedProc k)], cores := [(0, { bootCore with inbox := [(1, [aCall])], delegs := [(1, [aCall])] })] }
theorem witness_TasksAndCalls_dispatch : mget ((calledState .inbox).core 0).inbox 1 = some (aCall :: []) ∧
    reserved (calledState .inbox) 0 1 .inbox = some (4095, reservedProc .inbox) ∧ (reservedProc .inbox).serving = none ∧ (reservedProc .inbox).run ≠ .halted := by
  decide +kernel
theorem witness_TasksAndCalls_deleg : let s := mail (.deleg 0 aCall)
    (s.arriving 0).map (·.body) = some (.deleg 0 aCall) ∧ coreClosed (s.took 0) 0 aCall.asid = false ∧
    ((mget ((s.took 0).core 0).delegs aCall.asid).getD []).length < 64 := by decide +kernel
theorem witness_TasksAndCalls_routine : mget ((calledState .deleg).core 0).delegs 1 = some (aCall :: []) ∧
    reserved ((calledState .deleg).reserve 0 1 .deleg) 0 1 .deleg = some (4095, reservedProc .deleg) ∧
    (reservedProc .deleg).serving = none ∧ (reservedProc .deleg).run ≠ .halted := by decide +kernel

/-! ### Witnesses: the steps of the engines -/

/-- Shed 0 with a queue entry of core 0, its slot 0 given to the space; core 0 with a node and ring 1, which holds an entry. -/
def shedOf (q : List QEntry) (busy : Option (Nat × Nat)) : Shed :=
  { Shed.reset with
    queues := Shed.reset.queues.set 0 q, slots := Vector.replicate 8 { AccSlot.reset with tag := some 1 }, busy := busy }
def fullRing : Ring := { aRing with ptail := 1 }
def cmuCore (w : Word) (st : Nat) : Core := { nodeCore [(0, { copyNode w with kind := .cmu, steps := st })] with
  rings := bootCore.rings.set 1 (some fullRing) }
def shedState (q : List QEntry) (busy : Option (Nat × Nat)) (w : Word) : State :=
  { boot with cores := [(0, cmuCore w 0)], sheds := [(0, shedOf q busy)] }
/-- Two steps of rings 1 of core 0, both operands: 3 K-steps to go, or the last. -/
def cmuTwo : Word := 0x3110BB0 ||| 0x8000
theorem witness_EngineSteps_grant :
    ((shedState [.node 0] none 0x3108BB0).shed 0).busy = none ∧
    arbiter (shedState [.node 0] none 0x3108BB0) 0 = some (0, .kstep 0, 0) ∧
    arbiter (shedState [.mzero 0 1 2 0x301] none 0) 0 = some (0, .perform, 0) ∧
    arbiter (shedState [.node 1] none 0) 0 = some (0, .fails 0, 0) := by decide +kernel
theorem witness_EngineSteps_retire :
    let x : Node := { copyNode 0x3108BB0 with kind := .cmu }
    let y : Node := { x with cmd := 0x1108BB0 }
    ((shedState [.node 0] (some (0, 0)) x.cmd).shed 0).busy = some (0, 0) ∧
    (shedState [.node 0] (some (0, 0)) x.cmd).node (shedPlace 0 0) 0 = some x ∧ x.steps + 1 < field x.cmd 24 16 ∧
    (shedState [.node 0] (some (0, 0)) y.cmd).node (shedPlace 0 0) 0 = some y ∧ field y.cmd 24 16 ≤ y.steps + 1 := by decide +kernel
/-- A query of one FP32 element with the entry 0 in a graph of no nodes, whose descriptors and vector the node holds. -/
def searchBytes : List Byte :=
  leBytes 14 (1 * 2 ^ 96) ++ leBytes 18 (12 + 1 * 2 ^ 16 + 8 * 2 ^ 24 + 1 * 2 ^ 32 + 1 * 2 ^ 56) ++ List.replicate 96 0 ++
    leBytes 8 (1 * 2 ^ 32 + 12 * 2 ^ 48 + 1 * 2 ^ 56) ++ List.replicate 248 0 ++ leBytes 4 0
def searchNode : Node := { aNode .launched with kind := .search, data := searchBytes }
def aQuery : Query := { place := 0, node := 0, ngen := 1, shard := 0, whole := true }
def searchState : State := { boot with
  cores := [(0, nodeCore [(0, searchNode)])], bases := [(0, { Stack.reset with queries := [aQuery] })] }
theorem query_data : (queryData searchBytes).isSome = true := by decide +kernel
/-- How the search of a query stands at its next step. -/
def seeking (u : Query) : Seek :=
  match queryData searchNode.data with
  | none => Seek.start []
  | some d => u.run.getD (Seek.start (queryEntries d u.shard u.whole))
def searching (u : Query) : Bool :=
  match queryData searchNode.data with
  | none => false
  | some d =>
    let n := (NumMode.ofWord searchNode.numctl).nan1
    let v : SearchView := { pl := u.place, asid := searchNode.asid, smode := searchNode.smode, nan1 := n }
    match searchState.gathered (searchAgent 0) u.place searchNode.asid
        ((seeking u).next searchState v d (vectorEls d.ty n d.dim (searchNode.data.drop 384)).1 fun _ => true).1 with
    | .ok _ => true
    | .error _ => false
def endedQuery : Query := { aQuery with run := some { Seek.start [] with ending := some (0, 0) } }
theorem witness_EngineSteps_search : (searchState.base 0).out ≠ some 0 ∧ (searchState.base 0).queries = [aQuery] ∧
    searchState.node aQuery.place aQuery.node = some searchNode ∧ (queryData searchNode.data).isSome = true ∧
    (seeking aQuery).ending = none ∧ searching aQuery = true ∧ (seeking endedQuery).ending = some (0, 0) :=
  ⟨by decide, rfl, rfl, query_data, by decide +kernel, by decide +kernel, by decide +kernel⟩
def aReport : Report :=
  { place := 0, node := 0, ngen := 1, shard := 0, res := [], code := 0, forgets := 0, badIds := 1, visited := 0, faultId := 0, drop := false }
def reported (n : Nat) : State := { mail (.report aReport) with
  cores := [(0, nodeCore [(0, searchNode)])], merges := [(mergeKey 0 0, { left := n, reports := [] })] }
theorem witness_EngineSteps_report (n : Nat) : ((reported n).arriving 0).map (·.body) = some (.report aReport) ∧
    mget ((reported n).took 0).merges (mergeKey aReport.place aReport.node) = some { left := n, reports := [] } ∧
    ((reported n).took 0).node aReport.place aReport.node = some searchNode ∧ searchNode.gen = aReport.ngen ∧ 1 < 2 ∧ 1 ≤ 1 ∧
    (queryData searchNode.data).isSome = true := ⟨rfl, rfl, rfl, rfl, by decide, by decide, query_data⟩
/-- A BRED of two sources, the same line of the page. -/
def aJob : BredJob :=
  { place := 0, node := 0, ngen := 1, asid := 1, smode := true, nsrc := 2, ty := .fp32, count := 16, dest := 0x10FC0, flag := 0, fval := 0
    offs := [0, -1], chunk := 0, got := [], asked := false, writes := 0, drop := false }
def jobState (n : List Msg) : State := { page with bases := [(0, { Stack.reset with jobs := [aJob] })], net := n }
theorem witness_EngineSteps_chunk : ((jobState []).base 0).bredOut = none ∧ ((jobState []).base 0).jobs = aJob :: [] ∧ aJob.writes = 0 ∧
    aJob.asked = false ∧ aJob.chunk < aJob.chunks ∧ aJob.got.length < aJob.nsrc ∧
    (let j : BredJob := { aJob with got := [(0, List.replicate 64 0), (1, List.replicate 64 0)] }
     ([Access.read, .write].all fun a => match (xlateFor (jobState []) 0 1 true 0x10FC0 a).2 with
       | .ok ga _ => ga == 0x10FC0
       | .fault _ _ | .wait => false) = true ∧ j.nsrc ≤ j.got.length) :=
  ⟨rfl, rfl, rfl, rfl, by decide +kernel, by decide, by decide +kernel⟩
def engineMail (b : Body) : State := jobState [{ src := 5, dst := 0, own := none, body := b }]
theorem witness_EngineSteps_port :
    ([Body.eread 0x10FC0 64 false (.bred 0 0 0 1), .ewrite 0x10FC0 [1] false (.bred 0 0 0 1)].all fun b =>
      let s := engineMail b
      (s.arriving 0).map (·.body) == some b && charged s 0x10FC0 64 fun s₁ =>
        let r := (s₁.took 0).recall (0x10FC0 / 64)
        let w := ((r.putBytes 0x10FC0 [1]).fillWords 0x10FC0 1).wrote r 0x10FC0 1
        jobOf r 0 0 0 == some aJob && !r.bad 0x10FC0 && !sealedFrom r 0x10FC0 (some aJob.asid) && jobOf w 0 0 0 == some aJob) = true := by
  decide +kernel
def aPkt (l : List (Word × Word)) : ChainPkt :=
  { p := 0, gen := 1, reg := 2, asid := 1, smode := true, desc := 0, v := 0x10FC0, i := 0, n := 1, steps := (0, BitVec.allOnes 64) :: l }
theorem witness_EngineSteps_chain : ([[], [(0#64, 0#64)]].all fun l =>
      let s : State := { mail (.chain (aPkt l)) with mem := page.mem }
      let x := portXlate (s.took 0) 0 (portPlace 0) 1 true 0x10FC0 .read
      (s.arriving 0).map (·.body) == some (.chain (aPkt l)) && decide ((0x10FC0#64 + 0).toNat % 8 = 0) &&
      (match x.2 with | .ok ga leaf => ga == 0x10FC0 && !leafPois leaf | .fault _ _ | .wait => false) &&
      charged x.1 0x10FC0 8 fun t₂ =>
        let r := t₂.recall (0x10FC0 / 64)
        !r.bad 0x10FC0 && !sealedFrom r 0x10FC0 (some 1) &&
        (chainHome r (portPlace 0) { aPkt l with v := 0, i := 1, steps := l }).2.isSome) = true ∧
    InDevice 0x10FC0 :=
  ⟨by decide +kernel, page_inDevice.2⟩
theorem witness_EngineSteps_back : ((mail (.chainBack (aPkt []) 0 0 7)).arriving 0).map (·.body) = some (.chainBack (aPkt []) 0 0 7) ∧
    ((mail (.chainBack (aPkt []) 0 0 7)).took 0).byOwn 0 1 = some bootProc := ⟨rfl, rfl⟩
/-- A memory server at place 0 with a request at the head of a record, and one request of 8 bytes to the window at door 61. -/
def sentItem : Item := { anItem with sender := some (0, 1) }
def serverRec : Chan := { chanOf .message 4 with recv := .server 0, q := [.item sentItem] }
theorem witness_EngineSteps_server : let s : State := world holding [(1, serverRec)]
    firstRequest s 0 = some (1, serverRec) ∧ serverRec.q = .item sentItem :: [] ∧ (s.server 0).queue.length < 128 ∧
    sentItem.sender = some (0, 1) := ⟨by decide +kernel, rfl, by decide, rfl⟩
/-- The request at its start and with its stamp drawn, for one word or for sixteen. -/
def aRequest (v : Option Nat) (n : Nat) : ServerReq :=
  { p := 0, gen := 1, words := [1 + 61 * 256, 0x10F80, BitVec.ofNat 64 n, 0], stamp := v, chan := 1, asid := 1, smode := true }
def pushState (r : ServerReq) : State :=
  { letter holding { opened with win := .opened 0 256, send := .server 0 } (.serverPush 0) with
    mem := page.mem, servers := [(0, { queue := [r], turn := 0 })] }
theorem witness_EngineSteps_push : ([(none, 8), (some 1, 8), (some 1, 128)].all fun x =>
    let r := aRequest x.1 x.2
    let s := pushState r
    let t := s.took 0
    (s.arriving 0).map (·.body) == some (.serverPush 0) && (s.server 0).pick == some r && (t.byOwn r.p r.gen).isSome &&
    (match pushReq r.words with
     | none => false
     | some q => (pushWindow t 0 r.p q).isSome && q.len == x.2 &&
       (let y := portWords t 0 0 r.asid r.smode q.va (Min.min 8 (q.len / 8))
        match y.2 with
        | none => false
        | some g => g.fault.isNone && g.bytes.length == Min.min 64 x.2 &&
          (match y.1.gathered (serverAgent 0) 0 r.asid g with | .ok _ => true | .error _ => false)))) = true := by decide +kernel
/-- A page under migration to the page after it, at its last line and done. -/
def aMove (n : Nat) : Migration :=
  { new := 2, next := n, asid := 1, va := 0x10000, svc := { p := 0, gen := 1, args := [] } }
def moved (n : Nat) (b : List Msg) : State := { page with migrations := [(1, aMove n)], net := b }
theorem witness_EngineSteps_migrate : ([0, 1023].all fun n =>
      let s := moved n [{ src := 5, dst := 0, own := none, body := .migrate 1 }]
      (s.arriving 0).map (·.body) == some (.migrate 1) && mget s.migrations 1 == some (aMove n) &&
      !readWaits (s.took 0) (agentHome (homeOf (65536 + 64 * n))) (65536 + 64 * n) 64 &&
      charged s (2 * 65536 + 64 * n) 64 fun _ => true) = true := by decide +kernel
theorem witness_EngineSteps_switch : let t := (moved 1024 []).invalidate 0 1 (some 0x10000)
    mget (moved 1024 []).migrations 1 = some (aMove 1024) ∧ 1024 ≤ (aMove 1024).next ∧ spaceBusy t 0 1 = false ∧
    spaceEntry ({ t with migrations := mdel t.migrations 1 } : State) 0 1 0x10000 4 = some (bootTable 4 + 8) := by decide +kernel

/-! ### Witnesses: links, collective units and supervisors -/

/-- Port 0 of device 0 with its peer, port 3 of device 1, and what waits at one of them. -/
def entryOf (b : Body) (dst : Nat) (item : Bool) : LinkEntry :=
  { msg := { src := 5, dst := 7, own := none, body := b }, toKey := dst, item := item, tries := 0, sentAt := none, queuedAt := 0, id := 1 }
def linked (up : Bool) (lanes : Nat) (mine peers : List LinkEntry) : State :=
  { later 18000000 bootProc [] with
    links := [(0, { peer := some (1, 3), up := up, lanes := lanes, queue := mine }), (19, { peer := some (0, 0), up := true, lanes := 8, queue := peers })] }
/-- The same with an entry that port 0 keeps until its acknowledgement. -/
def keeping (e : LinkEntry) : State :=
  { linked true 8 [] [] with
    links := [(0, { peer := some (1, 3), up := true, lanes := 8, queue := [], replay := [e] }),
      (19, { peer := some (0, 0), up := true, lanes := 8, queue := [] })] }
/-- An entry for the device or for one behind it, its last flit or one before, and one of a sealed space. -/
theorem witness_LinkPorts_flit : ([(0, 1), (0, 2), (2, 1), (2, 2)].all fun x =>
      let e := { entryOf (.item 1 anItem) x.1 true with left := x.2 }
      let s := linked true 8 [] [e]
      (s.link 0).peer == some (1, 3) && (s.link 0).up && (s.link 19).up && (s.link 0).replay.isEmpty && nextEntry s 19 == some e) = true := by
  decide +kernel
def sealedLink : State := { linked true 8 [] [entryOf (.item 1 anItem) 0 true] with
  chans := [(1, { chanOf .word 4 with asid := 1 })], spaces := mset boot.spaces 1 { bootSpace with sealed := true } }
theorem witness_LinkPorts_sealed : nextEntry sealedLink 19 = some (entryOf (.item 1 anItem) 0 true) ∧
    isSealed sealedLink (entryOf (.item 1 anItem) 0 true).msg = true ∧ (entryOf (.item 1 anItem) 0 true).left ≤ 1 := by decide +kernel
theorem witness_LinkPorts_ack : ([false, true].all fun l =>
      let e := { entryOf (.item 1 anItem) 1 true with ackLost := l }
      ((keeping e).link 0).peer == some (1, 3) && ((keeping e).link 0).up && ((keeping e).link 19).up &&
      ((keeping e).link 0).replay == [e] && e.ackLost == l) = true := by decide +kernel
theorem witness_LinkPorts_lost : let e := entryOf (.offer 1 (.lost 0)) 0 false
    ((linked true 8 [] [e]).link 0).peer = some (1, 3) ∧ ((linked true 8 [] [e]).link 19).queue = [e] ∧
    onLinks (linked true 8 [] [e]) e.msg.src e.msg.dst (e.id - 1) = false ∧ ∃ c n, e.msg.body = .offer c (.lost n) :=
  ⟨rfl, rfl, by decide +kernel, 1, 0, rfl⟩
/-- An item sent once and sent 16 times, an acknowledgement, queued or kept; the path of an item gone for 10 ms. -/
theorem witness_LinkPorts_timeout : ([(true, 0), (true, 15), (false, 15)].all fun x =>
      let e := { entryOf (.item 1 anItem) 1 x.1 with tries := x.2 }
      ((linked true 8 [e] []).link 0).up && ((linked true 8 [e] []).link 0).replay.isEmpty && nextEntry (linked true 8 [e] []) 0 == some e &&
      decide (e.sentAt.getD e.queuedAt + 2000 ≤ (linked true 8 [e] []).timeb) &&
      ((keeping e).link 0).replay == [e] && decide (e.sentAt.getD e.queuedAt + 2000 ≤ (keeping e).timeb)) = true := by decide +kernel
theorem witness_LinkPorts_gone : let e := entryOf (.item 1 anItem) 1 true
    ((linked false 8 [e] []).link 0).queue = [e] ∧ e.item = true ∧ pathGone (linked false 8 [e] []) 0 e.toKey = true := by decide +kernel
theorem witness_LinkPorts_lanes : ([8, 6, 4].all fun a => ((linked true a [] []).link 0).lanes == a) = true ∧
    ((linked true 8 [] []).link 0).up = true ∧ ((linked false 8 [] []).link 0).up = false ∧
    ((linked false 8 [] []).link 0).peer = some (1, 3) ∧ inService (linked false 8 [] []) 0 5 0 = true := by decide +kernel
/-- A binding whose roles are channels 1, 2 and 3. -/
def aColl (fan : Bool) : Coll :=
  { asid := 1, fanout := fan, head := false, nout := 1, ety := .fp32, roles := [(0, 1), (1, 2), (2, 3)], stopped := false, discard := none }
def withItem : Chan := { chanOf .word 4 with q := [.item anItem] }
def collState (fan : Bool) : State := { world holding [(1, withItem), (2, withItem), (3, chanOf .word 4)] with colls := [(0, aColl fan)] }
theorem witness_Collectives_step (fan : Bool) : mget (collState fan).colls 0 = some (aColl fan) ∧ (aColl fan).stopped = false ∧
    (aColl fan).at_ (collState fan) 0 = some (1, withItem) ∧ (aColl fan).at_ (collState fan) 1 = some (2, withItem) ∧
    (aColl fan).at_ (collState fan) 2 = some (3, chanOf .word 4) ∧ (chanOf .word 4).credit ≠ 0 ∧ withItem.q = .item anItem :: [] ∧
    (aColl fan).fanout = fan ∧ (aColl fan).head = false ∧ (aColl fan).discard = none ∧ (aColl fan).nout = 1 := by
  cases fan <;> exact ⟨rfl, rfl, rfl, rfl, rfl, by decide, rfl, rfl, rfl, rfl, rfl⟩
theorem witness_Collectives_session : 0 < 1 ∧ ∀ y ∈ boot.sessions, ¬ (y.asid = 1 ∧ y.devA = 0 ∧ y.devB = 1) :=
  ⟨by decide, by intro y h; cases h⟩

/-- The request of the process of `boot` to its service core, in a state otherwise as `s`. -/
def service (l : List Word) : Svc := { p := 0, gen := 1, args := l }
def asking (s : State) (l : List Word) : State := { s with net := [{ src := 5, dst := 768, own := none, body := .svc (service l) }] }
theorem asks_of (s : State) (op : Word) (l : List Word) {p : Proc} (h : s.byOwn 0 1 = some p) :
    Asks (asking s (op :: l)) 0 op.toNat ((asking s (op :: l)).took 0) 768 (service (op :: l)) p := ⟨⟨5, none, rfl⟩, rfl, rfl, h⟩
theorem took_of (s : State) (l : List Word) (h : s.net = []) : (asking s l).took 0 = s := by
  cases s; simp only at h; subst h; rfl

/-- Every request below has the space of `typed`, the page of `page` readable and writable, granted memory, and a second process. -/
def ruled (q : Proc) : State := { page with
  spaces := mset boot.spaces 1 { bootSpace with types := [0], granted := [(0, 0, 2 ^ 26, 2 ^ 20)] }, procs := [(0, bootProc), (1, q)] }
theorem witness_SupervisorRequests_asks (q : Proc) (op : Word) (l : List Word) :
    Asks (asking (ruled q) (op :: l)) 0 op.toNat (ruled q) 768 (service (op :: l)) bootProc :=
  took_of (ruled q) (op :: l) rfl ▸ asks_of (ruled q) op l rfl
theorem witness_SupervisorRequests_places : spaceBusy (asking (ruled nextProc) [0x0101, 0x4000]) 0 1 = false ∧ 0x4000 % 8192 = 0 ∧
    0x4000 < 0x0C000000000 ∧ 767 < 768 ∧ 0x10000 % 65536 = 0 ∧ 4064 ≤ 4064 ∧ 4064 % 16 = 0 ∧
    (∀ e ∈ (ruled nextProc).procsAt 0, e.2.asid = bootProc.asid → e.2.spilled = none) ∧ 11 ≤ 11 ∧
    reserved (ruled nextProc) 0 1 .inbox = none ∧
    (reserved (ruled { nextProc with kind := .inbox }) 0 1 .inbox).isSome = true := by decide +kernel
theorem witness_SupervisorRequests_pool : mget ((ruled nextProc).core 0).unitPool 1 = none ∧ 0 < 2 ∧ 2 ≤ 4096 ∧
    ∃ u, (ruled nextProc).growPool 0 1 2 = some u :=
  ⟨by decide +kernel, by decide, by decide, Option.isSome_iff_exists.1 (by decide +kernel)⟩
theorem witness_SupervisorRequests_type : 0 < ((ruled nextProc).space 1).types.length ∧
    (let b := fetchBytes (ruled nextProc) 768 1 true 0x10FC0 64
     b.fault = none ∧ typeValid (BitVec.ofNat 512 (leNat b.bytes)) = true) := by decide +kernel
theorem witness_SupervisorRequests_unfence : let s : State := { ruled nextProc with cores := [(1, { Core.reset with fenced := [1] })] }
    (s.core 1).fenced.contains 1 = true ∧ s.procsAt 1 = [] := by decide +kernel
theorem witness_SupervisorRequests_named : (ruled nextProc).byHandle (handleOf 1 1) = some (1, nextProc) ∧ nextProc.asid = bootProc.asid ∧
    tied (ruled nextProc) 1 nextProc = false ∧ 3 < 768 ∧ 3 ≠ coreOf (placeOf 1) ∧ resumable nextProc = false ∧
    (ruled nextProc).live 1 = some nextProc ∧ (ruled { nextProc with run := .halted }).byHandle (handleOf 1 1) = some (1, { nextProc with run := .halted }) ∧
    resumable { nextProc with run := .halted } = true ∧ (ruled nextProc).byHandle (handleOf 1 2) = none := by decide +kernel
theorem witness_SupervisorRequests_migrate : ∃ e, let u := (ruled nextProc).firmWalked 768 1 0x10FC0
    walk (ruled nextProc) 768 1 0x10FC0 = .ok e ∧ e.bits = 16 ∧ 0x20000 % 65536 = 0 ∧ pageGranted u 0 1 0x20000 = true ∧
    mget u.migrations (gaOf 0 (e.pa 0x10FC0) / 65536) = none :=
  ⟨(match walk (ruled nextProc) 768 1 0x10FC0 with | .ok e => e | .fault _ _ _ => TlbEntry.mk 0 0 0 0), by decide +kernel⟩
theorem witness_SupervisorRequests_read : ∃ u x, (ruled nextProc).readCounter 0 0 = some (u, x) := ⟨_, _, rfl⟩
theorem witness_SupervisorRequests_collective : bindingKey 0 = some 0 ∧ 0 / 512 = 0 ∧ ∃ x, collConfig 1 0xC0 = some x ∧
    mget (ruled nextProc).colls 0 = none ∧ (let s : State := { ruled nextProc with colls := [(0, x)] }
    mget s.colls 0 = some x ∧ x.asid = bootProc.asid ∧ x.roles = []) := by
  refine ⟨by decide +kernel, rfl, { aColl false with roles := [] }, by decide +kernel, rfl, rfl, rfl, rfl⟩
theorem exactly_length (n : Nat) (l : List Byte) : (exactly n l).length = n := by
  simp [exactly]
theorem edPublic_length (k : List Byte) : (edPublic k).length = 32 := by rw [edPublic, edEncode, leBytes_length]
theorem edSign_length (k m : List Byte) : (edSign k m).length = 64 := by
  rw [edSign]
  simp only [edEncode, List.length_append, leBytes_length]
theorem report_length (s : State) (d : Nat) (a : Option Nat) (x y : List Byte) : (attestReport s d a x y).length = 512 := by
  have hf : ∀ n (f : Nat → List Byte) (k : Nat), (∀ i, (f i).length = k) → (((List.range n).map f).flatten).length = n * k := by
    intro n f k h
    rw [List.length_flatten, List.map_map, List.map_congr_left (g := fun _ => k) (fun i _ => by simp [h i])]
    simp
  have hm : ∀ i, (measurement s d (i + 2)).length = 32 := fun i => exactly_length 32 _
  have hl : ∀ i, (leBytes 2 (minSvn s d (i + 2))).length = 2 := fun i => leBytes_length 2 _
  unfold attestReport
  rw [List.length_append, edSign_length]
  simp only [List.length_append, exactly_length, leBytes_length, hf 6 _ 32 hm, hf 6 _ 2 hl, List.length_cons, List.length_nil,
    edPublic_length, endorsement, edSign_length]
  cases a <;> simp [exactly_length]
theorem parts_of : ∀ (f : Nat) (va : Word) (bs : List Byte), ∀ x ∈ wordParts va bs f, ∃ i < bs.length, x.1 = va + BitVec.ofNat 64 i
  | 0, _, _, x, h => by cases h
  | f + 1, va, bs, x, h => by
    unfold wordParts at h
    cases bs with
    | nil => cases h
    | cons b bs =>
      rcases List.mem_cons.1 h with rfl | h
      · exact ⟨0, Nat.succ_pos _, by simp⟩
      · obtain ⟨i, hi, e⟩ := parts_of f _ _ x h
        rw [List.length_drop] at hi
        refine ⟨8 - va.toNat % 8 + i, by omega, ?_⟩
        rw [e, BitVec.add_assoc, ← BitVec.ofNat_add]
theorem putRange_of {s : State} {pl a : Nat} {va : Word} {bs : List Byte}
    (h : ∀ i < bs.length, (match xlateAt s pl a true (va + BitVec.ofNat 64 i) .write with | .ok _ _ => true | .fault _ _ | .wait => false) = true) :
    ∃ u, s.putRange pl a va bs = (u, true) := by
  unfold State.putRange
  simp only
  rw [if_neg]
  · exact ⟨_, rfl⟩
  · intro hc
    obtain ⟨o, ho, hn⟩ := List.any_eq_true.1 hc
    obtain ⟨x, hx, rfl⟩ := List.mem_map.1 ho
    obtain ⟨i, hi, e⟩ := parts_of _ _ _ x hx
    have := h i hi
    rw [← e] at this
    revert this hn
    cases xlateAt s pl a true x.1 .write <;> simp
/-- The machine after an ATTEST has read its challenge, and the report fits the page. -/
def challenged : State := (ruled nextProc).firmFetched 768 1 (fetchBytes (ruled nextProc) 768 1 true 0x10FC0 32)
theorem page_bytes : ((List.range 512).all fun i => (match xlateAt challenged 768 1 true (0x10000 + BitVec.ofNat 64 i) .write with
    | .ok _ _ => true | .fault _ _ | .wait => false)) = true := by decide +kernel
theorem witness_SupervisorRequests_attest : (fetchBytes (ruled nextProc) 768 1 true 0x10FC0 32).fault = none ∧
    ∀ l, ∃ u, challenged.putRange 768 1 0x10000 (attestReport challenged 0 (some 1) l []) = (u, true) :=
  ⟨by decide +kernel, fun l => putRange_of fun i hi => List.all_eq_true.1 page_bytes i (List.mem_range.2 (by rw [report_length] at hi; exact hi))⟩

/-- A process halted for its move to core 3, whose pool has an area. -/
def moveReq : SupReq := { p := 0, gen := 1, target := some 3, edge := false, halted := true, stay := false }
def mover3 : Proc := { bootProc with run := .halted, sup := [moveReq] }
def moveState : State := { boot with procs := [(0, mover3)]
                                     cores := [(0, { bootCore with slots := Core.reset.slots }), (3, { Core.reset with unitPool := [(1, [0x40000])] })] }
theorem witness_SupervisorRequests_moveCopy : moveState.live 0 = some mover3 ∧
    mover3.sup.find? (fun r => r.halted && r.target.isSome) = some moveReq ∧ moveReq.gen ≠ 0 ∧ moveReq.target = some 3 ∧
    (moveState.core (placeOf 0)).redLines = [] ∧ tied moveState 0 mover3 = false ∧ drained moveState 0 mover3 moveReq = true ∧
    (moveState.moveTo mover3 ((nodesOf moveState 0 mover3.gen).map (·.1)) moveReq.stay [devOf (placeOf 0) * 1024 + 3]).2 =
      some (3, 0, 0, 0x40000, none) := by decide +kernel

/-! ### Witnesses: the host -/

/-- Device 0 on, with the words `r` in request window 0, and the state that serves them. -/
def onDevice (s : State) (d : Device) (r : List Word) : State :=
  { s with devices := [(0, { d with on := true })], windows := [(0, { Window.reset with req := r })] }
def servedWith (s : State) (d : Device) (r : List Word) : State :=
  { onDevice s d r with windows := [(0, { Window.reset with req := r, busy := true, tag := 5 })] }
theorem rings_of (s : State) (d : Device) (op : Nat) (r : List Word) (h : r.headD 0 = BitVec.ofNat 64 op) (ho : op < 65536) :
    Rings (onDevice s d r) 0 0 5 op (servedWith s d r) r := ⟨by decide, rfl, rfl, rfl, h, ho, rfl⟩
theorem witness_HostRequests (l : List Word) (op : Nat) (ho : op < 65536) :
    Rings (onDevice boot Device.reset (BitVec.ofNat 64 op :: l)) 0 0 5 op (servedWith boot Device.reset (BitVec.ofNat 64 op :: l))
      (BitVec.ofNat 64 op :: l) := rings_of _ _ _ _ rfl ho
theorem witness_HostRequests_endpoint : let w : Word := 0x1C03
    field w 24 40 = 0 ∧ 1 ≤ field w 12 4 ∧ field w 12 4 ≤ 12 ∧ field w 16 6 = 0 ∧ 0x1000 % 4096 = 0 ∧
    mget (servedWith boot Device.reset [2, w, 0x1000, 0]).hostEps (0 * 1024 + field w 0 10) = none ∧ field (0x300000#64 >>> 4) 16 6 = 3 := by
  decide +kernel
/-- A from-host endpoint of message kind takes the send end of a message channel. -/
def fromEp : HostEp := { toHost := false, isMsg := true, logs := 1, vec := 0, sc := 0, base := 0, chan := none, pend := [], acks := [] }
def bindState : State := { lane .message 4 with hostEps := [(0, fromEp)] }
theorem witness_HostRequests_bind (r : List Word) : ∃ h, (servedWith bindState Device.reset r).byHandle (handleOf 0 1) = some (0, holding) ∧
    1 < 64 ∧ ((servedWith bindState Device.reset r).space 1).sealed = false ∧ mget holding.doors 1 = some sendDoor ∧
    mget (servedWith bindState Device.reset r).chans 1 = some (chanOf .message 4) ∧
    bindHolder (servedWith bindState Device.reset r) (0 * 2 ^ 22) holding (chanOf .message 4) true 1 0 0 = .ok h ∧
    isFaultChan (servedWith bindState Device.reset r) 1 = false ∧
    quietOf (servedWith bindState Device.reset r) 1 (chanOf .message 4) true = .free :=
  ⟨.hostEp 0, rfl, by decide, rfl, rfl, rfl, rfl, rfl, rfl⟩
theorem witness_HostRequests_map : ∃ ga, spaceBusy (onDevice page Device.reset []) 0 1 = false ∧
    ((servedWith page Device.reset []).space 1).live = true ∧ ((servedWith page Device.reset []).space 1).sealed = false ∧ 2 ≤ 4 ∧ 4 ≤ 4 ∧
    spaceEntry (servedWith page Device.reset []) 0 1 0x10000 4 = some ga := ⟨bootTable 4 + 8, by decide +kernel⟩
theorem witness_HostRequests_attest : (0xFFFF = 0xFFFF) ∧ ((servedWith boot Device.reset []).space 1).live = true ∧
    ((servedWith boot Device.reset []).space 1).devices.contains 0 = true := ⟨rfl, rfl, rfl⟩
theorem witness_HostRequests_parts : carriesImage 7 = true ∧ instances 7 0 = some [0] ∧ instances 7 0xFFFF = some [0] ∧
    carriesImage 10 = true ∧ instances 10 0 = some [0] ∧ 7 ≠ 10 ∧ (∀ i ∈ [0], serviceFull (servedWith boot Device.reset []) 0 7 i true = false) ∧
    7 ≤ 7 ∧ 7 ≠ 0 ∧ 7 ≠ 5 ∧ 0 < kindCount 7 ∧ serviceFull (servedWith boot Device.reset []) 0 7 0 true = false ∧
    serviceFull (servedWith boot Device.reset []) 0 7 0 false = false := by decide +kernel
theorem witness_HostRequests_rest : (∃ u x, (servedWith boot Device.reset []).readCounter 0 0 = some (u, x)) ∧
    (mget (servedWith boot Device.reset []).spaces 1).isSome = true := ⟨⟨_, _, rfl⟩, rfl⟩
theorem witness_HostRequests_doorbell : let s : State := { onDevice boot Device.reset [0x10] with hostEps := [(1023, fromEp)] }
    (s.device 0).on = true ∧ field ((s.window 0).req.headD 0) 0 16 = 0x0010 ∧
    mget s.hostEps (0 * 1024 + (0xFFFF#16).toNat % 1024) = some fromEp ∧ fromEp.toHost = false ∧ fromEp.sc = 0 := by decide +kernel
theorem witness_HostRequests_access : ([0, 0x0BFFFFFFFFF, 0x10000000000, 2 ^ 41 + 8].all fun off =>
    let s := onDevice boot Device.reset []
    decide (off < 2 ^ 43) && (s.device 0).on && decide (off % 2 ^ 41 < 0x0C000000000 ∨ 0x10000000000 ≤ off % 2 ^ 41) &&
    s.net.isEmpty) = true ∧ ([0x0C000000000, 0x0FFFFFFFFFF].all fun off =>
      decide (0x0C000000000 ≤ off % 2 ^ 41 ∧ off % 2 ^ 41 < 0x10000000000)) = true := by decide +kernel
/-- A host access at the home of a word, its page in a sealed space or not. -/
def hosted (w : Option (List Byte)) (b : Bool) : State :=
  { mail (.host 0x10FF8 8 w none false false) with spaces := mset boot.spaces 1 { bootSpace with sealed := b, granted := [(0, 0, 2 ^ 26, 2 ^ 20)] } }
theorem witness_HostRequests_port : ([(none, false), (some [1], false), (none, true), (some [1], true)].all fun x =>
    let s := hosted x.1 x.2
    (s.arriving 0).map (·.body) == some (.host 0x10FF8 8 x.1 none false false) && decide (rangeOf (gaPa 0x10FF8) ≠ .host) &&
    charged s 0x10FF8 8 fun u => let v := u.took 0
      sealedPage v 0x10FF8 == x.2 && !(v.recall (0x10FF8 / 64)).bad 0x10FF8) = true := by decide +kernel
/-- A MAP and an END whose accesses are all performed, and those that still wait for one. -/
def drainState (n : List Msg) (va : Option Word) : State :=
  { boot with net := { src := 5, dst := 7, own := none, body := .drained (some 0) 1 va } :: n }
theorem witness_HostRequests_drained : ((drainState [] (some 0)).arriving 0).map (·.body) = some (.drained (some 0) 1 (some 0)) ∧
    spaceBusy (drainState [] (some 0)) 0 1 = false ∧ ((drainState [] none).arriving 0).map (·.body) = some (.drained (some 0) 1 none) ∧
    spaceLingers (drainState [] none) 1 = false ∧ spaceBusy (drainState [{ ownRead with own := some { ownA with asid := 1 } }] (some 0)) 0 1 = true := by
  decide +kernel
theorem witness_HostRequests_register : 7 < 8 ∧ 127 < 128 ∧ 18 ≤ 511 ∧ 511 < 512 ∧ 3 < 4 ∧ ((onDevice boot Device.reset []).device 0).on = true := by decide
theorem witness_HostRequests_power : (State.reset.device 0).on = false := rfl
theorem witness_HostRequests_heat : ((onDevice boot Device.reset []).device 0).on = true ∧
    mget ((onDevice boot Device.reset []).device 0).hot 3 = none ∧
    mget ((onDevice boot { Device.reset with hot := [(3, 0)] } []).device 0).hot 3 = some 0 := ⟨rfl, rfl, rfl⟩
/-- Host memory of zeros is no launch block: reason 2 at offset 0, and the launching device in word 4. -/
theorem witness_HostRequests_rejected : let l := launchBlock (servedWith boot Device.reset [1, 0]) 0 0
    firstBad (l.checks ++ imageChecks l 2) = some (2, 0) ∧ rejecter l 2 0 2 0 = 0 := by
  decide +kernel
theorem free_asid (r : List Word) : freeAsid (servedWith boot Device.reset r) = some 2 := by
  have h : freeAsid boot = some 2 := by decide +kernel
  exact h

/-- A launch block for device 0 at host address 0x1000, and at 0x2000 an image of four empty sections and nothing else. -/
def launchMem : List Host.Cell :=
  memPut (memPut (memPut (memPut (memPut (memPut (memPut [] (hostGa 0 0x1000) (leBytes 8 0x2000)) (hostGa 0 0x1008) (leBytes 4 256))
    (hostGa 0 0x100C) (leBytes 2 1)) (hostGa 0 0x2000) (leBytes 4 0x4E445548)) (hostGa 0 0x2004) (leBytes 2 1))
    (hostGa 0 0x2008) (leBytes 4 64)) (hostGa 0 0x200C) (leBytes 4 0)
def launchState : State := { servedWith boot Device.reset [1, 0x1000] with mem := launchMem }
def launchL : LaunchBlock := { image := leBytes 256 (0x4E445548 + 2 ^ 32 + 64 * 2 ^ 64), sealed := false, disp := [0, 0, 0]
                               params := List.replicate 16 0, devs := [0], assign := []
                               checks := [(true, 2, 0), (true, 1, 0), (true, 2, 0)] }
theorem launch_block : launchBlock launchState 0 0x1000 = launchL := by decide +kernel
theorem launch_ok : firstBad (launchL.checks ++ imageChecks launchL 2) = none ∧ unreachableDev launchState launchL 0 = none ∧
    grantSlices launchState launchL.devs = .ok [(0, 0)] := by
  have h : (match grantSlices launchState launchL.devs with | .ok l => decide (l = [(0, 0)]) | .error _ => false) = true := by decide +kernel
  refine ⟨by decide +kernel, by decide +kernel, ?_⟩
  cases hg : grantSlices launchState launchL.devs <;> simp_all
/-- A device without a route, and one with no memory to grant. -/
theorem witness_HostRequests_noDevice : unreachableDev launchState { launchL with devs := [0, 5] } 0 = some 5 ∧
    (match grantSlices { launchState with spaces := [(9, { bootSpace with granted := (List.range 16).map fun j => (0, j * 2 ^ 26, 0, 0) })] }
      launchL.devs with | .ok _ => false | .error d => d == 0) = true := by decide +kernel

/-- Room for `n` areas of a unit save pool in the memory granted to a space at each core of a list. -/
def poolRoom (s : State) (asid n : Nat) (l : List Nat) : Prop :=
  (s.space asid).spare = [] ∧ ∀ c ∈ l, ∃ g ∈ (s.space asid).granted, g.1 = 0 ∧ rangeOf g.2.1 = .hbm c ∧ g.2.2.2 + n * 0x3000 ≤ g.2.1 + g.2.2.1

theorem space_setSpace (s : State) (a : Nat) (x : Space) : (s.setSpace a x).space a = x := by
  unfold State.setSpace State.space; simp only [mget_mset_self, Option.getD_some]

theorem grant_of {s : State} {c asid n : Nat} {l : List Nat} (hc : c < 768) (hl : c ∉ l) (h0 : poolRoom s asid (n + 1) [c])
    (h : poolRoom s asid 8 l) :
    ∃ u ga, s.grantBytes c asid 0x3000 = some (u, ga) ∧ poolRoom u asid n [c] ∧ poolRoom u asid 8 l := by
  obtain ⟨hsp, h0⟩ := h0
  obtain ⟨g, hg, g1, g2, g3⟩ := h0 c (List.mem_singleton.2 rfl)
  have hlow : g.2.2.2 + n * 12288 ≤ g.2.1 + g.2.2.1 :=
    (Nat.add_le_add_left (Nat.mul_le_mul_right _ (Nat.le_succ n)) _).trans g3
  have hd : devOf c = 0 ∧ coreOf c = c := by unfold devOf coreOf; omega
  unfold State.grantBytes
  have hN : grantSize 0x3000 = 12288 := by decide
  simp only [hd, hN, hsp, List.find?_nil]
  cases hf : (s.space asid).granted.find? (fun g => g.1 == 0 && rangeOf g.2.1 == .hbm c && decide (g.2.2.2 + 12288 ≤ g.2.1 + g.2.2.1)) with
  | none =>
    have := List.find?_eq_none.1 hf g hg
    simp [g1, g2] at this
    omega
  | some f =>
    have p := List.find?_some hf
    simp at p
    refine ⟨_, _, rfl, ⟨by rw [space_setSpace], ?_⟩, ⟨by rw [space_setSpace], ?_⟩⟩
    · intro c' hc'
      cases List.mem_singleton.1 hc'
      rw [space_setSpace]
      by_cases e : g = f
      · subst e
        have h4 : g.2.2.2 + 12288 + n * 12288 ≤ g.2.1 + g.2.2.1 := by omega
        exact ⟨(g.1, g.2.1, g.2.2.1, g.2.2.2 + 12288), List.mem_map.2 ⟨g, hg, if_pos rfl⟩, g1, g2, h4⟩
      · exact ⟨g, List.mem_map.2 ⟨g, hg, if_neg e⟩, g1, g2, hlow⟩
    · intro c' hc'
      obtain ⟨y, hy, y1, y2, y3⟩ := h.2 c' hc'
      rw [space_setSpace]
      have e : y ≠ f := by
        intro e; subst e
        rw [y2] at p
        have : c' = c := by simpa using p.1.2
        exact hl (this ▸ hc')
      exact ⟨y, List.mem_map.2 ⟨y, hy, if_neg e⟩, y1, y2, y3⟩

theorem room_core (s : State) (a n c : Nat) (l : List Nat) (f : Core → Core) (h : poolRoom s a n l) : poolRoom (s.modCore c f) a n l := h

theorem pool_of {c asid : Nat} {l : List Nat} (hc : c < 768) (hl : c ∉ l) : ∀ (n : Nat) (s : State), poolRoom s asid n [c] → poolRoom s asid 8 l →
    ∃ u, s.growPool c asid n = some u ∧ poolRoom u asid 8 l
  | 0, s, _, h => ⟨s, rfl, h⟩
  | n + 1, s, h0, h => by
    obtain ⟨u, ga, e, h1, h2⟩ := grant_of hc hl h0 h
    unfold State.growPool
    simp only [e]
    exact pool_of hc hl n _ (room_core _ _ _ _ _ _ h1) (room_core _ _ _ _ _ _ h2)

theorem pools_of (asid : Nat) : ∀ (l : List Nat) (s : State), l.Nodup → (∀ c ∈ l, c < 768) → poolRoom s asid 8 l →
    ∃ u, l.foldl (fun (r : Option State) c => r.bind fun s => s.growPool (0 * 1024 + c) asid 8) (some s) = some u
  | [], s, _, _, _ => ⟨s, rfl⟩
  | c :: l, s, hn, hc, h => by
    obtain ⟨hn, hm⟩ := List.nodup_cons.1 hn
    obtain ⟨u, e, h'⟩ := pool_of (hc c (List.mem_cons_self ..)) hn 8 s
      ⟨h.1, fun d hd => h.2 d (List.mem_cons.2 (.inl (List.mem_singleton.1 hd)))⟩ ⟨h.1, fun d hd => h.2 d (List.mem_cons_of_mem _ hd)⟩
    rw [List.foldl_cons, Option.bind_some, Nat.zero_mul, Nat.zero_add, e]
    simpa using pools_of asid l u hm (fun d hd => hc d (List.mem_cons_of_mem _ hd)) h'

/-- The granted memory of the new space once its root table has been taken. -/
def launched : State := launchState.newSpace launchL 2 0 [(0, 0)]
theorem launched_device : ∃ u, launched.loadDevice launchL 2 0 0 = some u ∧
    ((u.space 2).spare.isEmpty && (List.range 768).all fun c => match (u.space 2).granted[c]? with
      | some g => g.1 == 0 && rangeOf g.2.1 == .hbm c && decide (g.2.2.2 + 8 * 0x3000 ≤ g.2.1 + g.2.2.1)
      | none => false) = true := by
  have h : (match launched.loadDevice launchL 2 0 0 with
    | none => false
    | some u => (u.space 2).spare.isEmpty && (List.range 768).all (fun c => match (u.space 2).granted[c]? with
      | some g => g.1 == 0 && rangeOf g.2.1 == .hbm c && decide (g.2.2.2 + 8 * 0x3000 ≤ g.2.1 + g.2.2.1)
      | none => false)) = true := by decide +kernel
  revert h
  cases launched.loadDevice launchL 2 0 0 with
  | none => intro h; cases h
  | some u => intro h; exact ⟨u, rfl, h⟩
theorem launch_rest : imgTypes launchL.image = 0 ∧ imgDoors launchL.image = 0 ∧ homeChannel launchL 0 = 0 := by decide +kernel
theorem launch_rings : Rings (onDevice { boot with mem := launchMem } Device.reset [1, 0x1000]) 0 0 5 1 launchState [1, 0x1000] :=
  ⟨by decide, rfl, rfl, rfl, rfl, by decide, rfl⟩
theorem launched_pools {u : State} (h : ((u.space 2).spare.isEmpty && (List.range 768).all fun c => match (u.space 2).granted[c]? with
      | some g => g.1 == 0 && rangeOf g.2.1 == .hbm c && decide (g.2.2.2 + 8 * 0x3000 ≤ g.2.1 + g.2.2.1)
      | none => false) = true) : ∃ w, u.givePools 0 2 = some w := by
  have hr : poolRoom u 2 8 (List.range 768) := by
    rw [Bool.and_eq_true] at h
    refine ⟨List.isEmpty_iff.1 h.1, ?_⟩
    intro c hc
    have := List.all_eq_true.1 h.2 c hc
    cases hg : (u.space 2).granted[c]? with
    | none => rw [hg] at this; cases this
    | some g =>
      rw [hg] at this
      simp only [Bool.and_eq_true, beq_iff_eq, decide_eq_true_eq] at this
      exact ⟨g, List.mem_of_getElem? hg, this.1.1, this.1.2, this.2⟩
  unfold State.givePools
  exact pools_of 2 (List.range 768) u List.nodup_range (fun c hc => List.mem_range.1 hc) hr
theorem launch_all {l : LaunchBlock} {sl : List (Nat × Nat)} {s u w : State} (hd : l.devs = [0]) (ht : imgTypes l.image = 0)
    (hi : imgDoors l.image = 0) (e : (s.newSpace l 2 0 sl).loadDevice l 2 0 (homeChannel l 0) = some u)
    (hw : u.givePools 0 2 = some w) : ∃ x, s.loadAll l 0 2 sl = .ok x := by
  unfold State.loadAll State.startAll State.declareAll
  simp only [hd, List.foldl_cons, List.foldl_nil, lt_irrefl, if_false, List.length_cons, List.length_nil, List.range_succ, List.range_zero,
    List.nil_append, Except.bind, Option.bind_some, onDev, List.getD_cons_zero, e, hw, ht, hi]
  exact ⟨_, rfl⟩
theorem witness_HostRequests_launch : Rings (onDevice { boot with mem := launchMem } Device.reset [1, 0x1000]) 0 0 5 1 launchState [1, 0x1000] ∧
    freeAsid launchState = some 2 ∧ launchBlock launchState 0 0x1000 = launchL ∧ firstBad (launchL.checks ++ imageChecks launchL 2) = none ∧
    unreachableDev launchState launchL 0 = none ∧ grantSlices launchState launchL.devs = .ok [(0, 0)] ∧
    ∃ u, launchState.loadAll launchL 0 2 [(0, 0)] = .ok u := by
  obtain ⟨u, e, h⟩ := launched_device
  obtain ⟨w, hw⟩ := launched_pools h
  exact ⟨launch_rings, free_asid [1, 0x1000], launch_block, launch_ok.1, launch_ok.2.1, launch_ok.2.2, launch_all rfl launch_rest.1 launch_rest.2.1 (launch_rest.2.2 ▸ e) hw⟩

/-! ### Witnesses: further clauses -/

/-- The line of the code is in the instruction cache. -/
theorem witness_Step_cached : let s : State := cored bootProc { bootCore with icache := [(0x10000 / 64, 5)] } []
    (translate s (placeOf 0) 1 true 0x10000 .exec).2 = .ok 0x10000 0x1002B ∧
    mget (((translate s (placeOf 0) 1 true 0x10000 .exec).1).core (placeOf 0)).icache (0x10000 / 64) = some 5 := by decide +kernel
/-- A store through the aperture is on its way, which scratchpad accesses wait for. -/
def aperture : State := { boot with net := [{ src := 0, dst := agentHome (spadHome 0), own := some ownA, body := .write (scratchGa 0 0) [1] false }] }
theorem witness_ScratchpadAccesses_waits (srcs dsts : List RegRef) (e : Bool) :
    Issues aperture 0 bootProc { srcs := srcs, dsts := dsts, touch := .plain, ext := e } aperture bootProc ∧ bootProc.splog ≠ 0 ∧
    spadWaits aperture 0 bootProc.gen = true :=
  ⟨quiet_plain (k := 0) (c := bootCore) rfl rfl rfl rfl rfl rfl rfl rfl _ (fun h => by cases h) (fun h => by cases h) (by rfl) rfl,
    by decide, by decide +kernel⟩
theorem witness_Receiving_of (t : ChanType) : Issuing (lane t 4) holding ∧ mget holding.doors 61 = some recvDoor ∧
    mget (lane t 4).chans 1 = some (chanOf t 4) ∧ (chanOf t 4).typ = t := ⟨quiet_world rfl, rfl, rfl, rfl⟩
/-- The channel is the fault channel of the space, and the process takes an end of it elsewhere. -/
def faulty : State := { moving with spaces := mset boot.spaces 1 { bootSpace with faultChan := 1 } }
theorem witness_ChannelEnds_fault : Issuing faulty mover ∧ mover.smode = true ∧ isFaultChan faulty 1 = true ∧ sendDoor.isSend = true ∧
    (match bindHolder faulty 0 mover (chanOf .word 0) true (field (mover.rg 3) 8 2) (mover.rg 2) (field (mover.rg 3) 0 6) with
      | .ok h => (mget ((faulty.moveFaultEnd 0 1 h false sendDoor).chanEvent 1).procs 0).isSome
      | .error _ => false) = true := ⟨quiet_of rfl rfl rfl rfl rfl rfl, rfl, by decide +kernel, rfl, by decide +kernel⟩
theorem witness_HostRequests_bindFault : let s := { bindState with spaces := mset boot.spaces 1 { bootSpace with faultChan := 1 } }
    isFaultChan (servedWith s Device.reset []) 1 = true ∧ sendDoor.isSend = true ∧
    (match bindHolder (servedWith s Device.reset []) (0 * 2 ^ 22) holding (chanOf .message 4) true 1 0 0 with
      | .ok _ => true | .error _ => false) = true := by decide +kernel
theorem witness_HostRequests_kinds : serviceFull (servedWith boot Device.reset []) 0 0 3 true = false ∧
    serviceFull (servedWith boot Device.reset []) 0 5 3 false = false ∧ 3 < kindCount 5 ∧ 0 < kindCount 2 ∧
    ((servedWith boot Device.reset []).space 1).live = true := by decide +kernel
/-- Fills that complete a TLBINV, and others; a host access to host memory; a home whose die is hot or whose arbiter is out. -/
theorem witness_Homes_fill : let f := invFill 0 bootProc none
    ((mail (.fill f)).arriving 0).map (·.body) = some (.fill f) ∧ f.inv = some (1, none) ∧ (endFill 0 1 0).inv = none := ⟨rfl, rfl, rfl⟩
theorem witness_Homes_host : rangeOf (gaPa (hostGa 0 0x1000)) = .host ∧
    ([some [1], none].all fun w => ((mail (.host (hostGa 0 0x1000) 8 w none false false)).arriving 0).map (·.body) ==
      some (.host (hostGa 0 0x1000) 8 w none false false)) = true := by decide +kernel
theorem witness_Homes_hot : let s : State := { boot with
      cycle := 1800000, devices := [(0, { Device.reset with hot := [(0, 0)], parts := [(7 * 4096, { slotA := [], slotB := [], activeB := false, digest := [], inService := false })] })] }
    mget (s.device 0).hot (homeDie 0) = some 0 ∧ ((mget (s.device 0).parts (7 * 4096)).any fun x => !x.inService) = true ∧
    (s.home 0).ms < s.timebOf 0 / 1000000 ∧ (Home.reset.budget = none ∧ spent.budget = some 100000000) := by decide +kernel
/-- Slot tokens at an open end, a closed one and a fault door's; the copy of a tile across the links and inside a device. -/
theorem witness_SendEnds_token : let x := chanOf .word 4
    (x.sstate = .opened ∧ x.send ≠ .gone ∧ isFaultChan (letter holding x (.slotToken 1)) 1 = false) ∧
    ({ x with send := .gone } : Chan).send = .gone ∧
    isFaultChan { letter holding x (.slotToken 1) with spaces := mset boot.spaces 1 { bootSpace with faultChan := 1 } } 1 = true := by
  decide +kernel
theorem witness_SendEnds_landed : let x := chanOf .tile 4
    ((letter holding x (.tileLanded 1 0 1 none anItem)).arriving 0).map (·.body) = some (.tileLanded 1 0 1 none anItem) ∧
    x.recv = .proc 0 1 61 ∧ x.rclosed = false ∧ keyDev 0 = keyDev 0 ∧ keyDev (2 ^ 22) ≠ keyDev 0 := ⟨rfl, rfl, rfl, rfl, by decide⟩

theorem witness_RegisterFrame_goes : (bootProc.kind = .normal ∨ bootProc.rg 2 ≠ returnPoint) ∧ (bootProc.rg 2).extractLsb' 0 2 = 0 :=
  ⟨.inl rfl, by decide⟩
theorem witness_MemoryFrame_vector : elsTrap oneEl 8 = none ∧ (∀ line, copiesOf maskState line = []) ∧
    (∀ line, copiesOf pageState line = []) := ⟨by decide +kernel, fun _ => rfl, fun _ => rfl⟩

/-! ### Single steps, their results worked out by hand from the rules named -/

/-- Process 0 after an instruction that only it takes part in. -/
def after (i : Instr) (p : Proc) : Option Proc :=
  match exec i (world p []) with
  | .next t => mget t.procs 0
  | .fault _ | .refused _ => none

/-- R109: a sum wraps, and the PC goes on by 4. -/
theorem test_add_wraps : (after (.add 3 1 2) ((bootProc.wg 1 (BitVec.allOnes 64)).wg 2 2)).map (fun p => (p.rg 3, p.pc)) = some (1, 0x10004) := by
  decide +kernel
/-- R15: g0 reads zero and discards writes. -/
theorem test_g0 : (after (.addi 0 0 5) bootProc).map (fun p => (p.rg 0, p.pc)) = some (0, 0x10004) := by decide +kernel
/-- R111: the immediate of ADDI is sign-extended. -/
theorem test_addi_sign : (after (.addi 3 0 0xFFFF) bootProc).map (·.rg 3) = some (BitVec.allOnes 64) := by decide +kernel
/-- R114: a branch taken counts words from its own address. -/
theorem test_beq_taken : (after (.beq 1 2 0xFFFF) bootProc).map (·.pc) = some 0xFFFC := by decide +kernel
/-- R179, R181: 64 bytes are added lane by lane, with no carry between them. -/
theorem test_vadd_lanes : (after (.vadd 3 1 2 0 .n8) ((bootProc.wv 1 (BitVec.allOnes 512)).wv 2 (BitVec.allOnes 512))).map
    (fun p => (p.rv 3).extractLsb' 0 16) = some 0xFEFE := by decide +kernel
/-- R123, R370: a store travels to the home of its address. -/
theorem test_st_sends : (match exec (.st 1 2 0 .w) pageState with
    | .next t => t.net.map fun m => (m.dst == agentHome (homeOf 0x10FF8), m.body == .write 0x10FF8 [0, 0, 0, 0] false)
    | .fault _ | .refused _ => []) = [(true, true)] := by decide +kernel
/-- R132: a scratchpad store is in memory at once. -/
theorem test_sps : (match exec (.sps 1 0 1 .d) (world (bootProc.wg 1 0x0102030405060708) []) with
    | .next t => memBytes t.mem (scratchGa 0 8) 8
    | .fault _ | .refused _ => []) = [8, 7, 6, 5, 4, 3, 2, 1] := by decide +kernel
/-- R448 uses SHA-512: the digest of "abc" in FIPS 180-4's examples. -/
theorem test_sha512 : sha512 [0x61, 0x62, 0x63] = (leBytes 64 0xDDAF35A193617ABACC417349AE20413112E6FA4E89A97EA20A9EEEE64B55D39A2192992A274FC1A836BA3C23A3FEEBBD454D4423643CE80E2A9AC94FA54CA49F).reverse := by
  decide +kernel
/-- The S-box of AES-256 (R1, R429 and R450 name the cipher): the example of FIPS 197, section 5.1.1. -/
theorem test_aes_sbox : aesSub 0x53 = 0xED := by decide +kernel

/-- R136, R161, R292: OK on d1 is the word 0; CLOSED names its door; ALT names its door beside OK. -/
theorem test_status_words : statusWord 0 1 = 0 ∧ statusWord 4 1 = 0x104 ∧ doorWord 0 3 = 0x300 := by decide

end Sys2Proof.Tests
end

section
open Sys2Proof Sys2Proof.Machine Sys2Proof.Safety

namespace Sys2Proof.Machine

/-! ### Numbers in memory -/

theorem memNat_lt (m : List Host.Cell) (a n : Nat) : memNat m a n < 256 ^ n := by
  induction n generalizing a with
  | zero => simp [memNat, memBytes, leNat]
  | succ n ih =>
    have hb := (memGet m a).isLt
    have hr := ih (a + 1)
    simp only [memNat, memBytes, leNat, Nat.pow_succ] at hr ⊢
    omega

/-- A number in memory is its low bytes and its high bytes. -/
theorem memNat_add (m : List Host.Cell) (a i n : Nat) :
    memNat m a (i + n) = memNat m a i + 256 ^ i * memNat m (a + i) n := by
  induction i generalizing a with
  | zero => simp [memNat, memBytes, leNat]
  | succ i ih =>
    have h := ih (a + 1)
    rw [show a + 1 + i = a + (i + 1) by omega] at h
    simp only [memNat, memBytes, leNat, Nat.add_right_comm i 1 n] at h ⊢
    rw [h, Nat.pow_succ']
    ring

/-- A word inside a block of memory is the four bytes at its address. -/
theorem word_of_block (m : List Host.Cell) (a : Nat) {n i : Nat} (hi : i + 4 ≤ n) :
    BitVec.ofNat 32 ((BitVec.ofNat (8 * n) (memNat m a n)).toNat >>> (8 * i)) = BitVec.ofNat 32 (memNat m (a + i) 4) := by
  obtain ⟨r, rfl⟩ := Nat.exists_eq_add_of_le hi
  have hlt := memNat_lt m a (i + 4 + r)
  have hsplit : memNat m a (i + 4 + r) = memNat m a i + 256 ^ i * (memNat m (a + i) 4 + 256 ^ 4 * memNat m (a + i + 4) r) := by
    rw [Nat.add_assoc, memNat_add, memNat_add]
  rw [BitVec.toNat_ofNat, Nat.pow_mul, Nat.mod_eq_of_lt hlt, Nat.shiftRight_eq_div_pow, Nat.pow_mul,
    show (2 : Nat) ^ 8 = 256 from rfl, hsplit, Nat.add_mul_div_left _ _ (by positivity),
    Nat.div_eq_of_lt (memNat_lt m a i), Nat.zero_add]
  apply BitVec.eq_of_toNat_eq
  rw [BitVec.toNat_ofNat, BitVec.toNat_ofNat, show (2 : Nat) ^ 32 = 256 ^ 4 from rfl, Nat.add_mul_mod_self_left]

/-! ### Which step falls next (logs 1 and 14) -/

theorem step_of_tape {s : State} {i : Instr} {rest : List Instr} (h : s.agenda = i :: rest) :
    step s = exec i { s.tick with agenda := rest } := by
  simp only [step, h]

theorem step_of_due {s : State} {i : Instr} (ht : s.agenda = []) (hd : due s = some i) : step s = exec i s.tick := by
  simp only [step, ht, hd]

theorem step_of_idle {s : State} (ht : s.agenda = []) (hd : due s = none) (hp : pick s = none) : step s = .next s.tick := by
  simp only [step, ht, hd, hp]

theorem step_of_pick {s : State} {k : Nat} {p : Proc} (ht : s.agenda = []) (hd : due s = none) (hp : pick s = some (k, p)) :
    step s = issueNext s.tick k p := by
  simp only [step, ht, hd, hp]

/-- What the slot that issues does with what it fetches. -/
theorem issueNext_of_fetch {s t : State} {k : Nat} {p : Proc} {f : Fetched}
    (hi : interrupted { s with cur := k, turn := turnOf (k, p) } k p = false)
    (hf : fetch { s with cur := k, turn := turnOf (k, p) } k p = (t, f)) :
    issueNext s k p = match f with
      | .instr i => exec i t
      | .illegal d tval ext => exec (.illegalWord (BitVec.ofNat 16 d) tval ext) t
      | .fault c d va ext => .next (t.trap k p ext c d va)
      | .wait => .next t := by
  simp only [issueNext, hi, hf]
  cases f <;> rfl

theorem issueNext_of_interrupted {s : State} {k : Nat} {p : Proc}
    (hi : interrupted { s with cur := k, turn := turnOf (k, p) } k p = true) :
    issueNext s k p = exec (.takeAsyncTrap k) { s with cur := k, turn := turnOf (k, p) } := by
  simp only [issueNext, hi, if_true]

/-! ### What a fetch gives (R27, R83, R88) -/

/-- Whether the task type of a process declares the unit of a word (R27). -/
def Declares (p : Proc) (w : IWord) : Prop :=
  (w.extractLsb' 26 6 = 0x28 → p.tile = true) ∧ (w.extractLsb' 26 6 = 0x2C → p.yard = true)

theorem undeclared_iff {p : Proc} {w : IWord} :
    (w.extractLsb' 26 6 = 0x28 ∧ (!p.tile) = true) ∨ (w.extractLsb' 26 6 = 0x2C ∧ (!p.yard) = true) ↔ ¬ Declares p w := by
  simp only [Declares, not_and_or, Classical.not_imp, Bool.not_eq_true, Bool.not_eq_true']

theorem fetch_of_fault {s t : State} {k : Nat} {p : Proc} {c d : Nat} (h : fetchWord s k p p.pc = (t, .fault c d)) :
    fetch s k p = (t, .fault c d p.pc false) := by
  simp only [fetch, h]

theorem fetch_of_wait {s t : State} {k : Nat} {p : Proc} (h : fetchWord s k p p.pc = (t, .wait)) :
    fetch s k p = (t, .wait) := by
  simp only [fetch, h]

theorem fetch_of_undeclared {s t : State} {k : Nat} {p : Proc} {w : IWord} (h : fetchWord s k p p.pc = (t, .word w))
    (hw : ¬ Declares p w) : fetch s k p = (t, .illegal 7 1 false) := by
  simp only [fetch, h, if_pos (undeclared_iff.2 hw)]

section
variable {s t u : State} {k : Nat} {p : Proc} {w w₂ : IWord} {x : BitVec 26}
  (h : fetchWord s k p p.pc = (t, .word w)) (hw : Declares p w)
include h hw

theorem fetch_of_ok {i : Instr} (hd : decode1 w = .ok i) : fetch s k p = (t, .instr i) := by
  simp only [fetch, h, if_neg (mt undeclared_iff.1 (not_not.2 hw)), hd]

theorem fetch_of_ill {d : Nat} (hd : decode1 w = .ill d) : fetch s k p = (t, .illegal d (w.setWidth 64) false) := by
  simp only [fetch, h, if_neg (mt undeclared_iff.1 (not_not.2 hw)), hd]

theorem fetch_of_second_fault {c d : Nat} (hd : decode1 w = .ext x) (h₂ : fetchWord t k p (p.pc + 4) = (u, .fault c d)) :
    fetch s k p = (u, .fault c d (p.pc + 4) true) := by
  simp only [fetch, h, if_neg (mt undeclared_iff.1 (not_not.2 hw)), hd, h₂]

theorem fetch_of_second_wait (hd : decode1 w = .ext x) (h₂ : fetchWord t k p (p.pc + 4) = (u, .wait)) :
    fetch s k p = (u, .wait) := by
  simp only [fetch, h, if_neg (mt undeclared_iff.1 (not_not.2 hw)), hd, h₂]

theorem fetch_of_pair {i : Instr} (hd : decode1 w = .ext x) (h₂ : fetchWord t k p (p.pc + 4) = (u, .word w₂))
    (hp : decodePair x w₂ = .ok i) : fetch s k p = (u, .instr i) := by
  simp only [fetch, h, if_neg (mt undeclared_iff.1 (not_not.2 hw)), hd, h₂, hp]

theorem fetch_of_bad_pair {d : Nat} (hd : decode1 w = .ext x) (h₂ : fetchWord t k p (p.pc + 4) = (u, .word w₂))
    (hp : decodePair x w₂ = .ill d) : fetch s k p = (u, .illegal d (w₂ ++ w) true) := by
  simp only [fetch, h, if_neg (mt undeclared_iff.1 (not_not.2 hw)), hd, h₂, hp]

end

/-! ### The word that is fetched (R88, R280, R346) -/

/-- The word comes out of the line that holds it. -/
theorem fetchWord_of_line {s s₁ t : State} {k ga : Nat} {p : Proc} {va leaf : Word} {x : VReg}
    (hx : translate s (placeOf k) p.asid p.smode va .exec = (s₁, .ok ga leaf)) (hp : leafPois leaf = false)
    (hl : fetchLine s₁ (placeOf k) p.asid ga = (t, some x)) :
    fetchWord s k p va = (t, .word (x.extractLsb' (8 * (ga % 64)) 32)) := by
  simp only [fetchWord, hx, hp, hl, Bool.false_eq_true, if_false]
  rfl

theorem fetchWord_of_waiting_line {s s₁ t : State} {k ga : Nat} {p : Proc} {va leaf : Word}
    (hx : translate s (placeOf k) p.asid p.smode va .exec = (s₁, .ok ga leaf)) (hp : leafPois leaf = false)
    (hl : fetchLine s₁ (placeOf k) p.asid ga = (t, none)) : fetchWord s k p va = (t, .wait) := by
  simp only [fetchWord, hx, hp, hl, Bool.false_eq_true, if_false]

theorem fetchLine_of_cached {s : State} {pl asid ga : Nat} {x : VReg} (h : mget (s.core pl).icache (ga / 64) = some x) :
    fetchLine s pl asid ga = (s, some x) := by
  simp only [fetchLine, h]

theorem fetchLine_of_waits {s : State} {pl asid ga : Nat} (h : mget (s.core pl).icache (ga / 64) = none)
    (hw : readWaits s pl (ga / 64 * 64) 64 = true) : fetchLine s pl asid ga = (s.readHeld (ga / 64 * 64) 64, none) := by
  simp only [fetchLine, h, hw, if_true]

/-- A line that its home serves now is its bytes in memory; keeping it in the instruction cache changes no memory and no
process. -/
theorem fetchLine_of_read {s : State} {pl asid ga : Nat} (h : mget (s.core pl).icache (ga / 64) = none)
    (hw : readWaits s pl (ga / 64 * 64) 64 = false) (hb : (s.readDone (ga / 64 * 64) 64).bad ga = false)
    (hs : sealedFrom (s.readDone (ga / 64 * 64) 64) ga (some asid) = false) :
    ∃ t, fetchLine s pl asid ga = (t, some (BitVec.ofNat 512 (memNat (s.readDone (ga / 64 * 64) 64).mem (ga / 64 * 64) 64))) ∧
      t.mem = (s.readDone (ga / 64 * 64) 64).mem ∧ t.procs = (s.readDone (ga / 64 * 64) 64).procs := by
  simp only [fetchLine, h, hw, hb, hs, Bool.false_eq_true, if_false]
  split <;> exact ⟨_, rfl, rfl, rfl⟩

end Sys2Proof.Machine

/-- Settles O4: which step falls next, and what the slot that issues makes of the words it fetches. -/
theorem stepRunsTheDecodedInstruction : Obligations.StepRunsTheDecodedInstruction := by
  refine ⟨fun s i rest => step_of_tape, fun s i => step_of_due, fun s => step_of_idle, ?_, ?_⟩
  · intro s k p ht hd hp
    rw [step_of_pick ht hd hp]
    refine ⟨issueNext_of_interrupted, fun s₁ w hi hf hw => issueNext_of_fetch hi (fetch_of_undeclared hf hw), ?_,
      fun s₁ hi hf => issueNext_of_fetch hi (fetch_of_wait hf), fun s₁ c d hi hf => issueNext_of_fetch hi (fetch_of_fault hf)⟩
    intro s₁ w hi hf hw
    refine ⟨fun i h => issueNext_of_fetch hi (fetch_of_ok hf hw h), fun d h => issueNext_of_fetch hi (fetch_of_ill hf hw h),
      fun x s₂ c d h h₂ => issueNext_of_fetch hi (fetch_of_second_fault hf hw h h₂),
      fun x s₂ h h₂ => issueNext_of_fetch hi (fetch_of_second_wait hf hw h h₂), fun x s₂ w₂ h h₂ => ⟨?_, ?_⟩⟩
    · exact fun i hp => issueNext_of_fetch hi (fetch_of_pair hf hw h h₂ hp)
    · exact fun d hp => issueNext_of_fetch hi (fetch_of_bad_pair hf hw h h₂ hp)
  · intro s s₁ k ga p va leaf hx hp ha
    refine ⟨fun x hc => fetchWord_of_line hx hp (fetchLine_of_cached hc),
      fun hc hw => fetchWord_of_waiting_line hx hp (fetchLine_of_waits hc hw), fun hc hw hb hs => ?_⟩
    obtain ⟨t, hl, hm, hprocs⟩ := fetchLine_of_read hc hw hb hs
    have hw := word_of_block (s₁.readDone (ga / 64 * 64) 64).mem (ga / 64 * 64) (n := 64) (i := ga % 64) (by omega)
    rw [Nat.div_add_mod' ga 64] at hw
    exact ⟨t, (fetchWord_of_line hx hp hl).trans (by rw [← hw]; rfl), hm, hprocs⟩

end

section
open Sys2Proof Sys2Proof.Machine Sys2Proof.Safety

namespace Sys2Proof.Safety

open Sys2Proof.Machine

/-! ### What an answer keeps -/

/-- Every next state that an outcome answers has the invariant. -/
def OutInv (o : Out) : Prop := ∀ t, o = .next t → Inv t

/-- The state that an operation answers, where it answers one, has the invariant. -/
def OptInv (o : Option State) : Prop := ∀ t, o = some t → Inv t

/-- The same of the state that comes with a value. -/
def OptInv₁ {α : Type} (o : Option (State × α)) : Prop := ∀ x, o = some x → Inv x.1

/-- The state in which an operation ends, unless it is put off, has the invariant. -/
def ExcInv {ε : Type} (o : Except ε State) : Prop := ∀ t, o = .ok t → Inv t

/-- The same of the state that comes with a value. -/
def ExcInv₁ {ε α : Type} (o : Except ε (State × α)) : Prop := ∀ x, o = .ok x → Inv x.1

theorem OutInv.next {s : State} (h : Inv s) : OutInv (.next s) := by rintro _ ⟨⟩; exact h
theorem OutInv.fault (r : Fault) : OutInv (.fault r) := by rintro _ ⟨⟩
theorem OutInv.refused (r : Refusal) : OutInv (.refused r) := by rintro _ ⟨⟩
theorem OptInv.none : OptInv none := by rintro _ ⟨⟩
theorem OptInv.some {s : State} (h : Inv s) : OptInv (some s) := by rintro _ ⟨⟩; exact h
theorem OptInv.getD {o : Option State} (h : OptInv o) {s : State} (hs : Inv s) : Inv (o.getD s) := by
  cases o with
  | none => exact hs
  | some t => exact h t rfl
theorem OptInv₁.none {α : Type} : OptInv₁ (none : Option (State × α)) := by rintro _ ⟨⟩
theorem OptInv₁.some {α : Type} {x : State × α} (h : Inv x.1) : OptInv₁ (some x) := by rintro _ ⟨⟩; exact h
theorem OptInv.bind {α : Type} {o : Option α} {f : α → Option State} (hf : ∀ a, o = .some a → OptInv (f a)) :
    OptInv (o.bind f) := by
  cases o with
  | none => exact .none
  | some a => exact hf a rfl
theorem OptInv.foldl {α : Type} {f : Option State → α → Option State} {o : Option State} (h : OptInv o)
    (hf : ∀ o a, OptInv o → OptInv (f o a)) {l : List α} : OptInv (l.foldl f o) :=
  List.foldlRecOn l f h fun o ho a _ => hf o a ho
theorem OptInv₁.fst {α : Type} {o : Option (State × α)} (h : OptInv₁ o) {s : State} {a : α}
    (e : o = .some (s, a)) : Inv s :=
  h _ e
theorem OptInv.ite {c : Prop} {_ : Decidable c} {o r : Option State} (ho : OptInv o) (hr : OptInv r) :
    OptInv (if c then o else r) := by
  split
  · exact ho
  · exact hr
theorem OptInv₁.ite {α : Type} {c : Prop} {_ : Decidable c} {o r : Option (State × α)}
    (ho : OptInv₁ o) (hr : OptInv₁ r) : OptInv₁ (if c then o else r) := by
  split
  · exact ho
  · exact hr
theorem ExcInv.error {ε : Type} {e : ε} : ExcInv (.error e) := by rintro _ ⟨⟩
theorem ExcInv.ok {ε : Type} {s : State} (h : Inv s) : ExcInv (ε := ε) (.ok s) := by rintro _ ⟨⟩; exact h
theorem ExcInv.bind {ε α : Type} {r : Except ε α} {f : α → Except ε State} (hf : ∀ a, r = .ok a → ExcInv (f a)) :
    ExcInv (r.bind f) := by
  cases r with
  | error e => exact .error
  | ok a => exact hf a rfl
theorem ExcInv.foldl {ε α : Type} {f : Except ε State → α → Except ε State} {r : Except ε State} (h : ExcInv r)
    (hf : ∀ r a, ExcInv r → ExcInv (f r a)) {l : List α} : ExcInv (l.foldl f r) :=
  List.foldlRecOn l f h fun r hr a _ => hf r a hr
theorem ExcInv₁.error {ε α : Type} {e : ε} : ExcInv₁ (α := α) (.error e) := by rintro _ ⟨⟩
theorem ExcInv₁.ok {ε α : Type} {x : State × α} (h : Inv x.1) : ExcInv₁ (ε := ε) (.ok x) := by
  rintro _ ⟨⟩; exact h
theorem ExcInv₁.fst {ε α : Type} {o : Except ε (State × α)} (h : ExcInv₁ o) {s : State} {a : α}
    (e : o = .ok (s, a)) : Inv s :=
  h _ e
theorem ExcInv₁.bind {ε α β : Type} {r : Except ε β} {f : β → Except ε (State × α)}
    (hf : ∀ a, r = .ok a → ExcInv₁ (f a)) : ExcInv₁ (r.bind f) := by
  cases r with
  | error e => exact .error
  | ok a => exact hf a rfl
theorem ExcInv₁.foldl {ε α β : Type} {f : Except ε (State × α) → β → Except ε (State × α)}
    {r : Except ε (State × α)} (h : ExcInv₁ r) (hf : ∀ r a, ExcInv₁ r → ExcInv₁ (f r a)) {l : List β} :
    ExcInv₁ (l.foldl f r) :=
  List.foldlRecOn l f h fun r hr a _ => hf r a hr
theorem OptInv.onDev {o : Option State} (h : OptInv o) {d : Nat} : ExcInv (onDev d o) := by
  cases o with
  | none => exact .error
  | some s => exact .ok (h s rfl)

/-! ### The shapes that operations are built from -/

/-- The first part of a pair that is known. -/
theorem Inv.fst {α : Type} {x : State × α} (h : Inv x.1) {s : State} {a : α} (e : x = (s, a)) : Inv s := by
  subst e; exact h

theorem Inv.ite {c : Prop} {_ : Decidable c} {s t : State} (hs : Inv s) (ht : Inv t) : Inv (if c then s else t) := by
  split
  · exact hs
  · exact ht

theorem Inv.foldl {α : Type} {f : State → α → State} {s : State} (h : Inv s) (hf : ∀ s a, Inv s → Inv (f s a))
    {l : List α} : Inv (l.foldl f s) :=
  List.foldlRecOn l f h fun s hs a _ => hf s a hs

theorem Inv.foldl_fst {α β : Type} {f : State × β → α → State × β} {r : State × β} (h : Inv r.1)
    (hf : ∀ r a, Inv r.1 → Inv (f r a).1) {l : List α} : Inv (l.foldl f r).1 :=
  List.foldlRecOn (motive := fun r => Inv r.1) l f h fun r hr a _ => hf r a hr

/-- An update of a state that leaves its memory and its empty words. -/
theorem Inv.upd {s : State} (h : Inv s)
    {poisoned : List Nat} {ecc : Map (Nat × Bool)} {procs : Map Proc} {cores : Map Core} {sheds : Map Shed}
    {chans : Map Chan} {homes : Map Home} {spaces : Map Space} {bases : Map Stack} {merges : Map Merge}
    {links : Map Link} {colls : Map Coll} {windows : Map Window} {hostEps : Map HostEp} {devices : Map Device}
    {migrations : Map Migration} {servers : Map Server} {sessions : List Session} {counters signals : Map Nat}
    {net : List Msg} {agenda : List Instr} {cycle pace cur turn : Nat} {hostData : Word} {hostPoison : Bool}
    {carried nextChan free : Nat} :
    Inv ⟨s.mem, s.empties, poisoned, ecc, procs, cores, sheds, chans, homes, spaces, bases, merges, links, colls, windows,
      hostEps, devices, migrations, servers, sessions, counters, signals, net, agenda, cycle, pace, cur, turn, hostData,
      hostPoison, carried, nextChan, free⟩ :=
  h

/-- Bytes are written. -/
theorem Inv.put {s : State} (h : Inv s) {a : Nat} {bs : List Byte} : Inv { s with mem := memPut s.mem a bs } :=
  ⟨wf_memPut h.1 a bs, h.2⟩

theorem memWfFrom_filter {f : Host.Cell → Bool} {lo : Nat} {m : List Host.Cell} (h : memWfFrom lo m = true) :
    memWfFrom lo (m.filter f) = true := by
  induction m generalizing lo with
  | nil => exact h
  | cons e r ih =>
    obtain ⟨k, v⟩ := e
    simp only [memWfFrom, Bool.and_eq_true, decide_eq_true_eq] at h
    obtain ⟨⟨hlo, hv⟩, hr⟩ := h
    by_cases hf : f (k, v)
    · simp only [List.filter_cons_of_pos hf, memWfFrom, Bool.and_eq_true, decide_eq_true_eq]
      exact ⟨⟨hlo, hv⟩, ih hr⟩
    · rw [List.filter_cons_of_neg hf]
      exact memWfFrom_mono (ih hr) (by omega)

theorem foldl_sadd_pairwise {α : Type} {f : α → Nat} {xs : List α} {l : List Nat} (h : l.Pairwise (· < ·)) :
    (xs.foldl (fun l x => sadd l (f x)) l).Pairwise (· < ·) := by
  induction xs generalizing l with
  | nil => exact h
  | cons x xs ih => exact ih (sadd_pairwise h (f x))

/-! ### The named writes of the state -/

theorem Inv.setCore {s : State} {pl : Nat} {c : Core} (h : Inv s) : Inv (s.setCore pl c) :=
  h.upd

theorem Inv.modCore {s : State} {pl : Nat} {f : Core → Core} (h : Inv s) : Inv (s.modCore pl f) :=
  h.setCore

theorem Inv.setProc {s : State} {k : Nat} {p : Proc} (h : Inv s) : Inv (s.setProc k p) :=
  h.upd

theorem Inv.modProc {s : State} {k : Nat} {f : Proc → Proc} (h : Inv s) : Inv (s.modProc k f) := by
  unfold State.modProc
  split
  · exact h
  · exact h.setProc

theorem Inv.setSpace {s : State} {asid : Nat} {x : Space} (h : Inv s) : Inv (s.setSpace asid x) :=
  h.upd

theorem Inv.setShed {s : State} {sh : Nat} {x : Shed} (h : Inv s) : Inv (s.setShed sh x) :=
  h.upd

theorem Inv.setHome {s : State} {h : Nat} {x : Home} (hs : Inv s) : Inv (s.setHome h x) :=
  hs.upd

theorem Inv.setChan {s : State} {c : Nat} {x : Chan} (h : Inv s) : Inv (s.setChan c x) :=
  h.upd

theorem Inv.modChan {s : State} {c : Nat} {f : Chan → Chan} (h : Inv s) : Inv (s.modChan c f) := by
  unfold State.modChan
  split
  · exact h
  · exact h.setChan

theorem Inv.setDevice {s : State} {d : Nat} {x : Device} (h : Inv s) : Inv (s.setDevice d x) :=
  h.upd

theorem Inv.setWindow {s : State} {w : Nat} {x : Window} (h : Inv s) : Inv (s.setWindow w x) :=
  h.upd

theorem Inv.setLink {s : State} {l : Nat} {x : Link} (h : Inv s) : Inv (s.setLink l x) :=
  h.upd

theorem Inv.setBase {s : State} {b : Nat} {x : Stack} (h : Inv s) : Inv (s.setBase b x) :=
  h.upd

theorem Inv.count {s : State} {dev kind inst idx by' : Nat} (h : Inv s) : Inv (s.count dev kind inst idx by') :=
  h.upd

theorem Inv.countCore {s : State} {pl idx : Nat} (h : Inv s) : Inv (s.countCore pl idx) :=
  h.count

theorem Inv.useNonce {s : State} {m : Msg} {devA devB : Nat} (h : Inv s) : Inv (s.useNonce m devA devB) := by
  unfold State.useNonce
  split
  · exact h
  · exact h.upd

theorem Inv.fixPath {s : State} {c : Nat} (h : Inv s) : Inv (s.fixPath c) := by
  unfold State.fixPath
  split
  · exact h
  · split
    · exact Inv.ite (Inv.ite h h.setChan) h.setChan
    · exact h

theorem Inv.enqLink {s : State} {dev : Nat} {e : LinkEntry} (h : Inv s) : Inv (s.enqLink dev e) :=
  h.setLink

theorem Inv.enlink {s : State} {dev to_ : Nat} {m : Msg} (h : Inv s) : Inv (s.enlink dev to_ m) :=
  h.upd.useNonce.enqLink

theorem Inv.post {s : State} {src dst : Nat} {own : Option Own} {b : Body} (h : Inv s) :
    Inv (s.post src dst own b) := by
  unfold State.post
  extract_lets m s₂
  split
  · exact Inv.ite h.upd h.enlink
  · exact h.upd

theorem Inv.took {s : State} {n : Nat} (h : Inv s) : Inv (s.took n) :=
  h.upd

theorem Inv.setFull {s : State} {ga : Nat} (h : Inv s) : Inv (s.setFull ga) :=
  ⟨h.1, sdel_pairwise h.2 _⟩

theorem Inv.setEmpty {s : State} {ga : Nat} (h : Inv s) : Inv (s.setEmpty ga) :=
  ⟨h.1, sadd_pairwise h.2 _⟩

theorem Inv.countHome {s : State} {ga idx : Nat} (h : Inv s) : Inv (s.countHome ga idx) :=
  h.count

theorem Inv.putBytes {s : State} {ga : Nat} {bs : List Byte} (h : Inv s) : Inv (s.putBytes ga bs) := by
  unfold State.putBytes
  extract_lets s₁
  split
  · exact h.put
  · exact h.put.put

theorem Inv.putFull {s : State} {ga : Nat} {full : Bool} (h : Inv s) : Inv (s.putFull ga full) := by
  unfold State.putFull
  extract_lets f s₂
  have h_f : ∀ x₁ x₂, Inv x₁ → Inv (f x₁ x₂) := by
    intro s₃ _ h₃
    exact Inv.ite h₃.setFull h₃.setEmpty
  split
  · exact Inv.ite h.setFull h.setEmpty
  · exact h_f _ _ (Inv.ite h.setFull h.setEmpty)

theorem Inv.fillWords {s : State} {ga n : Nat} (h : Inv s) : Inv (s.fillWords ga n) :=
  h.foldl fun _ _ h' => h'.putFull

/-! ### What every access meets at its home -/

theorem Inv.modHome {s : State} {h : Nat} {f : Home → Home} (hs : Inv s) : Inv (s.modHome h f) :=
  hs.setHome

theorem Inv.readRow {s : State} {ga : Nat} (h : Inv s) : Inv (s.readRow ga) := by
  unfold State.readRow
  extract_lets x s₂
  split
  · exact Inv.ite h.modHome h
  · split
    · exact Inv.ite h.modHome h
    · exact Inv.ite (Inv.ite h.modHome h).modHome.countHome (Inv.ite h.modHome h).modHome

theorem Inv.correctLine {s : State} {line : Nat} (h : Inv s) : Inv (s.correctLine line) := by
  unfold State.correctLine
  split
  · exact h.upd.countHome
  · exact h

theorem Inv.correct {s : State} {ga n : Nat} (h : Inv s) : Inv (s.correct ga n) := by
  unfold State.correct
  exact Inv.ite h (h.foldl fun _ _ h' => h'.correctLine)

theorem Inv.met {s : State} {ga n : Nat} (h : Inv s) : Inv (s.met ga n) :=
  h.readRow.correct

theorem Inv.charge {s : State} {ga n : Nat} (h : Inv s) : OptInv (s.charge ga n) := by
  unfold State.charge
  extract_lets s₁ h₂ x
  split
  · exact OptInv.none
  · split
    · exact OptInv.some h.met
    · split
      · exact OptInv.none
      · split
        · exact OptInv.some h.met.setHome
        · exact OptInv.ite (OptInv.some h.met.setHome) OptInv.none

theorem Inv.holdHome {s : State} {ga : Nat} (h : Inv s) : Inv (s.holdHome ga) := by
  unfold State.holdHome
  extract_lets s₁
  exact Inv.ite h.readRow h.readRow.modHome

theorem Inv.holdPort {s : State} {ga i : Nat} (h : Inv s) : Inv (s.holdPort ga i) := by
  unfold State.holdPort
  extract_lets s₁
  split
  · exact h.holdHome
  · exact Inv.ite h.holdHome h.holdHome.upd.modHome

theorem Inv.combineEl {s : State} {l : RedLine} {e : Nat × Word} (h : Inv s) : Inv (s.combineEl l e) :=
  h.putBytes.putFull

theorem Inv.uncopied {s : State} {line : Nat} (h : Inv s) : Inv (s.uncopied line) :=
  h.upd

theorem Inv.combineQuiet {s : State} {l : RedLine} (h : Inv s) : Inv (s.combineQuiet l) := by
  unfold State.combineQuiet
  exact Inv.ite h.countHome (Inv.ite h (h.foldl fun _ _ h' => h'.combineEl))

theorem Inv.gather {s : State} {line : Nat} (h : Inv s) : Inv (s.gather line) := by
  unfold State.gather
  split
  · exact h
  · extract_lets s₁
    have h₁ : Inv s₁ := h.uncopied.foldl fun _ _ h' => h'.combineQuiet
    exact Inv.ite h₁ h₁.post

theorem Inv.readDone {s : State} {ga n : Nat} (h : Inv s) : Inv (s.readDone ga n) := by
  unfold State.readDone
  extract_lets s₁
  have h₁ : Inv s₁ := h.foldl fun _ _ h' => h'.gather
  exact h₁.charge.getD h₁

theorem Inv.firmRead {s : State} {ga n : Nat} (h : Inv s) : Inv (s.firmRead ga n) := by
  unfold State.firmRead
  exact (h.foldl fun _ _ h' => h'.gather).met

theorem Inv.readHeld {s : State} {ga n : Nat} (h : Inv s) : Inv (s.readHeld ga n) := by
  unfold State.readHeld
  exact Inv.ite h.holdHome h

theorem Inv.readAll {s : State} {src : Nat} {as : List (Nat × Nat)} (h : Inv s) : ExcInv (s.readAll src as) := by
  induction as generalizing s with
  | nil => exact ExcInv.ok h
  | cons a as ih =>
    unfold State.readAll
    split
    · exact ExcInv.error
    · exact ih h.readDone

theorem Inv.spadSeen {s : State} {pl : Nat} (h : Inv s) : Inv (s.spadSeen pl) := by
  unfold State.spadSeen
  exact Inv.ite h (h.foldl fun _ _ h' => h'.gather)

/-! ### Translation -/

theorem Inv.cachePointers {s : State} {pl asid : Nat} {va : Word} {ts : List (Nat × Nat)} (h : Inv s) :
    Inv (s.cachePointers pl asid va ts) := by
  unfold State.cachePointers
  extract_lets new w
  exact Inv.ite h h.setShed

theorem Inv.walked {s : State} {pl asid : Nat} {va : Word} (h : Inv s) : ExcInv (s.walked pl asid va) := by
  unfold State.walked
  extract_lets ts
  split
  · exact ExcInv.error
  · exact ExcInv.ok (h.readAll _ ‹_›).cachePointers

theorem Inv.countMet {s : State} {w : Walk} (h : Inv s) : Inv (s.countMet w) := by
  unfold State.countMet
  split
  · exact h.countHome
  · exact h
  · exact h

theorem Inv.firmWalked {s : State} {pl asid : Nat} {va : Word} (h : Inv s) : Inv (s.firmWalked pl asid va) := by
  unfold State.firmWalked
  exact (h.foldl fun _ _ h' => h'.firmRead).cachePointers.countMet

theorem Inv.xlateFor {s : State} {pl asid : Nat} {smode : Bool} {va : Word} {a : Access} (h : Inv s) :
    Inv (xlateFor s pl asid smode va a).1 := by
  unfold Machine.xlateFor
  split
  · exact h.readHeld
  · exact (h.walked _ ‹_›).countMet

theorem Inv.portXlate {s : State} {home pl asid : Nat} {smode : Bool} {va : Word} {a : Access} (h : Inv s) :
    Inv (portXlate s home pl asid smode va a).1 := by
  unfold Machine.portXlate
  split
  · exact h
  · split
    · exact h
    · split
      · exact h
      · split
        · exact (h.xlateFor.fst ‹_›).modHome
        · exact (h.xlateFor.fst ‹_›).modHome
        · exact h.xlateFor

theorem Inv.translate {s : State} {pl asid : Nat} {smode : Bool} {va : Word} {a : Access} (h : Inv s) :
    Inv (Machine.translate s pl asid smode va a).1 := by
  unfold Machine.translate
  split
  · exact h
  · split
    · exact h
    · split
      · exact (h.xlateFor.fst ‹_›).modCore
      · exact (h.xlateFor.fst ‹_›).modCore
      · exact h.xlateFor

/-! ### The scheduler of a core -/

theorem Inv.enqueue {s : State} {k : Nat} {head : Bool} (h : Inv s) : Inv (s.enqueue k head) := by
  unfold State.enqueue
  split
  · exact h
  · exact h.setProc.modCore

theorem Inv.load {s : State} {pl fuel : Nat} (h : Inv s) : Inv (s.load pl fuel) := by
  induction fuel generalizing s with
  | zero => exact h
  | succ fuel ih =>
    unfold State.load
    extract_lets c
    split
    · split
      · exact h
      · exact ih h.setProc.setCore
    · exact h

theorem Inv.outrank {s : State} {pl : Nat} (h : Inv s) : Inv (s.outrank pl) := by
  unfold State.outrank
  extract_lets c
  split
  · exact h
  · split
    · exact h
    · exact Inv.ite h h.setProc

theorem Inv.watch {s : State} {pl : Nat} (h : Inv s) : Inv (s.watch pl) :=
  h.modCore

theorem Inv.watchSpace {s : State} {asid : Nat} (h : Inv s) : Inv (s.watchSpace asid) :=
  h.foldl fun _ _ h' => h'.watch

theorem Inv.settle {s : State} {pl : Nat} (h : Inv s) : Inv (s.settle pl) :=
  h.load.outrank.watch.modCore

theorem Inv.preempted {s : State} {k code : Nat} (h : Inv s) : Inv (s.preempted k code) := by
  unfold State.preempted
  split
  · exact h
  · exact h.setProc.foldl fun _ _ h' => h'.post

theorem Inv.makeReady {s : State} {k : Nat} (h : Inv s) : Inv (s.makeReady k) :=
  h.modProc.enqueue.preempted.settle

theorem Inv.wake {s : State} {k : Nat} (h : Inv s) : Inv (s.wake k) := by
  unfold State.wake
  split
  · exact h
  · exact Inv.ite h.makeReady h

theorem Inv.block {s : State} {k : Nat} (h : Inv s) : Inv (s.block k) :=
  h.modProc.modCore.settle.preempted

theorem Inv.park {s : State} {k : Nat} (h : Inv s) : Inv (s.park k) :=
  h.modProc.modCore.settle

theorem Inv.updateRecord {s : State} {k : Nat} {old p : Proc} {slot : Nat × Nat} (h : Inv s) :
    Inv (s.updateRecord k old p slot) := by
  unfold State.updateRecord
  split
  · exact h
  · extract_lets s₁
    exact Inv.ite h.putBytes.putBytes h.putBytes.putBytes.putBytes

theorem Inv.putRecord {s : State} {k : Nat} {p : Proc} {slot : Nat × Nat} (h : Inv s) :
    Inv (s.putRecord k p slot) := by
  unfold State.putRecord
  split
  · exact h
  · exact h.putBytes

theorem Inv.putProc {s : State} {k : Nat} {old q : Proc} (h : Inv s) : Inv (s.putProc k old q) := by
  unfold State.putProc
  split
  · exact h.setProc
  · exact h.setProc.updateRecord

theorem Inv.modLive {s : State} {k : Nat} {f : Proc → Proc} (h : Inv s) : Inv (s.modLive k f) := by
  unfold State.modLive
  split
  · exact h
  · exact h.putProc

theorem Inv.spill {s : State} {k slot : Nat} (h : Inv s) : Inv (s.spill k slot) := by
  unfold State.spill
  split
  · exact h
  · exact h.setProc.putRecord

theorem Inv.detach {s : State} {k : Nat} (h : Inv s) : Inv (s.detach k) :=
  h.modCore

theorem Inv.leaveSlot {s : State} {k : Nat} {head : Bool} (h : Inv s) : Inv (s.leaveSlot k head) := by
  unfold State.leaveSlot
  split
  · exact h
  · exact Inv.ite h.block h.setProc.detach.enqueue.settle

/-! ### The ends of channels -/

theorem Inv.giveBack {s : State} {asid ga n : Nat} (h : Inv s) : Inv (s.giveBack asid ga n) := by
  unfold State.giveBack
  exact Inv.ite h h.setSpace

theorem Inv.dropChan {s : State} {c : Nat} (h : Inv s) : Inv (s.dropChan c) := by
  unfold State.dropChan
  split
  · exact h
  · exact h.upd.giveBack

theorem Inv.freeChan {s : State} {c : Nat} (h : Inv s) : Inv (s.freeChan c) := by
  unfold State.freeChan
  split
  · exact h
  · exact Inv.ite h.dropChan h

theorem Inv.putStage {s : State} {x : Chan} {seq : Nat} {bs : List Byte} (h : Inv s) : Inv (s.putStage x seq bs) := by
  unfold State.putStage
  split
  · split
    · exact h
    · exact h.upd
  all_goals exact h.putBytes.fillWords

theorem Inv.copyTile {s : State} {c : Nat} {x : Chan} {k : Nat} {p : Proc} {r : RecvOp} (h : Inv s) :
    Inv (s.copyTile c x k p r) :=
  h.spadSeen.post

theorem Inv.closeSend {s : State} {c : Nat} (h : Inv s) : Inv (s.closeSend c) := by
  unfold State.closeSend
  split
  · exact h
  · split
    · exact h
    · split
      · exact h.dropChan
      · extract_lets s₁
        exact (Inv.ite h h.post).setChan

theorem Inv.poisonSend {s : State} {c : Nat} (h : Inv s) : Inv (s.poisonSend c) := by
  unfold State.poisonSend
  split
  · exact h
  · exact Inv.ite h (Inv.ite h h.setChan.post)

theorem Inv.poisonDoor {s : State} {k d : Nat} {e : Door} (h : Inv s) : Inv (s.poisonDoor k d e) := by
  unfold State.poisonDoor
  exact Inv.ite h.poisonSend (Inv.ite h h.modProc.post)

theorem Inv.ackOffers {s : State} {c code : Nat} {es : List Entry} (h : Inv s) : Inv (s.ackOffers c code es) := by
  induction es generalizing s with
  | nil => exact h
  | cons e es ih =>
    cases e with
    | offer i p gen => exact ih h.post
    | tileOffer p gen n => exact ih h.post
    | item | marker | token | lost | close => exact ih h

theorem Inv.withdraw {s : State} {c : Nat} (h : Inv s) : Inv (s.withdraw c) := by
  unfold State.withdraw
  split
  · exact h
  · exact h.setChan.foldl fun _ _ h' => h'.post

theorem Inv.landed {s : State} {c : Nat} {x : Chan} (h : Inv s) : Inv (s.landed c x) := by
  unfold State.landed
  apply Inv.foldl
  · exact h.modChan
  · intro s₁ _ h₁
    split
    · exact h₁.post
    · exact h₁

theorem Inv.tellSender {s : State} {c : Nat} {h : Holder} (hs : Inv s) : Inv (s.tellSender c h) := by
  unfold State.tellSender
  split
  · split
    · exact hs.post
    · exact hs
  all_goals exact hs

theorem Inv.closeRecv {s : State} {c : Nat} (h : Inv s) : Inv (s.closeRecv c) := by
  unfold State.closeRecv
  split
  · exact h
  · extract_lets s₁ s₂ s₃ s₄ s₅
    have h₄ : Inv s₄ := h.landed.withdraw.modChan.tellSender.ackOffers
    have h₅ : Inv s₅ := h₄.foldl fun _ _ h' => h'.post
    exact h₅.freeChan

theorem Inv.tryFault {s : State} {pl : Nat} {m : HeldFault} (h : Inv s) : OptInv (s.tryFault pl m) := by
  unfold State.tryFault
  split
  · exact OptInv.some h.countCore
  · split
    · exact OptInv.some h.countCore
    · split
      · exact OptInv.ite (OptInv.some h.post) OptInv.none
      · split
        · exact OptInv.none
        · extract_lets s₁
          exact OptInv.some (Inv.ite h.setChan.post (h.setChan.foldl fun _ _ h' => h'.post))

theorem Inv.faultSend {s : State} {pl : Nat} {m : HeldFault} (h : Inv s) : Inv (s.faultSend pl m) := by
  unfold State.faultSend
  extract_lets held keep
  have h_keep : ∀ x₁, Inv x₁ → Inv (keep x₁) := by
    intro s₃ h₃
    exact Inv.ite h₃.modCore h₃.countCore
  split
  · exact h_keep _ h
  · split
    · exact h.tryFault _ ‹_›
    · exact h_keep _ h

theorem Inv.faultOn62 {s : State} {k : Nat} {p : Proc} {ws : List Word} (h : Inv s) : Inv (s.faultOn62 k p ws) := by
  unfold State.faultOn62
  split
  · exact Inv.ite h.faultSend h.countCore
  · exact h.countCore

theorem Inv.faultToSpace {s : State} {pl asid : Nat} {ws : List Word} (h : Inv s) :
    Inv (s.faultToSpace pl asid ws) :=
  h.faultSend

theorem Inv.zero {s : State} {ga n : Nat} (h : Inv s) : Inv (s.zero ga n) :=
  ⟨memWfFrom_filter h.1, h.2.filter _⟩

theorem Inv.ringReset {s : State} {pl i : Nat} (h : Inv s) : Inv (s.ringReset pl i) := by
  unfold State.ringReset
  extract_lets base
  apply Inv.foldl
  · exact h
  · intro s₂ _ h₂
    extract_lets heads
    clear_value heads
    split
    · exact h₂.modCore
    · exact h₂

theorem Inv.unring {s : State} {pl i : Nat} (h : Inv s) : Inv (s.unring pl i) := by
  unfold State.unring
  split
  · exact h
  · exact h.ringReset.modCore.foldl fun _ _ h' => h'.post

theorem Inv.tell {s : State} {pl : Nat} {r : SupReq} {st : Nat} {g2 : Word} (h : Inv s) : Inv (s.tell pl r st g2) := by
  unfold State.tell
  exact Inv.ite h h.post

theorem Inv.releaseUnits {s : State} {k gen : Nat} (h : Inv s) : Inv (s.releaseUnits k gen) := by
  unfold State.releaseUnits
  extract_lets pl s₂
  apply Inv.foldl
  · exact h.modCore
  · intro s₃ _ h₃
    split
    · exact h₃
    · exact Inv.ite h₃.unring h₃

theorem Inv.copyMatched {s : State} {k : Nat} {p : Proc} (h : Inv s) : Inv (s.copyMatched k p) := by
  unfold State.copyMatched
  extract_lets go gos
  apply Inv.foldl
  · exact h.upd
  · intro s₃ _ h₃
    split
    · exact h₃
    · exact h₃.copyTile

theorem Inv.withdrawOf {s : State} {k gen : Nat} (h : Inv s) : Inv (s.withdrawOf k gen) :=
  h.upd

theorem Inv.endOne {s : State} {k : Nat} {how : End} {msg : Option (List Word)} {keep : Bool} (h : Inv s) :
    Inv (s.endOne k how msg keep) := by
  unfold State.endOne
  split
  · exact h
  · extract_lets pl s₂ s₃ s₄ s₅ s₆ s₇ s₈ s₉ s₁₀ kind s₁₂
    have h₃ : Inv s₃ := by
      unfold s₃
      apply Inv.foldl
      · exact h.detach.copyMatched.withdrawOf
      · intro s₁₃ _ h₁₃
        split
        · split
          · exact h₁₃.closeSend
          · extract_lets s₁₄
            exact (Inv.ite h₁₃ h₁₃.poisonSend).closeSend
        · exact h₁₃.closeRecv
    have h₄ : Inv s₄ := by
      unfold s₄
      split
      · exact h₃
      · exact h₃.faultOn62
    have h₇ : Inv s₇ := h₄.releaseUnits.upd.foldl fun _ _ h' => h'.post
    have h₈ : Inv s₈ := h₇.foldl fun _ _ h' => Inv.ite h' h'.tell
    have h₁₂ : Inv s₁₂ := Inv.ite (Inv.ite h₈.upd h₈.upd.zero) (Inv.ite h₈.upd h₈.upd.zero).post
    exact h₁₂.settle

theorem Inv.endInbox {s : State} {pl asid : Nat} (h : Inv s) : Inv (s.endInbox pl asid) := by
  unfold State.endInbox
  exact Inv.ite h (h.modCore.foldl fun _ _ h' => h'.endOne)

theorem Inv.endProc {s : State} {k : Nat} {how : End} {msg : Option (List Word)} {keep : Bool} (h : Inv s) :
    Inv (s.endProc k how msg keep) := by
  unfold State.endProc
  split
  · exact h
  · exact h.endOne.endInbox

/-! ### Exceptions, and what the instructions share -/

theorem Inv.stallOn {s : State} {k : Nat} {p : Proc} {kind : StallKind} {deadline : Option Nat} {yard : Bool}
    (h : Inv s) : Inv (s.stallOn k p kind deadline yard) := by
  unfold State.stallOn
  split
  · exact Inv.ite h h.setProc
  · exact h.setProc

theorem Inv.clocked {s : State} {k : Nat} {p : Proc} (h : Inv s) : Inv (s.clocked k p) := by
  unfold State.clocked
  extract_lets c
  split
  · exact h
  · exact h.setCore

theorem Inv.idleRoutine {s : State} {k : Nat} (h : Inv s) : Inv (s.idleRoutine k) :=
  h.modProc.detach.preempted.settle

theorem Inv.endRoutine {s : State} {k : Nat} {p : Proc} {code detail : Nat} {val pc : Word} {ext : Bool} (h : Inv s) :
    Inv (s.endRoutine k p code detail val pc ext) := by
  unfold State.endRoutine
  extract_lets pl deleg
  split
  · exact h
  · extract_lets ws s₄ _ s₅
    have h₅ : Inv s₅ := Inv.ite h.countCore.faultToSpace.post h.countCore.faultToSpace
    exact h₅.idleRoutine

theorem Inv.freeze {s : State} {k : Nat} {p : Proc} {code detail : Nat} {val pc : Word} {async ext : Bool}
    (h : Inv s) : Inv (s.freeze k p code detail val pc async ext) :=
  h.endProc

theorem Inv.unspill {s : State} {k : Nat} (h : Inv s) : Inv (s.unspill k) := by
  unfold State.unspill
  split
  · exact h
  · split
    · exact h
    · split
      · exact h.setProc
      · extract_lets _ q
        exact Inv.ite h.setProc h.setProc.freeze

theorem Inv.swapIn {s : State} {k : Nat} {victim : Option Nat} (h : Inv s) : Inv (s.swapIn k victim) := by
  unfold State.swapIn
  split
  · exact h
  · extract_lets s₁
    split
    · exact h.unspill
    · exact h.unspill.setProc.putRecord

theorem Inv.parkIn {s : State} {k : Nat} (h : Inv s) : Inv (s.parkIn k) :=
  h.swapIn.park

theorem Inv.haltFor {s : State} {k : Nat} {due : SupReq → Bool} (h : Inv s) : Inv (s.haltFor k due) := by
  unfold State.haltFor
  split
  · exact h
  · extract_lets now stay p s₄
    have h₄ : Inv s₄ := h.setProc.foldl fun _ _ h' => Inv.ite h'.tell h'
    exact Inv.ite h h₄.preempted.parkIn

theorem Inv.hold {s : State} {k : Nat} {p : Proc} {code detail : Nat} {val pc : Word} {async ext : Bool} (h : Inv s) :
    Inv (s.hold k p code detail val pc async ext) :=
  h.putProc.faultOn62.parkIn.preempted

theorem Inv.takeTrap {s : State} {k code detail : Nat} {val pc : Word} {async ext : Bool} (h : Inv s) :
    Inv (s.takeTrap k code detail val pc async ext) := by
  unfold State.takeTrap
  split
  · exact h
  · split
    · exact h.endRoutine
    · exact Inv.ite h (Inv.ite h.freeze (Inv.ite (Inv.ite h (Inv.ite h.hold h.freeze)) h.putProc))

theorem Inv.trap {s : State} {k : Nat} {p : Proc} {ext : Bool} {code detail : Nat} {val : Word} (h : Inv s) :
    Inv (s.trap k p ext code detail val) := by
  unfold State.trap
  exact Inv.ite h.stallOn h.setProc.takeTrap

theorem Inv.fillM {s : State} {k : Nat} {p : Proc} {n : BitVec 3} {val : Option Tile} (h : Inv s) :
    Inv (s.fillM k p n val) := by
  unfold State.fillM
  extract_lets pl s₂
  have h₂ : Inv s₂ := by
    unfold s₂
    split
    · exact h
    · exact h.putBytes
  exact Inv.ite h.modCore h₂.putBytes

theorem Inv.regWrite {s : State} {k : Nat} {w : RegWrite} (h : Inv s) : Inv (s.regWrite k w) := by
  unfold State.regWrite
  split
  · exact h.modLive
  · exact h.modLive
  · split
    · exact h
    · exact h.fillM
  · exact h.modLive
  · exact h.modLive
  · split
    · exact h
    · exact h.fillM

theorem Inv.finishWait {s : State} {k : Nat} {st : Word} (h : Inv s) : Inv (s.finishWait k st) := by
  unfold State.finishWait
  split
  · exact h
  · split
    · exact h
    · exact Inv.ite h.endProc h.modLive.wake.clocked

theorem Inv.setEvent {s : State} {k bit : Nat} (h : Inv s) : Inv (s.setEvent k bit) := by
  unfold State.setEvent
  extract_lets s₁
  split
  · exact h.modLive
  · split
    · exact h.modLive.finishWait
    · exact h.modLive

theorem Inv.unstall {s : State} {k : Nat} (h : Inv s) : Inv (s.unstall k) := by
  unfold State.unstall
  split
  · exact h
  · split
    · exact Inv.ite h.modLive.wake h
    · exact h

theorem Inv.fillEl {s : State} {k : Nat} {reg : BitVec 5} {e j data : Nat} {bad : Option Word} (h : Inv s) :
    Inv (s.fillEl k reg e j data bad) := by
  unfold State.fillEl
  split
  · exact h
  · split
    · exact h
    · extract_lets worse f' rest at_ s₅
      split
      · exact h.modLive
      · clear_value worse
        split
        · exact h.modLive.wake.takeTrap
        · exact Inv.ite h.modLive.finishWait h.modLive

theorem Inv.applyFill {s : State} {pl : Nat} {f : Fill} (h : Inv s) : Inv (s.applyFill pl f) := by
  unfold State.applyFill
  split
  · exact h.countCore
  · extract_lets s₁ s₂ s₃ s₄ s₅
    have h₁ : Inv s₁ := h.foldl fun _ _ h' => h'.regWrite
    have h₂ : Inv s₂ := by
      unfold s₂
      split
      · exact h₁
      · exact h₁.fillEl
    have h₃ : Inv s₃ := by
      unfold s₃
      split
      · exact h₂
      · exact h₂.modLive
    have h₄ : Inv s₄ := by
      unfold s₄
      split
      · exact h₃.modLive.wake
      · exact h₃.finishWait
    have h₅ : Inv s₅ := by
      unfold s₅
      split
      · split
        · exact h₃
        · exact h₃.finishWait
      · split
        · exact h₃
        · exact h₄.takeTrap
    exact h₅.unstall

theorem OutInv.run {s : State} {f : Nat → Proc → State} (hf : ∀ k p, Inv (f k p)) : OutInv (run s f) := by
  unfold Machine.run
  split
  · exact OutInv.fault _
  · exact OutInv.next (hf _ _)

theorem Inv.combineIf {s : State} {pl : Nat} {f : RedLine → Bool} (h : Inv s) : Inv (s.combineIf pl f) := by
  unfold State.combineIf
  extract_lets ls
  exact Inv.ite h (h.modCore.foldl fun _ _ h' => h'.post)

theorem Inv.combineAll {s : State} {pl : Nat} {sc : Scope} (h : Inv s) : Inv (s.combineAll pl sc) :=
  h.combineIf

theorem Inv.start {s : State} {k : Nat} {p : Proc} (h : Inv s) : Inv (s.start k p).1 := by
  unfold State.start
  extract_lets p₁ p₂
  split
  · exact h.setProc
  · split
    · exact h.modCore.setProc
    · exact h.setProc

theorem Inv.retired {t : State} {k : Nat} {p : Proc} (h : Inv t) : Inv (t.retired k p) := by
  unfold State.retired
  exact Inv.ite h.clocked h

theorem Inv.issue {nd : Need} {body : Nat → Proc → State → State} {s : State} (h : Inv s)
    (hbody : ∀ x₁ x₂ x₃, Inv x₃ → Inv (body x₁ x₂ x₃)) : OutInv (issue nd body s) := by
  unfold Machine.issue
  refine OutInv.run fun _ _ => ?_
  split
  · exact h.trap
  · split
    · exact h.trap
    · split
      · exact h.trap
      · split
        · exact h.stallOn
        · split
          · exact h.trap
          · exact h.stallOn
          · split
            · exact h.stallOn
            · split
              · exact h.trap
              · split
                · exact h.stallOn
                · split
                  extract_lets s₁
                  split
                  · exact hbody _ _ _ (h.start.fst ‹_›)
                  · exact Inv.ite h.combineAll.stallOn (Inv.ite h.stallOn (hbody _ _ _ (h.start.fst ‹_›)).retired)

theorem Inv.fin {s : State} {k : Nat} {p : Proc} (h : Inv s) : Inv (s.fin k p) :=
  h.setProc

theorem Inv.execG {srcs : List RegRef} {a : BitVec 5} {ext : Bool} {f : Proc → Word} {s : State} (h : Inv s) :
    OutInv (execG srcs a ext f s) :=
  h.issue fun _ _ _ h' => h'.setProc

theorem Inv.waitIn {s : State} {k : Nat} {p : Proc} {kind : WaitKind} {status : BitVec 5} {door : Nat}
    {deadline : Option Nat} (h : Inv s) : Inv (s.waitIn k p kind status door deadline) :=
  h.setProc

theorem Inv.jump {s : State} {k : Nat} {p : Proc} {target : Word} (h : Inv s) : Inv (s.jump k p target) := by
  unfold State.jump
  split
  · split
    · exact h.stallOn
    · split
      · extract_lets s₁ _ s₂
        have h₂ : Inv s₂ := Inv.ite h.setProc.clocked.post h.setProc.clocked
        exact h₂.idleRoutine
      · exact h.idleRoutine
  · exact h.setProc

/-! ### Issue and operands -/

theorem Inv.access {s : State} {k : Nat} {p : Proc} {ext : Bool} {va : Word} {n : Nat} {a : Access}
    {go : State → Nat → Word → State} (h : Inv s) (hgo : ∀ x₁ x₂ x₃, Inv x₁ → Inv (go x₁ x₂ x₃)) :
    Inv (s.access k p ext va n a go) := by
  unfold State.access
  split
  · exact h.trap
  · split
    · exact (h.translate.fst ‹_›).trap
    · exact (h.translate.fst ‹_›).stallOn
    · exact Inv.ite (h.translate.fst ‹_›).stallOn (hgo _ _ _ (h.translate.fst ‹_›))

theorem Inv.combineAt {s : State} {pl ga : Nat} (h : Inv s) : Inv (s.combineAt pl ga) :=
  h.combineIf

theorem Inv.loadGo {s : State} {k : Nat} {p : Proc} {ext : Bool} {a : BitVec 5} {z : LdSize} {va : Word} {t : Touch}
    (h : Inv s) : Inv (s.loadGo k p ext a z va t) := by
  unfold State.loadGo
  extract_lets pl q
  refine h.access fun _ _ _ h₃ => ?_
  split
  · exact h₃.modCore.setProc
  · extract_lets s₄
    exact Inv.ite h₃.post.setProc h₃.post.setProc

theorem Inv.storeGo {s : State} {k : Nat} {p : Proc} {ext : Bool} {a : BitVec 5} {z : StSize} {va : Word}
    {t : Touch} (h : Inv s) : Inv (s.storeGo k p ext a z va t) :=
  h.access fun _ _ _ h' => h'.combineAt.post.setProc

theorem Inv.notHost {s : State} {k : Nat} {p : Proc} {va : Word} {ga : Nat} {go : State} (h₁ : Inv s) (h₂ : Inv go) :
    Inv (s.notHost k p va ga go) := by
  unfold State.notHost
  split
  · exact h₁.trap
  all_goals exact h₂

theorem Inv.sendAtom {s : State} {r : AtomReq} (h : Inv s) : Inv (s.sendAtom r) :=
  h.post

theorem Inv.twoResults {s : State} {p : Proc} {a b : BitVec 5} (h : Inv s) : Inv (s.twoResults p a b).1 := by
  unfold State.twoResults
  split
  · exact h.upd
  · exact h

theorem Inv.produced {s : State} {k : Nat} {p q : Proc} (h : Inv s) : Inv (s.produced k p q) := by
  unfold State.produced
  exact Inv.ite h.setProc h.setProc

/-! ### Vector instructions on registers -/

theorem Inv.vecTo {srcs : List RegRef} {a : BitVec 5} {f : Proc → VReg} {s : State} (h : Inv s) :
    OutInv (vecTo srcs a f s) :=
  h.issue fun _ _ _ h' => h'.fin

theorem Inv.vec1 {a b : BitVec 5} {k : BitVec 3} {ty : Ty} {f : NumMode → Nat → Nat} {s : State} (h : Inv s) :
    OutInv (vec1 a b k ty f s) :=
  h.vecTo

theorem Inv.vec2 {a b c : BitVec 5} {k : BitVec 3} {ty : Ty} {f : NumMode → Nat → Nat → Nat} {s : State} (h : Inv s) :
    OutInv (vec2 a b c k ty f s) :=
  h.vecTo

theorem Inv.vecCount {a b c : BitVec 5} {k : BitVec 3} {ty : Ty} {f : Nat → Nat → Nat} {s : State} (h : Inv s) :
    OutInv (vecCount a b c k ty f s) :=
  h.vecTo

theorem Inv.vecFma {sub : Bool} {a b c : BitVec 5} {k : BitVec 3} {ty : Ty} {s : State} (h : Inv s) :
    OutInv (vecFma sub a b c k ty s) :=
  h.vecTo

theorem Inv.vecCmp {a : BitVec 3} {b c : BitVec 5} {k : BitVec 3} {ty : Ty} {f : Bool → Nat → Nat → Bool}
    {s : State} (h : Inv s) : OutInv (vecCmp a b c k ty f s) :=
  h.issue fun _ _ _ h' => h'.fin

theorem Inv.maskTo {a : BitVec 3} {f : Proc → Word} {s : State} (h : Inv s) : OutInv (maskTo a f s) :=
  h.issue fun _ _ _ h' => h'.fin

theorem Inv.vecRed {a b : BitVec 5} {f : Proc → Word} {s : State} (h : Inv s) : OutInv (vecRed a b f s) :=
  h.execG

theorem Inv.vecPerm {srcs : List RegRef} {a : BitVec 5} {k : BitVec 3} {ty : Ty} {f : Proc → Nat → Nat} {s : State}
    (h : Inv s) : OutInv (vecPerm srcs a k ty f s) :=
  h.vecTo

/-! ### Block-format instructions -/

theorem Inv.blockOp {s : State} {k : Nat} {p : Proc} {a : BitVec 5} {srcs : List VReg} {res : VReg} (h : Inv s) :
    Inv (s.blockOp k p a srcs res) := by
  unfold State.blockOp
  extract_lets bad s₂
  have h₂ : Inv s₂ := h.foldl fun _ _ h' => h'.countCore
  clear_value bad
  split
  · exact (h.foldl fun _ _ h' => h'.countCore).trap
  · exact (h.foldl fun _ _ h' => h'.countCore).fin

/-! ### Scalar instructions -/

theorem Inv.exec2 {a b c : BitVec 5} {f : Word → Word → Word} {s : State} (h : Inv s) : OutInv (exec2 a b c f s) :=
  h.execG

theorem Inv.exec1 {a b : BitVec 5} {f : Word → Word} {s : State} (h : Inv s) : OutInv (exec1 a b f s) :=
  h.execG

theorem Inv.immOp {f : Word → Word → Word} {a b : BitVec 5} {imm : Word} {ext : Bool} {s : State} (h : Inv s) :
    OutInv (immOp f a b imm ext s) :=
  h.execG

theorem Inv.branch {cond : Word → Word → Bool} {a b : BitVec 5} {imm : Word} {ext : Bool} {s : State} (h : Inv s) :
    OutInv (branch cond a b imm ext s) :=
  h.issue fun _ _ _ h' => h'.setProc

theorem Inv.dbnzBy {a : BitVec 5} {imm : Word} {ext : Bool} {s : State} (h : Inv s) : OutInv (dbnzBy a imm ext s) :=
  h.issue fun _ _ _ h' => h'.setProc

theorem Inv.jumpReg {b : BitVec 5} {link : Option (BitVec 5)} {s : State} (h : Inv s) : OutInv (jumpReg b link s) := by
  unfold Machine.jumpReg
  refine h.issue fun _ _ _ h₁ => ?_
  extract_lets t
  exact Inv.ite h₁.trap h₁.jump

/-! ### Loads and stores -/

theorem Inv.loadAt {a b : BitVec 5} {z : LdSize} {off : Word} {ext : Bool} {s : State} (h : Inv s) :
    OutInv (loadAt a b z off ext s) :=
  h.issue fun _ _ _ h' => h'.loadGo

theorem Inv.storeAt {a b : BitVec 5} {z : StSize} {off : Word} {ext : Bool} {s : State} (h : Inv s) :
    OutInv (storeAt a b z off ext s) :=
  h.issue fun _ _ _ h' => h'.storeGo

theorem Inv.syncLoad {a b c : BitVec 5} {t : Bool} {kind : Access} {op : AtomOp} {s : State} (h : Inv s) :
    OutInv (syncLoad a b c t kind op s) :=
  h.issue fun _ _ _ h' => h'.access fun _ _ _ h'' => h''.notHost h''.sendAtom.produced

theorem Inv.execSts {a b c : BitVec 5} {t : Bool} {s : State} (h : Inv s) : OutInv (execSts a b c t s) :=
  h.issue fun _ _ _ h' => h'.access fun _ _ _ h'' => h''.notHost h''.sendAtom.fin

theorem Inv.execFeget {a b : BitVec 5} {s : State} (h : Inv s) : OutInv (execFeget a b s) :=
  h.issue fun _ _ _ h' => h'.access fun _ _ _ h'' => h''.notHost h''.sendAtom.waitIn

theorem Inv.execFeset {a b : BitVec 5} {s : State} (h : Inv s) : OutInv (execFeset a b s) :=
  h.issue fun _ _ _ h' => h'.access fun _ _ _ h'' => h''.notHost h''.sendAtom.fin

theorem Inv.recallSpad {s : State} {pl : Nat} (h : Inv s) : Inv (s.recallSpad pl) :=
  h.foldl fun _ _ h' => h'.combineIf

theorem Inv.withSpad {s : State} {k : Nat} {p : Proc} {ext : Bool} {val : Word} {go : State} {gas : List Nat}
    (h₁ : Inv s) (h₂ : Inv go) : Inv (s.withSpad k p ext val go gas) := by
  unfold State.withSpad
  exact Inv.ite h₁.trap (Inv.ite h₁.recallSpad.stallOn h₂)

theorem Inv.selfFill {s : State} {k : Nat} {p : Proc} {ws : List RegWrite} (h : Inv s) : Inv (s.selfFill k p ws) :=
  h.post

theorem Inv.splAt {a b : BitVec 5} {z : LdSize} {off : Word} {ext : Bool} {s : State} (h : Inv s) :
    OutInv (splAt a b z off ext s) :=
  h.issue fun _ _ _ h' => h'.withSpad h'.selfFill.setProc

theorem Inv.spadPut {s : State} {k : Nat} {p : Proc} {o : Nat} {bs : List Byte} (h : Inv s) :
    Inv (s.spadPut k p o bs) :=
  h.putBytes.fillWords

theorem Inv.spsAt {a b : BitVec 5} {z : StSize} {off : Word} {ext : Bool} {s : State} (h : Inv s) :
    OutInv (spsAt a b z off ext s) :=
  h.issue fun _ _ _ h' => h'.withSpad h'.spadPut.setProc

theorem Inv.badPair {detail : Nat} {x : BitVec 26} {f : IForm} {a b : BitVec 5} {i : BitVec 16} {s : State}
    (h : Inv s) : OutInv (badPair detail x f a b i s) :=
  OutInv.run fun _ _ => h.trap

theorem Inv.execExtPair {x : BitVec 26} {f : IForm} {a b : BitVec 5} {i : BitVec 16} {s : State} (h : Inv s) :
    OutInv (execExtPair x f a b i s) := by
  unfold Machine.execExtPair
  extract_lets imm
  split
  · exact h.immOp
  · exact h.immOp
  · exact h.immOp
  · exact h.immOp
  · exact h.immOp
  · exact h.immOp
  · exact h.execG
  · exact h.immOp
  · exact h.immOp
  · exact h.branch
  · exact h.branch
  · exact h.branch
  · exact h.branch
  · exact h.branch
  · exact h.branch
  · exact h.dbnzBy
  · split
    · exact h.loadAt
    · exact h.badPair
  · split
    · exact h.storeAt
    · exact h.badPair
  · split
    · exact h.splAt
    · exact h.badPair
  · split
    · exact h.spsAt
    · exact h.badPair

/-! ### What a home does -/

theorem Inv.testMonS {s : State} {pl : Nat} (h : Inv s) : Inv (s.testMonS pl) := by
  unfold State.testMonS
  apply Inv.foldl
  · exact h
  · intro s₁ _ h₁
    split
    · exact Inv.ite h₁.finishWait h₁
    · exact h₁

theorem Inv.answer {s : State} {r : AtomReq} {f : Fill} (h : Inv s) : Inv (s.answer r f) :=
  h.post

theorem Inv.setGroup {s : State} {ga i v : Nat} (h : Inv s) : Inv (s.setGroup ga i v) :=
  h.putBytes

theorem Inv.setMembers {s : State} {ga v : Nat} (h : Inv s) : Inv (s.setMembers ga v) :=
  h.setGroup

theorem Inv.completePhase {s : State} {ga : Nat} (h : Inv s) : Inv (s.completePhase ga) :=
  h.setGroup.setMembers.setGroup.setGroup

theorem Inv.arrive {s : State} {ga : Nat} (h : Inv s) : Inv (s.arrive ga) := by
  unfold State.arrive
  extract_lets s₁
  exact Inv.ite h.setGroup.completePhase h.setGroup

theorem Inv.leaveGroup {s : State} {ga : Nat} (h : Inv s) : Inv (s.leaveGroup ga) := by
  unfold State.leaveGroup
  extract_lets m s₂
  exact Inv.ite (Inv.ite h.setMembers h).completePhase (Inv.ite h.setMembers h)

theorem Inv.performBad {s : State} {r : AtomReq} (h : Inv s) : Inv (s.performBad r) := by
  unfold State.performBad
  extract_lets c
  have h_c : ∀ x₁, Inv x₁ → Inv (c x₁) := by
    intro s₂ h₂
    exact h₂.countHome
  split
  · exact (h_c _ h).answer
  · exact (h_c _ h).putFull.answer
  · exact (h_c _ h).answer
  · exact h.countHome.answer
  · exact Inv.ite (h_c _ h).answer h.answer
  · exact Inv.ite (h_c _ h) h.putFull
  · exact (h_c _ h).answer
  · exact (h_c _ h).answer
  · exact Inv.ite (h_c _ h).answer (h_c _ h)
  all_goals exact (h_c _ h).answer

theorem Inv.performGood {s : State} {r : AtomReq} (h : Inv s) : Inv (s.performGood r) := by
  unfold State.performGood
  extract_lets free1 m s₃ s₄
  have h_free1 : ∀ x₁ x₂ x₃, Inv x₁ → Inv (free1 x₁ x₂ x₃) := by
    intro s₅ _ _ h₅
    exact Inv.ite h₅.upd h₅
  split
  · extract_lets n old eq s₉
    exact (Inv.ite h h.putBytes).putFull.answer
  · exact (h_free1 _ _ _ h.putFull).answer
  · exact (h_free1 _ _ _ h).answer
  · exact h.putBytes.putFull.answer
  · exact h.answer
  · exact h.putFull
  · exact h.answer
  · exact Inv.ite h.fillWords.answer h.fillWords.setMembers.answer
  · exact Inv.ite h.fillWords.leaveGroup.answer h.fillWords.leaveGroup
  · exact h.fillWords.arrive.answer
  · exact h.fillWords.setGroup.arrive.answer
  · exact h.fillWords.answer

theorem Inv.performHidden {s : State} {r : AtomReq} (h : Inv s) : Inv (s.performHidden r) := by
  unfold State.performHidden
  split
  · exact h.answer
  · exact h.answer
  · exact h.answer
  · exact h.answer
  · exact h
  · exact Inv.ite h.answer h
  all_goals exact h.answer

theorem Inv.perform {s : State} {r : AtomReq} (h : Inv s) : Inv (s.perform r) := by
  unfold State.perform
  exact Inv.ite h.performHidden (Inv.ite h.performBad h.performGood)

theorem Inv.serve {s : State} {h : Nat} {sel : AtomReq → Bool} {fuel : Nat} (hs : Inv s) : Inv (s.serve h sel fuel) := by
  induction fuel generalizing s with
  | zero => exact hs
  | succ fuel ih =>
    unfold State.serve
    split
    · exact hs
    · exact ih hs.modHome.perform

theorem Inv.unpark {s : State} {r : AtomReq} (h : Inv s) : Inv (s.unpark r) :=
  h.modHome.perform

theorem Inv.walkFull {s : State} {ga fuel : Nat} (h : Inv s) : Inv (s.walkFull ga fuel) := by
  induction fuel generalizing s with
  | zero => exact h
  | succ fuel ih =>
    unfold State.walkFull
    split
    · exact h
    · split
      · exact h.unpark
      · exact ih h.unpark

theorem Inv.walkEmpty {s : State} {ga : Nat} (h : Inv s) : Inv (s.walkEmpty ga) := by
  unfold State.walkEmpty
  split
  · exact h
  · exact h.unpark.walkFull

theorem Inv.rewoken {s old : State} {ga n : Nat} (h : Inv s) : Inv (s.rewoken old ga n) := by
  unfold State.rewoken
  apply Inv.foldl
  · exact h
  · intro s₁ _ h₁
    extract_lets w
    split
    · exact h₁.walkFull
    · exact h₁.walkEmpty
    · exact h₁
    · exact h₁

theorem Inv.tested {s : State} {ga n : Nat} (h : Inv s) : Inv (s.tested ga n) := by
  unfold State.tested
  extract_lets s₁
  split
  · exact h.serve.testMonS
  all_goals exact h.serve

theorem Inv.wrote {s old : State} {ga n : Nat} (h : Inv s) : Inv (s.wrote old ga n) := by
  unfold State.wrote
  exact h.rewoken.tested

theorem Inv.combineLine {s : State} {l : RedLine} (h : Inv s) : Inv (s.combineLine l) := by
  unfold State.combineLine
  split
  · exact h.serve
  · exact Inv.ite h.countHome (Inv.ite h (h.foldl fun _ _ h' => h'.combineEl.wrote))

theorem Inv.recall {s : State} {line : Nat} (h : Inv s) : Inv (s.recall line) := by
  unfold State.recall
  split
  · exact h
  · exact h.uncopied.foldl fun _ _ h' => h'.combineLine

theorem Inv.execPortRead {n : Nat} {s : State} (h : Inv s) : OutInv (execPortRead n s) := by
  unfold Machine.execPortRead
  split
  · split
    · exact OutInv.next h.holdPort
    · extract_lets s₁ bad s₃ data s₅
      have h₃ : Inv s₃ := Inv.ite (h.charge _ ‹_›).took.recall.countHome (h.charge _ ‹_›).took.recall
      have h₅ : Inv s₅ := by
        unfold s₅
        split
        · exact Inv.ite h₃ h₃.modCore
        · exact h₃
      exact OutInv.next h₅.post
  · exact OutInv.next h

theorem Inv.execPortWrite {n : Nat} {s : State} (h : Inv s) : OutInv (execPortWrite n s) := by
  unfold Machine.execPortWrite
  split
  · split
    · exact OutInv.next h.holdPort
    · extract_lets s₁
      split
      · exact OutInv.next (h.charge _ ‹_›).took.countHome
      · split
        · exact OutInv.next (h.charge _ ‹_›).took
        · exact OutInv.next (h.charge _ ‹_›).took.putBytes.fillWords.wrote
  · exact OutInv.next h

theorem Inv.parkReq {s : State} {r : AtomReq} (h : Inv s) : Inv (s.parkReq r) := by
  unfold State.parkReq
  extract_lets h₁
  exact Inv.ite h (Inv.ite h.modHome h.countHome.post)

theorem Inv.execPortAtomic {n : Nat} {s : State} (h : Inv s) : OutInv (execPortAtomic n s) := by
  unfold Machine.execPortAtomic
  split
  · split
    · exact OutInv.next h.holdPort
    · extract_lets s₁
      split
      · exact OutInv.next (h.charge _ ‹_›).took.recall.perform.wrote
      · split
        · exact OutInv.next (h.charge _ ‹_›).took.recall.post
        · exact OutInv.next (h.charge _ ‹_›).took.recall.parkReq
  · exact OutInv.next h

theorem Inv.execFeRefusal {n : Nat} {s : State} (h : Inv s) : OutInv (execFeRefusal n s) := by
  unfold Machine.execFeRefusal
  split
  · extract_lets s₁
    split
    · exact OutInv.next h.took
    · split
      · exact OutInv.next h.took.applyFill
      · exact OutInv.next h.took.sendAtom
  · exact OutInv.next h

theorem Inv.execPortCombine {n : Nat} {s : State} (h : Inv s) : OutInv (execPortCombine n s) := by
  unfold Machine.execPortCombine
  split
  · split
    · exact OutInv.next h.holdPort
    · exact OutInv.next ((OptInv.ite (OptInv.some h) h.charge) _ ‹_›).took.combineLine
  · exact OutInv.next h

theorem Inv.execPortRecall {home line : Nat} {s : State} (h : Inv s) : OutInv (execPortRecall home line s) := by
  unfold Machine.execPortRecall
  split
  · exact OutInv.next h.recall
  · exact OutInv.next h

theorem Inv.cxl {s : State} {src ga : Nat} {wr : Option (List Byte)} (h : Inv s) : Inv (s.cxl src ga wr) := by
  unfold State.cxl
  split
  · extract_lets s₁
    split
    · exact h.count.upd
    · exact h.count
  · extract_lets s₂ s₃
    split
    · exact Inv.ite h.recall.countHome.upd h.recall.upd
    · exact Inv.ite h.recall.countHome h.recall.putBytes.putFull.wrote

theorem Inv.execPortHost {n : Nat} {s : State} (h : Inv s) : OutInv (execPortHost n s) := by
  unfold Machine.execPortHost
  split
  · split
    · split
      · exact OutInv.next h.holdPort
      · exact OutInv.next (h.charge _ ‹_›).took.cxl
    · extract_lets s₁ s₂
      split
      · exact OutInv.next (Inv.ite h.took.countHome h.took.putBytes)
      · exact OutInv.next (Inv.ite h.took.countHome h.took).post
      · exact OutInv.next h.took
  · exact OutInv.next h

theorem Inv.execBudgetBoundary {home budget : Nat} {s : State} (h : Inv s) :
    OutInv (execBudgetBoundary home budget s) := by
  unfold Machine.execBudgetBoundary
  extract_lets x b s₃
  have h₃ : Inv s₃ := by
    unfold s₃
    split
    · exact h
    · exact h.count
  split
  · exact OutInv.next h
  · exact OutInv.next h₃.setHome

/-! ### Atomics, fences and barriers -/

theorem Inv.atomic {op : Nat} {a b c : BitVec 5} {o : AtomOrd} {d : Bool} {s : State} (h : Inv s) :
    OutInv (atomic op a b c o d s) :=
  h.issue fun _ _ _ h' => h'.access fun _ _ _ h'' => h''.notHost h''.sendAtom.produced

theorem Inv.reduce {s : State} {pl ga op : Nat} {w : Bool} {x : Word} {leaf : Nat × Nat × Nat} (h : Inv s) :
    Inv (s.reduce pl ga op w x leaf) :=
  h.modCore.foldl fun _ _ h' => h'.post

theorem Inv.reduction {op : Nat} {b c : BitVec 5} {d : Bool} {s : State} (h : Inv s) :
    OutInv (reduction op b c d s) := by
  unfold Machine.reduction
  refine h.issue fun _ _ _ h₁ => ?_
  extract_lets va
  refine h₁.access fun _ _ _ h₃ => ?_
  apply Inv.notHost
  · exact h₃
  · split
    · exact h₃.stallOn
    · extract_lets s₄
      exact (Inv.ite h₃.countHome h₃.reduce).fin

theorem Inv.execDeleg {a b c : BitVec 5} {s : State} (h : Inv s) : OutInv (execDeleg a b c s) := by
  unfold Machine.execDeleg
  refine h.issue fun _ _ _ h₁ => ?_
  extract_lets va call
  refine h₁.access fun _ _ _ h₄ => ?_
  split
  · exact h₄.post.fin
  all_goals exact h₄.trap

theorem Inv.execMonw {a b c : BitVec 5} {t : Bool} {n : MonCond} {mem : Bool} {s : State} (h : Inv s) :
    OutInv (execMonw a b c t n mem s) := by
  unfold Machine.execMonw
  refine h.issue fun _ _ _ h₁ => ?_
  extract_lets va o
  split
  · exact h₁.access fun _ _ _ h' => h'.notHost h'.sendAtom.waitIn.block
  · exact h₁.withSpad (Inv.ite h₁.fin h₁.waitIn.block)

theorem Inv.groupOp {op : AtomOp} {a b : BitVec 5} {t : Touch} {kind : Access} {tok : List RegRef}
    {deadline : Nat → Proc → State → Option Nat} {word : IWord} {mk : Proc → AtomOp} {s : State} (h : Inv s) :
    OutInv (groupOp op a b t kind tok deadline word mk s) := by
  unfold Machine.groupOp
  refine h.issue fun _ _ _ h₁ => ?_
  extract_lets va
  refine h₁.access fun _ _ _ h₃ => ?_
  exact h₃.notHost (Inv.ite (Inv.ite h₃.sendAtom.waitIn h₃.sendAtom.fin) h₃.sendAtom.waitIn)

/-! ### Processes -/

theorem Inv.newArea {s : State} {ga : Nat} (h : Inv s) : Inv (s.newArea ga) :=
  h.zero.putBytes.putBytes

theorem Inv.reserve {s : State} {pl asid : Nat} {kind : ProcKind} (h : Inv s) : Inv (s.reserve pl asid kind) := by
  unfold State.reserve
  split
  · exact h
  · split
    · exact h
    · exact h.upd.setChan.setCore.setProc

theorem Inv.cannotSpill {s : State} {pl asid : Nat} {spawner : Word} {why : SpillRoom} (h : Inv s) :
    Inv (s.cannotSpill pl asid spawner why) := by
  unfold State.cannotSpill
  split
  · exact h
  · exact h.countCore
  · exact h.countCore.faultToSpace

theorem Inv.makeRoom {s : State} {pl asid prio : Nat} {spawner : Word} (h : Inv s) :
    Inv (s.makeRoom pl asid prio spawner).1 := by
  unfold State.makeRoom
  split
  · exact h
  · exact h
  · exact h.spill
  · exact h.cannotSpill

theorem Inv.enter {s : State} {pl e gen : Nat} {p : Proc} {ring : Option Nat} (h : Inv s) :
    Inv (s.enter pl e gen p ring) := by
  unfold State.enter
  extract_lets k c q s₄ s₅ s₆ s₇
  have h₇ : Inv s₇ := by
    unfold s₇
    split
    · exact h.upd.setChan.modCore.setProc
    · exact h.upd.setChan.modCore.setProc.putRecord
  exact h₇.makeReady

theorem Inv.create {s : State} {pl : Nat} {c : Child} (h : Inv s) : Inv (s.create pl c).1 := by
  unfold State.create
  extract_lets e unit
  split
  · split
    · exact h.makeRoom.fst ‹_›
    · extract_lets gen s₄ s₅ s₆
      have h₅ : Inv s₅ := Inv.ite (h.makeRoom.fst ‹_›).reserve.reserve (h.makeRoom.fst ‹_›).reserve.reserve.zero
      exact (Inv.ite h₅.newArea h₅).enter
  · exact h

theorem Inv.spawnNext {s : State} {from_ : Nat} {c : Child} {o : Own} (h : Inv s) : Inv (s.spawnNext from_ c o) := by
  unfold State.spawnNext
  split
  · exact h.post
  · exact h.countCore.post

theorem Inv.execSpawn {a b c : BitVec 5} {n : BitVec 2} {s : State} (h : Inv s) : OutInv (execSpawn a b c n s) := by
  unfold Machine.execSpawn
  refine h.issue fun _ _ _ h₁ => ?_
  extract_lets pl kind arg t
  split
  extract_lets bad types own s₉
  have h_bad : ∀ x₁ x₂, Inv x₂ → Inv (bad x₁ x₂) := by
    intro _ s₁₀ h₁₀
    exact h₁₀.fin
  split
  · exact h_bad _ _ h₁
  · split
    · exact h_bad _ _ h₁
    · split
      · exact h_bad _ _ h₁.countCore
      · extract_lets child
        split
        · exact h₁.waitIn.modCore.modCore.post
        · exact h₁.waitIn.spawnNext

theorem Inv.execChildCreation {n : Nat} {s : State} (h : Inv s) : OutInv (execChildCreation n s) := by
  unfold Machine.execChildCreation
  split
  · extract_lets s₁
    split
    · exact OutInv.next (h.took.create.fst ‹_›).post
    · exact OutInv.next (h.took.create.fst ‹_›).spawnNext
  · exact OutInv.next h

theorem Inv.execStealArrival {n : Nat} {s : State} (h : Inv s) : OutInv (execStealArrival n s) := by
  unfold Machine.execStealArrival
  split
  · extract_lets s₁
    split
    · exact OutInv.next (h.took.create.fst ‹_›).countCore.countCore.post
    · exact OutInv.next (h.took.create.fst ‹_›).post
  · exact OutInv.next h

theorem Inv.execStealReturned {n : Nat} {s : State} (h : Inv s) : OutInv (execStealReturned n s) := by
  unfold Machine.execStealReturned
  split
  · exact OutInv.next h.took.countCore.spawnNext
  · exact OutInv.next h

theorem Inv.execStealRequest {place : Nat} {s : State} (h : Inv s) : OutInv (execStealRequest place s) := by
  unfold Machine.execStealRequest
  extract_lets c core inShed tried r
  split
  · exact OutInv.next h
  · split
    · exact OutInv.next h
    · extract_lets c₆ vp
      split
      · exact OutInv.next h.setCore.modCore
      · exact OutInv.next h.setCore

theorem Inv.execStealExpiry {place : Nat} {s : State} (h : Inv s) : OutInv (execStealExpiry place s) :=
  OutInv.next (h.modCore.foldl fun _ _ h' => h'.countCore.modCore)

theorem Inv.exit {s : State} {k : Nat} {p : Proc} {keep : Option Retained} (h : Inv s) : Inv (s.exit k p keep) := by
  unfold State.exit
  split
  · exact h.stallOn
  · extract_lets s₁
    split
    · exact h.clocked.endProc
    · exact h.clocked.endProc.modCore

theorem Inv.execExitRetainTimeout {place : Nat} {s : State} (h : Inv s) : OutInv (execExitRetainTimeout place s) :=
  OutInv.next (h.modCore.foldl fun _ _ h' => h'.zero)

theorem Inv.execJwait {a : BitVec 5} {t : Bool} {n : BitVec 2} {s : State} (h : Inv s) :
    OutInv (execJwait a t n s) := by
  unfold Machine.execJwait
  refine h.issue fun _ _ _ h₁ => ?_
  extract_lets j
  exact Inv.ite h₁.fin h₁.waitIn.block

theorem Inv.execChildEnd {n : Nat} {s : State} (h : Inv s) : OutInv (execChildEnd n s) := by
  unfold Machine.execChildEnd
  split
  · extract_lets s₁
    split
    · exact OutInv.next h.took
    · extract_lets s₂
      split
      · exact OutInv.next h.took.modLive
      · split
        · split
          · exact OutInv.next h.took.modLive.modLive.finishWait
          · exact OutInv.next h.took.modLive
        · exact OutInv.next h.took.modLive
  · exact OutInv.next h

/-! ### Messages to the host -/

theorem Inv.signal {s : State} {dev v : Nat} (h : Inv s) : Inv (s.signal dev v) := by
  unfold State.signal
  extract_lets x key
  exact Inv.ite h.setDevice h.upd

theorem Inv.respond {s : State} {win st : Nat} {res : List Word} (h : Inv s) : Inv (s.respond win st res) :=
  h.setWindow.signal

theorem Inv.bindDone {s : State} {src : Nat} {own : Own} {code door : Nat} (h : Inv s) :
    Inv (s.bindDone src own code door) := by
  unfold State.bindDone
  exact Inv.ite h.post h.respond

theorem Inv.setPart {s : State} {dev kind inst : Nat} {x : Machine.Part} (h : Inv s) :
    Inv (s.setPart dev kind inst x) :=
  h.setDevice

theorem Inv.setService {s : State} {dev kind inst : Nat} {b : Bool} (h : Inv s) :
    Inv (s.setService dev kind inst b) :=
  h.setPart

theorem Inv.hostPut {s : State} {dev h : Nat} {bs : List Byte} (hs : Inv s) : Inv (s.hostPut dev h bs) :=
  hs.put

/-! ### Channels -/

theorem Inv.enterRound {s : State} {k : Nat} {p q : Proc} (h : Inv s) : Inv (s.enterRound k p q) :=
  h.putProc.haltFor

theorem Inv.roundTest {s : State} {k : Nat} (h : Inv s) : Inv (s.roundTest k) := by
  unfold State.roundTest
  split
  · exact h
  · exact Inv.ite h (Inv.ite h h.enterRound)

theorem Inv.takeMarker {s : State} {k door : Nat} (h : Inv s) : Inv (s.takeMarker k door) :=
  h.modLive.roundTest

theorem Inv.token {s : State} {c : Nat} {x : Chan} (h : Inv s) : Inv (s.token c x) := by
  unfold State.token
  exact Inv.ite h h.post

theorem Inv.toCopy {s : State} {k c : Nat} (h : Inv s) : Inv (s.toCopy k c) :=
  h.modProc

theorem Inv.toWait {s : State} {k gen c : Nat} (h : Inv s) : Inv (s.toWait k gen c) := by
  unfold State.toWait
  split
  · exact h
  · split
    · exact Inv.ite h.setProc h
    · exact h

theorem Inv.pump {s : State} {c fuel : Nat} (h : Inv s) : Inv (s.pump c fuel) := by
  induction fuel generalizing s with
  | zero => exact h
  | succ fuel ih =>
    unfold State.pump
    split
    · exact h
    · split
      · exact h
      · split
        · exact h.setChan
        · extract_lets behind pl
          split
          · exact h
          · split
            · exact ih h.setChan.takeMarker
            · exact h.setChan
            · split
              · exact h
              · split
                · split
                  · exact h.setChan.token.applyFill
                  · exact h.setChan.toCopy.post
                · exact h.setChan.applyFill.post
                · exact Inv.ite h h.setChan.toCopy.post
                · exact h.setChan.applyFill
                · exact h.setChan.token.applyFill
                · exact h.setChan.applyFill
                · exact h

theorem Inv.altMarkers {s : State} {k : Nat} {mask : Word} {fuel : Nat} (h : Inv s) : Inv (s.altMarkers k mask fuel) := by
  induction fuel generalizing s with
  | zero => exact h
  | succ fuel ih =>
    unfold State.altMarkers
    split
    · exact h
    · split
      · exact h
      · split
        · exact h
        · exact ih h.modChan.takeMarker

theorem Inv.altTest {s : State} {k : Nat} (h : Inv s) : Inv (s.altTest k) := by
  unfold State.altTest
  split
  · exact h
  · split
    · extract_lets s₁
      split
      · exact h.altMarkers
      · split
        · exact h.altMarkers
        · split
          · exact h.altMarkers
          · exact h.altMarkers.modLive.finishWait
    · exact h

theorem Inv.holderEvent {s : State} {k : Nat} (h : Inv s) : Inv (s.holderEvent k) := by
  unfold State.holderEvent
  extract_lets s₁
  have h₁ : Inv s₁ := by
    unfold s₁
    split
    · exact h
    · exact h.foldl fun _ _ h' => Inv.ite h' h'.pump
  exact h₁.altTest

theorem Inv.chanEvent {s : State} {c : Nat} (h : Inv s) : Inv (s.chanEvent c) := by
  unfold State.chanEvent
  split
  · exact h
  · exact h.pump.foldl fun _ _ h' => h'.holderEvent

theorem Inv.toRecord {s : State} {c : Nat} {e : Entry} (h : Inv s) : Inv (s.toRecord c e) := by
  unfold State.toRecord
  split
  · exact h
  · exact Inv.ite h.setChan (Inv.ite h.ackOffers h.setChan.chanEvent)

theorem Inv.tokenOf {s : State} {c : Option Nat} (h : Inv s) : Inv (s.tokenOf c) := by
  unfold State.tokenOf
  split
  · exact h
  · exact h.token

theorem Inv.modEp {s : State} {ep : Nat} {f : HostEp → HostEp} (h : Inv s) : Inv (s.modEp ep f) := by
  unfold State.modEp
  split
  · exact h
  · exact h.upd

theorem Inv.feedEndpoint {s : State} {ep fuel : Nat} (h : Inv s) : Inv (s.feedEndpoint ep fuel) := by
  induction fuel generalizing s with
  | zero => exact h
  | succ fuel ih =>
    unfold State.feedEndpoint
    split
    · exact h
    · extract_lets dev head tail put
      have h_put : ∀ x₁ x₂, Inv x₁ → Inv (put x₁ x₂) := by
        intro s₅ _ h₅
        exact Inv.ite h₅.hostPut.hostPut h₅.hostPut.hostPut.signal
      split
      · exact h
      · extract_lets s₆
        split
        · exact h.modEp
        · exact h.modEp.closeRecv
      · split
        · exact h
        · extract_lets s₇
          split
          · exact ih (h_put _ _ h.modEp).tokenOf
          · exact ih (h_put _ _ h.modEp).modEp
          · exact ih h.modEp.tokenOf
          all_goals exact ih h.modEp

theorem Inv.ackEndpoint {s : State} {ep : Nat} (h : Inv s) : Inv (s.ackEndpoint ep) := by
  unfold State.ackEndpoint
  split
  · exact h
  · exact h.modEp.foldl fun _ _ h' => h'.post

theorem Inv.toEndpoint {s : State} {ep : Nat} {i : Entry} (h : Inv s) : Inv (s.toEndpoint ep i) :=
  h.modEp.feedEndpoint.ackEndpoint

theorem Inv.fromHost {s : State} {ep fuel : Nat} (h : Inv s) : Inv (s.fromHost ep fuel) := by
  induction fuel generalizing s with
  | zero => exact h
  | succ fuel ih =>
    unfold State.fromHost
    split
    · exact h
    · split
      · exact h
      · extract_lets dev head ws i free s₆
        exact Inv.ite h (Inv.ite h (Inv.ite h.hostPut.post (ih h.hostPut.setChan.post)))

theorem Inv.hostGoesOn {s : State} {c : Nat} (h : Inv s) : Inv (s.hostGoesOn c) :=
  h.foldl fun _ _ h' => h'.fromHost

theorem Inv.discard {s : State} {dev c : Nat} {x : Chan} {e : Entry} (h : Inv s) : Inv (s.discard dev c x e) := by
  unfold State.discard
  split
  · exact h.count.token
  · exact h.count.post
  · exact h.count.post
  · exact h.token
  all_goals exact h

theorem Inv.control {s : State} {c : Nat} {e : Entry} (h : Inv s) : Inv (s.control c e) := by
  unfold State.control
  split
  · exact h
  · split
    · exact h.toEndpoint
    · exact h.discard
    all_goals exact h.toRecord

theorem Inv.execRecordOffer {n : Nat} {s : State} (h : Inv s) : OutInv (execRecordOffer n s) := by
  unfold Machine.execRecordOffer
  split
  · exact OutInv.next h.took.control
  · exact OutInv.next h

theorem Inv.execRecordItem {n : Nat} {s : State} (h : Inv s) : OutInv (execRecordItem n s) := by
  unfold Machine.execRecordItem
  split
  · exact OutInv.next h.took.control
  · extract_lets s₁ s₂
    have h₂ : Inv s₂ := by
      unfold s₂
      split
      · exact h.took.setEvent
      · exact h.took
    exact OutInv.next (h₂.foldl fun _ _ h' => h'.control)
  · exact OutInv.next h

theorem Inv.execRecordMarker {n : Nat} {s : State} (h : Inv s) : OutInv (execRecordMarker n s) := by
  unfold Machine.execRecordMarker
  split
  · exact OutInv.next h.took.control
  · exact OutInv.next h

theorem Inv.execRecordErrorToken {n : Nat} {s : State} (h : Inv s) : OutInv (execRecordErrorToken n s) := by
  unfold Machine.execRecordErrorToken
  split
  · exact OutInv.next h.took.control
  · exact OutInv.next h

theorem Inv.execRecordClose {n : Nat} {s : State} (h : Inv s) : OutInv (execRecordClose n s) := by
  unfold Machine.execRecordClose
  split
  · exact OutInv.next h.took.control
  · exact OutInv.next h

theorem Inv.execRecordReceive {n : Nat} {s : State} (h : Inv s) : OutInv (execRecordReceive n s) := by
  unfold Machine.execRecordReceive
  split
  · extract_lets s₁
    split
    · exact OutInv.next h.took.applyFill
    · exact OutInv.next h.took.setChan.chanEvent
  · exact OutInv.next h

theorem Inv.execRecordWithdrawal {n : Nat} {s : State} (h : Inv s) : OutInv (execRecordWithdrawal n s) := by
  unfold Machine.execRecordWithdrawal
  split
  · extract_lets s₁ s₂
    split
    · exact OutInv.next h.took
    · split
      · extract_lets pending
        split
        · exact OutInv.next h.took.upd.post
        · split
          · exact OutInv.next h.took.setChan.post
          · exact OutInv.next h.took
      · split
        · split
          · exact OutInv.next h.took.setChan.applyFill
          · exact OutInv.next h.took
        · exact OutInv.next h.took
  · exact OutInv.next h

theorem Inv.sentOne {s : State} {c : Nat} (h : Inv s) : Inv (s.sentOne c) :=
  h.modChan

theorem Inv.execSendAck {n : Nat} {s : State} (h : Inv s) : OutInv (execSendAck n s) := by
  unfold Machine.execSendAck
  split
  · extract_lets s₁ s₂
    split
    · exact OutInv.next (Inv.ite h.took.sentOne h.took).hostGoesOn
    · split
      · split
        · exact OutInv.next (Inv.ite h.took.sentOne h.took).finishWait
        · exact OutInv.next (Inv.ite h.took.sentOne h.took)
      · split
        · exact OutInv.next (Inv.ite h.took.sentOne h.took).finishWait
        · exact OutInv.next (Inv.ite h.took.sentOne h.took)
      · split
        · exact OutInv.next (Inv.ite h.took.sentOne h.took).finishWait
        · exact OutInv.next (Inv.ite h.took.sentOne h.took)
      · exact OutInv.next (Inv.ite h.took.sentOne h.took).altTest
      · exact OutInv.next (Inv.ite h.took.sentOne h.took)
  · exact OutInv.next h

theorem Inv.sendItem {s : State} {e : Door} {k : Nat} {p : Proc} {nan : Bool} {x : Chan} {ws : List Word}
    {tile : Option Nat} (h : Inv s) : Inv (s.sendItem e k p nan x ws tile) := by
  unfold State.sendItem
  extract_lets c s₂ s₃
  split
  · exact h.setChan.post
  · exact h.setChan.spadSeen.post

theorem Inv.serveCredit {s : State} {c : Nat} (h : Inv s) : Inv (s.serveCredit c) := by
  unfold State.serveCredit
  split
  · split
    · exact h
    · split
      · extract_lets s₁
        split
        · exact h.sendItem.finishWait
        · exact h.sendItem.toCopy
      · exact h
  · exact h

theorem Inv.execSlotToken {n : Nat} {s : State} (h : Inv s) : OutInv (execSlotToken n s) := by
  unfold Machine.execSlotToken
  split
  · extract_lets s₁
    split
    · exact OutInv.next h.took
    · exact OutInv.next h.took.modChan.serveCredit.hostGoesOn.chanEvent
  · exact OutInv.next h

theorem Inv.execTileGo {n : Nat} {s : State} (h : Inv s) : OutInv (execTileGo n s) := by
  unfold Machine.execTileGo
  split
  · extract_lets s₁
    split
    · exact OutInv.next h.took.toCopy.copyTile
    · exact OutInv.next h.took.modChan.toWait.post
  · exact OutInv.next h

theorem Inv.copySent {s : State} {k gen c : Nat} (h : Inv s) : Inv (s.copySent k gen c) := by
  unfold State.copySent
  split
  · exact h
  · split
    · exact Inv.ite h.sentOne.finishWait h
    · exact h

theorem Inv.tellCopied {s : State} {k gen c pl : Nat} (h : Inv s) : Inv (s.tellCopied k gen c pl) := by
  unfold State.tellCopied
  exact Inv.ite h.copySent h.post

theorem Inv.stagedItem {s : State} {c k gen : Nat} {x : Chan} {i : Item} (h : Inv s) :
    Inv (s.stagedItem c k gen x i) := by
  unfold State.stagedItem
  extract_lets s₁ s₂
  split
  · exact (Inv.ite h h.putStage).control
  · split
    · exact (Inv.ite h h.putStage).control.copySent
    · exact Inv.ite (Inv.ite h h.putStage).control.copySent (Inv.ite h h.putStage).control.post

theorem Inv.execTileCopyLanded {n : Nat} {s : State} (h : Inv s) : OutInv (execTileCopyLanded n s) := by
  unfold Machine.execTileCopyLanded
  split
  · extract_lets s₁
    split
    · exact OutInv.next h.took.copySent
    · split
      · exact OutInv.next h.took.stagedItem
      · split
        · exact OutInv.next h.took.modChan.tellCopied
        · extract_lets bs off s₄ s₅ _ s₆
          have h₄ : Inv s₄ := h.took.foldl fun _ _ h' => h'.putBytes.putFull
          exact OutInv.next h₄.modChan.testMonS.token.applyFill.tellCopied.chanEvent
  · exact OutInv.next h

theorem Inv.haloDone {s : State} {k gen dir code : Nat} (h : Inv s) : Inv (s.haloDone k gen dir code) := by
  unfold State.haloDone
  split
  · exact h
  · split
    · split
      · extract_lets codes
        exact Inv.ite h.modProc h.finishWait
      · exact h
    · exact h

theorem Inv.flushStamps {s : State} {c fuel : Nat} (h : Inv s) : Inv (s.flushStamps c fuel) := by
  induction fuel generalizing s with
  | zero => exact h
  | succ fuel ih =>
    unfold State.flushStamps
    split
    · exact h
    · split
      · extract_lets s₁ s₂ s₃
        have h₂ : Inv s₂ := by
          unfold s₂
          split
          · exact h.setChan.putBytes.putFull
          · exact h.setChan.putBytes.putFull.post
        have h₃ : Inv s₃ := by
          unfold s₃
          split
          · exact h₂.testMonS
          all_goals exact h₂
        exact ih h₃
      · split
        · split
          · exact h
          · extract_lets s₄
            split
            · exact h.setChan.withdraw
            · exact h.setChan.withdraw.finishWait
        · exact h

theorem Inv.refusePush {s : State} {p : Push} {code : Nat} (h : Inv s) : Inv (s.refusePush p code) := by
  unfold State.refusePush
  extract_lets s₁ s₂
  have h₁ : Inv s₁ := by
    unfold s₁
    split
    · exact h
    · exact h.modChan.flushStamps
  have h₂ : Inv s₂ := by
    unfold s₂
    split
    · exact h₁
    · exact h₁.post
  split
  · exact h₂
  · exact h₂.haloDone

theorem Inv.landPush {s : State} {p : Push} (h : Inv s) : Inv (s.landPush p) := by
  unfold State.landPush
  split
  · exact h.refusePush
  · split
    · exact h.refusePush
    · exact h.setChan
    · exact h.refusePush
    · split
      · exact h.refusePush
      · split
        · exact h.refusePush
        · extract_lets s₁ s₂ s₃ s₄
          have h₂ : Inv s₂ := by
            unfold s₂
            split
            · exact h.spadPut
            · exact h.spadPut.spadPut
          have h₃ : Inv s₃ := by
            unfold s₃
            split
            · exact h₂.modChan.flushStamps
            · split
              · exact h₂
              · exact h₂.post
          have h₄ : Inv s₄ := by
            unfold s₄
            split
            · exact h₃
            · exact h₃.haloDone
          exact h₄.testMonS
    · exact h.refusePush

theorem Inv.execWindowPush {n : Nat} {s : State} (h : Inv s) : OutInv (execWindowPush n s) := by
  unfold Machine.execWindowPush
  split
  · exact OutInv.next h.took.landPush
  · exact OutInv.next h

theorem Inv.drawStamp {s : State} {c : Nat} (h : Inv s) : Inv (s.drawStamp c).1 := by
  unfold State.drawStamp
  split
  · exact h
  · exact h.setChan

theorem Inv.execFaultMessageRelease {place : Nat} {s : State} (h : Inv s) :
    OutInv (execFaultMessageRelease place s) :=
  OutInv.next (h.modCore.foldl fun _ _ h' => h'.faultSend)

/-! ### Doors and rebinding -/

theorem Inv.withDoor {s : State} {k : Nat} {p : Proc} {d : BitVec 6} {send : Option Bool} {go : Door → State}
    (h : Inv s) (hgo : ∀ x₁, Inv (go x₁)) : Inv (s.withDoor k p d send go) := by
  unfold State.withDoor
  split
  · exact h.trap
  · exact Inv.ite h.trap (hgo _)

theorem Inv.notFixed {s : State} {k : Nat} {p : Proc} {d : BitVec 6} {go : State} (h₁ : Inv s) (h₂ : Inv go) :
    Inv (s.notFixed k p d go) := by
  unfold State.notFixed
  exact Inv.ite h₁.trap h₂

theorem Inv.status {s : State} {k : Nat} {p : Proc} {a : BitVec 5} {code door : Nat} (h : Inv s) :
    Inv (s.status k p a code door) :=
  h.fin

theorem Inv.sendGo {s : State} {k : Nat} {p : Proc} {a : BitVec 5} {d : Nat} {t : Bool} {e : Door} {x : Chan}
    {ws : List Word} {tile : Option Nat} (h : Inv s) : Inv (s.sendGo k p a d t e x ws tile) := by
  unfold State.sendGo
  extract_lets c o
  split
  · exact h.status
  · split
    · exact h.post.waitIn
    · split
      · exact h.waitIn
      · split
        · exact h.sendItem.status
        · exact h.sendItem.waitIn

theorem Inv.execSend {a b : BitVec 5} {f : ItemFile} {d : BitVec 6} {t : Bool} {s : State} (h : Inv s) :
    OutInv (execSend a b f d t s) := by
  unfold Machine.execSend
  refine h.issue fun _ _ _ h₁ => ?_
  refine h₁.withDoor fun _ => ?_
  split
  · exact h₁.status
  · exact Inv.ite h₁.status h₁.sendGo

theorem Inv.execRecv {a b : BitVec 5} {f : ItemFile} {d : BitVec 6} {t : Bool} {s : State} (h : Inv s) :
    OutInv (execRecv a b f d t s) := by
  unfold Machine.execRecv
  refine h.issue fun _ _ _ h₁ => h₁.withDoor fun _ => ?_
  split
  · exact h₁.status
  · split
    · exact h₁.status
    · cases f with
      | g => exact h₁.twoResults.post.waitIn
      | v => exact h₁.post.waitIn

theorem Inv.execAlt {a b : BitVec 5} {t : Bool} {s : State} (h : Inv s) : OutInv (execAlt a b t s) := by
  unfold Machine.execAlt
  refine h.issue fun _ _ _ h₁ => ?_
  extract_lets mask
  split
  · exact h₁.status
  · split
    · exact h₁.trap
    · split
      · exact h₁.status
      · exact h₁.waitIn.altTest

theorem Inv.closeDoor {s : State} {k : Nat} {p : Proc} {a : BitVec 5} {d : Nat} {e : Door} (h : Inv s) :
    Inv (s.closeDoor k p a d e) := by
  unfold State.closeDoor
  exact Inv.ite h.stallOn (Inv.ite h.fin.closeSend h.fin.closeRecv.roundTest.holderEvent)

theorem Inv.execPoison {a : BitVec 5} {d : BitVec 6} {s : State} (h : Inv s) : OutInv (execPoison a d s) := by
  unfold Machine.execPoison
  refine h.issue fun _ _ _ h₁ => ?_
  refine h₁.withDoor fun _ => ?_
  split
  · exact h₁.status
  · exact Inv.ite h₁.closeDoor (Inv.ite h₁.status h₁.status.poisonDoor)

theorem Inv.execMark {a : BitVec 5} {s : State} (h : Inv s) : OutInv (execMark a s) := by
  unfold Machine.execMark
  refine h.issue fun _ _ _ h₁ => ?_
  extract_lets s₂ q
  have h₂ : Inv s₂ := h₁.foldl fun _ _ h' => Inv.ite h'.post h'
  exact Inv.ite h₂.setProc h₂.enterRound

theorem Inv.grantBytes {s : State} {pl asid n : Nat} (h : Inv s) : OptInv₁ (s.grantBytes pl asid n) := by
  unfold State.grantBytes
  extract_lets x n₂
  split
  · exact OptInv₁.some h.setSpace
  · split
    · exact OptInv₁.none
    · exact OptInv₁.some h.setSpace

theorem Inv.execChnew {a b : BitVec 5} {d : BitVec 6} {s : State} (h : Inv s) : OutInv (execChnew a b d s) := by
  unfold Machine.execChnew
  refine h.issue fun _ _ _ h₁ => ?_
  extract_lets rdoor
  split
  · exact h₁.trap
  · split
    · exact h₁.trap
    · split
      · exact h₁.status
      · extract_lets need marks
        split
        · exact h₁.status
        · split
          · exact h₁.status
          · exact ((OptInv₁.ite (OptInv₁.some h₁) h₁.grantBytes).fst ‹_›).upd.setChan.status

theorem Inv.execChclose {a : BitVec 5} {d : BitVec 6} {s : State} (h : Inv s) : OutInv (execChclose a d s) :=
  h.issue fun _ _ _ h' => h'.notFixed (h'.withDoor fun _ => h'.closeDoor)

theorem Inv.execAmsg {a b c : BitVec 5} {t : Bool} {s : State} (h : Inv s) : OutInv (execAmsg a b c t s) := by
  unfold Machine.execAmsg
  refine h.issue fun _ _ _ h₁ => ?_
  extract_lets pl here ws call
  exact Inv.ite h₁.status h₁.post.waitIn

theorem Inv.execWinopen {a b c : BitVec 5} {d : BitVec 6} {s : State} (h : Inv s) :
    OutInv (execWinopen a b c d s) := by
  unfold Machine.execWinopen
  refine h.issue fun _ _ _ h₁ => ?_
  apply Inv.notFixed
  · exact h₁
  · refine h₁.withDoor fun _ => ?_
    extract_lets size base
    split
    · exact h₁.status
    · split
      · exact h₁.status
      · split
        · exact h₁.status
        · exact (h₁.setChan.foldl fun _ _ h' => h'.post).status
        · exact (h₁.setChan.foldl fun _ _ h' => h'.post).status

theorem Inv.execWinclose {a : BitVec 5} {d : BitVec 6} {s : State} (h : Inv s) : OutInv (execWinclose a d s) := by
  unfold Machine.execWinclose
  refine h.issue fun _ _ _ h₁ => ?_
  refine h₁.withDoor fun _ => ?_
  split
  · exact h₁.status
  · split
    · exact Inv.ite h₁.setChan.waitIn h₁.withdraw.status
    · exact h₁.status

theorem Inv.execSendt {a b : BitVec 5} {d : BitVec 6} {t : Bool} {s : State} (h : Inv s) :
    OutInv (execSendt a b d t s) := by
  unfold Machine.execSendt
  refine h.issue fun _ _ _ h₁ => ?_
  refine h₁.withDoor fun _ => ?_
  apply Inv.withSpad
  · exact h₁
  · split
    · exact h₁.status
    · exact Inv.ite h₁.status h₁.sendGo

theorem Inv.execRecvt {a b : BitVec 5} {d : BitVec 6} {t : Bool} {s : State} (h : Inv s) :
    OutInv (execRecvt a b d t s) := by
  unfold Machine.execRecvt
  refine h.issue fun _ _ _ h₁ => ?_
  refine h₁.withDoor fun _ => ?_
  apply Inv.withSpad
  · exact h₁
  · split
    · exact h₁.status
    · exact Inv.ite h₁.status h₁.post.waitIn

theorem Inv.haloPush {s : State} {k : Nat} {p : Proc} {d base : Nat} {sh : Nat × Nat × Nat × Nat} {dir : Nat}
    (h : Inv s) : Inv (s.haloPush k p d base sh dir).1 := by
  unfold State.haloPush
  split
  · exact h.countCore
  · split
    · exact h
    · split
      · exact h
      · exact h.post

theorem Inv.execThalo {a b c : BitVec 5} {d : BitVec 6} {t : Bool} {s : State} (h : Inv s) :
    OutInv (execThalo a b c d t s) := by
  unfold Machine.execThalo
  refine h.issue fun _ _ s₁ h₁ => ?_
  extract_lets bad
  clear_value bad
  split
  · exact h₁.trap
  · refine h₁.withSpad ?_
    split
    · exact h₁.status
    · split
      have hp := Inv.fst (Inv.foldl_fst (r := (s₁, [])) h₁ fun _ _ hr => hr.haloPush) ‹_›
      exact Inv.ite hp.waitIn hp.fin

theorem Inv.closeHalo {s : State} {c : Nat} {x : Chan} {k gen : Nat} (h : Inv s) : Inv (s.closeHalo c x k gen) :=
  h.upd.foldl fun _ _ h' => h'.haloDone

theorem Inv.quiesce {s : State} {c : Nat} {x : Chan} {isSend : Bool} {door : Nat} (h : Inv s) :
    Inv (s.quiesce c x isSend door) := by
  unfold State.quiesce
  split
  · split
    · exact h.closeHalo
    · split
      · exact h.upd.setChan.finishWait
      · extract_lets s₁
        split
        · exact h.upd.setChan.applyFill
        · exact h.upd.finishWait
  all_goals exact h

theorem Inv.startBind {s : State} {k : Nat} {p : Proc} {a : BitVec 5} {d c : Nat} {x : Chan} {isSend cap : Bool}
    {to_ : Holder} (h : Inv s) : Inv (s.startBind k p a d c x isSend cap to_) := by
  unfold State.startBind
  extract_lets s₁
  exact (Inv.ite h h.setChan).post.waitIn

theorem Inv.leavesSet {s : State} {c : Nat} (h : Inv s) : Inv (s.leavesSet c) := by
  unfold State.leavesSet
  split
  · exact h.modLive.roundTest.holderEvent
  · exact h

theorem Inv.installEnd {s : State} {h : Holder} {e : Door} (hs : Inv s) : Inv (s.installEnd h e) := by
  unfold State.installEnd
  extract_lets c
  split
  · exact hs.modLive
  · split
    · exact hs
    · extract_lets s₂
      split
      · exact hs.upd.leavesSet.fromHost
      · split
        · exact hs.upd
        · exact hs.upd.setChan.foldl fun _ _ h => h.toEndpoint
  · split
    · exact hs
    · exact hs.upd
  all_goals exact hs

theorem Inv.moveFaultEnd {s : State} {src door : Nat} {to_ : Holder} {cap : Bool} {e : Door} (h : Inv s) :
    Inv (s.moveFaultEnd src door to_ cap e) :=
  h.modLive.installEnd

theorem Inv.bindGo {s : State} {k : Nat} {p : Proc} {a : BitVec 5} {d src sd : Nat} {e : Door} {kind : Nat}
    {tgt : Word} {tdoor : Nat} {capb : Bool} (h : Inv s) : Inv (s.bindGo k p a d src sd e kind tgt tdoor capb) := by
  unfold State.bindGo
  extract_lets cap
  split
  · exact h.status
  · split
    · exact h.status
    · split
      · extract_lets s₂ s₃
        split
        · exact h.moveFaultEnd.chanEvent
        · exact h.moveFaultEnd.chanEvent.status
      · split
        · exact h.stallOn
        · split
          · extract_lets s₄
            split
            · exact h.quiesce.status
            · exact h.quiesce.startBind
          · exact h.startBind
          · exact h.startBind

theorem Inv.execChbind {a b c : BitVec 5} {d : BitVec 6} {s : State} (h : Inv s) : OutInv (execChbind a b c d s) := by
  unfold Machine.execChbind
  extract_lets word
  refine h.issue fun _ _ _ h₂ => ?_
  apply Inv.notFixed
  · exact h₂
  · refine h₂.withDoor fun _ => ?_
    extract_lets w
    exact Inv.ite h₂.trap (Inv.ite h₂.status h₂.bindGo)

theorem Inv.issueRead {s : State} {p : Proc} {ga : Nat} {leaf : Word} (h : Inv s) : Inv (s.issueRead p ga leaf).1 := by
  unfold State.issueRead
  extract_lets s₁
  split
  · exact h.readDone.countHome
  · split <;> exact h.readDone

theorem Inv.issueWords {s : State} {k : Nat} {p : Proc} {va : Word} {fuel : Nat} (h : Inv s) :
    Inv (s.issueWords k p va fuel).1 := by
  induction fuel generalizing s va with
  | zero => exact h
  | succ fuel ih =>
    unfold State.issueWords
    split
    · exact h.translate.fst ‹_›
    · exact h.translate.fst ‹_›
    · split
      · exact (h.translate.fst ‹_›).readHeld
      · split
        split <;> exact (ih ((h.translate.fst ‹_›).issueRead.fst ‹_›)).fst ‹_›

theorem Inv.execChbindD {a b : BitVec 5} {s : State} (h : Inv s) : OutInv (execChbindD a b s) := by
  unfold Machine.execChbindD
  refine h.issue fun _ _ _ h₁ => ?_
  extract_lets va
  split
  · exact h₁.trap
  · split
    · exact (h₁.issueWords.fst ‹_›).trap
    · exact (h₁.issueWords.fst ‹_›).stallOn
    · extract_lets w h₄
      split
      · exact (h₁.issueWords.fst ‹_›).status
      · split
        · exact (h₁.issueWords.fst ‹_›).status
        · split
          · exact (h₁.issueWords.fst ‹_›).status
          · exact (h₁.issueWords.fst ‹_›).bindGo

theorem Inv.leaveEnd {s : State} {h : Holder} {isSend : Bool} (hs : Inv s) : Inv (s.leaveEnd h isSend) := by
  unfold State.leaveEnd
  split
  · extract_lets s₁
    exact Inv.ite hs.modLive hs.modLive.roundTest.holderEvent
  all_goals exact hs

theorem Inv.dropEnd {s : State} {h : Holder} (hs : Inv s) : Inv (s.dropEnd h) := by
  unfold State.dropEnd
  split
  · split
    · exact hs
    · exact hs.modLive
  all_goals exact hs

theorem Inv.moveStage {s : State} {c : Nat} (h : Inv s) : Inv (s.moveStage c) := by
  unfold State.moveStage
  split
  · exact h
  · split
    · exact h
    · split
      · exact Inv.ite h (h.foldl fun _ _ h' => h'.putStage).giveBack.setChan
      all_goals
        split
        · exact h
        · split
          · exact h
          · split
            · exact h
            · exact (h.grantBytes.fst ‹_›).putBytes.giveBack.setChan

theorem Inv.execRecordCopy {n : Nat} {s : State} (h : Inv s) : OutInv (execRecordCopy n s) := by
  unfold Machine.execRecordCopy
  split
  · extract_lets s₁
    split
    · exact OutInv.next h.took.bindDone
    · extract_lets code old code₄ s₅ x s₇ s₈ peer s₁₀
      have h₇ : Inv s₇ := h.took.setChan.fixPath.leaveEnd.installEnd
      have h₈ : Inv s₈ := Inv.ite h₇ h₇.moveStage
      split
      · exact OutInv.next (Inv.ite h.took h.took.setChan).chanEvent.bindDone
      · split
        · exact OutInv.next h.took.post
        · exact OutInv.next h.took.quiesce.post
        · split
          · exact OutInv.next h.took.post
          · exact OutInv.next h₈.post.chanEvent
  · exact OutInv.next h

theorem Inv.execRebindAnnounce {n : Nat} {s : State} (h : Inv s) : OutInv (execRebindAnnounce n s) := by
  unfold Machine.execRebindAnnounce
  split
  · exact OutInv.next h.took.post
  · exact OutInv.next h

theorem Inv.execRebindAck {n : Nat} {s : State} (h : Inv s) : OutInv (execRebindAck n s) := by
  unfold Machine.execRebindAck
  split
  · extract_lets s₁
    split
    · exact OutInv.next (Inv.ite h.took.dropEnd h.took.dropEnd.bindDone)
    · split
      · split
        · exact OutInv.next h.took.dropEnd.finishWait
        · exact OutInv.next h.took.dropEnd
      · exact OutInv.next h.took.dropEnd
  · exact OutInv.next h

/-! ### Fetching -/

theorem Inv.fetchLine {s : State} {pl asid ga : Nat} (h : Inv s) : Inv (fetchLine s pl asid ga).1 := by
  unfold Machine.fetchLine
  extract_lets line s₂ x
  split
  · exact h
  · split
    · exact h.readHeld
    · split
      · exact h.readDone.countHome
      · split
        · exact h.readDone
        · split
          · exact h.readDone.modCore
          · exact h.readDone.modCore
          all_goals exact h.readDone

theorem Inv.fetchWord {s : State} {k : Nat} {p : Proc} {va : Word} (h : Inv s) : Inv (fetchWord s k p va).1 := by
  unfold Machine.fetchWord
  split
  · exact h.translate.fst ‹_›
  · exact h.translate.fst ‹_›
  · split
    · exact (h.translate.fst ‹_›).countHome
    · split <;> exact (h.translate.fst ‹_›).fetchLine.fst ‹_›

theorem Inv.fetch {s : State} {k : Nat} {p : Proc} (h : Inv s) : Inv (fetch s k p).1 := by
  unfold Machine.fetch
  split
  · exact h.fetchWord.fst ‹_›
  · exact h.fetchWord.fst ‹_›
  · extract_lets maj
    split
    · exact h.fetchWord.fst ‹_›
    · split
      · exact h.fetchWord.fst ‹_›
      · exact h.fetchWord.fst ‹_›
      · split
        · exact (h.fetchWord.fst ‹_›).fetchWord.fst ‹_›
        · exact (h.fetchWord.fst ‹_›).fetchWord.fst ‹_›
        · split <;> exact (h.fetchWord.fst ‹_›).fetchWord.fst ‹_›

/-! ### The reserved processes of a core -/

theorem Inv.execInboxMessage {n : Nat} {s : State} (h : Inv s) : OutInv (execInboxMessage n s) := by
  unfold Machine.execInboxMessage
  split
  · extract_lets s₁ end_
    have h_end_ : ∀ x₁ x₂, Inv x₁ → Inv (end_ x₁ x₂) := by
      intro s₃ _ h₃
      exact h₃.post
    split
    · exact OutInv.next (h_end_ _ _ h.took)
    · split
      · exact OutInv.next h.took.post
      · exact OutInv.next (h_end_ _ _ h.took.modCore)
  · exact OutInv.next h

theorem Inv.startRoutine {s : State} {k : Nat} {p q : Proc} (h : Inv s) : Inv (s.startRoutine k p q) := by
  unfold State.startRoutine
  exact Inv.ite h.setProc.endRoutine h.setProc.makeReady

theorem Inv.execHandlerDispatch {place asid : Nat} {s : State} (h : Inv s) :
    OutInv (execHandlerDispatch place asid s) := by
  unfold Machine.execHandlerDispatch
  split
  · split
    · exact OutInv.next h
    · exact OutInv.next h.modCore.startRoutine
  · exact OutInv.next h

theorem Inv.execDelegRequest {n : Nat} {s : State} (h : Inv s) : OutInv (execDelegRequest n s) := by
  unfold Machine.execDelegRequest
  split
  · extract_lets s₁ _ q
    split
    · exact OutInv.next h.took.countCore.post
    · split
      · exact OutInv.next h.took.countCore.post
      · exact OutInv.next h.took.modCore
  · exact OutInv.next h

theorem Inv.execDelegRoutineStart {place asid : Nat} {s : State} (h : Inv s) :
    OutInv (execDelegRoutineStart place asid s) := by
  unfold Machine.execDelegRoutineStart
  split
  · extract_lets s₁ s₂ w
    split
    · split
      · exact OutInv.next h.reserve
      · exact OutInv.next h.reserve.modCore.startRoutine
    · exact OutInv.next h.reserve
  · exact OutInv.next h

/-! ### The steps of the scheduler -/

theorem Inv.execTakeAsyncTrap {proc : Nat} {s : State} (h : Inv s) : OutInv (execTakeAsyncTrap proc s) := by
  unfold Machine.execTakeAsyncTrap
  split
  · exact OutInv.next h
  · split
    · exact OutInv.next h
    · split
      · exact OutInv.next h
      · extract_lets s₁
        exact OutInv.next (Inv.ite h.setProc h).takeTrap

theorem Inv.execTimerEvent {proc : Nat} {s : State} (h : Inv s) : OutInv (execTimerEvent proc s) := by
  unfold Machine.execTimerEvent
  split
  · exact OutInv.next h
  · split
    · exact OutInv.next h.setEvent
    · exact OutInv.next h

theorem Inv.expireParked {s : State} {k gen : Nat} (h : Inv s) : Inv (s.expireParked k gen) :=
  h.upd.foldl fun _ _ h' => h'.post

theorem Inv.expireNodes {s : State} {k gen : Nat} (h : Inv s) : Inv (s.expireNodes k gen) := by
  unfold State.expireNodes
  extract_lets pl _
  exact h.foldl fun _ _ h' => Inv.ite (h'.modCore.foldl fun _ _ h'' => h''.applyFill) h'

theorem Inv.expireHalo {s : State} {k gen : Nat} (h : Inv s) : Inv (s.expireHalo k gen) :=
  h.foldl fun _ _ h' => Inv.ite h'.upd.haloDone h'

theorem Inv.unsend {s : State} {k gen : Nat} (h : Inv s) : Inv (s.unsend k gen) :=
  h.upd

theorem Inv.expireWait {s : State} {k : Nat} {p : Proc} {w : Wait} (h : Inv s) : Inv (s.expireWait k p w) := by
  unfold State.expireWait
  extract_lets s₁ off
  have h_off : ∀ x₁, Inv x₁ → Inv (off x₁) := by
    intro s₃ h₃
    exact h₃.modProc
  split
  · exact h
  · split
    · exact (h_off _ h).post
    · exact (h_off _ h).post
    · exact h.finishWait
    · exact h.finishWait
    · exact h.finishWait
    · exact h.finishWait
    · exact Inv.ite h h.unsend.finishWait
    · exact h.expireHalo
    · exact Inv.ite h h.modCore.finishWait
    · exact h.finishWait
    · exact h.finishWait
    all_goals exact h

theorem Inv.execWaitDeadline {proc : Nat} {s : State} (h : Inv s) : OutInv (execWaitDeadline proc s) := by
  unfold Machine.execWaitDeadline
  split
  · exact OutInv.next h
  · extract_lets s₁
    split
    · split
      · exact OutInv.next h.expireParked.expireNodes.expireWait
      · exact OutInv.next h.expireParked.expireNodes
    · split
      · exact OutInv.next h.expireParked.expireNodes.wake
      · exact OutInv.next h.expireParked.expireNodes
    · exact OutInv.next h.expireParked.expireNodes

theorem Inv.execSlotGiveUp {proc : Nat} {s : State} (h : Inv s) : OutInv (execSlotGiveUp proc s) := by
  unfold Machine.execSlotGiveUp
  split
  · exact OutInv.next h
  · extract_lets since
    clear_value since
    split
    · exact OutInv.next h
    · split
      · exact OutInv.next h.block
      · exact OutInv.next h

theorem Inv.execSpillSwap {place : Nat} {s : State} (h : Inv s) : OutInv (execSpillSwap place s) := by
  unfold Machine.execSpillSwap
  extract_lets order
  split
  · exact OutInv.next h
  · split
    · exact OutInv.next h.unspill.settle
    · extract_lets after victim
      clear_value victim
      split
      · exact OutInv.next h.swapIn.settle
      · exact OutInv.next h

theorem Inv.execStarvationRaise {proc : Nat} {s : State} (h : Inv s) : OutInv (execStarvationRaise proc s) := by
  unfold Machine.execStarvationRaise
  split
  · exact OutInv.next h
  · split
    · exact OutInv.next h.modLive.enqueue.settle
    · exact OutInv.next h

theorem Inv.execQuantumExpiry {proc : Nat} {s : State} (h : Inv s) : OutInv (execQuantumExpiry proc s) := by
  unfold Machine.execQuantumExpiry
  split
  · exact OutInv.next h
  · split
    · exact OutInv.next h.setProc
    · exact OutInv.next h

theorem Inv.execPreemptionHalt {proc : Nat} {s : State} (h : Inv s) : OutInv (execPreemptionHalt proc s) := by
  unfold Machine.execPreemptionHalt
  split
  · exact OutInv.next h
  · split
    · exact OutInv.next h.leaveSlot.preempted
    · exact OutInv.next h

theorem Inv.forward {s : State} {k : Nat} {p : Proc} {origin : Nat} {path : List Nat} (h : Inv s) :
    Inv (s.forward k p origin path) := by
  unfold State.forward
  extract_lets alt
  apply Inv.foldl
  · exact h
  · intro s₂ _ h₂
    extract_lets go
    exact Inv.ite h₂.post h₂

theorem Inv.reportCycle {s : State} {k : Nat} {p : Proc} {path : List Nat} {alt : Bool} (h : Inv s) :
    Inv (s.reportCycle k p path alt) := by
  unfold State.reportCycle
  extract_lets pl n parts serial handles s₆ s₇ items
  have h₇ : Inv s₇ := h.modCore.foldl fun _ _ h' => h'.modProc
  exact h₇.faultSend

theorem Inv.execDeadlockProbe {proc : Nat} {s : State} (h : Inv s) : OutInv (execDeadlockProbe proc s) := by
  unfold Machine.execDeadlockProbe
  split
  · exact OutInv.next h
  · extract_lets start q
    split
    · exact OutInv.next h.setProc.forward
    · exact OutInv.next h

theorem Inv.execProbeForward {n : Nat} {s : State} (h : Inv s) : OutInv (execProbeForward n s) := by
  unfold Machine.execProbeForward
  split
  · extract_lets s₁
    split
    · exact OutInv.next h.took
    · split
      · exact OutInv.next h.took
      · split
        · split
          · exact OutInv.next h.took.reportCycle
          · exact OutInv.next h.took
        · split
          · exact OutInv.next h.took.countCore
          · exact OutInv.next h.took.forward
  · exact OutInv.next h

theorem Inv.wdogActed {s : State} {pl asid q i : Nat} (h : Inv s) : Inv (s.wdogActed pl asid q i) := by
  unfold State.wdogActed
  split
  · exact h
  · exact h.modCore

theorem Inv.loadInto {s : State} {pl i k : Nat} (h : Inv s) : Inv (s.loadInto pl i k) := by
  unfold State.loadInto
  split
  · exact h
  · exact h.setProc.modCore

theorem Inv.execWatchdogT1 {place asid queue : Nat} {s : State} (h : Inv s) :
    OutInv (execWatchdogT1 place asid queue s) := by
  unfold Machine.execWatchdogT1
  split
  · exact OutInv.next h
  · extract_lets s₁ c
    split
    · split
      · split
        · exact OutInv.next h.wdogActed.countCore.settle
        · extract_lets s₃ s₄ s₅ s₆
          have h₅ : Inv s₅ := Inv.ite h.wdogActed.countCore.setProc.detach h.wdogActed.countCore.setProc.detach.enqueue
          exact OutInv.next (Inv.ite h₅.swapIn h₅).loadInto.preempted
      all_goals exact OutInv.next h.wdogActed.countCore
    · exact OutInv.next h.wdogActed.countCore

theorem Inv.execWatchdogT2 {place asid queue : Nat} {s : State} (h : Inv s) :
    OutInv (execWatchdogT2 place asid queue s) := by
  unfold Machine.execWatchdogT2
  split
  · exact OutInv.next h
  · extract_lets s₁ mine best
    clear_value best
    split
    · exact OutInv.next h.wdogActed.countCore
    · exact OutInv.next h.wdogActed.countCore.endProc

theorem Inv.execWatchdogT3 {place asid queue : Nat} {s : State} (h : Inv s) :
    OutInv (execWatchdogT3 place asid queue s) := by
  unfold Machine.execWatchdogT3
  split
  · exact OutInv.next h
  · extract_lets s₁ s₂ s₃
    have h₃ : Inv s₃ := h.wdogActed.modCore.foldl fun _ _ h' => Inv.ite h'.modProc.parkIn.preempted h'
    exact OutInv.next h₃.faultToSpace

/-! ### Operand rings -/

theorem Inv.setRing {s : State} {pl i : Nat} {r : Machine.Ring} (h : Inv s) : Inv (s.setRing pl i r) :=
  h.modCore

theorem Inv.serveRing {s : State} {pl i fuel : Nat} (h : Inv s) : Inv (s.serveRing pl i fuel) := by
  induction fuel generalizing s with
  | zero => exact h
  | succ fuel ih =>
    unfold State.serveRing
    split
    · exact h
    · split
      · exact h
      · exact Inv.ite (ih h.setRing) (Inv.ite h (ih h.setRing.post))

theorem Inv.execRcfg {a b : BitVec 5} {n : BitVec 2} {s : State} (h : Inv s) : OutInv (execRcfg a b n s) := by
  unfold Machine.execRcfg
  refine h.issue fun _ _ _ h₁ => ?_
  extract_lets w base logcap
  exact Inv.ite h₁.status (Inv.ite h₁.status h₁.setRing.status)

theorem Inv.execRres {a b : BitVec 5} {t : Bool} {s : State} (h : Inv s) : OutInv (execRres a b t s) := by
  unfold Machine.execRres
  refine h.issue fun _ _ _ h₁ => ?_
  split
  · exact h₁.status
  · exact Inv.ite h₁.setRing.waitIn h₁.setRing.fin

theorem Inv.execRpub {a b c : BitVec 5} {s : State} (h : Inv s) : OutInv (execRpub a b c s) := by
  unfold Machine.execRpub
  refine h.issue fun _ _ _ h₁ => ?_
  split
  · exact h₁.status
  · split
    · exact h₁.status
    · extract_lets q
      exact Inv.ite h₁.setRing.status h₁.trap

theorem Inv.ringState {a b : BitVec 5} {f : Machine.Ring → Nat → Proc → Word} {s : State} (h : Inv s) :
    OutInv (ringState a b f s) := by
  unfold Machine.ringState
  refine h.issue fun _ _ _ h₁ => ?_
  split <;> exact h₁.fin

theorem Inv.execRrst {a : BitVec 5} {n : BitVec 2} {s : State} (h : Inv s) : OutInv (execRrst a n s) := by
  unfold Machine.execRrst
  refine h.issue fun _ _ _ h₁ => ?_
  split
  · exact h₁.status
  · exact Inv.ite h₁.unring.status h₁.status

theorem Inv.toMatrix {s : State} {pl : Nat} {e : QEntry} (h : Inv s) : Inv (s.toMatrix pl e) := by
  unfold State.toMatrix
  extract_lets x q
  exact Inv.ite h.setShed h.setShed

theorem Inv.slotStat {a b : BitVec 5} {clr : Bool} {s : State} (h : Inv s) : OutInv (slotStat a b clr s) :=
  h.issue fun _ _ _ h' => h'.toMatrix.waitIn

/-! ### Parts and their firmware -/

theorem Inv.countLink {s : State} {dev port idx : Nat} (h : Inv s) : Inv (s.countLink dev port idx) :=
  h.count

theorem Inv.repathChans {s : State} {dev i : Nat} (h : Inv s) : Inv (s.repathChans dev i) :=
  h.upd

theorem Inv.repath {s : State} {dev : Nat} (h : Inv s) : Inv (s.repath dev) := by
  unfold State.repath
  apply Inv.foldl
  · exact h
  · intro s₁ _ h₁
    extract_lets l x
    split
    · exact h₁
    · apply Inv.foldl
      · exact h₁.setLink.repathChans
      · intro s₄ _ h₄
        extract_lets j y z
        exact Inv.ite h₄.setLink h₄.setLink

theorem Inv.notifyPort {s : State} {dev inst : Nat} (h : Inv s) : Inv (s.notifyPort dev inst) :=
  h.upd

theorem Inv.failPort {s : State} {dev inst : Nat} (h : Inv s) : Inv (s.failPort dev inst) :=
  h.notifyPort.setHome.signal

theorem Inv.linkDown {s : State} {dev port : Nat} (h : Inv s) : Inv (s.linkDown dev port) := by
  unfold State.linkDown
  extract_lets x
  exact Inv.ite h h.setLink.repath.signal

theorem Inv.linkUp {s : State} {dev port : Nat} (h : Inv s) : Inv (s.linkUp dev port) := by
  unfold State.linkUp
  extract_lets x
  exact Inv.ite h h.setLink.repath.signal

theorem Inv.takeOut {s : State} {dev kind inst : Nat} (h : Inv s) : Inv (s.takeOut dev kind inst) := by
  unfold State.takeOut
  extract_lets s₁ b
  split
  · exact h.setService.setShed
  · exact h.setService.notifyPort
  · exact h.setService.setBase
  · exact h.setService.setBase
  · exact h.setService.linkDown
  · exact h.setService

theorem Inv.bootPart {s : State} {dev kind inst : Nat} (h : Inv s) : Inv (s.bootPart dev kind inst) := by
  unfold State.bootPart
  extract_lets x start s₃
  have h_start : ∀ x₁, Inv (start x₁) := by
    intro _
    exact h.setPart
  split
  · exact h_start _
  · exact Inv.ite (h_start _) (Inv.ite h.setPart.count.takeOut.failPort h.setPart.count.takeOut)

theorem Inv.bringUp {s : State} {dev : Nat} (h : Inv s) : Inv (s.bringUp dev) := by
  unfold State.bringUp
  extract_lets s₁ x
  have h₁ : Inv s₁ := h.foldl fun _ _ h' => h'.setLink
  exact h₁.setDevice

theorem Inv.execPowerOn {dev : Nat} {s : State} (h : Inv s) : OutInv (execPowerOn dev s) := by
  unfold Machine.execPowerOn
  split
  · exact OutInv.next h
  · extract_lets _ s₁ s₂
    have h₂ : Inv s₂ := h.setDevice.bootPart.foldl fun _ _ h' => h'.foldl fun _ _ h'' => h''.bootPart
    split
    · exact OutInv.next h.setDevice.bootPart
    · exact OutInv.next h₂.bringUp

theorem Inv.putBack {s : State} {dev kind inst : Nat} (h : Inv s) : Inv (s.putBack dev kind inst) := by
  unfold State.putBack
  split
  · exact h
  · extract_lets s₁ x y h₄ _ s₅ _
    split
    · exact h.setService.settle
    · exact h.setService.setShed
    · exact Inv.ite h.setService.setHome.upd.signal h.setService
    · exact h.setService.setBase
    · exact h.setService.setBase
    · exact h.setService.linkUp
    · exact h.setService

theorem Inv.activate {s : State} {dev kind inst : Nat} {raise : Bool} (h : Inv s) :
    Inv (s.activate dev kind inst raise).1 := by
  unfold State.activate
  extract_lets x svn _ s₃ y
  split
  · exact h
  · exact (Inv.ite h.setDevice h).setPart

theorem Inv.advanceService {s : State} {dev : Nat} {v : Servicing} {fuel : Nat} (h : Inv s) :
    Inv (s.advanceService dev v fuel) := by
  induction fuel generalizing s v with
  | zero => exact h
  | succ fuel ih =>
    unfold State.advanceService
    split
    · exact h
    · extract_lets drop s₂
      have h_drop : ∀ x₁ x₂, Inv x₁ → Inv (drop x₁ x₂) := by
        intro s₃ _ h₃
        exact h₃.setDevice
      split
      · exact (h_drop _ _ (Inv.ite h.failPort h)).respond
      · split
        extract_lets s₄ st
        split
        · exact (h_drop _ _ (h.activate.fst ‹_›).putBack).respond
        · exact ih (h_drop _ _ (h.activate.fst ‹_›).putBack).takeOut

theorem Inv.progress {s : State} {dev : Nat} (h : Inv s) : Inv (s.progress dev) :=
  h.foldl fun _ _ h' => h'.advanceService

theorem Inv.execPortTakeoutComplete {home : Nat} {s : State} (h : Inv s) :
    OutInv (execPortTakeoutComplete home s) :=
  OutInv.next (h.foldl fun _ _ h' => h'.advanceService)

theorem Inv.readCounter {s : State} {dev : Nat} {w : Word} (h : Inv s) : OptInv₁ (s.readCounter dev w) := by
  unfold State.readCounter
  extract_lets idx inst kind key v
  exact OptInv₁.ite OptInv₁.none (OptInv₁.ite (OptInv₁.some h) (OptInv₁.some (Inv.ite h.upd h)))

/-! ### The search unit -/

theorem Inv.walkAll {s : State} {pl asid : Nat} {as : List Word} (h : Inv s) : ExcInv (s.walkAll pl asid as) := by
  induction as generalizing s with
  | nil => exact ExcInv.ok h
  | cons a as ih =>
    unfold State.walkAll
    split
    · exact ExcInv.error
    · exact ih (h.walked _ ‹_›)

theorem Inv.gathered {s : State} {src pl asid : Nat} {g : Gathered} (h : Inv s) :
    ExcInv (s.gathered src pl asid g) := by
  unfold State.gathered
  split
  · exact ExcInv.error
  · split
    · exact ExcInv.error
    · exact ExcInv.ok (((h.walkAll _ ‹_›).readAll _ ‹_›).foldl fun _ _ h' => h'.countHome)

theorem Inv.fetched {s : State} {src pl asid : Nat} {g : Gathered} (h : Inv s) : Inv (s.fetched src pl asid g) := by
  unfold State.fetched
  split
  · exact h.gathered _ ‹_›
  · exact (h.foldl fun _ _ h' => h'.readDone).foldl fun _ _ h' => h'.countHome

theorem Inv.firmFetched {s : State} {pl asid : Nat} {g : Gathered} (h : Inv s) : Inv (s.firmFetched pl asid g) := by
  unfold State.firmFetched
  extract_lets s₁
  have h₁ : Inv s₁ := h.foldl fun _ _ h' => h'.firmWalked
  exact (h₁.foldl fun _ _ h' => h'.firmRead).foldl fun _ _ h' => h'.countHome

/-! ### The node table -/

theorem Inv.setNode {s : State} {pl i : Nat} {n : Node} (h : Inv s) : Inv (s.setNode pl i n) :=
  h.modCore

theorem Inv.retireStamp {s : State} {c v : Nat} (h : Inv s) : Inv (s.retireStamp c v) :=
  h.modChan.flushStamps

theorem Inv.nodeStamp {s : State} {pl i : Nat} (h : Inv s) : Inv (s.nodeStamp pl i) := by
  unfold State.nodeStamp
  split
  · exact h
  · split
    exact (h.drawStamp.fst ‹_›).setNode

theorem Inv.startQueries {s : State} {pl i gen : Nat} {q : QueryInfo} (h : Inv s) :
    Inv (s.startQueries pl i gen q) := by
  unfold State.startQueries
  extract_lets dev add left s₄
  have h_add : ∀ x₁ x₂ x₃ x₄, Inv x₁ → Inv (add x₁ x₂ x₃ x₄) := by
    intro s₅ _ _ _ h₅
    exact h₅.setBase
  exact Inv.ite (h.upd.foldl fun _ _ h' => h_add _ _ _ _ h') (h_add _ _ _ _ h.upd)

theorem Inv.launchSearch {s : State} {pl i : Nat} {n : Node} (h : Inv s) : Inv (s.launchSearch pl i n).1 := by
  unfold State.launchSearch
  split
  · exact h
  · extract_lets off s₂ d
    split
    · exact h.spadSeen
    · split
      · exact h.spadSeen
      · split
        extract_lets stop
        have h_stop : ∀ x₁ x₂, Inv x₁ → Inv (stop x₁ x₂).1 := by
          intro s₅ _ h₅
          exact h₅.retireStamp
        split
        · exact h_stop _ _ (h.spadSeen.drawStamp.fst ‹_›)
        · extract_lets g s₇
          split
          · exact h_stop _ _ (h.spadSeen.drawStamp.fst ‹_›).fetched
          · split
            · exact h_stop _ _ (h.spadSeen.drawStamp.fst ‹_›).fetched
            · exact (h.spadSeen.drawStamp.fst ‹_›).fetched.setNode.startQueries

theorem Inv.launchBred {s : State} {pl i : Nat} {n : Node} (h : Inv s) : Inv (s.launchBred pl i n).1 := by
  unfold State.launchBred
  extract_lets b s₂
  split
  · exact h.fetched
  · split
    · exact h.fetched
    · extract_lets x s₄
      have h₄ : Inv s₄ := by
        unfold s₄
        split
        · exact h.fetched.walked _ ‹_›
        · exact h.fetched
      clear_value x
      split
      · exact h₄
      · exact h₄
      · split
        · exact h₄
        · exact h₄.setNode.setBase

theorem Inv.launchNode {s : State} {pl i : Nat} (h : Inv s) : Inv (s.launchNode pl i).1 := by
  unfold State.launchNode
  split
  · exact h
  · extract_lets n s₂ s₃ s₄
    have h₄ : Inv s₄ := Inv.ite h.setNode.spadSeen.setNode h.setNode.spadSeen.setNode.nodeStamp
    split
    · exact h.setNode.toMatrix
    · exact h.setNode.nodeStamp.toMatrix
    · exact h₄.modCore
    · exact h.setNode.launchSearch
    · exact h.setNode.launchBred

theorem Inv.endNode {s : State} {pl i : Nat} {n : Node} {code : Nat} {drop : Bool} (h : Inv s) :
    Inv (s.endNode pl i n code drop) := by
  unfold State.endNode
  extract_lets id done _ fill s₄
  have h_fill : ∀ x₁ x₂ x₃, Inv x₁ → Inv (fill x₁ x₂ x₃) := by
    intro s₅ _ _ h₅
    exact h₅.applyFill
  split
  · exact h.setNode
  · split
    · exact h.setNode
    · extract_lets s₆
      exact (h_fill _ _ _ (Inv.ite h.setNode.modProc h.setNode)).foldl fun _ _ h' => h_fill _ _ _ h'

theorem Inv.finishNodes {s : State} {pl fuel : Nat} {l : List (Nat × Nat × Bool)} (h : Inv s) :
    Inv (s.finishNodes pl fuel l) := by
  induction fuel generalizing s l with
  | zero => exact h
  | succ fuel ih =>
    cases l with
    | nil => exact h
    | cons e rest =>
      obtain ⟨i, code, drop⟩ := e
      rw [State.finishNodes]
      split
      · exact ih h
      · split
        · exact ih h
        · extract_lets id s₁ succ
          have h₁ : Inv s₁ := h.endNode
          split
          · exact ih h₁
          · split
            refine ih (Inv.fst (Inv.foldl_fst h₁ fun r e hr => ?_) ‹_›)
            extract_lets ps _ s₂
            split
            · exact hr.setNode
            · split <;> exact hr.setNode.launchNode.fst ‹_›

theorem Inv.beginNode {s : State} {pl i : Nat} {l : List (Nat × Node)} (h : Inv s) : Inv (s.beginNode pl i l) := by
  unfold State.beginNode
  split
  · exact h.finishNodes
  · split
    · exact h
    · split
      · exact h.launchNode.fst ‹_›
      · exact (h.launchNode.fst ‹_›).finishNodes

theorem Inv.command {s : State} {k : Nat} {p : Proc} {a : BitVec 5} {kind : NodeKind} {cmd preds : Word} {ok : Bool}
    {chan : Nat} (h : Inv s) : Inv (s.command k p a kind cmd preds ok chan) := by
  unfold State.command
  split
  · exact h.trap
  · split
    · exact h.fin
    · split
      · exact h.countCore.fin
      · exact h.setNode.fin.beginNode

theorem Inv.windowDoor {s : State} {k : Nat} {p : Proc} {d : Nat} {go : Nat → State} (h : Inv s)
    (hgo : ∀ x₁, Inv (go x₁)) : Inv (s.windowDoor k p d go) := by
  unfold State.windowDoor
  split
  · exact h.trap
  · exact Inv.ite (hgo _) h.trap

theorem Inv.execNodeCopy {a b c : BitVec 5} {s : State} (h : Inv s) : OutInv (execNodeCopy a b c s) := by
  unfold Machine.execNodeCopy
  refine h.issue fun _ _ _ h₁ => ?_
  extract_lets w go
  have h_go : ∀ x₁, Inv (go x₁) := by
    intro _
    exact h₁.withSpad h₁.command
  exact Inv.ite (h_go _) (h₁.windowDoor fun _ => h_go _)

theorem Inv.withNode {s : State} {k : Nat} {p : Proc} {id : Nat} {stale : State} {go : Node → State} (h₁ : Inv s)
    (h₂ : Inv stale) (hgo : ∀ x₁, Inv (go x₁)) : Inv (s.withNode k p id stale go) := by
  unfold State.withNode
  split
  · exact h₂
  · exact Inv.ite h₁.trap (Inv.ite h₂ (hgo _))

theorem Inv.execNwait {a b : BitVec 5} {t : Bool} {s : State} (h : Inv s) : OutInv (execNwait a b t s) := by
  unfold Machine.execNwait
  refine h.issue fun _ _ _ h₁ => ?_
  extract_lets id i d _
  refine h₁.withNode h₁.status fun _ => ?_
  exact Inv.ite h₁.setNode.fin (Inv.ite h₁.status h₁.setNode.fin)

theorem Inv.execNfree {a b : BitVec 5} {s : State} (h : Inv s) : OutInv (execNfree a b s) :=
  h.issue fun _ _ _ h' => h'.withNode h'.status fun _ => h'.setNode.status.foldl fun _ _ h'' => h''.applyFill

theorem Inv.execNodeFinish {n : Nat} {s : State} (h : Inv s) : OutInv (execNodeFinish n s) := by
  unfold Machine.execNodeFinish
  split
  · extract_lets s₁ s₂
    split
    · exact OutInv.next h.took
    · split
      · exact OutInv.next h.took
      · exact OutInv.next h.took.modCore.finishNodes.progress
  · exact OutInv.next h

theorem Inv.tellNode {s : State} {src pl i gen code : Nat} {drop : Bool} (h : Inv s) :
    Inv (s.tellNode src pl i gen code drop) :=
  h.post

theorem Inv.fillEntry {s : State} {pl i : Nat} {r : Machine.Ring} {q : BitVec 16} {bs : List Byte} (h : Inv s) :
    Inv (s.fillEntry pl i r q bs) := by
  unfold State.fillEntry
  extract_lets s₁
  have h₁ : Inv s₁ := by
    unfold s₁
    split
    · exact h
    · exact h.spadPut
  exact h₁.setRing.testMonS

theorem Inv.execCopyRun {place : Nat} {s : State} (h : Inv s) : OutInv (execCopyRun place s) := by
  unfold Machine.execCopyRun
  split
  · exact OutInv.next h
  · split
    · exact OutInv.next h
    · split
      · exact OutInv.next h
      · extract_lets s₁ ref q pl doff
        split
        · split
          · exact OutInv.next h.setNode.tellNode
          · split
            · exact OutInv.next h.setNode.fillEntry.tellNode
            · exact OutInv.next h.setNode.tellNode
        · exact OutInv.next h.setNode.post

/-! ### The tile unit -/

theorem Inv.wm {s : State} {pl : Nat} {n : BitVec 3} {t : Tile} (h : Inv s) : Inv (s.wm pl n t) :=
  h.modCore

theorem Inv.em {s : State} {pl : Nat} {n : BitVec 3} (h : Inv s) : Inv (s.em pl n) :=
  h.modCore

theorem Inv.execTst {a : BitVec 3} {b c : BitVec 5} {s : State} (h : Inv s) : OutInv (execTst a b c s) :=
  h.issue fun _ _ _ h' => h'.withSpad (h'.foldl fun _ _ h'' => h''.spadPut).fin

theorem Inv.swapEnd {s : State} {k : Nat} {p : Proc} {c : BitVec 5} {partner : Proc} (h : Inv s) :
    Inv (s.swapEnd k p c partner) := by
  unfold State.swapEnd
  extract_lets s₁ s₂
  exact (Inv.ite h.modLive h.modLive.takeTrap).wake

theorem Inv.swap {a : BitVec 3} {c : BitVec 5} {timed : Bool} {old : Option (Option Nat)} {s : State} (h : Inv s) :
    OutInv (swap a c timed old s) := by
  unfold Machine.swap
  refine h.issue fun _ _ _ h₁ => ?_
  extract_lets pl mine d
  split
  · exact h₁.fin
  · split
    · exact h₁.fin
    · extract_lets ppl other
      clear_value other
      split
      · exact h₁.wm.wm.swapEnd.swapEnd
      · exact Inv.ite h₁.fin h₁.stallOn

theorem Inv.saveTiles {s : State} {pl usa : Nat} (h : Inv s) : Inv (s.saveTiles pl usa) :=
  h.putBytes.putBytes

theorem Inv.loadTiles {s : State} {pl usa : Nat} (h : Inv s) : Inv (s.loadTiles pl usa) :=
  h.modCore

theorem Inv.execTileClaim {place : Nat} {s : State} (h : Inv s) : OutInv (execTileClaim place s) := by
  unfold Machine.execTileClaim
  split
  · exact OutInv.next h
  · extract_lets give
    have h_give : ∀ x₁, Inv x₁ → Inv (give x₁) := by
      intro s₂ h₂
      exact h₂.loadTiles.modCore
    split
    · exact OutInv.next (h_give _ h)
    · split
      · exact OutInv.next h
      · extract_lets s₃
        have h₃ : Inv s₃ := by
          unfold s₃
          split
          · exact h.modLive.wake
          · exact h
        exact OutInv.next (h_give _ h₃.saveTiles)

/-! ### The yard -/

theorem Inv.yardOut {s : State} {place k d cell : Nat} {out : ℤ} (h : Inv s) : Inv (s.yardOut place k d cell out) := by
  unfold State.yardOut
  extract_lets y s₂ w
  split
  · exact h
  · split
    · exact h.modCore
    · split
      · exact h.modCore
      · exact Inv.ite h.modCore h.sendItem

theorem Inv.yardStopped {s : State} {place k : Nat} (h : Inv s) : Inv (s.yardStopped place k) := by
  unfold State.yardStopped
  split
  · exact h
  · split
    · exact Inv.ite h h.finishWait
    · exact h

theorem Inv.yardFault {s : State} {place k : Nat} {r : YStepped} (h : Inv s) : Inv (s.yardFault place k r) := by
  unfold State.yardFault
  split
  · exact h
  · exact h.modCore.modProc

theorem Inv.yardStep {s : State} {place dom : Nat} (h : Inv s) : Inv (s.yardStep place dom) := by
  unfold State.yardStep
  extract_lets c x late r z y s₇ outs
  split
  · exact h
  · split
    · exact h
    · extract_lets s₉
      have h₉ : Inv s₉ := h.modCore.foldl fun _ _ h' => h'.yardOut
      exact h₉.yardFault.yardStopped

theorem Inv.execYardStep {place dom : Nat} {s : State} (h : Inv s) : OutInv (execYardStep place dom s) :=
  OutInv.next h.yardStep

theorem Inv.yardSteps {s : State} {place fuel : Nat} (h : Inv s) : Inv (s.yardSteps place fuel) := by
  induction fuel generalizing s with
  | zero => exact h
  | succ fuel ih =>
    unfold State.yardSteps
    split
    · exact h
    · exact ih h.yardStep

theorem Inv.execYardInputItem {place input : Nat} {s : State} (h : Inv s) :
    OutInv (execYardInputItem place input s) := by
  unfold Machine.execYardInputItem
  extract_lets c att add
  have h_add : ∀ x₁ x₂, Inv x₁ → Inv (add x₁ x₂) := by
    intro s₄ _ h₄
    exact h₄.modCore
  split
  · exact OutInv.next h
  · split
    · exact OutInv.next h
    · split
      · exact OutInv.next h
      · split
        · exact OutInv.next h
        · split
          · exact OutInv.next h
          · split
            · exact OutInv.next h.setChan.takeMarker
            · split
              · exact OutInv.next h
              · exact OutInv.next (h_add _ _ h).setChan.token
            · split
              · exact OutInv.next h
              · exact OutInv.next (h_add _ _ h).setChan.post
            · split
              · exact OutInv.next h
              · exact OutInv.next h.setChan.token
            · exact OutInv.next h

theorem Inv.saveYard {s : State} {place k : Nat} {p : Proc} {y : Yard} (h : Inv s) : Inv (s.saveYard place k p y) :=
  h.putBytes.modProc.modCore

theorem Inv.withdrawYard {s : State} {k : Nat} (h : Inv s) : Inv (s.withdrawYard k) := by
  unfold State.withdrawYard
  split
  · exact h
  · split
    · exact h.modLive.wake
    · exact Inv.ite h.modLive.wake h

theorem Inv.displace {s : State} {place : Nat} (h : Inv s) : Inv (s.displace place) := by
  unfold State.displace
  extract_lets c
  split
  · exact h
  · split
    · exact h.modCore
    · exact h.saveYard.modCore.withdrawYard

theorem Inv.giveYard {s : State} {place k : Nat} (h : Inv s) : Inv (s.giveYard place k) := by
  unfold State.giveYard
  split
  · exact h
  · extract_lets s₁ s₂
    split
    · exact h.spadSeen.modCore.wake
    · exact h.spadSeen.modCore

theorem Inv.execYardClaimDone {place : Nat} {s : State} (h : Inv s) : OutInv (execYardClaimDone place s) := by
  unfold Machine.execYardClaimDone
  split
  · exact OutInv.next h
  · extract_lets waiting
    split
    · exact OutInv.next h
    · exact OutInv.next h.yardSteps.displace.giveYard

theorem Inv.execYardRestore {place : Nat} {s : State} (h : Inv s) : OutInv (execYardRestore place s) := by
  unfold Machine.execYardRestore
  extract_lets c effOf
  split
  · exact OutInv.next h
  · split
    · exact OutInv.next h
    · exact OutInv.next h.giveYard

theorem Inv.yardOp {need : Need} {pre : Nat → Proc → State → (State → State) → State}
    {outside : Nat → Proc → State → State} {body : Nat → Proc → State → Yard → State} {s : State} (h : Inv s)
    (hpre : ∀ x₁ x₂ x₃ x₄, Inv x₃ → (∀ y₁, Inv y₁ → Inv (x₄ y₁)) → Inv (pre x₁ x₂ x₃ x₄))
    (houtside : ∀ x₁ x₂ x₃, Inv x₃ → Inv (outside x₁ x₂ x₃))
    (hbody : ∀ x₁ x₂ x₃ x₄, Inv x₃ → Inv (body x₁ x₂ x₃ x₄)) : OutInv (yardOp need pre outside body s) := by
  refine h.issue fun k p s₁ h₁ => hpre _ _ _ _ h₁ fun s₂ h₂ => ?_
  extract_lets c
  exact Inv.ite (hbody _ _ _ _ h₂) (Inv.ite h₂.stallOn (houtside _ _ _ h₂))

theorem Inv.noPre {a₁ : Nat} {a₂ : Proc} {s : State} {go : State → State} (h : Inv s)
    (hgo : ∀ x₁, Inv x₁ → Inv (go x₁)) : Inv (noPre a₁ a₂ s go) :=
  hgo _ h

theorem Inv.spadPre {b : BitVec 5} {k : Nat} {p : Proc} {s : State} {go : State → State} (h : Inv s)
    (hgo : ∀ x₁, Inv x₁ → Inv (go x₁)) : Inv (spadPre b k p s go) :=
  h.withSpad (hgo _ h)

theorem Inv.ycode {s : State} {k : Nat} {p : Proc} {a : BitVec 5} {code : Nat} (h : Inv s) :
    Inv (s.ycode k p a code) :=
  h.status

theorem Inv.yClosed {a : BitVec 5} {k : Nat} {p : Proc} {s : State} (h : Inv s) : Inv (yClosed a k p s) :=
  h.ycode

theorem Inv.yZero {a : BitVec 5} {k : Nat} {p : Proc} {s : State} (h : Inv s) : Inv (yZero a k p s) :=
  h.fin

theorem Inv.setYard {s : State} {k : Nat} {y : Yard} (h : Inv s) : Inv (s.setYard k y) :=
  h.modCore

theorem Inv.claimYard {a : BitVec 5} {t : Bool} {old : Option (Option Nat)} {s : State} (h : Inv s) :
    OutInv (claimYard a t old s) := by
  unfold Machine.claimYard
  refine h.issue fun _ _ _ h₁ => ?_
  exact Inv.ite h₁.ycode (Inv.ite h₁.ycode h₁.stallOn)

theorem Inv.execYrel {a : BitVec 5} {s : State} (h : Inv s) : OutInv (execYrel a s) := by
  unfold Machine.execYrel
  refine h.yardOp (fun _ _ _ _ h₁ h₂ => ?_) (fun _ _ _ h' => h'.yClosed) fun _ _ _ _ h' => h'.saveYard.ycode
  exact h₁.noPre fun _ h' => h₂ _ h'

theorem Inv.execYload {a b : BitVec 5} {s : State} (h : Inv s) : OutInv (execYload a b s) := by
  unfold Machine.execYload
  refine h.yardOp (fun _ _ _ _ h₁ h₂ => ?_) (fun _ _ _ h' => h'.yClosed) fun _ _ _ _ h₃ => ?_
  · exact h₁.spadPre fun _ h' => h₂ _ h'
  · extract_lets off _
    split
    · exact h₃.setYard.ycode
    · exact h₃.ycode

theorem Inv.execYclk {a b c : BitVec 5} {s : State} (h : Inv s) : OutInv (execYclk a b c s) := by
  unfold Machine.execYclk
  refine h.yardOp (fun _ _ _ _ h₁ h₂ => ?_) (fun _ _ _ h' => h'.yClosed) fun _ _ _ _ h₃ => ?_
  · exact h₁.noPre fun _ h' => h₂ _ h'
  · extract_lets d
    split
    · exact h₃.setYard.ycode
    · exact h₃.ycode

theorem Inv.execYrun {a b : BitVec 5} {s : State} (h : Inv s) : OutInv (execYrun a b s) := by
  unfold Machine.execYrun
  refine h.yardOp (fun _ _ _ _ h₁ h₂ => ?_) (fun _ _ _ h' => h'.yClosed) fun _ _ _ _ h₃ => ?_
  · exact h₁.noPre fun _ h' => h₂ _ h'
  · extract_lets mask ds
    exact Inv.ite h₃.ycode h₃.setYard.ycode

theorem Inv.execYstop {a b : BitVec 5} {s : State} (h : Inv s) : OutInv (execYstop a b s) := by
  unfold Machine.execYstop
  refine h.yardOp (fun _ _ _ _ h₁ h₂ => ?_) (fun _ _ _ h' => h'.yClosed) fun _ _ _ _ h₃ => ?_
  · exact h₁.noPre fun _ h' => h₂ _ h'
  · extract_lets mask ds
    exact Inv.ite h₃.ycode h₃.setYard.ycode

theorem Inv.execYstopW {a b : BitVec 5} {t : Bool} {s : State} (h : Inv s) : OutInv (execYstopW a b t s) := by
  unfold Machine.execYstopW
  refine h.yardOp (fun _ _ _ _ h₁ h₂ => ?_) (fun _ _ _ h' => h'.yClosed) fun _ _ _ _ h₃ => ?_
  · exact h₁.noPre fun _ h' => h₂ _ h'
  · extract_lets mask
    exact Inv.ite h₃.ycode (Inv.ite h₃.waitIn h₃.ycode)

theorem Inv.execYsave {a b : BitVec 5} {s : State} (h : Inv s) : OutInv (execYsave a b s) := by
  unfold Machine.execYsave
  refine h.yardOp (fun _ _ _ _ h₁ h₂ => ?_) (fun _ _ _ h' => h'.yClosed) fun _ _ _ _ h₃ => ?_
  · exact h₁.spadPre fun _ h' => h₂ _ h'
  · extract_lets img s₅
    have h₅ : Inv s₅ := h₃.foldl fun _ _ h' => h'.spadPut
    exact h₅.testMonS.ycode

theorem Inv.execYrest {a b : BitVec 5} {s : State} (h : Inv s) : OutInv (execYrest a b s) := by
  unfold Machine.execYrest
  refine h.yardOp (fun _ _ _ _ h₁ h₂ => ?_) (fun _ _ _ h' => h'.yClosed) fun _ _ _ _ h₃ => ?_
  · exact h₁.spadPre fun _ h' => h₂ _ h'
  · extract_lets bs z
    split
    · exact h₃.setYard.ycode
    · exact h₃.ycode

theorem Inv.execYget {a b : BitVec 5} {s : State} (h : Inv s) : OutInv (execYget a b s) := by
  unfold Machine.execYget
  refine h.yardOp (fun _ _ _ _ h₁ h₂ => ?_) (fun _ _ _ h' => h'.yZero) fun _ _ _ _ h' => h'.fin
  exact h₁.noPre fun _ h' => h₂ _ h'

theorem Inv.execYset {a b c : BitVec 5} {s : State} (h : Inv s) : OutInv (execYset a b c s) := by
  unfold Machine.execYset
  refine h.yardOp (fun _ _ _ _ h₁ h₂ => ?_) (fun _ _ _ h' => h'.yClosed) fun _ _ _ _ h₃ => ?_
  · exact h₁.noPre fun _ h' => h₂ _ h'
  · split
    · exact h₃.setYard.ycode
    · exact h₃.ycode

theorem Inv.execYinj {a b c : BitVec 5} {s : State} (h : Inv s) : OutInv (execYinj a b c s) := by
  unfold Machine.execYinj
  refine h.yardOp (fun _ _ _ _ h₁ h₂ => ?_) (fun _ _ _ h' => h'.yClosed) fun _ _ _ _ h₃ => ?_
  · exact h₁.noPre fun _ h' => h₂ _ h'
  · extract_lets i x z
    exact Inv.ite h₃.ycode h₃.setYard.ycode

theorem Inv.execYstat {a : BitVec 5} {s : State} (h : Inv s) : OutInv (execYstat a s) := by
  unfold Machine.execYstat
  refine h.yardOp (fun _ _ _ _ h₁ h₂ => ?_) (fun _ _ _ h' => h'.yZero) fun _ _ _ _ h' => h'.fin
  exact h₁.noPre fun _ h' => h₂ _ h'

theorem Inv.execYstatClr {a : BitVec 5} {s : State} (h : Inv s) : OutInv (execYstatClr a s) := by
  unfold Machine.execYstatClr
  refine h.yardOp (fun _ _ _ _ h₁ h₂ => ?_) (fun _ _ _ h' => h'.yZero) fun _ _ _ _ h' => h'.setYard.fin
  exact h₁.noPre fun _ h' => h₂ _ h'

/-! ### Moving a process -/

theorem Inv.supervisor {s : State} {n op : Nat} {go : State → Nat → Svc → Proc → State} (h : Inv s)
    (hgo : ∀ x₁ x₂ x₃ x₄, Inv x₁ → Inv (go x₁ x₂ x₃ x₄)) : OutInv (s.supervisor n op go) := by
  unfold State.supervisor
  split
  · split
    · exact OutInv.next h
    · split
      · exact OutInv.next h.took
      · exact OutInv.next (hgo _ _ _ _ h.took)
  · exact OutInv.next h

theorem Inv.reply {s : State} {pl : Nat} {v : Svc} {st : Nat} {g2 : Word} (h : Inv s) : Inv (s.reply pl v st g2) :=
  h.post

theorem Inv.execProcessMove {n : Nat} {s : State} (h : Inv s) : OutInv (execProcessMove n s) := by
  unfold Machine.execProcessMove
  refine h.supervisor fun _ _ _ _ h₁ => ?_
  extract_lets t
  split
  · exact h₁.reply
  · exact Inv.ite h₁.reply h₁.modProc

theorem Inv.execMoveHalt {proc : Nat} {s : State} (h : Inv s) : OutInv (execMoveHalt proc s) :=
  OutInv.next h.haltFor

theorem Inv.copyBlock {s : State} {old new n : Nat} (h : Inv s) : Inv (s.copyBlock old new n) :=
  have hz : Inv (((s.zero new n).putBytes new (memBytes s.mem old n)).zero old n) := h.zero.putBytes.zero
  ⟨hz.1, foldl_sadd_pairwise hz.2⟩

theorem Inv.rebindServer {s : State} {p : Proc} {tp : Nat} (h : Inv s) : Inv (s.rebindServer p tp) := by
  unfold State.rebindServer
  split
  · exact h
  · exact h.modChan

theorem Inv.saveUnits {s : State} {k : Nat} {p : Proc} (h : Inv s) : Inv (s.saveUnits k p).1 := by
  unfold State.saveUnits
  extract_lets pl s₂ own away s₅
  have h₅ : Inv s₅ := Inv.ite (Inv.ite h.saveTiles.modCore h).saveYard (Inv.ite h.saveTiles.modCore h)
  exact h₅.modCore

theorem Inv.claimMoved {s : State} {tp k : Nat} {own away : Bool} (h : Inv s) : Inv (s.claimMoved tp k own away) := by
  unfold State.claimMoved
  split
  · exact h
  · exact Inv.ite h.yardSteps.displace.giveYard.yardStopped (Inv.ite h.modCore.withdrawYard h)

theorem Inv.thawed {s : State} {k : Nat} (h : Inv s) : Inv (s.thawed k) := by
  unfold State.thawed
  extract_lets s₁
  split
  · exact h.roundTest
  · extract_lets s₂
    have h₂ : Inv s₂ := h.roundTest.foldl fun _ _ h' => Inv.ite h'.serveCredit.chanEvent h'.chanEvent
    exact h₂.altTest

theorem Inv.rekey {s : State} {k gen k' gen' : Nat} (h : Inv s) : Inv (s.rekey k gen k' gen') :=
  h.upd

theorem Inv.moveStages {s : State} {p : Proc} (h : Inv s) : Inv (s.moveStages p) :=
  h.foldl fun _ _ h' => Inv.ite h' h'.moveStage

theorem Inv.relocate {s : State} {k : Nat} {p : Proc} {tp e base usa : Nat} {ring : Option Nat} {r : SupReq}
    (h : Inv s) : Inv (s.relocate k p tp e base usa ring r).1 := by
  unfold State.relocate
  extract_lets pl gen j old new n nodes
  split
  extract_lets grid s₉ s₁₀ s₁₁ s₁₂ q s₁₄ s₁₅ s₁₆ s₁₇ s₁₈ s₁₉ s₂₀ s₂₁
  have h₉ : Inv s₉ := Inv.ite (h.saveUnits.fst ‹_›) (h.saveUnits.fst ‹_›).copyBlock
  have h₁₁ : Inv s₁₁ := ((Inv.ite h₉.copyBlock h₉).foldl fun _ _ h' => h'.modChan).rebindServer
  have h₁₇ : Inv s₁₇ := h₁₁.rekey.moveStages.upd.modCore.modCore.setProc
  have h₁₈ : Inv s₁₈ := by
    unfold s₁₈
    split
    · exact h₁₁.rekey.moveStages.upd.modCore.modCore.setProc
    · exact h₁₁.rekey.moveStages.upd.modCore.modCore.setProc.putRecord
  have h₂₁ : Inv s₂₁ := (Inv.ite h₁₈.claimMoved.wake h₁₈.claimMoved).foldl fun _ _ h' => h'.tell
  exact h₂₁.testMonS.thawed.endInbox.settle

theorem Inv.moveRefused {s : State} {k : Nat} {p : Proc} {r : SupReq} {st : Nat} (h : Inv s) :
    Inv (s.moveRefused k p r st) := by
  unfold State.moveRefused
  extract_lets s₁ s₂
  exact (Inv.ite h.modLive.wake h.modLive).thawed.tell

theorem Inv.moveContext {s : State} {tp : Nat} {p : Proc} {stay : Bool} (h : Inv s) :
    Inv (s.moveContext tp p stay).1 := by
  unfold State.moveContext
  split
  · exact h.makeRoom
  · split
    · exact h
    · split
      · exact h
      · split
        · exact h.spill
        · exact h.cannotSpill

theorem Inv.moveTo {s : State} {p : Proc} {ids : List Nat} {stay : Bool} {as : List Nat} (h : Inv s) :
    Inv (s.moveTo p ids stay as).1 := by
  induction as generalizing s with
  | nil => exact h
  | cons a as ih =>
    unfold State.moveTo
    split
    · exact ih h
    · split
      · exact ih (h.moveContext.fst ‹_›)
      · exact h.moveContext.fst ‹_›

theorem Inv.execMoveCopy {proc : Nat} {s : State} (h : Inv s) : OutInv (execMoveCopy proc s) := by
  unfold Machine.execMoveCopy
  split
  · exact OutInv.next h.progress
  · split
    · exact OutInv.next h
    · extract_lets pl ids
      split
      · exact OutInv.next h.combineAll
      · split
        · exact OutInv.next h.moveRefused
        · split
          · exact OutInv.next h
          · split
            · exact OutInv.next (Inv.ite h (h.moveTo.fst ‹_›).moveRefused)
            · extract_lets s₃ s₄
              have h₃ : Inv s₃ := Inv.ite ((h.moveTo.fst ‹_›).foldl fun _ _ h' => Inv.ite h'.unring h')
                (h.moveTo.fst ‹_›)
              split
              exact OutInv.next (h₃.reserve.reserve.relocate.fst ‹_›).tell.progress

/-! ### Links and collective units -/

theorem Inv.setEntry {s : State} {l : Nat} {e : LinkEntry} (h : Inv s) : Inv (s.setEntry l e) :=
  h.setLink

theorem Inv.unlink {s : State} {l : Nat} {e : LinkEntry} (h : Inv s) : Inv (s.unlink l e) :=
  h.setLink

theorem Inv.delivered {s : State} {dev : Nat} {e : LinkEntry} (h : Inv s) : Inv (s.delivered dev e) := by
  unfold State.delivered
  exact Inv.ite h.upd h.enqLink

theorem Inv.droppedFor {s : State} {dev c p gen : Nat} (h : Inv s) : Inv (s.droppedFor dev c p gen) :=
  h.post

theorem Inv.giveUp {s : State} {l : Nat} {e : LinkEntry} (h : Inv s) : Inv (s.giveUp l e) := by
  unfold State.giveUp
  extract_lets dev s₂ notice
  have h_notice : ∀ x₁ x₂, Inv (notice x₁ x₂) := by
    intro _ _
    exact h.countLink.setEntry
  split
  · exact h_notice _ _
  · exact Inv.ite (h_notice _ _) (h_notice _ _).tellCopied
  · exact h.countLink.unlink.droppedFor
  · exact h.countLink.unlink.droppedFor
  · exact h.countLink.unlink.modChan.toWait.post.droppedFor
  · exact h.countLink

theorem Inv.resend {s : State} {l : Nat} {e : LinkEntry} (h : Inv s) : Inv (s.resend l e) := by
  unfold State.resend
  exact Inv.ite h.giveUp (Inv.ite h.setEntry.countLink.countLink h.setEntry.countLink)

theorem Inv.flitIn {s : State} {l dev : Nat} {e : LinkEntry} (h : Inv s) : Inv (s.flitIn l dev e) := by
  unfold State.flitIn
  extract_lets f s₂ x
  exact Inv.ite h.setEntry h.unlink.setLink.delivered

theorem Inv.execFlitArrival {dev port : Nat} {crcOk tagOk : Bool} {s : State} (h : Inv s) :
    OutInv (execFlitArrival dev port crcOk tagOk s) := by
  unfold Machine.execFlitArrival
  extract_lets own x
  split
  · exact OutInv.next h
  · extract_lets l flit
    have h_flit : OutInv flit := by
      unfold flit
      split
      · exact OutInv.next h
      · extract_lets badTag
        split
        · exact OutInv.next (Inv.ite h.countLink h).resend
        · exact OutInv.next h.flitIn
    split
    · exact OutInv.next h
    · split
      · split
        · exact h_flit
        · exact OutInv.next h.setLink
      · exact h_flit

theorem Inv.disown {s : State} {c p gen : Nat} (h : Inv s) : Inv (s.disown c p gen) :=
  h.upd.modChan

theorem Inv.giveUpKept {s : State} {l : Nat} {e : LinkEntry} (h : Inv s) : Inv (s.giveUpKept l e) := by
  unfold State.giveUpKept
  extract_lets x s₂
  split
  · exact Inv.ite h.setLink.countLink.disown.droppedFor h.setLink.countLink
  · exact Inv.ite h.setLink.countLink.disown.droppedFor h.setLink.countLink
  · exact h.setLink.countLink

theorem Inv.execFlitAckTimeout {dev port : Nat} {s : State} (h : Inv s) : OutInv (execFlitAckTimeout dev port s) := by
  unfold Machine.execFlitAckTimeout
  extract_lets l x late
  split
  · split
    · exact OutInv.next h
    · split
      · exact OutInv.next h.giveUpKept
      · extract_lets f s₅
        exact OutInv.next (Inv.ite h.setLink.countLink.countLink h.setLink.countLink)
  · split
    · exact OutInv.next h
    · split
      · exact OutInv.next h.resend
      · exact OutInv.next h

theorem Inv.execLostEntry {dev port : Nat} {s : State} (h : Inv s) : OutInv (execLostEntry dev port s) := by
  unfold Machine.execLostEntry
  split
  · exact OutInv.next h
  · extract_lets l
    split
    · exact OutInv.next h
    · split
      · exact OutInv.next h
      · exact OutInv.next h.unlink.delivered

theorem Inv.execLaneSpare {dev port : Nat} {s : State} (h : Inv s) : OutInv (execLaneSpare dev port s) := by
  unfold Machine.execLaneSpare
  extract_lets l _
  split
  · exact OutInv.next h
  · exact OutInv.next h.setLink.countLink

theorem Inv.execLaneRetrain {dev port : Nat} {s : State} (h : Inv s) : OutInv (execLaneRetrain dev port s) :=
  OutInv.next h.countLink

theorem Inv.execPortDown {dev port : Nat} {s : State} (h : Inv s) : OutInv (execPortDown dev port s) :=
  OutInv.next h.linkDown

theorem Inv.execLinkPortUp {dev port : Nat} {s : State} (h : Inv s) : OutInv (execLinkPortUp dev port s) := by
  unfold Machine.execLinkPortUp
  split
  · exact OutInv.next h.linkUp
  · exact OutInv.next h

theorem Inv.execPathGiveUp {dev port : Nat} {s : State} (h : Inv s) : OutInv (execPathGiveUp dev port s) := by
  unfold Machine.execPathGiveUp
  extract_lets l
  split
  · exact OutInv.next h
  · exact OutInv.next h.giveUp

theorem Inv.setColl {s : State} {b : Nat} {x : Coll} (h : Inv s) : Inv (s.setColl b x) :=
  h.upd

theorem Inv.collSend {s : State} {c : Nat} {x : Chan} {e : Entry} {bs : List Byte} (h : Inv s) :
    Inv (s.collSend c x e bs) := by
  unfold State.collSend
  extract_lets next
  have h_next : ∀ x₁, Inv x₁ → Inv (next x₁) := by
    intro s₂ h₂
    exact h₂.setChan
  split
  · exact (h_next _ h).post
  · exact (h_next _ h).post
  · exact h.post
  · exact h.poisonSend
  · exact h.closeSend
  · exact h
  · exact h

theorem Inv.consume {s : State} {c : Nat} (h : Inv s) : Inv (s.consume c) := by
  unfold State.consume
  split
  · exact h
  · split
    · exact h
    · split
      · exact h.setChan.token
      · exact h.setChan.token
      all_goals exact h.setChan

theorem Inv.collStop {s : State} {b : Nat} {x : Coll} (h : Inv s) : Inv (s.collStop b x) := by
  unfold State.collStop
  extract_lets s₁ s₂
  have h₁ : Inv s₁ := by
    unfold s₁
    apply Inv.foldl
    · exact h
    · intro s₃ _ h₃
      split
      · exact h₃
      · exact h₃.closeSend
  have h₂ : Inv s₂ := by
    unfold s₂
    apply Inv.foldl
    · exact h₁
    · intro s₄ _ h₄
      split
      · exact h₄
      · exact h₄.closeRecv
  exact h₂.setColl

theorem Inv.collDiscard {s : State} {b : Nat} {x : Coll} {role : Nat} (h : Inv s) : Inv (s.collDiscard b x role) := by
  unfold State.collDiscard
  split
  · exact h
  · split
    · exact h
    · exact h.collStop
    · exact (Inv.ite h.countLink h).consume

theorem Inv.collReduce {s : State} {b : Nat} {x : Coll} {l : Nat × Chan} {n : Option (Nat × Chan)} {o : Nat × Chan}
    {hl : Entry} {hn : Option Entry} (h : Inv s) : Inv (s.collReduce b x l n o hl hn) := by
  unfold State.collReduce
  extract_lets both any other
  have h_both : ∀ x₁, Inv x₁ → Inv (both x₁) := by
    intro s₄ h₄
    unfold both
    split
    · exact h₄.consume
    · exact h₄.consume.consume
  split
  · exact h.collSend.collStop
  · split
    · exact h_both _ h.collSend
    · split
      · clear_value other
        split
        · exact h.setColl
        · exact h.collStop
      · split
        · exact h_both _ h.collSend
        · exact h_both _ h.collSend
        · exact h_both _ h.collSend
        · split
          · exact h
          · exact h_both _ h.collSend
        · exact h

theorem Inv.execReduceStep {binding : Nat} {s : State} (h : Inv s) : OutInv (execReduceStep binding s) := by
  unfold Machine.execReduceStep
  split
  · exact OutInv.next h
  · split
    · exact OutInv.next h
    · split
      · exact OutInv.next h.collDiscard
      · split
        · split
          · exact OutInv.next h
          · split
            · exact OutInv.next h.collReduce
            · split
              · exact OutInv.next h
              · split
                · exact OutInv.next h
                · exact OutInv.next h.collReduce
            · exact OutInv.next h
        · exact OutInv.next h

theorem Inv.execFanoutStep {binding : Nat} {s : State} (h : Inv s) : OutInv (execFanoutStep binding s) := by
  unfold Machine.execFanoutStep
  split
  · exact OutInv.next h
  · extract_lets outs
    split
    · exact OutInv.next h
    · split
      · exact OutInv.next h
      · split
        · exact OutInv.next h
        · exact OutInv.next h.collStop
        · extract_lets bs
          apply OutInv.next
          apply Inv.consume
          apply Inv.foldl
          · exact h
          · intro s₃ _ h₃
            split
            · exact h₃
            · exact h₃.collSend

theorem Inv.execCollectiveConfigure {n : Nat} {s : State} (h : Inv s) : OutInv (execCollectiveConfigure n s) := by
  unfold Machine.execCollectiveConfigure
  refine h.supervisor fun _ _ _ _ h₁ => ?_
  split
  · exact Inv.ite h₁.reply (Inv.ite h₁.reply h₁.setColl.reply)
  · exact h₁.reply

theorem Inv.execCollectiveRelease {n : Nat} {s : State} (h : Inv s) : OutInv (execCollectiveRelease n s) := by
  unfold Machine.execCollectiveRelease
  refine h.supervisor fun _ _ _ _ h₁ => ?_
  split
  · exact h₁.reply
  · exact Inv.ite h₁.reply h₁.upd.reply

/-! ### The matrix unit -/

theorem Inv.grantStep {s : State} {sh c i : Nat} (h : Inv s) : Inv (s.grantStep sh c i) := by
  unfold State.grantStep
  extract_lets pl
  split
  · exact h
  · split
    · exact h
    · extract_lets s₂ poison x i8
      split
      exact h.spadSeen.spadSeen.setShed.setNode.setRing.setRing

theorem Inv.popEntry {s : State} {pl i : Nat} (h : Inv s) : Inv (s.popEntry pl i) := by
  unfold State.popEntry
  split
  · exact h
  · exact Inv.ite h.setRing.serveRing h

theorem Inv.matrixAnswer {s : State} {sh k : Nat} {f : Fill} (h : Inv s) : Inv (s.matrixAnswer sh k f) :=
  h.post

theorem Inv.drain {s : State} {sh c i : Nat} {n : Node} (h : Inv s) : Inv (s.drain sh c i n) := by
  unfold State.drain
  extract_lets pl w t md row0 rows len doff need x a idx els fits counts a' s₁₇
  exact (Inv.ite h.setShed h).landPush

theorem Inv.performHead {s : State} {sh c : Nat} (h : Inv s) : Inv (s.performHead sh c) := by
  unfold State.performHead
  extract_lets x s₂
  split
  · exact h.setShed
  · split
    · exact h.setShed
    · exact h.setShed.drain
  · split
    · exact h.setShed
    · extract_lets y _ s₄
      exact Inv.ite h.setShed.matrixAnswer (Inv.ite h.setShed.setShed h.setShed).matrixAnswer
  · split
    · exact h.setShed
    · extract_lets mask both foreign y
      exact Inv.ite h.setShed.matrixAnswer h.setShed.setShed.matrixAnswer

theorem Inv.failHead {s : State} {sh c code : Nat} (h : Inv s) : Inv (s.failHead sh c code) := by
  unfold State.failHead
  extract_lets x pl s₃
  split
  · split
    · exact h.setShed
    · extract_lets s₄
      have h₄ : Inv s₄ := by
        unfold s₄
        split
        · exact h.setShed
        · exact h.setShed.retireStamp
      exact h₄.tellNode
  · exact h.setShed

theorem Inv.execMatrixStepGrant {shed : Nat} {s : State} (h : Inv s) : OutInv (execMatrixStepGrant shed s) := by
  unfold Machine.execMatrixStepGrant
  split
  · exact OutInv.next h
  · split
    · exact OutInv.next h.progress
    · extract_lets set
      have h_set : ∀ x₁ x₂, Inv x₁ → Inv (set x₁ x₂) := by
        intro s₂ _ h₂
        exact h₂.setShed
      split
      · exact OutInv.next h
      · exact OutInv.next (h_set _ _ h).failHead
      · exact OutInv.next (h_set _ _ h).performHead
      · exact OutInv.next (h_set _ _ h).grantStep

theorem Inv.execKstepRetire {shed : Nat} {s : State} (h : Inv s) : OutInv (execKstepRetire shed s) := by
  unfold Machine.execKstepRetire
  split
  · exact OutInv.next h
  · extract_lets pl _ s₂
    split
    · exact OutInv.next h.setShed
    · extract_lets pop s₄ s₅
      have h_pop : ∀ x₁ x₂, Inv x₁ → Inv (pop x₁ x₂) := by
        intro s₆ _ h₆
        exact h₆.popEntry
      split
      · exact OutInv.next h.setShed.popEntry.popEntry.setNode
      · exact OutInv.next h.setShed.popEntry.popEntry.setNode.setShed.tellNode

/-! ### The engines of the stack base -/

theorem Inv.execSearchQueryStart {unit : Nat} {s : State} (h : Inv s) : OutInv (execSearchQueryStart unit s) := by
  unfold Machine.execSearchQueryStart
  extract_lets b
  split
  · exact OutInv.next h
  · split
    · exact OutInv.next h
    · split
      · exact OutInv.next h.setBase
      · split
        · exact OutInv.next h.setBase
        · extract_lets vw z
          split
          split
          · exact OutInv.next h.setBase.post
          · split
            split
            · exact OutInv.next h.readHeld
            · exact OutInv.next (h.gathered _ ‹_›).setBase

theorem Inv.execShardReport {n : Nat} {s : State} (h : Inv s) : OutInv (execShardReport n s) := by
  unfold Machine.execShardReport
  split
  · extract_lets s₁ key s₃
    split
    · split
      · exact OutInv.next h.took
      · extract_lets rs
        split
        · exact OutInv.next h.took.upd
        · split
          · exact OutInv.next h.took.upd
          · split
            exact OutInv.next h.took.upd.setNode.post
    · exact OutInv.next h.took
  · exact OutInv.next h

theorem Inv.setJob {s : State} {unit pl i : Nat} {j : Option BredJob} (h : Inv s) : Inv (s.setJob unit pl i j) :=
  h.setBase

theorem Inv.endBred {s : State} {unit : Nat} {j : BredJob} {code : Nat} (h : Inv s) : Inv (s.endBred unit j code) :=
  h.setJob.tellNode

theorem Inv.bredAccess {s : State} {unit : Nat} {j : BredJob} {va : Word} {i : Nat} {wr : Option (List Byte)}
    {next : BredJob} (h : Inv s) : Inv (s.bredAccess unit j va i wr next) := by
  unfold State.bredAccess
  split
  · exact h.xlateFor.fst ‹_›
  · exact (h.xlateFor.fst ‹_›).endBred
  · exact (h.xlateFor.fst ‹_›).post.setJob

theorem Inv.execBredChunk {unit : Nat} {s : State} (h : Inv s) : OutInv (execBredChunk unit s) := by
  unfold Machine.execBredChunk
  extract_lets b
  split
  · exact OutInv.next h
  · extract_lets chunkVa
    split
    · split <;> exact OutInv.next h.bredAccess
    · exact OutInv.next h.bredAccess

theorem Inv.execPortEread {n : Nat} {s : State} (h : Inv s) : OutInv (execPortEread n s) := by
  unfold Machine.execPortEread
  split
  · split
    · exact OutInv.next h.holdPort
    · extract_lets s₁ bad s₃
      have h₃ : Inv s₃ := Inv.ite (h.charge _ ‹_›).took.recall.countHome (h.charge _ ‹_›).took.recall
      split
      · exact OutInv.next (h.charge _ ‹_›).took.recall
      · exact OutInv.next h₃.setJob
  · exact OutInv.next h

theorem Inv.execPortEwrite {n : Nat} {s : State} (h : Inv s) : OutInv (execPortEwrite n s) := by
  unfold Machine.execPortEwrite
  split
  · split
    · exact OutInv.next h.holdPort
    · extract_lets s₁ s₂
      have h₁ : Inv s₁ := (h.charge _ ‹_›).took.recall
      have h₂ : Inv s₂ := Inv.ite h₁.countHome (Inv.ite h₁ h₁.putBytes.fillWords.wrote)
      split
      · exact OutInv.next h₂
      · split
        · exact OutInv.next h₂.setJob
        · exact OutInv.next h₂.endBred
  · exact OutInv.next h

theorem Inv.chainHome {s : State} {pl : Nat} {c : ChainPkt} (h : Inv s) : Inv (chainHome s pl c).1 := by
  unfold Machine.chainHome
  extract_lets here
  split
  · exact h
  · split
    · exact h.xlateFor.fst ‹_›
    · exact h
    · exact h.xlateFor.fst ‹_›

theorem Inv.execChain {a b : BitVec 5} {s : State} (h : Inv s) : OutInv (execChain a b s) := by
  unfold Machine.execChain
  refine h.issue fun _ _ _ h₁ => ?_
  extract_lets w desc d n clean s₇ steps c
  apply Inv.withSpad
  · exact h₁
  · split
    · exact h₁.fin
    · split
      · exact h₁.spadPut.spadPut.fin.testMonS
      · split
        · exact (h₁.chainHome.fst ‹_›).stallOn
        · exact (h₁.chainHome.fst ‹_›).post.fin

theorem Inv.execPortChain {n : Nat} {s : State} (h : Inv s) : OutInv (execPortChain n s) := by
  unfold Machine.execPortChain
  split
  · extract_lets pl back s₃
    have h_back : ∀ x₁ x₂ x₃ x₄, Inv x₁ → Inv (back x₁ x₂ x₃ x₄) := by
      intro s₄ _ _ _ h₄
      exact h₄.post
    split
    · exact OutInv.next (h_back _ _ _ _ h.took)
    · extract_lets x
      split
      · exact OutInv.next (h_back _ _ _ _ h.took)
      · split
        · exact OutInv.next h.portXlate
        · exact OutInv.next (h_back _ _ _ _ (h.took.portXlate.fst ‹_›))
        · split
          · exact OutInv.next (h_back _ _ _ _ (h.took.portXlate.fst ‹_›))
          · exact OutInv.next h.holdPort
          · extract_lets s₆ data v c
            have h₆ : Inv s₆ := ((h.took.portXlate.fst ‹_›).charge _ ‹_›).recall
            split
            · exact OutInv.next (h_back _ _ _ _ h₆.countHome)
            · split
              · exact OutInv.next (h_back _ _ _ _ h₆)
              · split
                · exact OutInv.next h.chainHome
                · exact OutInv.next (h₆.chainHome.fst ‹_›).post
  · exact OutInv.next h

theorem Inv.execChainReturn {n : Nat} {s : State} (h : Inv s) : OutInv (execChainReturn n s) := by
  unfold Machine.execChainReturn
  split
  · extract_lets s₁ _
    split
    · exact OutInv.next h.took.countCore
    · exact OutInv.next h.took.spadPut.spadPut.testMonS.applyFill
  · exact OutInv.next h

theorem Inv.setServer {s : State} {place : Nat} {x : Server} (h : Inv s) : Inv (s.setServer place x) :=
  h.upd

theorem Inv.serveMore {s : State} {place : Nat} (h : Inv s) : Inv (s.serveMore place) := by
  unfold State.serveMore
  exact Inv.ite h h.post

theorem Inv.takeRequest {s : State} {place k gen : Nat} {ws : List Word} (h : Inv s) :
    Inv (s.takeRequest place k gen ws) := by
  unfold State.takeRequest
  extract_lets x s₂
  exact Inv.ite h.setServer.serveMore h.setServer

theorem Inv.execMemoryServerRequest {place : Nat} {s : State} (h : Inv s) :
    OutInv (execMemoryServerRequest place s) := by
  unfold Machine.execMemoryServerRequest
  split
  · exact OutInv.next h
  · split
    · exact OutInv.next h
    · extract_lets s₁ s₂
      split
      · split
        · exact OutInv.next h.setChan.token.takeRequest
        · exact OutInv.next h.setChan.token.count
      · extract_lets s₃
        exact OutInv.next (Inv.ite h.setChan.post.count h.setChan.post.takeRequest)
      · exact OutInv.next h.setChan.closeRecv
      · exact OutInv.next h.setChan.token
      · exact OutInv.next h.setChan

theorem Inv.portWords {s : State} {home pl asid : Nat} {smode : Bool} {va : Word} {fuel : Nat} (h : Inv s) :
    Inv (portWords s home pl asid smode va fuel).1 := by
  induction fuel generalizing s va with
  | zero => exact h
  | succ fuel ih =>
    unfold Machine.portWords
    split
    · exact h.portXlate.fst ‹_›
    · exact h.portXlate.fst ‹_›
    · split <;> exact (ih (h.portXlate.fst ‹_›)).fst ‹_›

theorem Inv.startPush {s : State} {place : Nat} {r : ServerReq} (h : Inv s) : Inv (s.startPush place r) := by
  unfold State.startPush
  extract_lets x
  split
  · split
    exact (h.drawStamp.fst ‹_›).setServer
  · exact h.setServer.count

theorem Inv.grainOf {s : State} {place : Nat} {r : ServerReq} {q : PushReq} (h : Inv s) :
    ExcInv₁ (grainOf s place r q) := by
  unfold Machine.grainOf
  extract_lets n
  split
  · exact ExcInv₁.error
  · split
    · exact ExcInv₁.error
    · exact ExcInv₁.ok ((h.portWords.fst ‹_›).gathered _ ‹_›)

/-- Where the read of a grain must wait, the state that it waits in. -/
theorem Inv.grainOf_error {s t : State} {place : Nat} {r : ServerReq} {q : PushReq} (h : Inv s)
    (e : Machine.grainOf s place r q = .error t) : Inv t := by
  unfold Machine.grainOf at e
  extract_lets n at e
  split at e
  · cases e
    exact h.portWords.fst ‹_›
  · split at e
    · cases e
      exact h.readHeld
    · cases e

theorem Inv.serveGrain {s : State} {place : Nat} {r : ServerReq} {q : PushReq} {g : Gathered} (h : Inv s) :
    Inv (s.serveGrain place r q g) := by
  unfold State.serveGrain
  extract_lets data x
  exact Inv.ite h.setServer h.setServer.post

theorem Inv.execPortPush {n : Nat} {s : State} (h : Inv s) : OutInv (execPortPush n s) := by
  unfold Machine.execPortPush
  split
  · split
    · exact OutInv.next h.took
    · split
      · split
        · exact OutInv.next (h.took.grainOf.fst ‹_›).serveGrain.serveMore
        · exact OutInv.next (h.grainOf_error ‹_›)
        · exact OutInv.next h
      · exact OutInv.next h.took.startPush.serveMore
  · exact OutInv.next h

theorem Inv.execRemapReload {home seg : Nat} {shadowOk : Bool} {s : State} (h : Inv s) :
    OutInv (execRemapReload home seg shadowOk s) := by
  unfold Machine.execRemapReload
  split
  · exact OutInv.next h
  · extract_lets s₁ s₂
    split
    · exact OutInv.next h.count.modHome
    · exact OutInv.next h.count.failPort.serve

/-! ### System instructions -/

theorem Inv.execMfs {a : BitVec 5} {num : BitVec 12} {s : State} (h : Inv s) : OutInv (execMfs a num s) := by
  unfold Machine.execMfs
  extract_lets word
  split
  · exact OutInv.run fun _ _ => h.trap
  · exact OutInv.run fun _ _ => h.trap
  · exact h.issue fun _ _ _ h' => h'.fin

theorem Inv.execMts {a : BitVec 5} {num : BitVec 12} {s : State} (h : Inv s) : OutInv (execMts a num s) := by
  unfold Machine.execMts
  extract_lets word
  split
  · exact OutInv.run fun _ _ => h.trap
  · exact OutInv.run fun _ _ => h.trap
  · split
    · exact OutInv.run fun _ _ => h.trap
    · refine h.issue fun _ _ _ h₂ => ?_
      extract_lets x s₄ s₅
      split
      · exact (Inv.ite h₂.setSpace h₂).fin.settle
      · exact Inv.ite (Inv.ite h₂.setSpace h₂).fin.watchSpace (Inv.ite h₂.setSpace h₂).fin

theorem Inv.execEcall {s : State} (h : Inv s) : OutInv (execEcall s) := by
  unfold Machine.execEcall
  split
  · exact OutInv.fault _
  · extract_lets args
    split
    · refine h.issue fun _ _ _ h₂ => ?_
      extract_lets pl sc s₅
      exact (Inv.ite h₂.post h₂.post).waitIn
    · exact h.issue fun _ _ _ h' => h'.trap

theorem Inv.dropLines {s : State} {dev asid : Nat} {va : Option Word} (h : Inv s) : Inv (s.dropLines dev asid va) :=
  h.upd

theorem Inv.invalidate {s : State} {dev asid : Nat} {va : Option Word} (h : Inv s) :
    Inv (s.invalidate dev asid va) := by
  unfold State.invalidate
  extract_lets pls s₂
  have h₂ : Inv s₂ := h.foldl fun _ _ h' => h'.combineIf
  exact h₂.upd

theorem Inv.tlbInv {need : Need} {va : Proc → Option Word} {s : State} (h : Inv s) : OutInv (tlbInv need va s) := by
  unfold Machine.tlbInv
  refine h.issue fun _ _ _ h₁ => ?_
  extract_lets s₂
  exact Inv.ite h₁.invalidate.post.waitIn h₁.invalidate.fin

theorem Inv.execCflushL {b : BitVec 5} {s : State} (h : Inv s) : OutInv (execCflushL b s) := by
  unfold Machine.execCflushL
  refine h.issue fun _ _ _ h₁ => ?_
  split
  · exact (h₁.translate.fst ‹_›).fin
  · exact (h₁.translate.fst ‹_›).stallOn
  · exact (h₁.translate.fst ‹_›).modCore.fin

theorem Inv.execWfe {a : BitVec 5} {t : Bool} {s : State} (h : Inv s) : OutInv (execWfe a t s) :=
  h.issue fun _ _ _ h' => Inv.ite h'.fin h'.waitIn.block

theorem Inv.execPreempt {a b : BitVec 5} {s : State} (h : Inv s) : OutInv (execPreempt a b s) := by
  unfold Machine.execPreempt
  refine h.issue fun _ _ _ h₁ => ?_
  extract_lets h₂ end_
  have h_end_ : ∀ x₁, Inv (end_ x₁) := by
    intro _
    exact h₁.fin
  split
  · exact h_end_ _
  · split
    · exact h_end_ _
    · split
      · exact h₁.fin.detach.makeReady
      · exact Inv.ite (h_end_ _) (Inv.ite (h_end_ _) h₁.setProc.waitIn)

/-! ### Migration of a page -/

theorem Inv.sendLine {s : State} {page : Nat} {m : Migration} (h : Inv s) : Inv (s.sendLine page m) :=
  h.post

theorem Inv.execMigrate {n : Nat} {s : State} (h : Inv s) : OutInv (execMigrate n s) := by
  unfold Machine.execMigrate
  refine h.supervisor fun _ _ _ _ h₁ => ?_
  extract_lets dev va pa w s₆ m
  clear_value w
  split
  · exact h₁.firmWalked.reply
  · extract_lets page
    exact Inv.ite h₁.firmWalked.reply (Inv.ite h₁.firmWalked.reply h₁.firmWalked.upd.sendLine)

theorem Inv.copyLine {s : State} {old new : Nat} (h : Inv s) : Inv (s.copyLine old new) := by
  unfold State.copyLine
  extract_lets s₁ bad s₂ s₃ s₄
  have h₂ : Inv s₂ := Inv.ite h.readDone.countHome h.readDone
  have h₃ : Inv s₃ := h₂.put
  have h₄ : Inv s₄ := h₃.upd
  exact h₄.foldl fun _ _ h' => Inv.ite h'.setFull h'.setEmpty

theorem Inv.execPortMigrate {n : Nat} {s : State} (h : Inv s) : OutInv (execPortMigrate n s) := by
  unfold Machine.execPortMigrate
  split
  · split
    · exact OutInv.next h.took
    · split
      · exact OutInv.next h.holdPort
      · extract_lets old s₂ m s₄
        split
        · exact OutInv.next h.readHeld
        · apply OutInv.next
          exact Inv.ite (h.charge _ ‹_›).took.copyLine.upd.sendLine (h.charge _ ‹_›).took.copyLine.upd
  · exact OutInv.next h

theorem Inv.moveParked {s : State} {page new : Nat} (h : Inv s) : Inv (s.moveParked page new) :=
  h.setHome.setHome

theorem Inv.execMigrationSwitch {page : Nat} {s : State} (h : Inv s) : OutInv (execMigrationSwitch page s) := by
  unfold Machine.execMigrationSwitch
  split
  · exact OutInv.next h
  · extract_lets dev s₂ s₃ s₄ s₅ s₆
    have h₅ : Inv s₅ := by
      unfold s₅
      split
      · exact h.invalidate.upd
      · exact h.invalidate.upd.putBytes
    split
    · exact OutInv.next h
    · split
      · exact OutInv.next h.invalidate
      · exact OutInv.next h₅.moveParked.giveBack.reply

/-! ### Supervisors, sessions and the host -/

theorem Inv.execRoot {n : Nat} {s : State} (h : Inv s) : OutInv (execRoot n s) := by
  unfold Machine.execRoot
  extract_lets waits
  split
  · exact OutInv.next h
  · refine h.supervisor fun _ _ _ _ h₂ => ?_
    extract_lets pa ok x
    exact Inv.ite h₂.reply h₂.setSpace.invalidate.reply

theorem Inv.execOvring {n : Nat} {s : State} (h : Inv s) : OutInv (execOvring n s) := by
  unfold Machine.execOvring
  refine h.supervisor fun _ _ _ _ h₁ => ?_
  extract_lets r
  split
  · exact h₁.reply
  · exact Inv.ite h₁.reply (Inv.ite h₁.reply h₁.modCore.reply)

theorem Inv.growPool {s : State} {pl asid fuel : Nat} (h : Inv s) : OptInv (s.growPool pl asid fuel) := by
  induction fuel generalizing s with
  | zero => exact OptInv.some h
  | succ fuel ih =>
    unfold State.growPool
    split
    · exact OptInv.none
    · exact ih (h.grantBytes.fst ‹_›).modCore

theorem Inv.shedAreas {s : State} {asid : Nat} {areas : List Nat} (h : Inv s) : Inv (s.shedAreas asid areas) :=
  h.foldl fun _ _ h' => h'.giveBack

theorem Inv.execUnitpool {n : Nat} {s : State} (h : Inv s) : OutInv (execUnitpool n s) := by
  unfold Machine.execUnitpool
  refine h.supervisor fun _ _ _ _ h₁ => ?_
  extract_lets want
  split
  · exact h₁.reply
  · extract_lets pool used spare
    split
    · exact h₁.reply
    · split
      · exact h₁.reply
      · split
        · exact h₁.modCore.shedAreas.reply
        · split
          · exact h₁.reply
          · exact (h₁.growPool _ ‹_›).reply

theorem Inv.execTtset {n : Nat} {s : State} (h : Inv s) : OutInv (execTtset n s) := by
  unfold Machine.execTtset
  refine h.supervisor fun _ _ _ _ h₁ => ?_
  extract_lets x i b s₅ e
  split
  · exact h₁.reply
  · exact Inv.ite h₁.firmFetched.reply (Inv.ite h₁.firmFetched.setSpace.reply h₁.firmFetched.reply)

theorem Inv.execHalt {n : Nat} {s : State} (h : Inv s) : OutInv (execHalt n s) := by
  unfold Machine.execHalt
  refine h.supervisor fun _ _ _ _ h₁ => ?_
  split
  · exact h₁.reply
  · exact Inv.ite h₁.reply (Inv.ite h₁.modProc h₁.modProc.haltFor)

theorem Inv.resume {s : State} {k : Nat} (h : Inv s) : Inv (s.resume k) := by
  unfold State.resume
  extract_lets s₁
  split
  · exact h.modLive
  · exact Inv.ite h.modLive.setProc h.modLive.makeReady.modProc.thawed

theorem Inv.execResume {n : Nat} {s : State} (h : Inv s) : OutInv (execResume n s) := by
  unfold Machine.execResume
  refine h.supervisor fun _ _ _ _ h₁ => ?_
  split
  · exact h₁.reply
  · exact Inv.ite h₁.resume.reply h₁.reply

theorem Inv.execKill {n : Nat} {s : State} (h : Inv s) : OutInv (execKill n s) := by
  unfold Machine.execKill
  refine h.supervisor fun _ _ _ _ h₁ => ?_
  split
  · exact h₁.reply
  · exact h₁.endProc.reply

theorem Inv.execSignal {n : Nat} {s : State} (h : Inv s) : OutInv (execSignal n s) := by
  unfold Machine.execSignal
  refine h.supervisor fun _ _ _ _ h₁ => ?_
  split
  · exact h₁.reply
  · exact Inv.ite h₁.reply h₁.modLive.setEvent.reply

theorem Inv.reprioritise {s : State} {k prio : Nat} (h : Inv s) : Inv (s.reprioritise k prio) := by
  unfold State.reprioritise
  extract_lets s₁
  split
  · exact h.modLive
  · exact (Inv.ite h.modLive.enqueue h.modLive).settle

theorem Inv.execInbox {n : Nat} {s : State} (h : Inv s) : OutInv (execInbox n s) := by
  unfold Machine.execInbox
  refine h.supervisor fun _ _ _ _ h₁ => ?_
  split
  · exact h₁.reply
  · split
    · exact h₁.reply
    · extract_lets prio s₃ s₄
      have h₄ : Inv s₄ := by
        unfold s₄
        split
        · exact h₁.modCore
        · exact h₁.modCore.reprioritise
      exact h₄.reply

theorem Inv.execUnfence {n : Nat} {s : State} (h : Inv s) : OutInv (execUnfence n s) := by
  unfold Machine.execUnfence
  refine h.supervisor fun _ _ _ _ h₁ => ?_
  split
  · exact h₁.reply
  · exact Inv.ite h₁.reply (h₁.modCore.foldl fun _ _ h' => Inv.ite h'.resume h').reply

theorem Inv.execCounter {n : Nat} {s : State} (h : Inv s) : OutInv (execCounter n s) := by
  unfold Machine.execCounter
  refine h.supervisor fun _ _ _ _ h₁ => ?_
  split
  · exact h₁.reply
  · exact (h₁.readCounter.fst ‹_›).reply

theorem Inv.putWord {s : State} {asid ga : Nat} {leaf : Word} {bs : List Byte} (h : Inv s) :
    Inv (s.putWord asid ga leaf bs) := by
  unfold State.putWord
  extract_lets s₁
  split
  · exact h.recall.met.countHome
  · exact Inv.ite h.recall.met h.recall.met.putBytes.fillWords.wrote

theorem Inv.putRange {s : State} {pl asid : Nat} {va : Word} {bs : List Byte} (h : Inv s) :
    Inv (s.putRange pl asid va bs).1 := by
  unfold State.putRange
  extract_lets parts s₂ to_
  have h₂ : Inv s₂ := h.foldl fun _ _ h' => h'.firmWalked
  split
  · exact h₂
  · dsimp only
    apply Inv.foldl
    · exact h₂
    · intro s₄ _ h₄
      split
      · exact h₄
      · exact h₄.putWord

theorem Inv.execAttest {n : Nat} {s : State} (h : Inv s) : OutInv (execAttest n s) := by
  unfold Machine.execAttest
  refine h.supervisor fun _ _ _ _ h₁ => ?_
  extract_lets b s₃
  split
  · exact h₁.firmFetched.reply
  · split
    exact (h₁.firmFetched.putRange.fst ‹_›).reply

theorem Inv.agree {s : State} {asid devA devB : Nat} (h : Inv s) : Inv (s.agree asid devA devB) := by
  unfold State.agree
  extract_lets a b x key challenge ra rb k
  exact Inv.ite h h.upd

theorem Inv.execSessionAgreement {asid devA devB : Nat} {s : State} (h : Inv s) :
    OutInv (execSessionAgreement asid devA devB s) :=
  OutInv.next h.agree

theorem Inv.hostRequest {s : State} {dev win : Nat} {tag : BitVec 16} {op : Nat}
    {go : State → Nat → List Word → State} (h : Inv s) (hgo : ∀ x₁ x₂ x₃, Inv x₁ → Inv (go x₁ x₂ x₃)) :
    OutInv (s.hostRequest dev win tag op go) := by
  unfold State.hostRequest
  extract_lets key w s₃
  split
  · exact OutInv.next h
  · split
    · exact OutInv.next h.count
    · split
      · exact OutInv.next h.setWindow.respond
      · exact OutInv.next (hgo _ _ _ h.setWindow)

theorem Inv.execEndpoint {dev win : Nat} {tag : BitVec 16} {s : State} (h : Inv s) :
    OutInv (execEndpoint dev win tag s) := by
  unfold Machine.execEndpoint
  refine h.hostRequest fun _ _ _ h₁ => ?_
  extract_lets w vec n e
  exact Inv.ite h₁.respond (Inv.ite h₁.respond h₁.upd.respond)

theorem Inv.execBind {dev win : Nat} {tag : BitVec 16} {s : State} (h : Inv s) : OutInv (execBind dev win tag s) := by
  unfold Machine.execBind
  refine h.hostRequest fun _ _ _ h₁ => ?_
  extract_lets d
  split
  · exact h₁.respond
  · split
    · exact h₁.respond
    · split
      · exact h₁.respond
      · split
        · exact h₁.respond
        · split
          · exact h₁.moveFaultEnd.chanEvent.respond
          · split
            · exact h₁.respond
            · extract_lets s₃ s₄
              have h₃ : Inv s₃ := by
                unfold s₃
                split
                · exact h₁.quiesce
                · exact h₁
                · exact h₁
              exact (Inv.ite h₃ h₃.modChan).post

theorem Inv.whenDrained {s : State} {dev : Nat} {win : Option Nat} {asid : Nat} {va : Option Word} (h : Inv s) :
    Inv (s.whenDrained dev win asid va) :=
  h.post

theorem Inv.execMap {dev win : Nat} {tag : BitVec 16} {s : State} (h : Inv s) : OutInv (execMap dev win tag s) := by
  unfold Machine.execMap
  refine h.hostRequest fun _ _ _ h₁ => ?_
  extract_lets asid level x
  split
  · exact h₁.respond
  · extract_lets s₅
    exact Inv.ite h₁.putWord.invalidate.whenDrained h₁.putWord.invalidate.respond

theorem Inv.execEndpointDoorbell {dev win : Nat} {bell : BitVec 16} {s : State} (h : Inv s) :
    OutInv (execEndpointDoorbell dev win bell s) := by
  unfold Machine.execEndpointDoorbell
  extract_lets w n
  split
  · exact OutInv.next h
  · split
    · exact OutInv.next h.count
    · split
      · exact OutInv.next h.count
      · exact OutInv.next h.fromHost

theorem Inv.execToHostEndpointRoom {dev ep : Nat} {s : State} (h : Inv s) :
    OutInv (execToHostEndpointRoom dev ep s) :=
  OutInv.next h.ackEndpoint.feedEndpoint.ackEndpoint

theorem Inv.execHostAttest {dev win : Nat} {tag : BitVec 16} {s : State} (h : Inv s) :
    OutInv (execHostAttest dev win tag s) := by
  unfold Machine.execHostAttest
  refine h.hostRequest fun _ _ _ h₁ => ?_
  extract_lets a nonce
  exact Inv.ite h₁.hostPut.respond (Inv.ite h₁.hostPut.respond h₁.respond)

theorem Inv.execStage {dev win : Nat} {tag : BitVec 16} {s : State} (h : Inv s) :
    OutInv (execStage dev win tag s) := by
  unfold Machine.execStage
  refine h.hostRequest fun _ _ _ h₁ => ?_
  extract_lets kind b
  split
  · exact h₁.respond
  · exact (h₁.foldl fun _ _ h' => h'.setPart).respond

theorem Inv.startService {s : State} {dev win kind : Nat} {is : List Nat} {activate raise : Bool} (h : Inv s) :
    Inv (s.startService dev win kind is activate raise) := by
  unfold State.startService
  split
  · exact h.respond
  · exact h.setDevice.takeOut.advanceService

theorem Inv.execActivate {dev win : Nat} {tag : BitVec 16} {s : State} (h : Inv s) :
    OutInv (execActivate dev win tag s) := by
  unfold Machine.execActivate
  refine h.hostRequest fun _ _ _ h₁ => ?_
  extract_lets kind raise
  split
  · exact h₁.respond
  · split
    · split
      exact (h₁.activate.fst ‹_›).respond
    · exact Inv.ite h₁.respond h₁.startService

set_option maxRecDepth 2000 in
/-- The first process of a core that is emptied moves, and the rest follow. Its targets are a list of every core, which the
equations of `emptied` that Lean makes would evaluate. -/
theorem emptied_cons (s : State) (k : Nat) (p : Proc) (rest : List (Nat × Proc)) :
    s.emptied ((k, p) :: rest) =
      let r : SupReq :=
        { p := 0, gen := 0, target := some (coreOf (placeOf k)), edge := false, halted := true, stay := p.run == .halted }
      match s.moveTo p [] r.stay ((moveTargets k r).map (devOf (placeOf k) * 1024 + ·)) with
      | (_, none) => none
      | (t, some (tp, e, base, usa, ring)) =>
        (((t.reserve tp p.asid .inbox).reserve tp p.asid .deleg).relocate k p tp e base usa ring r).1.emptied rest := by
  rfl

theorem Inv.emptied {s : State} {l : List (Nat × Proc)} (h : Inv s) : OptInv (s.emptied l) := by
  induction l generalizing s with
  | nil => exact OptInv.some h
  | cons e rest ih =>
    rw [emptied_cons]
    extract_lets r
    split
    · exact OptInv.none
    · exact ih (h.moveTo.fst ‹_›).reserve.reserve.relocate

theorem Inv.takeOutCore {s : State} {pl : Nat} (h : Inv s) : Inv (s.takeOutCore pl) := by
  unfold State.takeOutCore
  extract_lets s₁
  have h₁ : Inv s₁ := h.foldl fun _ _ h' => h'.unring
  exact h₁.foldl fun _ _ h' => Inv.ite h'.modProc h'

theorem Inv.execService {dev win : Nat} {tag : BitVec 16} {s : State} (h : Inv s) :
    OutInv (execService dev win tag s) := by
  unfold Machine.execService
  refine h.hostRequest fun _ _ _ h₁ => ?_
  extract_lets kind i op
  split
  · exact h₁.respond
  · split
    · exact h₁.respond
    · clear_value op
      clear_value kind
      split
      · exact Inv.ite h₁.takeOutCore.startService h₁.respond
      · exact h₁.startService
      · exact h₁.putBack.respond
      · exact h₁.putBack.respond
      · exact h₁.putBack.respond
      · exact h₁.countLink.respond
      · exact h₁.respond

theorem Inv.execHostCounter {dev win : Nat} {tag : BitVec 16} {s : State} (h : Inv s) :
    OutInv (execHostCounter dev win tag s) := by
  unfold Machine.execHostCounter
  refine h.hostRequest fun _ _ _ h₁ => ?_
  split
  · exact h₁.respond
  · exact (h₁.readCounter.fst ‹_›).respond

theorem Inv.killSpace {s : State} {asid : Nat} (h : Inv s) : Inv (s.killSpace asid) := by
  unfold State.killSpace
  extract_lets stays s₂ s₃ _ s₄
  have h₃ : Inv s₃ := h.upd.foldl fun _ _ h' => h'.endProc
  exact h₃.setSpace.foldl fun _ _ h' => h'.invalidate

theorem Inv.eraseSpace {s : State} {asid : Nat} (h : Inv s) : Inv (s.eraseSpace asid) := by
  unfold State.eraseSpace
  extract_lets x s₂
  have h₂ : Inv s₂ := Inv.ite (h.foldl fun _ _ h' => h'.zero.upd) h
  exact h₂.upd

theorem Inv.endSpace {s : State} {dev : Nat} {win : Option Nat} {asid : Nat} (h : Inv s) :
    Inv (s.endSpace dev win asid) :=
  h.killSpace.whenDrained

theorem Inv.execEndSpace {dev win : Nat} {tag : BitVec 16} {s : State} (h : Inv s) :
    OutInv (execEndSpace dev win tag s) := by
  unfold Machine.execEndSpace
  refine h.hostRequest fun _ _ _ h₁ => ?_
  extract_lets a
  exact Inv.ite h₁.respond h₁.endSpace

theorem Inv.respondTo {s : State} {win : Option Nat} (h : Inv s) : Inv (s.respondTo win) := by
  unfold State.respondTo
  split
  · exact h
  · exact h.respond

theorem Inv.execFillArrival {n : Nat} {s : State} (h : Inv s) : OutInv (execFillArrival n s) := by
  unfold Machine.execFillArrival
  split
  · split
    · exact OutInv.next h.took.applyFill
    · split
      · exact OutInv.next h
      · exact OutInv.next h.took.dropLines.applyFill
  · split
    · exact OutInv.next h
    · exact OutInv.next h.took.dropLines.respondTo
  · split
    · exact OutInv.next h
    · exact OutInv.next h.took.eraseSpace.respondTo.signal
  · exact OutInv.next h

theorem Inv.execHostMemAccess {dev off : Nat} {wr : Option (BitVec 64)} {s : State} (h : Inv s) :
    OutInv (execHostMemAccess dev off wr s) := by
  unfold Machine.execHostMemAccess
  split
  · exact OutInv.next h
  · extract_lets ga
    split
    · exact OutInv.next h.post
    · exact OutInv.next h.post
    all_goals
      split
      · exact OutInv.next h.upd
      · exact OutInv.next h

theorem Inv.writeVectors {s : State} {dev off : Nat} {x : Word} (h : Inv s) : Inv (s.writeVectors dev off x) := by
  unfold State.writeVectors
  extract_lets d old tab s₄ v _
  exact Inv.ite h.setDevice.setDevice.signal h.setDevice

theorem Inv.execRegisterWrite {dev off : Nat} {val : Option (BitVec 64)} {s : State} (h : Inv s) :
    OutInv (execRegisterWrite dev off val s) := by
  unfold Machine.execRegisterWrite
  extract_lets win o key w
  split
  · exact OutInv.next h
  · split
    · exact OutInv.next h.upd
    · split
      · split
        · exact OutInv.next h.setWindow
        · split
          · exact OutInv.next h.setWindow
          · split
            · exact h.hostRequest fun _ _ _ h' => h'.respond
            · exact OutInv.next h
      · split
        · exact OutInv.next h.writeVectors
        · exact OutInv.next h

theorem Inv.execThrottle {dev die : Nat} {s : State} (h : Inv s) : OutInv (execThrottle dev die s) := by
  unfold Machine.execThrottle
  extract_lets d
  split
  · exact OutInv.next h
  · exact OutInv.next h.setDevice

theorem Inv.execThrottleEnd {dev die : Nat} {s : State} (h : Inv s) : OutInv (execThrottleEnd dev die s) := by
  unfold Machine.execThrottleEnd
  extract_lets d
  split
  · exact OutInv.next h
  · exact OutInv.next h.setDevice.count

theorem Inv.powerDown {s : State} {dev : Nat} (h : Inv s) : Inv (s.powerDown dev) :=
  ⟨memWfFrom_filter h.1, h.2.filter _⟩

theorem Inv.shutSpace {s : State} {dev asid : Nat} (h : Inv s) : Inv (s.shutSpace dev asid) := by
  unfold State.shutSpace
  split
  · exact h.killSpace.eraseSpace
  · exact h.endSpace

theorem Inv.execOverheatShutdown {dev die : Nat} {s : State} (h : Inv s) :
    OutInv (execOverheatShutdown dev die s) := by
  unfold Machine.execOverheatShutdown
  split
  · exact OutInv.next h
  · extract_lets s₁
    have h₁ : Inv s₁ := h.foldl fun _ _ h' => h'.shutSpace
    exact OutInv.next h₁.signal.powerDown

/-! ### LAUNCH -/

theorem Inv.takeFrom {s : State} {dev asid n align : Nat} {chans : List Nat} (h : Inv s) :
    OptInv₁ (s.takeFrom dev asid n align chans) := by
  intro x hx
  obtain ⟨c, -, hc⟩ := List.exists_of_findSome?_eq_some hx
  obtain ⟨g, -, rfl⟩ := Option.map_eq_some_iff.1 hc
  exact h.setSpace

theorem Inv.mapFrom {s : State} {dev asid : Nat} {chans : List Nat} {va : Word} {leaf n level t : Nat} (h : Inv s) :
    OptInv (s.mapFrom dev asid chans va leaf n level t) := by
  induction n generalizing s level t with
  | zero => exact OptInv.some h.put
  | succ n ih =>
    unfold State.mapFrom
    extract_lets ga e
    split
    · exact ih h
    · split
      · exact OptInv.none
      · exact ih (h.takeFrom.fst ‹_›).zero.put

theorem Inv.loadPage {s : State} {l : LaunchBlock} {dev asid : Nat} {chans : List Nat} {cells : List Host.Cell} {sec i : Nat}
    (h : Inv s) : OptInv (s.loadPage l dev asid chans cells sec i) := by
  unfold State.loadPage
  split
  · extract_lets s₁ s₂ perm
    have h₁ : Inv s₁ := (h.takeFrom.fst ‹_›).zero
    have h₂ : Inv s₂ :=
      ⟨List.foldlRecOn (motive := fun m => Memory.wf m = true) _ _ h₁.1 fun _ hm _ _ => wf_memPut hm _ _, h₁.2⟩
    exact h₂.mapFrom
  · exact OptInv.none

theorem Inv.loadDevice {s : State} {l : LaunchBlock} {asid dev home : Nat} (h : Inv s) :
    OptInv (s.loadDevice l asid dev home) := by
  unfold State.loadDevice
  extract_lets chans
  split
  · exact OptInv.none
  · exact (OptInv.some (h.takeFrom.fst ‹_›).setSpace.zero).foldl fun _ _ ho =>
      ho.foldl fun _ _ ho => OptInv.bind fun _ hs => (ho _ hs).loadPage

theorem Inv.startInstance {s : State} {l : LaunchBlock} {asid t j : Nat} (h : Inv s) :
    OptInv₁ (s.startInstance l asid t j) := by
  unfold State.startInstance
  extract_lets e pl c
  split
  · exact OptInv₁.some (h.create.fst ‹_›)
  · exact OptInv₁.none

theorem Inv.bindDoor {s : State} {k door c : Nat} {isSend cap : Bool} (h : Inv s) :
    Inv (s.bindDoor k door c isSend cap) :=
  h.modLive

theorem Inv.declare {s : State} {asid : Nat} {w : ChanShape} {a b : Nat × Nat × Nat} (h : Inv s) :
    OptInv (s.declare asid w a b) := by
  unfold State.declare
  extract_lets need
  split
  · exact OptInv.none
  · exact OptInv.some ((OptInv₁.ite (OptInv₁.some h) h.grantBytes).fst ‹_›).upd.setChan.bindDoor.bindDoor.fixPath

theorem Inv.givePools {s : State} {dev asid : Nat} (h : Inv s) : OptInv (s.givePools dev asid) :=
  (OptInv.some h).foldl fun _ _ ho => OptInv.bind fun _ hs => (ho _ hs).growPool

theorem Inv.newSpace {s : State} {l : LaunchBlock} {asid dev : Nat} {slices : List (Nat × Nat)} (h : Inv s) :
    Inv (s.newSpace l asid dev slices) :=
  h.upd.setSpace.setChan

theorem Inv.startAll {s : State} {l : LaunchBlock} {asid : Nat} (h : Inv s) : ExcInv₁ (s.startAll l asid) := by
  refine ExcInv₁.foldl (ExcInv₁.ok h) fun _ _ hr => ExcInv₁.foldl hr fun _ _ hr => ExcInv₁.bind fun x hx => ?_
  intro y hy
  cases ho : x.1.startInstance l asid _ _ with
  | none => rw [ho] at hy; cases hy
  | some z => rw [ho] at hy; cases hy; exact (hr x hx).startInstance z ho

theorem Inv.bindFaultDoor {s : State} {l : LaunchBlock} {asid : Nat} {is : List (Nat × Nat × Nat × Nat)} (h : Inv s) :
    Inv (s.bindFaultDoor l asid is) := by
  unfold State.bindFaultDoor
  split
  · exact h
  · exact h.modChan.bindDoor

theorem Inv.declareAll {s : State} {l : LaunchBlock} {asid : Nat} {is : List (Nat × Nat × Nat × Nat)} (h : Inv s) :
    ExcInv (s.declareAll l asid is) := by
  refine ExcInv.foldl (ExcInv.ok h) fun _ _ hr => ExcInv.bind fun s₁ hs => OptInv.onDev ?_
  split
  · exact (hr s₁ hs).declare
  · exact OptInv.none

theorem Inv.loadAll {s : State} {l : LaunchBlock} {dev asid : Nat} {slices : List (Nat × Nat)} (h : Inv s) :
    ExcInv (s.loadAll l dev asid slices) := by
  unfold State.loadAll
  extract_lets s₁ s₂ loaded
  have h₂ : Inv s₂ := h.newSpace.foldl fun _ _ h' => h'.foldl fun _ _ h' => Inv.ite h'.agree h'
  have hl : ExcInv loaded := (ExcInv.ok h₂).foldl fun _ _ hr => ExcInv.bind fun _ hs =>
    (OptInv.bind fun _ ho => ((hr _ hs).loadDevice _ ho).givePools).onDev
  clear_value loaded
  split
  · exact ExcInv.error
  · extract_lets s₃
    have h₃ : Inv s₃ := (hl _ rfl).upd
    split
    · exact ExcInv.error
    · exact (h₃.startAll.fst ‹_›).bindFaultDoor.declareAll

theorem Inv.rejectLaunch {s : State} {key dev reason off by_ : Nat} (h : Inv s) :
    Inv (s.rejectLaunch key dev reason off by_) :=
  h.respond.signal

theorem Inv.execLaunch {dev win : Nat} {tag : BitVec 16} {s : State} (h : Inv s) : OutInv (execLaunch dev win tag s) := by
  unfold Machine.execLaunch
  refine h.hostRequest fun s₁ _ _ h₁ => ?_
  extract_lets l
  split
  · exact h₁.rejectLaunch
  · split
    · exact h₁.rejectLaunch
    · split
      · exact h₁.rejectLaunch
      · have hl : ∀ asid, ExcInv ((grantSlices s₁ l.devs).bind fun slices => s₁.loadAll l dev asid slices) :=
          fun _ => ExcInv.bind fun _ _ => h₁.loadAll
        split
        · exact h₁.rejectLaunch
        · exact (hl _ _ ‹_›).respond

/-! ### Vector memory instructions -/

theorem Inv.pageXlate {s : State} {k : Nat} {p : Proc} {els : List (Nat × Word)} {pg : Nat} {a : Access} (h : Inv s) :
    Inv (pageXlate s k p els pg a).1 := by
  unfold Machine.pageXlate
  extract_lets mine low
  split <;> exact h.translate.fst ‹_›

theorem Inv.pagesXlate {s : State} {k : Nat} {p : Proc} {els : List (Nat × Word)} {a : Access} {as : List Nat}
    (h : Inv s) : Inv (pagesXlate s k p els a as).1 := by
  induction as generalizing s with
  | nil => exact h
  | cons a as ih =>
    unfold Machine.pagesXlate
    split
    · exact h.pageXlate.fst ‹_›
    · split <;> exact (ih (h.pageXlate.fst ‹_›)).fst ‹_›

theorem Inv.vecLoad {s : State} {k : Nat} {p : Proc} {a : BitVec 5} {ty : Ty} {els : List (Nat × Word)} (h : Inv s) :
    Inv (s.vecLoad k p a ty els) := by
  unfold State.vecLoad
  extract_lets e pl _
  split
  · exact h.trap
  · split
    · exact (h.pagesXlate.fst ‹_›).trap
    · exact (h.pagesXlate.fst ‹_›).stallOn
    · split
      · exact (h.pagesXlate.fst ‹_›).stallOn
      · split
        · exact (h.pagesXlate.fst ‹_›).fin
        · extract_lets s₃ q
          have h₃ : Inv s₃ := (h.pagesXlate.fst ‹_›).foldl fun _ _ h' => h'.post
          exact h₃.produced

theorem Inv.vecWrites {s : State} {k : Nat} {p : Proc} {a : BitVec 5} {e : Nat}
    {xs : List (Nat × Word × Nat × Word)} (h : Inv s) : Inv (s.vecWrites k p a e xs) :=
  h.foldl fun _ _ h' => h'.combineAt.post

theorem Inv.pagesReach {s : State} {k : Nat} {p : Proc} {els : List (Nat × Word)} {as : List Nat} (h : Inv s) :
    Inv (pagesReach s k p els as).1 := by
  induction as generalizing s with
  | nil => exact h
  | cons a as ih =>
    unfold Machine.pagesReach
    split
    · exact h.pageXlate.fst ‹_›
    · split
      exact (ih (h.pageXlate.fst ‹_›)).fst ‹_›

theorem Inv.vecStore {s : State} {k : Nat} {p : Proc} {a : BitVec 5} {ty : Ty} {els : List (Nat × Word)} (h : Inv s) :
    Inv (s.vecStore k p a ty els) := by
  unfold State.vecStore
  split
  · exact h.trap
  · split
    · exact (h.pagesReach.fst ‹_›).stallOn
    · split
      · exact (h.pagesReach.fst ‹_›).stallOn
      · split
        · exact Inv.ite (h.pagesReach.fst ‹_›).stallOn (h.pagesReach.fst ‹_›).vecWrites.setProc.takeTrap
        · exact (h.pagesReach.fst ‹_›).vecWrites.fin

theorem Inv.vecSpl {s : State} {k : Nat} {p : Proc} {a b : BitVec 5} {ty : Ty} {els : List (Nat × Word)} (h : Inv s) :
    Inv (s.vecSpl k p a b ty els) :=
  h.withSpad h.selfFill.fin

theorem Inv.vecSps {s : State} {k : Nat} {p : Proc} {a b : BitVec 5} {ty : Ty} {els : List (Nat × Word)} (h : Inv s) :
    Inv (s.vecSps k p a b ty els) :=
  h.withSpad (h.foldl fun _ _ h' => h'.spadPut).fin

/-! ### Steps -/

theorem Inv.tick {s : State} (h : Inv s) : Inv s.tick :=
  h.upd

/-! ### Every instruction and every step -/

/-- Every instruction, and every step of another agent, keeps the invariant. -/
theorem Inv.exec {s : State} (h : Inv s) (i : Instr) : OutInv (exec i s) := by
  unfold Machine.exec
  cases i <;> dsimp only
  case add | sub | and | or | xor | andn | shl | shr | sra | rol | mul | mulh | mulhu | div | divu | rem | remu | min
      | max | minu | maxu | slt | sltu | seq | lea1 | lea2 | lea4 | lea8 =>
    exact h.exec2
  case clz | ctz | popc | brev | bswap | sextB | sextH | sextW | zextB | zextH | zextW | shiL | shiR | shiA | shiRol
      =>
    exact h.exec1
  case addi | andi | ori | xori | slti | sltiu | movhi | muli => exact h.immOp
  case extPair => exact h.execExtPair
  case beq | bne | blt | bge | bltu | bgeu => exact h.branch
  case dbnz => exact h.dbnzBy
  case j | call | eret => exact h.issue fun _ _ _ h' => h'.setProc
  case jr | callr | ret => exact h.jumpReg
  case ld => exact h.loadAt
  case st => exact h.storeAt
  case ldx | lda => exact h.issue fun _ _ _ h' => h'.loadGo
  case stx | stl => exact h.issue fun _ _ _ h' => h'.storeGo
  case lds | ldf => exact h.syncLoad
  case sts => exact h.execSts
  case feget => exact h.execFeget
  case feset => exact h.execFeset
  case spl => exact h.splAt
  case sps => exact h.spsAt
  case amoAdd | amoAnd | amoOr | amoXor | amoMin | amoMax | amoMinu | amoMaxu | amoSwap | cas => exact h.atomic
  case redAdd | redFadd | redMin | redMax => exact h.reduction
  case deleg => exact h.execDeleg
  case fence | self | kmovk | bfpcvt => exact h.issue fun _ _ _ h' => h'.fin
  case monw => exact h.execMonw
  case gjoin | gleave | barArrive | barDrop | barWait => exact h.groupOp
  case spawn => exact h.execSpawn
  case exit | exitR => exact h.issue fun _ _ _ h' => h'.exit
  case yield => exact h.issue fun _ _ _ h' => h'.fin.detach.makeReady
  case prio => exact h.issue fun _ _ _ h' => h'.fin.settle
  case jwait => exact h.execJwait
  case send => exact h.execSend
  case recv => exact h.execRecv
  case alt => exact h.execAlt
  case poison => exact h.execPoison
  case mark => exact h.execMark
  case chnew => exact h.execChnew
  case chbind => exact h.execChbind
  case chbindD => exact h.execChbindD
  case chclose => exact h.execChclose
  case amsg => exact h.execAmsg
  case winopen => exact h.execWinopen
  case winclose => exact h.execWinclose
  case sendt => exact h.execSendt
  case recvt => exact h.execRecvt
  case thalo => exact h.execThalo
  case vadd | vsub | vmul | vmin | vmax | vadds | vsubs | vmulh | vabsd | vdiv | vand | vor | vxor | vandn | vshl |
      vshr | vsra | vrol =>
    exact h.vec2
  case vfma | vfms => exact h.vecFma
  case vabs | vneg | vsqrt | vnot | vclz | vpopc | vctz | vrcp | vrsq | vexp2 | vlog2 | vmov => exact h.vec1
  case vshlg | vshrg | vsrag | vrolg => exact h.vecCount
  case vcmpEq | vcmpNe | vcmpLt | vcmpLe | vcmpUn => exact h.vecCmp
  case vsel | vcvt | vcomp | vexpd | vins => exact h.vecTo
  case kand | kor | kxor | knot => exact h.maskTo
  case kmovg | kpopc | kfirst | vext => exact h.execG
  case vredsum | vredmin | vredmax | vredand | vredor | vredxor | vredsumw => exact h.vecRed
  case vperm | vpermx | vsldn | vslup | vzipl | vziph | vuzpe | vuzpo | vrev | vbcast | viota | vsplat =>
    exact h.vecPerm
  case vld | vlds | vgath => exact h.issue fun _ _ _ h' => h'.vecLoad
  case vst | vsts | vscat => exact h.issue fun _ _ _ h' => h'.vecStore
  case vspl | vspga => exact h.issue fun _ _ _ h' => h'.vecSpl
  case vsps | vspsc => exact h.issue fun _ _ _ h' => h'.vecSps
  case tld | tldt => exact h.issue fun _ _ _ h' => h'.withSpad h'.selfFill.em.fin
  case tst => exact h.execTst
  case tswap | tswapT => exact h.swap
  case tmma | tzero | tcvt => exact h.issue fun _ _ _ h' => h'.wm.fin
  case tileClaim => exact h.execTileClaim
  case rcfg => exact h.execRcfg
  case rres => exact h.execRres
  case rpub => exact h.execRpub
  case rstat | rstatMap => exact h.ringState
  case rrst => exact h.execRrst
  case mstat | mstatClr => exact h.slotStat
  case mzero => exact h.issue fun _ _ _ h' => h'.toMatrix.waitIn
  case mwgt => exact h.issue fun _ _ _ h' => h'.setShed.fin
  case nodeCmu | bred => exact h.issue fun _ _ _ h' => h'.command
  case nodeDrain => exact h.issue fun _ _ _ h' => h'.windowDoor fun _ => h'.command
  case nodeCopy => exact h.execNodeCopy
  case nwait => exact h.execNwait
  case npoll => exact h.issue fun _ _ _ h' => h'.withNode h'.fin fun _ => h'.fin
  case nfree => exact h.execNfree
  case yclaim => exact h.claimYard
  case yrel => exact h.execYrel
  case yload => exact h.execYload
  case yclk => exact h.execYclk
  case yrun => exact h.execYrun
  case ystop => exact h.execYstop
  case ystopW => exact h.execYstopW
  case ysave => exact h.execYsave
  case yrest => exact h.execYrest
  case yget => exact h.execYget
  case yset => exact h.execYset
  case yinj => exact h.execYinj
  case ystat => exact h.execYstat
  case ystatClr => exact h.execYstatClr
  case qsearch => exact h.issue fun _ _ _ h' => h'.withSpad h'.command
  case chain => exact h.execChain
  case bfpx | bfpscl | bfpq => exact h.issue fun _ _ _ h' => h'.blockOp
  case ecall => exact h.execEcall
  case mfs => exact h.execMfs
  case mts => exact h.execMts
  case tlbinvPage | tlbinvSpace => exact h.tlbInv
  case cflushL => exact h.execCflushL
  case cflushAll | isync => exact h.issue fun _ _ _ h' => h'.modCore.fin
  case cflushRed => exact h.issue fun _ _ _ h' => h'.combineAll.fin
  case brk => exact h.issue fun _ _ _ h' => h'.trap
  case wfe => exact h.execWfe
  case preempt => exact h.execPreempt
  case takeAsyncTrap => exact h.execTakeAsyncTrap
  case timerEvent => exact h.execTimerEvent
  case fillArrival => exact h.execFillArrival
  case waitDeadline => exact h.execWaitDeadline
  case slotGiveUp => exact h.execSlotGiveUp
  case spillSwap => exact h.execSpillSwap
  case starvationRaise => exact h.execStarvationRaise
  case quantumExpiry => exact h.execQuantumExpiry
  case preemptionHalt => exact h.execPreemptionHalt
  case stealRequest => exact h.execStealRequest
  case stealExpiry => exact h.execStealExpiry
  case stealArrival => exact h.execStealArrival
  case stealReturned => exact h.execStealReturned
  case childEnd => exact h.execChildEnd
  case exitRetainTimeout => exact h.execExitRetainTimeout
  case deadlockProbe => exact h.execDeadlockProbe
  case probeForward => exact h.execProbeForward
  case faultMessageRelease => exact h.execFaultMessageRelease
  case watchdogT1 => exact h.execWatchdogT1
  case watchdogT2 => exact h.execWatchdogT2
  case watchdogT3 => exact h.execWatchdogT3
  case feRefusal => exact h.execFeRefusal
  case portRead => exact h.execPortRead
  case portWrite => exact h.execPortWrite
  case portAtomic => exact h.execPortAtomic
  case portCombine => exact h.execPortCombine
  case portRecall => exact h.execPortRecall
  case portPush => exact h.execPortPush
  case portChain => exact h.execPortChain
  case portEread => exact h.execPortEread
  case portEwrite => exact h.execPortEwrite
  case portMigrate => exact h.execPortMigrate
  case portHost => exact h.execPortHost
  case budgetBoundary => exact h.execBudgetBoundary
  case chainReturn => exact h.execChainReturn
  case memoryServerRequest => exact h.execMemoryServerRequest
  case windowPush => exact h.execWindowPush
  case nodeFinish => exact h.execNodeFinish
  case matrixStepGrant => exact h.execMatrixStepGrant
  case kstepRetire => exact h.execKstepRetire
  case copyRun => exact h.execCopyRun
  case searchQueryStart => exact h.execSearchQueryStart
  case shardReport => exact h.execShardReport
  case bredChunk => exact h.execBredChunk
  case recordOffer => exact h.execRecordOffer
  case recordReceive => exact h.execRecordReceive
  case recordWithdrawal => exact h.execRecordWithdrawal
  case recordItem => exact h.execRecordItem
  case recordMarker => exact h.execRecordMarker
  case recordErrorToken => exact h.execRecordErrorToken
  case recordClose => exact h.execRecordClose
  case sendAck => exact h.execSendAck
  case tileGo => exact h.execTileGo
  case tileCopyLanded => exact h.execTileCopyLanded
  case slotToken => exact h.execSlotToken
  case lostEntry => exact h.execLostEntry
  case recordCopy => exact h.execRecordCopy
  case rebindAnnounce => exact h.execRebindAnnounce
  case rebindAck => exact h.execRebindAck
  case inboxMessage => exact h.execInboxMessage
  case handlerDispatch => exact h.execHandlerDispatch
  case delegRequest => exact h.execDelegRequest
  case delegRoutineStart => exact h.execDelegRoutineStart
  case yardStep => exact h.execYardStep
  case yardInputItem => exact h.execYardInputItem
  case yardClaimDone => exact h.execYardClaimDone
  case yardRestore => exact h.execYardRestore
  case moveHalt => exact h.execMoveHalt
  case moveCopy => exact h.execMoveCopy
  case migrationSwitch => exact h.execMigrationSwitch
  case remapReload => exact h.execRemapReload
  case flitAckTimeout => exact h.execFlitAckTimeout
  case laneSpare => exact h.execLaneSpare
  case laneRetrain => exact h.execLaneRetrain
  case portDown => exact h.execPortDown
  case pathGiveUp => exact h.execPathGiveUp
  case reduceStep => exact h.execReduceStep
  case fanoutStep => exact h.execFanoutStep
  case sessionAgreement => exact h.execSessionAgreement
  case launch => exact h.execLaunch
  case endpoint => exact h.execEndpoint
  case bind => exact h.execBind
  case map => exact h.execMap
  case endpointDoorbell => exact h.execEndpointDoorbell
  case hostAttest => exact h.execHostAttest
  case stage => exact h.execStage
  case activate => exact h.execActivate
  case service => exact h.execService
  case portTakeoutComplete => exact h.execPortTakeoutComplete
  case hostCounter => exact h.execHostCounter
  case endSpace => exact h.execEndSpace
  case hostMemAccess => exact h.execHostMemAccess
  case registerWrite => exact h.execRegisterWrite
  case processMove => exact h.execProcessMove
  case collectiveConfigure => exact h.execCollectiveConfigure
  case collectiveRelease => exact h.execCollectiveRelease
  case root => exact h.execRoot
  case migrate => exact h.execMigrate
  case ovring => exact h.execOvring
  case unitpool => exact h.execUnitpool
  case ttset => exact h.execTtset
  case halt => exact h.execHalt
  case resume => exact h.execResume
  case kill => exact h.execKill
  case signal => exact h.execSignal
  case inbox => exact h.execInbox
  case unfence => exact h.execUnfence
  case counter => exact h.execCounter
  case attest => exact h.execAttest
  case powerOn => exact h.execPowerOn
  case throttle => exact h.execThrottle
  case overheatShutdown => exact h.execOverheatShutdown
  case illegalWord => exact OutInv.run fun _ _ => h.trap
  case childCreation => exact h.execChildCreation
  case flitArrival => exact h.execFlitArrival
  case linkPortUp => exact h.execLinkPortUp
  case toHostEndpointRoom => exact h.execToHostEndpointRoom
  case throttleEnd => exact h.execThrottleEnd

theorem Inv.issueNext {s : State} {k : Nat} {p : Proc} (h : Inv s) : OutInv (issueNext s k p) := by
  unfold Machine.issueNext
  extract_lets s₁
  have h₁ : Inv s₁ := h.upd
  split
  · exact h₁.exec _
  · split
    · exact (h₁.fetch.fst ‹_›).exec _
    · exact (h₁.fetch.fst ‹_›).exec _
    · exact .next (h₁.fetch.fst ‹_›).trap
    · exact .next (h₁.fetch.fst ‹_›)

theorem Inv.step {s : State} (h : Inv s) : OutInv (step s) := by
  unfold Machine.step
  split
  · exact Inv.exec h.tick.upd _
  · split
    · exact h.tick.exec _
    · split
      · exact h.tick.issueNext
      · exact .next h.tick

end Sys2Proof.Safety

/-- Settles O6: every operation on the state keeps the invariant, so every arm of `exec` does, and so does a step. -/
theorem stepsKeepTheInvariant : Obligations.StepsKeepTheInvariant :=
  fun _ t h e => h.step t e

end

section
open Sys2Proof Sys2Proof.Machine Sys2Proof.Safety

namespace Sys2Proof.Machine

/-! ### A write fills its register (R16) -/

theorem getLsbD_setBit_self {w : Nat} (x : BitVec w) {i : Nat} (hi : i < w) (b : Bool) :
    (setBit x i b).getLsbD i = b := by
  cases b <;> simp [setBit, hi]

/-- A register that has been written is full. -/
theorem Proc.gOk_wg_self (p : Proc) (n : BitVec 5) (x : Word) : (p.wg n x).gOk n = true := by
  unfold Proc.wg Proc.gOk
  split
  · simp [*]
  · simp [getLsbD_setBit_self _ n.isLt]

/-- A register other than g0 that has been marked empty is empty. -/
theorem Proc.gOk_eg_self (p : Proc) {n : BitVec 5} (h : n ≠ 0) : (p.eg n).gOk n = false := by
  unfold Proc.eg Proc.gOk
  rw [if_neg h]
  simpa [getLsbD_setBit_self _ n.isLt] using h

end Sys2Proof.Machine

/-- Refutes O8: its first clause says that no write to a g register changes the full/empty bits at all, the bit of the
register it writes included. A write to g1 while g1 is empty fills it (R16), so that bit changes. -/
theorem not_registers : ¬ Obligations.Registers := by
  unfold Obligations.Registers
  intro h
  let p : Proc := Proc.reset.eg 1
  obtain ⟨-, -, -, -, -, -, -, -, -, -, -, -, -, -, -, hfull, -, -⟩ := h.1 State.reset 0 p 1 0 0 0 0 0
  have hsame : (p.wg 1 0).gOk 1 = p.gOk 1 := by unfold Proc.gOk; rw [hfull]
  rw [Proc.gOk_wg_self, Proc.gOk_eg_self _ (by decide)] at hsame
  cases hsame
end

section
open Sys2Proof Sys2Proof.Machine Sys2Proof.Safety

namespace Sys2Proof.Machine

/-! ### The numbers of the system registers (R33, R34) -/

theorem sysNum_of_machine {num : BitVec 12} (h : 0x800 ≤ num.toNat) : sysNum num = .machine := by
  unfold sysNum
  split
  case h_21 => exact if_pos h
  all_goals omega

/-- A number below the machine range that the table of R34 does not list names nothing. -/
theorem sysNum_of_unlisted {num : BitVec 12} (hlt : num.toNat < 0x800)
    (h : num ∉ [0x000#12, 0x001, 0x002, 0x003, 0x010, 0x011, 0x012, 0x013, 0x014, 0x020, 0x021, 0x022, 0x030, 0x031,
      0x032, 0x040, 0x050, 0x051, 0x052, 0x060]) : sysNum num = .unlisted := by
  simp only [List.mem_cons, List.not_mem_nil, or_false, not_or, ← BitVec.toNat_inj] at h
  unfold sysNum
  split
  case h_21 => exact if_neg (by omega)
  all_goals exact absurd ‹num.toNat = _› (by tauto)

/-! ### MFS and MTS by the kind of number (R33, R34, R278) -/

theorem execMfs_of_reg (a : BitVec 5) {num : BitVec 12} {r : SysReg} (h : sysNum num = .reg r) (s : State) :
    execMfs a num s = issue { needS := r.readS, dsts := [.g a], word := sysWord false a num }
      (fun k p s => s.fin k (p.wg a (sysRead s k p r))) s := by
  simp only [execMfs, h]

/-- What MTS of a register does once it issues. -/
def wroteSys (a : BitVec 5) (r : SysReg) (k : Nat) (p : Proc) (s : State) : State :=
  let s := if r = .wdog then
      s.setSpace p.asid { s.space p.asid with wdog := wdogWrite (s.space p.asid).wdog (p.rg a) }
    else s
  let t := s.fin k (procWrite s (keyDev k) p r (p.rg a))
  if r = .prior then t.settle (placeOf k) else if r = .wdog then t.watchSpace p.asid else t

theorem execMts_of_reg (a : BitVec 5) {num : BitVec 12} {r : SysReg} (h : sysNum num = .reg r) (hw : r.writeBy ≠ .machine)
    (s : State) :
    execMts a num s = issue { needS := r.writeBy == .super, srcs := [.g a], word := sysWord true a num } (wroteSys a r) s := by
  unfold execMts
  rw [h]
  cases hr : r.writeBy
  case machine => exact absurd hr hw
  all_goals simp only [hr]; rfl

/-- The machine range traps PRIV in either mode, and MTS of ASIDR with it (R13, R34). -/
theorem execMfs_of_machine (a : BitVec 5) {num : BitVec 12} (h : sysNum num = .machine) (s : State) :
    execMfs a num s = run s fun k p => s.trap k p false 2 0 ((sysWord false a num).setWidth 64) := by
  simp only [execMfs, h]

theorem execMts_of_machine (a : BitVec 5) {num : BitVec 12} (h : num = 0x020 ∨ sysNum num = .machine) (s : State) :
    execMts a num s = run s fun k p => s.trap k p false 2 0 ((sysWord true a num).setWidth 64) := by
  rcases h with rfl | h
  · rfl
  · simp only [execMts, h]

/-- A number that names no register is no instruction. -/
theorem execMfs_of_unlisted (a : BitVec 5) {num : BitVec 12} (h : sysNum num = .unlisted) (s : State) :
    execMfs a num s = run s fun k p => s.trap k p false 1 2 ((sysWord false a num).setWidth 64) := by
  simp only [execMfs, h]

theorem execMts_of_unlisted (a : BitVec 5) {num : BitVec 12} (h : sysNum num = .unlisted) (s : State) :
    execMts a num s = run s fun k p => s.trap k p false 1 2 ((sysWord true a num).setWidth 64) := by
  simp only [execMts, h]

/-! ### What user mode may not run (R11, R84) -/

/-- An instruction that needs S mode traps PRIV in U mode, with its word. -/
theorem exec_needS_of_user {i : Instr} {s : State} {p : Proc} {w : IWord} {nd : Need} {body : Nat → Proc → State → State}
    (hi : exec i s = issue nd body s) (hp : mget s.procs s.cur = some p) (hm : p.smode = false) (hS : nd.needS = true)
    (hu : nd.unit = .none) (hn : nd.noRoutine = false ∨ p.kind = .normal) (hx : nd.ext = false)
    (hw : nd.word = w) : exec i s = .next (s.trap s.cur p false 2 0 (w.setWidth 64)) := by
  have hroutine : (nd.noRoutine && p.kind != .normal) = false := by
    rcases hn with hn | hn <;> simp [hn]
  rw [hi, issue, run_of_get rfl hp]
  simp [hu, hroutine, hS, hm, hx, hw]

/-- A TLBINV of the process is an issue with its needs. -/
theorem tlbInv_issues (nd : Need) (va : Proc → Option Word) (s : State) : ∃ body, tlbInv nd va s = issue nd body s :=
  ⟨_, rfl⟩

theorem tlbInv_of_user {i : Instr} {s : State} {p : Proc} {w : IWord} {nd : Need} {va : Proc → Option Word}
    (hi : exec i s = tlbInv nd va s) (hp : mget s.procs s.cur = some p) (hm : p.smode = false) (hS : nd.needS = true)
    (hu : nd.unit = .none) (hn : nd.noRoutine = false) (hx : nd.ext = false) (hw : nd.word = w) :
    exec i s = .next (s.trap s.cur p false 2 0 (w.setWidth 64)) := by
  obtain ⟨body, hb⟩ := tlbInv_issues nd va s
  exact exec_needS_of_user (hi.trans hb) hp hm hS hu (.inl hn) hx hw

theorem mfs_of_user {s : State} {p : Proc} (hp : mget s.procs s.cur = some p) (hm : p.smode = false) (a : BitVec 5)
    {num : BitVec 12} {r : SysReg} (h : sysNum num = .reg r) (hr : r.readS = true) :
    exec (.mfs a num) s = .next (s.trap s.cur p false 2 0 ((sysWord false a num).setWidth 64)) :=
  exec_needS_of_user ((exec_mfs a num s).trans (execMfs_of_reg a h s)) hp hm hr rfl (.inl rfl) rfl rfl

theorem mts_of_user {s : State} {p : Proc} (hp : mget s.procs s.cur = some p) (hm : p.smode = false) (a : BitVec 5)
    {num : BitVec 12} {r : SysReg} (h : sysNum num = .reg r) (hr : r.writeBy = .super) :
    exec (.mts a num) s = .next (s.trap s.cur p false 2 0 ((sysWord true a num).setWidth 64)) :=
  exec_needS_of_user ((exec_mts a num s).trans (execMts_of_reg a h (by simp [hr]) s)) hp hm (by simp [hr]) rfl (.inl rfl) rfl rfl

end Sys2Proof.Machine

/-- Settles O51: an instruction that needs S mode stops in `issue` at its mode check, and the numbers of the machine range,
of ASIDR and those that name nothing stop MFS and MTS before they issue. -/
theorem privileged : Obligations.Privileged := by
  unfold Obligations.Privileged
  intro a b c num s p hp
  have hrun : ∀ f, run s f = .next (f s.cur p) := run_of_get rfl hp
  refine ⟨fun hm => ⟨?_, ?_, ?_, ?_, ?_, ?_, ?_, ?_⟩, ?_, ?_, ?_⟩
  · exact exec_needS_of_user (exec_eret s) hp hm rfl rfl (.inl rfl) rfl rfl
  · exact tlbInv_of_user (exec_tlbinvPage b s) hp hm rfl rfl rfl rfl rfl
  · exact tlbInv_of_user (exec_tlbinvSpace s) hp hm rfl rfl rfl rfl rfl
  · exact exec_needS_of_user (exec_preempt a b s) hp hm rfl rfl (.inl rfl) rfl rfl
  · exact exec_needS_of_user (exec_mwgt a b c s) hp hm rfl rfl (.inl rfl) rfl rfl
  · exact fun hk => exec_needS_of_user (exec_chbindD a b s) hp hm rfl rfl (.inr hk) rfl rfl
  · intro hnum
    fin_cases hnum <;> exact mfs_of_user hp hm a rfl rfl
  · intro hnum
    fin_cases hnum <;> exact mts_of_user hp hm a rfl rfl
  · exact fun h => (exec_mts a num s).trans ((execMts_of_machine a (h.imp_right sysNum_of_machine) s).trans (hrun _))
  · exact fun h => (exec_mfs a num s).trans ((execMfs_of_machine a (sysNum_of_machine h) s).trans (hrun _))
  · intro hlt hnum
    have hu := sysNum_of_unlisted hlt hnum
    exact ⟨(exec_mfs a num s).trans ((execMfs_of_unlisted a hu s).trans (hrun _)),
      (exec_mts a num s).trans ((execMts_of_unlisted a hu s).trans (hrun _))⟩

namespace Sys2Proof.Machine

/-! ### Reading and writing the system registers (R33 to R54, R278) -/

/-- An MFS that can issue puts the value of its register in g[A]. -/
theorem mfs_completes (a : BitVec 5) {num : BitVec 12} {sup : Bool} {val : State → Nat → Proc → Word}
    {r : SysReg} (h : sysNum num = .reg r) (hs : r.readS = sup) (hv : val = fun s k p => sysRead s k p r) :
    Completes { needS := sup, dsts := [.g a], word := sysWord false a num } (.mfs a num)
      (fun k p s => s.setProc k (p.wg a (val s k p)).advance) := by
  subst hs
  exact completes_of_issue (execMfs_of_reg a h) fun k p s => by rw [hv]; rfl

/-- An MTS that can issue writes its register. -/
theorem mts_completes (a : BitVec 5) {num : BitVec 12} {sup : Bool} {r : SysReg} (h : sysNum num = .reg r)
    (hs : (r.writeBy == .super) = sup) (hw : r.writeBy ≠ .machine) :
    Completes { needS := sup, srcs := [.g a], word := sysWord true a num } (.mts a num) (wroteSys a r) := by
  subst hs
  exact completes_of_issue (execMts_of_reg a h hw) fun _ _ _ => rfl

/-- MTS of a register of the process itself, PRIOR apart, changes nothing but that register. -/
theorem mts_completes_proc (a : BitVec 5) {num : BitVec 12} {sup : Bool} {put : State → Nat → Proc → Word → Proc}
    {r : SysReg} (h : sysNum num = .reg r) (hs : (r.writeBy == .super) = sup)
    (hv : put = fun s dev p x => procWrite s dev p r x) (hw : r.writeBy ≠ .machine) (hprior : r ≠ .prior)
    (hwdog : r ≠ .wdog) :
    Completes { needS := sup, srcs := [.g a], word := sysWord true a num } (.mts a num)
      (fun k p s => s.setProc k (put s (keyDev k) p (p.rg a)).advance) := by
  subst hs
  exact completes_of_issue (execMts_of_reg a h hw) fun k p s => by
    simp only [wroteSys, if_neg hprior, if_neg hwdog, hv, State.fin]

/-- PSTAT is read with EVPEND bit 24 following the level of the timer (R49). -/
theorem sysRead_pstat (s : State) (k : Nat) (p : Proc) :
    sysRead s k p .pstat = if p.timecmp.toNat ≤ s.timebOf (keyDev k) then setBit p.pstat 24 true else p.pstat := by
  simp [sysRead, pstatNow, timerLevel]

end Sys2Proof.Machine

/-- Settles O47: MFS and MTS of a listed register issue and do what `sysRead` and `procWrite` give for it, register by
register; PRIOR and WDOG have an effect beyond the process. -/
theorem systemRegisters : Obligations.SystemRegisters := by
  unfold Obligations.SystemRegisters
  intro a
  refine ⟨fun num sup val h => ?_, fun num sup put h => ?_, ?_, ?_⟩
  · rcases h with ⟨h, hv⟩ | ⟨h, hv⟩ | ⟨h, hv⟩ | ⟨h, hv⟩ | ⟨h, hv⟩ | ⟨h, hv⟩ | ⟨h, hv⟩ | ⟨h, hv⟩ | ⟨h, hv⟩ | ⟨h, hv⟩ |
      ⟨h, hv⟩ | ⟨h, hv⟩ | ⟨h, hv⟩ | ⟨h, hv⟩ | ⟨h, hv⟩ | ⟨h, hv⟩ | ⟨h, hv⟩ | ⟨h, hv⟩ | ⟨h, hv⟩ | ⟨h, hv⟩ <;> cases h
    · exact mfs_completes a (r := .pstat) rfl rfl (by simp only [hv, sysRead_pstat])
    all_goals exact mfs_completes a rfl rfl hv
  · rcases h with ⟨h, hv⟩ | ⟨h, hv⟩ | ⟨h, hv⟩ | ⟨h, hv⟩ | ⟨h, hv⟩ | ⟨h, hv⟩ | ⟨h, hv⟩ | ⟨h, hv⟩ | ⟨h, hv⟩ | ⟨h, hv⟩ |
      ⟨h, hv⟩ | ⟨h, hv⟩ | ⟨h, hv⟩ | ⟨h, hv⟩ | ⟨h, hv⟩
    case inr.inr.inr.inr.inr.inr.inr.inr.inr.inr.inr.inr.inr.inr =>
      fin_cases h <;> exact mts_completes_proc a rfl rfl hv (by decide) (by decide) (by decide)
    all_goals cases h; exact mts_completes_proc a rfl rfl hv (by decide) (by decide) (by decide)
  · exact mts_completes a (r := .prior) rfl rfl (by decide)
  · exact mts_completes a (r := .wdog) rfl rfl (by decide)
end

section
open Sys2Proof Sys2Proof.Machine Sys2Proof.Safety

namespace Sys2Proof.Safety

/-! ### Processes that differ in some registers only -/

/-- `q` is `p` but for its PC, its stall and its scratchpad, and the registers named. -/
structure SameBut (p q : Proc) (gs vs : List (BitVec 5)) (ks : List (BitVec 3)) : Prop where
  regs : SameRegisters p q gs vs ks
  gFull : q.gFull = p.gFull
  system : SameSystem p q

theorem SameBut.trans {p q r : Proc} {gs vs : List (BitVec 5)} {ks : List (BitVec 3)} (h : SameBut p q [] [] [])
    (h' : SameBut q r gs vs ks) : SameBut p r gs vs ks := by
  obtain ⟨⟨hg, hv, hk⟩, hf, hs⟩ := h
  obtain ⟨⟨hg', hv', hk'⟩, hf', hs'⟩ := h'
  refine ⟨⟨fun n hn => ?_, fun n hn => ?_, fun n hn => ?_⟩, hf'.trans hf, ?_⟩
  · exact (hg' n hn).trans (hg n List.not_mem_nil)
  · exact (hv' n hn).trans (hv n List.not_mem_nil)
  · exact (hk' n hn).trans (hk n List.not_mem_nil)
  · simp only [SameSystem] at hs hs' ⊢
    simp only [hs', hs, and_self]

/-- A process with another PC, stall, start or scratchpad has the same registers. -/
theorem sameBut_control (p : Proc) (pc : Word) (stall : Option Stall) (started : Bool) (sp : Nat) :
    SameBut p { p with pc := pc, stall := stall, started := started, spBase := sp } [] [] [] :=
  ⟨⟨fun _ _ => rfl, fun _ _ => rfl, fun _ _ => rfl⟩, rfl, by simp [SameSystem]⟩

/-- Going on at another PC changes no register. -/
theorem SameBut.goto {p q : Proc} {gs vs : List (BitVec 5)} {ks : List (BitVec 3)} (h : SameBut p q gs vs ks) (pc : Word) :
    SameBut p { q with pc := pc } gs vs ks :=
  ⟨h.regs, h.gFull, h.system⟩

theorem sameBut_refl (p : Proc) : SameBut p p [] [] [] := sameBut_control p p.pc p.stall p.started p.spBase

theorem setBit_of_set {w : Nat} {x : BitVec w} {i : Nat} (h : x.getLsbD i = true) : setBit x i true = x := by
  ext j hj
  simp only [setBit, if_true, BitVec.getElem_or, BitVec.getElem_twoPow, Bool.or_eq_left_iff_imp, decide_eq_true_eq]
  rintro rfl
  exact h

/-- A write of a full g register changes only that register. -/
theorem sameBut_wg {p : Proc} {a : BitVec 5} (h : p.gOk a = true) (x : Word) : SameBut p (p.wg a x) [a] [] [] := by
  refine ⟨⟨fun n hn => Proc.rg_wg_of_ne p (by simpa [eq_comm] using hn) x, fun n _ => by simp [Proc.rv],
    fun n _ => by simp [Proc.rk]⟩, ?_, by simp [SameSystem]⟩
  by_cases ha : a = 0
  · rw [ha, Proc.wg_zero]
  · have hset : p.gFull.getLsbD a.toNat = true := by
      rw [Proc.gOk, beq_false_of_ne ha] at h
      exact h
    rw [Proc.wg, if_neg ha, setBit_of_set hset]

/-- A write of a full v register changes only that register. -/
theorem sameBut_wv {p : Proc} {a : BitVec 5} (h : p.vOk a = true) (x : VReg) : SameBut p (p.wv a x) [] [a] [] :=
  ⟨⟨fun _ _ => rfl, fun n hn => Proc.rv_wv_of_ne p (by simpa [eq_comm] using hn) x, fun _ _ => rfl⟩, rfl, by
    simpa [SameSystem, Proc.wv] using setBit_of_set h⟩

theorem rk_wk_of_ne (p : Proc) {n m : BitVec 3} (h : n ≠ m) (x : Word) : (p.wk n x).rk m = p.rk m := by
  unfold Proc.rk Proc.wk
  by_cases hn : n = 0
  · simp [hn]
  · by_cases hm : m = 0
    · simp [hm]
    · simp only [if_neg hn, if_neg hm]
      exact Vector.getElem_set_ne n.isLt m.isLt fun e => h (BitVec.eq_of_toNat_eq e)

/-- A write of a k register changes only that register. -/
theorem sameBut_wk (p : Proc) (a : BitVec 3) (x : Word) : SameBut p (p.wk a x) [] [] [a] :=
  ⟨⟨fun n _ => by simp [Proc.rg], fun n _ => by simp [Proc.rv],
    fun n hn => rk_wk_of_ne p (by simpa [eq_comm] using hn) x⟩, Proc.wk_gFull p a x, by simp [SameSystem]⟩

/-! ### What leaves the rest of the machine alone -/

/-- Of the machine at most process `k` and clocks of its core have changed. -/
structure Leaves (s t : State) (k : Nat) : Prop where
  others : SameOthers s t k
  memory : SameMemory s t
  tiles : (t.core (placeOf k)).m = (s.core (placeOf k)).m
  net : t.net = s.net
  chans : t.chans = s.chans

theorem Leaves.trans {s t u : State} {k : Nat} (h : Leaves s t k) (h' : Leaves t u k) : Leaves s u k where
  others _ hj := (h'.others _ hj).trans (h.others _ hj)
  memory := ⟨fun a => (h'.memory.1 a).trans (h.memory.1 a), fun a => (h'.memory.2.1 a).trans (h.memory.2.1 a),
    h'.memory.2.2.trans h.memory.2.2⟩
  tiles := h'.tiles.trans h.tiles
  net := h'.net.trans h.net
  chans := h'.chans.trans h.chans

theorem leaves_refl (s : State) (k : Nat) : Leaves s s k :=
  ⟨fun _ _ => rfl, ⟨fun _ => rfl, fun _ => rfl, rfl⟩, rfl, rfl, rfl⟩

theorem leaves_setProc (s : State) (k : Nat) (p : Proc) : Leaves s (s.setProc k p) k where
  others _ hj := mget_mset_of_ne s.procs p (Ne.symm hj)
  memory := ⟨fun _ => rfl, fun _ => rfl, rfl⟩
  tiles := rfl
  net := rfl
  chans := rfl

/-- A change of the core of the process that leaves its tile registers alone. -/
theorem leaves_setCore (s : State) (k : Nat) {c : Core} (h : c.m = (s.core (placeOf k)).m) :
    Leaves s (s.setCore (placeOf k) c) k where
  others _ _ := rfl
  memory := ⟨fun _ => rfl, fun _ => rfl, rfl⟩
  tiles := by simpa [State.core] using h
  net := rfl
  chans := rfl

theorem leaves_modCore (s : State) (k : Nat) {f : Core → Core} (h : ∀ c, (f c).m = c.m) :
    Leaves s (s.modCore (placeOf k) f) k :=
  leaves_setCore s k (h _)

theorem leaves_clocked (s : State) (k : Nat) (p : Proc) : Leaves s (s.clocked k p) k ∧ (s.clocked k p).procs = s.procs := by
  unfold State.clocked
  dsimp only
  split
  · exact ⟨leaves_refl s k, rfl⟩
  · exact ⟨leaves_setCore s k rfl, rfl⟩

/-- What retiring changes besides clocks: nothing (R403). -/
theorem leaves_retired (s : State) (k : Nat) (p : Proc) : Leaves s (s.retired k p) k ∧ (s.retired k p).procs = s.procs := by
  unfold State.retired
  split
  · exact leaves_clocked s k p
  · exact ⟨leaves_refl s k, rfl⟩

/-- A process that issues has started, its stall over and perhaps with a retained scratchpad (R84, R155). -/
theorem start_cases (s : State) (k : Nat) (p : Proc) :
    ∃ q, (s.start k p).2 = q ∧ Leaves s (s.start k p).1 k ∧ SameBut p q [] [] [] ∧ q.kind = p.kind := by
  refine ⟨_, rfl, ?_⟩
  unfold State.start
  dsimp only
  split
  · exact ⟨leaves_setProc s k _, sameBut_control p p.pc none p.started p.spBase, rfl⟩
  · split
    next r _ =>
      have hcore := leaves_modCore s k (f := fun c => { c with retained := c.retained.filter (· != r) }) fun _ => rfl
      exact ⟨hcore.trans (leaves_setProc _ k _), sameBut_control p p.pc none true r.base, rfl⟩
    next => exact ⟨leaves_setProc s k _, sameBut_control p p.pc none true p.spBase, rfl⟩

/-! ### The frame of an instruction by the shape of its meaning -/

/-- Whether the process holds a register full; that of a tile register is held elsewhere. -/
def holds (p : Proc) : RegRef → Prop
  | .g n => p.gOk n = true
  | .v n => p.vOk n = true
  | .m _ => True

theorem holds_of_regFull {s : State} {k : Nat} {p q : Proc} {r : RegRef} (h : regFull s k p r = true)
    (hq : SameBut p q [] [] []) : holds q r := by
  cases r with
  | g n => simpa [holds, Proc.gOk, hq.gFull, regFull] using h
  | v n =>
    have hv : q.vFull = p.vFull := by
      obtain ⟨-, -, hs⟩ := hq
      simp only [SameSystem] at hs
      simp only [hs]
    simpa [holds, Proc.vOk, hv, regFull] using h
  | m n => trivial

/-- An instruction whose body replaces its process alone, by one that differs only in the registers named, has the frame of a
register instruction. -/
theorem onlyIf_of_issue {cond : Proc → Prop} {nd : Need} {i : Instr} {body : Nat → Proc → State → State}
    {gs vs : List (BitVec 5)} {ks : List (BitVec 3)} (hi : ∀ s, exec i s = issue nd body s)
    (hcond : ∀ p q, cond p → SameBut p q [] [] [] → q.kind = p.kind → cond q)
    (hbody : ∀ k p s, cond p → (∀ r ∈ nd.srcs, holds p r) → (∀ r ∈ nd.dsts, holds p r) →
      ∃ q, body k p s = s.setProc k q ∧ SameBut p q gs vs ks) : OnlyIf cond nd i gs vs ks := by
  intro s k p hr hc
  obtain ⟨p', hp', hleaves, hsame, hkind⟩ := start_cases s k p
  obtain ⟨q, hq, hpq⟩ := hbody k p' (s.start k p).1 (hcond p p' hc hsame hkind) (fun r h => holds_of_regFull (hr.srcs r h) hsame)
    (fun r h => holds_of_regFull (hr.dsts r h) hsame)
  have hall := hsame.trans hpq
  obtain ⟨hret, hprocs⟩ := leaves_retired ((s.start k p).1.setProc k q) k p'
  have hframe := (hleaves.trans (leaves_setProc _ k q)).trans hret
  refine ⟨_, q, ?_, ?_, hall.regs, hall.gFull, hall.system, hframe.others, hframe.memory, hframe.tiles, hframe.net, hframe.chans⟩
  · rw [hi, issue_ready hr, issued, hp', hq]
  · rw [hprocs, State.setProc_procs, mget_mset_self]

theorem only_of_issue {nd : Need} {i : Instr} {body : Nat → Proc → State → State} {gs vs : List (BitVec 5)}
    {ks : List (BitVec 3)} (hi : ∀ s, exec i s = issue nd body s)
    (hbody : ∀ k p s, (∀ r ∈ nd.srcs, holds p r) → (∀ r ∈ nd.dsts, holds p r) →
      ∃ q, body k p s = s.setProc k q ∧ SameBut p q gs vs ks) : Only nd i gs vs ks :=
  onlyIf_of_issue hi (fun _ _ _ _ _ => trivial) fun k p s _ => hbody k p s

/-- A register instruction with a g destination. -/
theorem only_of_execG {srcs : List RegRef} {a : BitVec 5} {ext : Bool} {i : Instr} {f : Proc → Word}
    (hi : ∀ s, exec i s = execG srcs a ext f s) : Only { srcs := srcs, dsts := [.g a], ext := ext } i [a] [] [] :=
  only_of_issue hi fun _ p _ _ hd => ⟨_, rfl, (sameBut_wg (hd (.g a) (List.mem_singleton_self _)) (f p)).goto _⟩

/-- A vector instruction with a v destination. -/
theorem only_of_vecTo {srcs : List RegRef} {a : BitVec 5} {i : Instr} {f : Proc → VReg}
    (hi : ∀ s, exec i s = vecTo srcs a f s) : Only { srcs := srcs, dsts := [.v a] } i [] [a] [] :=
  only_of_issue hi fun _ p _ _ hd => ⟨_, rfl, (sameBut_wv (hd (.v a) (List.mem_singleton_self _)) (f p)).goto _⟩

/-- An instruction that writes a mask. -/
theorem only_of_mask {srcs : List RegRef} {a : BitVec 3} {i : Instr} {f : Proc → Word}
    (hi : ∀ s, exec i s = issue { srcs := srcs } (fun k p s => s.fin k (p.wk a (f p))) s) : Only { srcs := srcs } i [] [] [a] :=
  only_of_issue hi fun _ p _ _ _ => ⟨_, rfl, (sameBut_wk p a (f p)).goto _⟩

/-- Integer instructions of two sources, of one, and with an immediate (R109, R111, R112). -/
theorem only_of_exec2 {a b c : BitVec 5} {f : Word → Word → Word} {i : Instr}
    (hi : ∀ s, exec i s = exec2 a b c f s) :
    Only { srcs := [.g b, .g c], dsts := [.g a] } i [a] [] [] :=
  only_of_execG hi

theorem only_of_exec1 {a b : BitVec 5} {f : Word → Word} {i : Instr}
    (hi : ∀ s, exec i s = exec1 a b f s) :
    Only { srcs := [.g b], dsts := [.g a] } i [a] [] [] :=
  only_of_execG hi

theorem only_of_immOp {a b : BitVec 5} {f : Word → Word → Word} {imm : Word} {ext : Bool} {i : Instr}
    (hi : ∀ s, exec i s = immOp f a b imm ext s) :
    Only { srcs := [.g b], dsts := [.g a], ext := ext } i [a] [] [] :=
  only_of_execG hi

/-- A reduction (R186). -/
theorem only_of_vecRed {a b : BitVec 5} {f : Proc → Word} {i : Instr}
    (hi : ∀ s, exec i s = vecRed a b f s) :
    Only { srcs := [.v b], dsts := [.g a] } i [a] [] [] :=
  only_of_execG hi

/-- Element operations of one source, of two, with a count, and fused (R176 to R181). -/
theorem only_of_vec1 {a b : BitVec 5} {m : BitVec 3} {ty : Ty} {f : NumMode → Nat → Nat} {i : Instr}
    (hi : ∀ s, exec i s = vec1 a b m ty f s) :
    Only { srcs := [.v b], dsts := [.v a] } i [] [a] [] :=
  only_of_vecTo hi

theorem only_of_vec2 {a b c : BitVec 5} {m : BitVec 3} {ty : Ty} {f : NumMode → Nat → Nat → Nat} {i : Instr}
    (hi : ∀ s, exec i s = vec2 a b c m ty f s) :
    Only { srcs := [.v b, .v c], dsts := [.v a] } i [] [a] [] :=
  only_of_vecTo hi

theorem only_of_vecCount {a b c : BitVec 5} {m : BitVec 3} {ty : Ty} {f : Nat → Nat → Nat} {i : Instr}
    (hi : ∀ s, exec i s = vecCount a b c m ty f s) :
    Only { srcs := [.v b, .g c], dsts := [.v a] } i [] [a] [] :=
  only_of_vecTo hi

theorem only_of_vecFma {sub : Bool} {a b c : BitVec 5} {m : BitVec 3} {ty : Ty} {i : Instr}
    (hi : ∀ s, exec i s = vecFma sub a b c m ty s) :
    Only { srcs := [.v b, .v c, .v a], dsts := [.v a] } i [] [a] [] :=
  only_of_vecTo hi

/-- A permute (R188). -/
theorem only_of_vecPerm {srcs : List RegRef} {a : BitVec 5} {m : BitVec 3} {ty : Ty} {f : Proc → Nat → Nat} {i : Instr}
    (hi : ∀ s, exec i s = vecPerm srcs a m ty f s) :
    Only { srcs := srcs, dsts := [.v a] } i [] [a] [] :=
  only_of_vecTo hi

/-- A compare, and an operation on masks (R182, R183). -/
theorem only_of_vecCmp {ka : BitVec 3} {b c : BitVec 5} {m : BitVec 3} {ty : Ty} {f : Bool → Nat → Nat → Bool} {i : Instr}
    (hi : ∀ s, exec i s = vecCmp ka b c m ty f s) :
    Only { srcs := [.v b, .v c] } i [] [] [ka] :=
  only_of_mask hi

theorem only_of_maskTo {ka : BitVec 3} {f : Proc → Word} {i : Instr}
    (hi : ∀ s, exec i s = maskTo ka f s) :
    Only {} i [] [] [ka] :=
  only_of_mask hi

/-- A compare-branch. -/
theorem only_of_branch {cond : Word → Word → Bool} {a b : BitVec 5} {imm : Word} {ext : Bool} {i : Instr}
    (hi : ∀ s, exec i s = branch cond a b imm ext s) : Only { srcs := [.g b, .g a], ext := ext } i [] [] [] :=
  only_of_issue hi fun k p s _ _ => ⟨_, rfl, by
    split
    · exact (sameBut_refl p).goto _
    · exact (sameBut_refl p).goto _⟩

/-- The counted branch writes its counter. -/
theorem only_of_dbnz {a : BitVec 5} {imm : Word} {ext : Bool} {i : Instr} (hi : ∀ s, exec i s = dbnzBy a imm ext s) :
    Only { srcs := [.g a], ext := ext } i [a] [] [] :=
  only_of_issue hi fun k p s hs _ => by
    have hw := sameBut_wg (hs (.g a) (List.mem_singleton_self _)) (p.rg a - 1)
    refine ⟨_, rfl, ?_⟩
    split
    · exact hw.goto _
    · exact hw.goto _

/-- A jump through `m` goes to an aligned target that is no return point of a routine. -/
def Goes (m : BitVec 5) (p : Proc) : Prop :=
  (p.kind = .normal ∨ p.rg m ≠ returnPoint) ∧ (p.rg m).extractLsb' 0 2 = 0

theorem Goes.congr {m : BitVec 5} {p q : Proc} (h : Goes m p) (hq : SameBut p q [] [] []) (hk : q.kind = p.kind) : Goes m q := by
  unfold Goes
  rw [hk, hq.regs.1 m List.not_mem_nil]
  exact h

theorem Goes.aligned {m : BitVec 5} {p : Proc} (h : Goes m p) : ¬ (p.rg m).toNat % 4 ≠ 0 := by
  have h2 := congrArg BitVec.toNat h.2
  simpa using h2

theorem jump_of_goes {s : State} {k : Nat} {p : Proc} {t : Word} (h : p.kind = .normal ∨ t ≠ returnPoint) :
    s.jump k p t = s.setProc k { p with pc := t } := by
  unfold State.jump
  rw [if_neg (by tauto)]

/-- A jump through a register, with the link in `a` where there is one. -/
theorem onlyIf_of_jumpReg {b : BitVec 5} {link : Option (BitVec 5)} {i : Instr} (hi : ∀ s, exec i s = jumpReg b link s) :
    OnlyIf (Goes b) { srcs := [.g b], dsts := link.toList.map .g } i link.toList [] [] :=
  onlyIf_of_issue hi (fun _ _ => Goes.congr) fun k p s hgo _ hd => by
    dsimp only
    rw [if_neg hgo.aligned]
    cases link with
    | none => exact ⟨_, jump_of_goes hgo.1, (sameBut_refl p).goto _⟩
    | some a =>
      have ha : p.gOk a = true := hd (.g a) (List.mem_singleton_self _)
      exact ⟨_, jump_of_goes (by simpa using hgo.1), (sameBut_wg ha _).goto _⟩

/-! ### EXT pairs of the register instructions (R87) -/

theorem extPair_immOp {f : IForm} (h : f ∈ [IForm.addi, .andi, .ori, .xori, .slti, .sltiu, .movhi, .muli]) (x : BitVec 26)
    (a b : BitVec 5) (i : BitVec 16) : ∃ g, ∀ s, exec (.extPair x f a b i) s = immOp g a b (extImm x i) true s := by
  fin_cases h <;> exact ⟨_, fun s => exec_extPair x _ a b i s⟩

theorem extPair_branch {f : IForm} (h : f ∈ [IForm.beq, .bne, .blt, .bge, .bltu, .bgeu]) (x : BitVec 26)
    (a b : BitVec 5) (i : BitVec 16) : ∃ cond, ∀ s, exec (.extPair x f a b i) s = branch cond a b (extImm x i) true s := by
  fin_cases h <;> exact ⟨_, fun s => exec_extPair x _ a b i s⟩

end Sys2Proof.Safety

/-- Settles O59: every listed instruction is one of a few shapes (a g, v or k destination, a branch, a jump), and each shape
replaces the issuing process alone by one that differs in its destination and its PC. -/
theorem registerFrame : Obligations.RegisterFrame := by
  unfold Obligations.RegisterFrame
  intro a b c ka kb kc m q ty src i x y n rtz sat
  refine ⟨?_, ?_, ?_, ?_, ?_, ?_, ?_, ?_, ?_, ?_, ?_, ?_, ?_, ?_, ?_, ?_, ?_, ?_, ?_, ?_, ?_, ?_, ?_, ?_, ?_, ?_⟩
  · simp only [List.forall_mem_cons, List.not_mem_nil, IsEmpty.forall_iff, implies_true, and_true]
    exact ⟨only_of_exec2 (exec_add a b c), only_of_exec2 (exec_sub a b c), only_of_exec2 (exec_and a b c),
      only_of_exec2 (exec_or a b c), only_of_exec2 (exec_xor a b c), only_of_exec2 (exec_andn a b c),
      only_of_exec2 (exec_shl a b c), only_of_exec2 (exec_shr a b c), only_of_exec2 (exec_sra a b c),
      only_of_exec2 (exec_rol a b c), only_of_exec2 (exec_mul a b c), only_of_exec2 (exec_mulh a b c),
      only_of_exec2 (exec_mulhu a b c), only_of_exec2 (exec_div a b c), only_of_exec2 (exec_divu a b c),
      only_of_exec2 (exec_rem a b c), only_of_exec2 (exec_remu a b c), only_of_exec2 (exec_min a b c),
      only_of_exec2 (exec_max a b c), only_of_exec2 (exec_minu a b c), only_of_exec2 (exec_maxu a b c),
      only_of_exec2 (exec_slt a b c), only_of_exec2 (exec_sltu a b c), only_of_exec2 (exec_seq a b c),
      only_of_exec2 (exec_lea1 a b c), only_of_exec2 (exec_lea2 a b c), only_of_exec2 (exec_lea4 a b c),
      only_of_exec2 (exec_lea8 a b c)⟩
  · simp only [List.forall_mem_cons, List.not_mem_nil, IsEmpty.forall_iff, implies_true, and_true]
    exact ⟨only_of_exec1 (exec_clz a b), only_of_exec1 (exec_ctz a b), only_of_exec1 (exec_popc a b),
      only_of_exec1 (exec_brev a b), only_of_exec1 (exec_bswap a b), only_of_exec1 (exec_sextB a b),
      only_of_exec1 (exec_sextH a b), only_of_exec1 (exec_sextW a b), only_of_exec1 (exec_zextB a b),
      only_of_exec1 (exec_zextH a b), only_of_exec1 (exec_zextW a b), only_of_immOp (exec_addi a b i),
      only_of_immOp (exec_andi a b i), only_of_immOp (exec_ori a b i), only_of_immOp (exec_xori a b i),
      only_of_immOp (exec_slti a b i), only_of_immOp (exec_sltiu a b i), only_of_immOp (exec_movhi a b i),
      only_of_immOp (exec_muli a b i), only_of_exec1 (exec_shiL a b n), only_of_exec1 (exec_shiR a b n),
      only_of_exec1 (exec_shiA a b n), only_of_exec1 (exec_shiRol a b n)⟩
  · intro f hf
    obtain ⟨g, hg⟩ := extPair_immOp hf x a b i
    exact only_of_immOp hg
  · simp only [List.forall_mem_cons, List.not_mem_nil, IsEmpty.forall_iff, implies_true, and_true]
    exact ⟨only_of_branch (exec_beq a b i), only_of_branch (exec_bne a b i), only_of_branch (exec_blt a b i),
      only_of_branch (exec_bge a b i), only_of_branch (exec_bltu a b i), only_of_branch (exec_bgeu a b i)⟩
  · intro f j hf
    fin_cases hf <;> exact only_of_execG (exec_extPair 0 .shi a b _)
  · intro f hf
    obtain ⟨g, hg⟩ := extPair_branch hf x a b i
    exact only_of_branch hg
  · exact only_of_dbnz (exec_extPair x .dbnz a 0 i)
  · exact ⟨onlyIf_of_jumpReg (exec_jr b), onlyIf_of_jumpReg exec_ret, onlyIf_of_jumpReg (exec_callr a b)⟩
  · exact only_of_dbnz (exec_dbnz a i)
  · exact only_of_issue (exec_j y) fun _ p _ _ _ => ⟨_, rfl, (sameBut_refl p).goto _⟩
  · exact only_of_issue (exec_call y) fun _ p _ _ hd =>
      ⟨_, rfl, (sameBut_wg (hd (.g 31) (List.mem_singleton_self _)) _).goto _⟩
  · simp only [List.forall_mem_cons, List.not_mem_nil, IsEmpty.forall_iff, implies_true, and_true]
    exact ⟨only_of_vec2 (exec_vadd a b c m ty), only_of_vec2 (exec_vsub a b c m ty), only_of_vec2 (exec_vmul a b c m ty),
      only_of_vec2 (exec_vmin a b c m ty), only_of_vec2 (exec_vmax a b c m ty), only_of_vec2 (exec_vadds a b c m ty),
      only_of_vec2 (exec_vsubs a b c m ty), only_of_vec2 (exec_vmulh a b c m ty), only_of_vec2 (exec_vabsd a b c m ty),
      only_of_vec2 (exec_vdiv a b c m ty), only_of_vec2 (exec_vand a b c m ty), only_of_vec2 (exec_vor a b c m ty),
      only_of_vec2 (exec_vxor a b c m ty), only_of_vec2 (exec_vandn a b c m ty), only_of_vec2 (exec_vshl a b c m ty),
      only_of_vec2 (exec_vshr a b c m ty), only_of_vec2 (exec_vsra a b c m ty), only_of_vec2 (exec_vrol a b c m ty),
      only_of_vecTo (exec_vsel a b c m ty), only_of_vecPerm (exec_vperm a b c m ty), only_of_vecPerm (exec_vzipl a b c m ty),
      only_of_vecPerm (exec_vziph a b c m ty), only_of_vecPerm (exec_vuzpe a b c m ty), only_of_vecPerm (exec_vuzpo a b c m ty)⟩
  · simp only [List.forall_mem_cons, List.not_mem_nil, IsEmpty.forall_iff, implies_true, and_true]
    exact ⟨only_of_vecFma (exec_vfma a b c m ty), only_of_vecFma (exec_vfms a b c m ty),
      only_of_vecPerm (exec_vpermx a b c m ty)⟩
  · simp only [List.forall_mem_cons, List.not_mem_nil, IsEmpty.forall_iff, implies_true, and_true]
    exact ⟨only_of_vec1 (exec_vabs a b m ty), only_of_vec1 (exec_vneg a b m ty), only_of_vec1 (exec_vsqrt a b m ty),
      only_of_vec1 (exec_vnot a b m ty), only_of_vec1 (exec_vclz a b m ty), only_of_vec1 (exec_vpopc a b m ty),
      only_of_vec1 (exec_vctz a b m ty), only_of_vec1 (exec_vrcp a b m ty), only_of_vec1 (exec_vrsq a b m ty),
      only_of_vec1 (exec_vexp2 a b m ty), only_of_vec1 (exec_vlog2 a b m ty), only_of_vec1 (exec_vmov a b m ty),
      only_of_vecTo (exec_vcvt a b rtz src m ty q sat), only_of_vecPerm (exec_vrev a b m ty),
      only_of_vecTo (exec_vcomp a b m ty), only_of_vecTo (exec_vexpd a b m ty)⟩
  · simp only [List.forall_mem_cons, List.not_mem_nil, IsEmpty.forall_iff, implies_true, and_true]
    exact ⟨only_of_vecCount (exec_vshlg a b c m ty), only_of_vecCount (exec_vshrg a b c m ty),
      only_of_vecCount (exec_vsrag a b c m ty), only_of_vecCount (exec_vrolg a b c m ty),
      only_of_vecPerm (exec_vsldn a b c m ty), only_of_vecPerm (exec_vslup a b c m ty),
      only_of_vecPerm (exec_vsplat a b c m ty)⟩
  · exact only_of_vecPerm (exec_vbcast a b m ty)
  · exact only_of_vecTo (exec_vins a b c ty)
  · exact only_of_vecPerm (exec_viota a m ty)
  · simp only [List.forall_mem_cons, List.not_mem_nil, IsEmpty.forall_iff, implies_true, and_true]
    exact ⟨only_of_vecRed (exec_vredsum a b m ty), only_of_vecRed (exec_vredmin a b m ty),
      only_of_vecRed (exec_vredmax a b m ty), only_of_vecRed (exec_vredand a b m ty), only_of_vecRed (exec_vredor a b m ty),
      only_of_vecRed (exec_vredxor a b m ty), only_of_vecRed (exec_vredsumw a b m ty)⟩
  · exact only_of_execG (exec_vext a b c ty)
  · exact only_of_execG (exec_kmovg a kb)
  · exact only_of_execG (exec_kpopc a kb)
  · exact only_of_execG (exec_kfirst a kb)
  · simp only [List.forall_mem_cons, List.not_mem_nil, IsEmpty.forall_iff, implies_true, and_true]
    exact ⟨only_of_vecCmp (exec_vcmpEq ka b c m ty), only_of_vecCmp (exec_vcmpNe ka b c m ty),
      only_of_vecCmp (exec_vcmpLt ka b c m ty), only_of_vecCmp (exec_vcmpLe ka b c m ty),
      only_of_vecCmp (exec_vcmpUn ka b c m ty)⟩
  · simp only [List.forall_mem_cons, List.not_mem_nil, IsEmpty.forall_iff, implies_true, and_true]
    exact ⟨only_of_maskTo (exec_kand ka kb kc), only_of_maskTo (exec_kor ka kb kc), only_of_maskTo (exec_kxor ka kb kc),
      only_of_maskTo (exec_knot ka kb)⟩
  · exact only_of_mask (exec_kmovk ka b)
end

section
open Sys2Proof Sys2Proof.Machine Sys2Proof.Safety

namespace Sys2Proof.Machine

/-! ### The steps of the scheduler, one by one -/

section
variable {s : State} {k : Nat} {p : Proc}

theorem exec_timerEvent_of_level (hl : s.live k = some p) (ht : timerLevel s (keyDev k) p = true)
    (he : p.pstat.getLsbD 24 = false) : exec (.timerEvent k) s = .next (s.setEvent k 24) := by
  simp only [exec_timerEvent, execTimerEvent, hl, ht, he, Bool.not_false, Bool.and_self, if_true]

/-- A JWAIT past its deadline ends with the timeout of R150. -/
theorem expireWait_of_join {w : Wait} {j : Nat} (hw : w.withdrawn = false) (hk : w.kind = .join j) :
    s.expireWait k p w = s.finishWait k joinTimeout := by
  simp [State.expireWait, hw, hk]

theorem exec_waitDeadline_of_join {w : Wait} {j d : Nat} (hl : s.live k = some p) (hp : p.wait = some w)
    (hw : w.withdrawn = false) (hk : w.kind = .join j) (hd : w.deadline = some d)
    (ht : d ≤ ((s.expireParked k p.gen).expireNodes k p.gen).cycle) :
    exec (.waitDeadline k) s = .next (((s.expireParked k p.gen).expireNodes k p.gen).finishWait k joinTimeout) := by
  simp only [exec_waitDeadline, execWaitDeadline, hl, hp, hd, pastDeadline, ht, decide_true, if_true, expireWait_of_join hw hk]

/-- A process that waits issues nothing. -/
theorem runnable_of_wait {w : Wait} (hw : p.wait = some w) : runnable s k p = false := by
  simp [runnable, hw]

theorem exec_slotGiveUp_of_wait {w : Wait} (hp : mget s.procs k = some p) (hw : p.wait = some w) (hr : p.isRunning = true)
    (ht : w.since + 64 ≤ s.cycle) : exec (.slotGiveUp k) s = .next (s.block k) := by
  simp [execSlotGiveUp, hp, hw, hr, ht, runnable_of_wait hw]

theorem exec_spillSwap_of_room {place : Nat} (hf : (s.core place).readyOrder.find? (isSpilled s) = some k)
    (hc : contextsFull s place = false) : exec (.spillSwap place) s = .next ((s.unspill k).settle place) := by
  simp [execSpillSwap, hf, hc]

theorem exec_starvationRaise_of_due (hp : mget s.procs k = some p) (hr : p.run = .ready) (he : p.eff < 11)
    (hd : p.eff < p.prioBase + (s.timeb - p.readySince) / 64000) :
    exec (.starvationRaise k) s =
      .next (((s.modLive k fun p => p.setEff (p.eff + 1)).enqueue k false).settle (placeOf k)) := by
  simp only [exec_starvationRaise, execStarvationRaise, hp, hr, he, hd, and_self, if_true]

/-- A READY process that the quantum of `p` gives way to (R307). -/
def Rival (s : State) (k : Nat) (p : Proc) : Prop :=
  ∃ j ∈ (s.core (placeOf k)).readyOrder, ∃ q, mget s.procs j = some q ∧ q.resident = true ∧ p.prioBase ≤ q.eff

theorem rival_iff {f : Nat → Bool}
    (hf : ∀ j, f j = (mget s.procs j).any fun q => q.resident && decide (p.prioBase ≤ q.eff)) :
    (s.core (placeOf k)).readyOrder.any f = true ↔ Rival s k p := by
  simp only [List.any_eq_true, Rival, hf, Option.any_eq_true, Bool.and_eq_true, decide_eq_true_eq]

theorem exec_quantumExpiry_of_due (hp : mget s.procs k = some p) (hr : p.isRunning = true) (hh : p.haltReq = 0)
    (hq : p.quantSince + field p.qnt 0 32 ≤ s.timeb) :
    (Rival s k p → exec (.quantumExpiry k) s = .next (s.setProc k { p with haltReq := 2 })) ∧
    (¬ Rival s k p → exec (.quantumExpiry k) s = .next (s.setProc k { p with quantSince := s.timeb })) := by
  rw [exec_quantumExpiry, execQuantumExpiry, hp]
  dsimp only
  rw [if_pos ⟨hr, hh, hq⟩]
  refine ⟨fun h => ?_, fun h => ?_⟩ <;> refine congrArg (fun q => Host.Outcome.next (s.setProc k q)) ?_
  · exact if_pos ((rival_iff fun j => by cases mget s.procs j <;> rfl).2 h)
  · exact if_neg (mt (rival_iff fun j => by cases mget s.procs j <;> rfl).1 h)

theorem exec_preemptionHalt_of_request (hp : mget s.procs k = some p) (hr : p.isRunning = true) (hh : p.haltReq ≠ 0) :
    exec (.preemptionHalt k) s = .next ((s.leaveSlot k (p.haltReq == 1)).preempted k stOk) := by
  simp only [exec_preemptionHalt, execPreemptionHalt, hp, hr, hh, ne_eq, not_false_iff, and_self, if_true]

theorem exec_deadlockProbe_of_due (hp : mget s.procs k = some p) (hb : hardBlocked p = true) (hr : p.reported = false)
    (ht : hardStart p + 100000 ≤ s.timeb) :
    exec (.deadlockProbe k) s =
      .next ((s.setProc k { p with hardSince := some s.timeb }).forward k { p with hardSince := some s.timeb } k [k]) := by
  simp [execDeadlockProbe, hp, hb, hr, ht]

/-- What a probe does at a hard-blocked process (R317). -/
theorem exec_probeForward_of_arriving {n src dst : Nat} {own : Option Own} {r : Probe}
    (ha : s.arriving n = some { src := src, dst := dst, own := own, body := .probe r }) (hp : mget s.procs r.toKey = some p)
    (hb : hardBlocked p = true) :
    exec (.probeForward n) s = .next
      (if r.toKey = r.origin then
        if r.path.all (fun j => decide (r.origin ≤ j)) && !p.reported then (s.took n).reportCycle r.origin p r.path r.alt
        else s.took n
      else if 64 ≤ r.path.length then (s.took n).countCore (placeOf r.toKey) 11
      else (s.took n).forward r.toKey p r.origin (r.path ++ [r.toKey])) := by
  simp only [exec_probeForward, execProbeForward, ha, State.took_procs, hp, hb, Bool.not_true, Bool.false_eq_true, if_false]
  split_ifs <;> rfl

end

section
variable {s : State} {place asid queue : Nat}

/-- The watchdog does nothing before its limit (R404). -/
theorem exec_watchdog_of_not_due :
    (wdogDue s place asid queue 1 = false → exec (.watchdogT1 place asid queue) s = .next s) ∧
    (wdogDue s place asid queue 2 = false → exec (.watchdogT2 place asid queue) s = .next s) ∧
    (wdogDue s place asid queue 3 = false → exec (.watchdogT3 place asid queue) s = .next s) := by
  refine ⟨fun h => ?_, fun h => ?_, fun h => ?_⟩
  · simp [execWatchdogT1, h]
  · simp [execWatchdogT2, h]
  · simp [execWatchdogT3, h]

end

end Sys2Proof.Machine

/-- Settles O52: each step of the scheduler is taken once its limit is reached. -/
theorem schedulerSteps : Obligations.SchedulerSteps := by
  unfold Obligations.SchedulerSteps
  intro s k p hp
  refine ⟨exec_timerEvent_of_level, fun w j d => exec_waitDeadline_of_join, fun w => exec_slotGiveUp_of_wait hp,
    fun place => exec_spillSwap_of_room, exec_starvationRaise_of_due hp, exec_quantumExpiry_of_due hp,
    exec_preemptionHalt_of_request hp, exec_deadlockProbe_of_due hp, ?_, fun place asid queue => ⟨?_, ?_, ?_, exec_watchdog_of_not_due⟩⟩
  · rintro n src dst own r ha rfl hb
    rw [exec_probeForward_of_arriving ha hp hb]
    refine ⟨fun ho hl => ?_, fun ho hl => ?_, fun ho hmin hr => ?_⟩
    · rw [if_neg ho, if_neg (by omega)]
    · rw [if_neg ho, if_pos hl]
    · rw [if_pos ho, ← ho, if_pos (by simpa [hr] using hmin)]
  · intro j v i q hd t hj hs hv hr
    have hfull : ¬ ((t.core place).slots.toList.any fun o => o.isNone) = true := by
      simp only [List.any_eq_true, Option.isNone_iff_eq_none, not_exists, not_and]
      exact hs
    simp only [exec_watchdogT1, execWatchdogT1, hd, Bool.not_true, Bool.false_eq_true, if_false]
    rw [hj, hv]
    simp only [hr]
    rw [if_neg hfull]
    rfl
  · intro hd t hm
    simp only [exec_watchdogT2, execWatchdogT2, hd, Bool.not_true, Bool.false_eq_true, if_false]
    rw [hm]
    rfl
  · intro hd
    simp only [exec_watchdogT3, execWatchdogT3, hd, Bool.not_true, Bool.false_eq_true, if_false]
    rfl
end

section
open Sys2Proof Sys2Proof.Machine Sys2Proof.Safety

namespace Sys2Proof.Machine

/-! ### A request that arrives (R276) -/

section
variable {s s' : State} {n op pl : Nat} {v : Svc} {p : Proc}

/-- A request of a supervisor that has not ended is served in the state without its message. -/
theorem supervisor_of_asks (h : Asks s n op s' pl v p) (go : State → Nat → Svc → Proc → State) :
    s.supervisor n op go = .next (go s' pl v p) := by
  obtain ⟨⟨src, own, ha⟩, ho, rfl, hp⟩ := h
  have hp' : s.byOwn v.p v.gen = some p := hp
  simp only [State.supervisor, ha, ho, hp', ne_eq, not_true, if_false]

theorem coreArg_of_lt {w : Word} (h : w.toNat < 768) : coreArg pl w = some (devOf pl * 1024 + w.toNat) := if_pos h

theorem namedProc_of_space {h : Word} {k : Nat} {q : Proc} (hk : s.byHandle h = some (k, q)) (ha : q.asid = p.asid) :
    namedProc s p h = .inr (k, q) := by
  simp [namedProc, hk, ha]

theorem namedProc_of_stale {h : Word} (hk : s.byHandle h = none) : namedProc s p h = .inl stClosed := by
  simp [namedProc, hk]

/-- A handle names a process of the table (R25). -/
theorem get_of_byHandle {h : Word} {k : Nat} {q : Proc} (hk : s.byHandle h = some (k, q)) : mget s.procs k = some q := by
  unfold State.byHandle at hk
  cases hm : mget s.procs (handleKey h) with
  | none => simp [hm] at hk
  | some r =>
    simp only [hm, Option.ite_none_right_eq_some, Option.some.injEq, Prod.mk.injEq] at hk
    obtain ⟨-, rfl, rfl⟩ := hk
    exact hm

theorem modProc_of_get {k : Nat} {q : Proc} (h : mget s.procs k = some q) (f : Proc → Proc) :
    s.modProc k f = s.setProc k (f q) := by
  simp [State.modProc, h]

/-! ### Requests that set what they name (R28, R298, R337, R404, R453) -/

theorem exec_root_of_asks (h : Asks s n 0x0101 s' pl v p) (hb : spaceBusy s (devOf pl) p.asid = false)
    (ha : (v.arg 2).toNat % 8192 = 0) (hm : (v.arg 2).toNat < 0x0C000000000) :
    exec (.root n) s = .next (((s'.setSpace p.asid { s'.space p.asid with
      roots := mset (s'.space p.asid).roots (devOf pl) (v.arg 2).toNat }).invalidate (devOf pl) p.asid none).reply pl v 0 0) := by
  have hr : rangeOf (v.arg 2).toNat = .hbm ((v.arg 2).toNat / 2 ^ 30) := if_pos hm
  have hpa : (v.arg 2).toNat % 8192 = 0 ∧ (v.arg 2).toNat < 2 ^ 44 := ⟨ha, by omega⟩
  have hwait : (s.byOwn v.p v.gen).any (fun p => spaceBusy s (devOf pl) p.asid) = false := by
    obtain ⟨-, -, rfl, hp⟩ := h
    have hp' : s.byOwn v.p v.gen = some p := hp
    simp [hp', hb]
  have hserve := supervisor_of_asks h
  obtain ⟨⟨src, own, harr⟩, -⟩ := h
  simp only [exec_root, execRoot, harr, hwait, Bool.false_eq_true, if_false, hserve, hr, hpa, and_self, decide_true,
    Bool.not_true]
  rfl

theorem exec_ovring_of_asks (h : Asks s n 0x0103 s' pl v p) (hc : (v.arg 2).toNat < 768) (ha : (v.arg 3).toNat % 65536 = 0)
    (hr : (v.arg 4).toNat ≤ 4064) (hm : (v.arg 4).toNat % 16 = 0)
    (hs : ∀ e ∈ s'.procsAt (devOf pl * 1024 + (v.arg 2).toNat), e.2.asid = p.asid → e.2.spilled = none) :
    exec (.ovring n) s = .next ((s'.modCore (devOf pl * 1024 + (v.arg 2).toNat) fun x =>
      { x with ovring := mset x.ovring p.asid (v.arg 3, (v.arg 4).toNat) }).reply pl v 0 0) := by
  have hbad : ¬ ((v.arg 3).toNat % 65536 ≠ 0 ∨ 4064 < (v.arg 4).toNat ∨ (v.arg 4).toNat % 16 ≠ 0) := by omega
  have hnone : ((s'.procsAt (devOf pl * 1024 + (v.arg 2).toNat)).any fun e => e.2.asid == p.asid && e.2.spilled.isSome) = false := by
    rw [List.any_eq_false]
    intro e he
    cases hasid : e.2.asid == p.asid
    · simp
    · simp [hs e he (beq_iff_eq.1 hasid)]
  rw [exec_ovring, execOvring, supervisor_of_asks h]
  simp only [coreArg_of_lt hc, if_neg hbad, hnone, Bool.false_eq_true, if_false]
  rfl

theorem exec_unitpool_of_asks {u : State} (h : Asks s n 0x0105 s' pl v p) (hc : (v.arg 2).toNat < 768)
    (hp : mget (s'.core (devOf pl * 1024 + (v.arg 2).toNat)).unitPool p.asid = none) (h0 : 0 < (v.arg 3).toNat)
    (hm : (v.arg 3).toNat ≤ 4096)
    (hg : s'.growPool (devOf pl * 1024 + (v.arg 2).toNat) p.asid (v.arg 3).toNat = some u) :
    exec (.unitpool n) s = .next (u.reply pl v 0 0) := by
  rw [exec_unitpool, execUnitpool, supervisor_of_asks h]
  simp only [coreArg_of_lt hc, hp, Option.getD_none, List.filter_nil, List.length_nil, Nat.not_lt_zero, if_false,
    if_neg (Nat.not_lt.2 hm), if_neg (Nat.not_le.2 h0), Nat.sub_zero, hg]
  rfl

theorem exec_ttset_of_asks {b : Gathered} (h : Asks s n 0x0104 s' pl v p) (hi : (v.arg 2).toNat < (s'.space p.asid).types.length)
    (hb : fetchBytes s' pl p.asid true (v.arg 3) 64 = b) (hf : b.fault = none)
    (hv : typeValid (BitVec.ofNat 512 (leNat b.bytes)) = true) :
    exec (.ttset n) s = .next (((s'.firmFetched pl p.asid b).setSpace p.asid { s'.space p.asid with
      types := listSet (s'.space p.asid).types (v.arg 2).toNat (BitVec.ofNat 512 (leNat b.bytes)) }).reply pl v 0 0) := by
  rw [exec_ttset, execTtset, supervisor_of_asks h]
  simp only [if_neg (Nat.not_le.2 hi), hb, hf, Option.isSome_none, Bool.false_eq_true, if_false, hv, if_true]
  rfl

/-- INBOX gives the inbox process that is there its new PRIOR. -/
theorem exec_inbox_of_asks (h : Asks s n 0x0206 s' pl v p) (hc : (v.arg 2).toNat < 768) (hq : (v.arg 3).toNat ≤ 11) :
    let u := s'.modCore (devOf pl * 1024 + (v.arg 2).toNat) fun x =>
      { x with inboxPrio := mset x.inboxPrio p.asid (v.arg 3).toNat }
    (reserved u (devOf pl * 1024 + (v.arg 2).toNat) p.asid .inbox = none → exec (.inbox n) s = .next (u.reply pl v 0 0)) ∧
    (∀ e, reserved u (devOf pl * 1024 + (v.arg 2).toNat) p.asid .inbox = some e →
      exec (.inbox n) s = .next ((u.reprioritise e.1 (v.arg 3).toNat).reply pl v 0 0)) := by
  rw [exec_inbox, execInbox, supervisor_of_asks h]
  simp only [coreArg_of_lt hc, if_neg (Nat.not_lt.2 hq)]
  refine ⟨fun hnone => ?_, fun e hsome => ?_⟩
  · rw [hnone]; rfl
  · rw [hsome]; rfl

theorem exec_unfence_of_asks (h : Asks s n 0x0207 s' pl v p) (hc : (v.arg 2).toNat < 768)
    (hf : (s'.core (devOf pl * 1024 + (v.arg 2).toNat)).fenced.contains p.asid = true)
    (hp : s'.procsAt (devOf pl * 1024 + (v.arg 2).toNat) = []) :
    exec (.unfence n) s = .next ((s'.modCore (devOf pl * 1024 + (v.arg 2).toNat) fun x =>
      { x with fenced := sdel x.fenced p.asid }).reply pl v 0 0) := by
  have hp' (f : Core → Core) : (s'.modCore (devOf pl * 1024 + (v.arg 2).toNat) f).procsAt (devOf pl * 1024 + (v.arg 2).toNat) = [] := hp
  rw [exec_unfence, execUnfence, supervisor_of_asks h]
  simp only [coreArg_of_lt hc, hf, Bool.not_true, Bool.false_eq_true, if_false, hp', List.foldl_nil]
  rfl

/-! ### Requests about a process (R287, R288, R453) -/

/-- The record of a request that a process keeps until it is answered. -/
def asksOf (v : Svc) (target : Option Nat) (edge : Bool) : SupReq :=
  { p := v.p, gen := v.gen, target := target, edge := edge, halted := false, stay := false }

section
variable {k : Nat} {q : Proc}

theorem exec_processMove_of_asks (h : Asks s n 0x0201 s' pl v p) (hk : s'.byHandle (v.arg 2) = some (k, q))
    (ha : q.asid = p.asid) (ht : (v.arg 3).toNat < 768) (hc : (v.arg 3).toNat ≠ coreOf (placeOf k)) (he : (v.arg 4).toNat < 2)
    (hf : tied s' k q = false) :
    exec (.processMove n) s = .next (s'.setProc k { q with
      sup := q.sup ++ [asksOf v (some (v.arg 3).toNat) (v.arg 4 == 1)] }) := by
  have hbad : ¬ (q.asid ≠ p.asid ∨ 768 ≤ (v.arg 3).toNat ∨ (v.arg 3).toNat = coreOf (placeOf k) ∨ 2 ≤ (v.arg 4).toNat ∨
      tied s' k q = true) := by
    rw [hf]
    simp only [ha, hc, Bool.false_eq_true, or_false, ne_eq, not_true, false_or]
    omega
  rw [exec_processMove, execProcessMove, supervisor_of_asks h]
  simp only [hk, if_neg hbad, modProc_of_get (get_of_byHandle hk)]
  rfl

/-- A HALT at a round edge is only recorded; any other halts the process now. -/
theorem exec_halt_of_asks (h : Asks s n 0x0202 s' pl v p) (hk : s'.byHandle (v.arg 2) = some (k, q)) (ha : q.asid = p.asid)
    (he : (v.arg 3).toNat < 2) (hf : tied s' k q = false) :
    exec (.halt n) s = .next
      (if (v.arg 3).toNat = 1 then s'.setProc k { q with sup := q.sup ++ [asksOf v none true] }
       else (s'.setProc k { q with sup := q.sup ++ [asksOf v none false] }).haltFor k fun r => r.target.isNone && !r.edge) := by
  have hbad : ¬ (2 ≤ (v.arg 3).toNat ∨ tied s' k q = true) := by
    rw [hf]
    simpa using he
  have hedge : (v.arg 3 == 1) = decide ((v.arg 3).toNat = 1) := by
    rw [Bool.eq_iff_iff, beq_iff_eq, decide_eq_true_eq, ← BitVec.toNat_inj]
    rfl
  rw [exec_halt, execHalt, supervisor_of_asks h]
  simp only [namedProc_of_space hk ha, if_neg hbad, modProc_of_get (get_of_byHandle hk), hedge, decide_eq_true_eq]
  by_cases h1 : (v.arg 3).toNat = 1 <;> simp only [h1, if_true, if_false, decide_true, decide_false] <;> rfl

theorem exec_resume_of_asks (h : Asks s n 0x0203 s' pl v p) (hk : s'.byHandle (v.arg 2) = some (k, q)) (ha : q.asid = p.asid) :
    exec (.resume n) s = .next (if resumable q then (s'.resume k).reply pl v 0 0 else s'.reply pl v 7 0) := by
  rw [exec_resume, execResume, supervisor_of_asks h]
  simp only [namedProc_of_space hk ha]
  rfl

theorem exec_kill_of_asks (h : Asks s n 0x0204 s' pl v p) (hk : s'.byHandle (v.arg 2) = some (k, q)) (ha : q.asid = p.asid) :
    exec (.kill n) s = .next ((s'.endProc k .killed none false).reply pl v 0 0) := by
  rw [exec_kill, execKill, supervisor_of_asks h]
  simp only [namedProc_of_space hk ha]
  rfl

theorem exec_signal_of_asks (h : Asks s n 0x0205 s' pl v p) (hk : s'.byHandle (v.arg 2) = some (k, q)) (ha : q.asid = p.asid)
    (hl : s'.live k = some q) :
    exec (.signal n) s = .next (if q.pstat.getLsbD 25 then s'.reply pl v 6 0
      else ((s'.modLive k fun q => { q with sigVal := v.arg 3 }).setEvent k 25).reply pl v 0 0) := by
  rw [exec_signal, execSignal, supervisor_of_asks h]
  simp only [namedProc_of_space hk ha, hl, Option.any_some]
  rfl

end

/-- A stale handle answers CLOSED (R25, R453). -/
theorem exec_of_stale (hk : s'.byHandle (v.arg 2) = none) :
    (Asks s n 0x0201 s' pl v p → exec (.processMove n) s = .next (s'.reply pl v 4 0)) ∧
    (Asks s n 0x0202 s' pl v p → exec (.halt n) s = .next (s'.reply pl v 4 0)) ∧
    (Asks s n 0x0203 s' pl v p → exec (.resume n) s = .next (s'.reply pl v 4 0)) ∧
    (Asks s n 0x0204 s' pl v p → exec (.kill n) s = .next (s'.reply pl v 4 0)) ∧
    (Asks s n 0x0205 s' pl v p → exec (.signal n) s = .next (s'.reply pl v 4 0)) := by
  refine ⟨fun h => ?_, fun h => ?_, fun h => ?_, fun h => ?_, fun h => ?_⟩
  · rw [exec_processMove, execProcessMove, supervisor_of_asks h, hk]; rfl
  · rw [exec_halt, execHalt, supervisor_of_asks h, namedProc_of_stale hk]; rfl
  · rw [exec_resume, execResume, supervisor_of_asks h, namedProc_of_stale hk]; rfl
  · rw [exec_kill, execKill, supervisor_of_asks h, namedProc_of_stale hk]; rfl
  · rw [exec_signal, execSignal, supervisor_of_asks h, namedProc_of_stale hk]; rfl

/-! ### MIGRATE, COUNTER, ATTEST and the collective bindings (R356, R431, R453, R457) -/

theorem exec_migrate_of_asks {e : TlbEntry} (h : Asks s n 0x0102 s' pl v p) (hw : walk s' pl p.asid (v.arg 2) = .ok e)
    (he : e.bits = 16) (ha : (v.arg 3).toNat % 65536 = 0)
    (hg : pageGranted (s'.firmWalked pl p.asid (v.arg 2)) (devOf pl) p.asid (v.arg 3).toNat = true)
    (hm : mget (s'.firmWalked pl p.asid (v.arg 2)).migrations (gaOf (devOf pl) (e.pa (v.arg 2)) / 65536) = none) :
    exec (.migrate n) s = .next
      (let u := s'.firmWalked pl p.asid (v.arg 2)
       let page := gaOf (devOf pl) (e.pa (v.arg 2)) / 65536
       let m : Migration := { new := gaOf (devOf pl) (v.arg 3).toNat / 65536, next := 0, asid := p.asid, va := v.arg 2, svc := v }
       ({ u with migrations := mset u.migrations page m }.sendLine page m)) := by
  rw [exec_migrate, execMigrate, supervisor_of_asks h]
  simp only [hw, he, ha, hg, hm, ne_eq, not_true, Bool.true_eq_false, or_self, if_false, Option.isSome_none, Bool.false_eq_true]

theorem exec_counter_of_asks {u : State} {x : Word} (h : Asks s n 0x0401 s' pl v p)
    (hx : s'.readCounter (devOf pl) (v.arg 2) = some (u, x)) : exec (.counter n) s = .next (u.reply pl v 0 x) := by
  rw [exec_counter, execCounter, supervisor_of_asks h]
  simp only [hx]
  rfl

theorem exec_attest_of_asks {b : Gathered} {u : State} (h : Asks s n 0x0402 s' pl v p)
    (hb : fetchBytes s' pl p.asid true (v.arg 2) 32 = b) (hf : b.fault = none)
    (hu : (s'.firmFetched pl p.asid b).putRange pl p.asid (v.arg 3)
      (attestReport (s'.firmFetched pl p.asid b) (devOf pl) (some p.asid) b.bytes []) = (u, true)) :
    exec (.attest n) s = .next (u.reply pl v 0 0) := by
  rw [exec_attest, execAttest, supervisor_of_asks h]
  simp only [hb, hf, Option.isSome_none, Bool.false_eq_true, if_false, hu, if_true]
  rfl

theorem exec_collectiveConfigure_of_asks {b : Nat} {x : Coll} (h : Asks s n 0x0301 s' pl v p)
    (hb : bindingKey (v.arg 2) = some b) (hd : b / 512 = devOf pl) (hx : collConfig p.asid (v.arg 3) = some x)
    (hn : mget s'.colls b = none) :
    exec (.collectiveConfigure n) s = .next (({ s' with colls := mset s'.colls b x } : State).reply pl v 0 0) := by
  rw [exec_collectiveConfigure, execCollectiveConfigure, supervisor_of_asks h]
  simp only [hb, hx, hd, hn, ne_eq, not_true, if_false, Option.isSome_none, Bool.false_eq_true]
  rfl

theorem exec_collectiveRelease_of_asks {b : Nat} {x : Coll} (h : Asks s n 0x0302 s' pl v p)
    (hb : bindingKey (v.arg 2) = some b) (hd : b / 512 = devOf pl) (hx : mget s'.colls b = some x) (ha : x.asid = p.asid)
    (hr : x.roles = []) (hz : v.arg 3 = 0) :
    exec (.collectiveRelease n) s = .next (({ s' with colls := mdel s'.colls b } : State).reply pl v 0 0) := by
  rw [exec_collectiveRelease, execCollectiveRelease, supervisor_of_asks h]
  simp only [hb, Option.bind_some, hx, Option.map_some, hd, ha, hr, hz, ne_eq, not_true, or_self, if_false]
  rfl

end

/-! ### Moving a process (R288) -/

theorem exec_moveCopy_of_room {s u : State} {k t there e base usa : Nat} {q : Proc} {r : SupReq} {ring : Option Nat}
    (hl : s.live k = some q) (hr : q.sup.find? (fun r => r.halted && r.target.isSome) = some r) (hg : r.gen ≠ 0)
    (ht : r.target = some t) (hred : (s.core (placeOf k)).redLines = []) (hf : tied s k q = false) (hd : drained s k q r = true)
    (hm : s.moveTo q ((nodesOf s k q.gen).map (·.1)) r.stay [devOf (placeOf k) * 1024 + t] = (u, some (there, e, base, usa, ring))) :
    exec (.moveCopy k) s = .next
      (let w := ((u.reserve there q.asid .inbox).reserve there q.asid .deleg).relocate k q there e base usa ring r
       (w.1.tell (placeOf k) (r.after k q.gen w.2.1 w.2.2) 0 (handleOf w.2.1 w.2.2)).progress (devOf (placeOf k))) := by
  have htargets : moveTargets k r = [t] := by simp [moveTargets, hg, ht]
  rw [exec_moveCopy, execMoveCopy]
  simp only [hl, hr, hred, List.isEmpty_nil, Bool.not_true, Bool.false_eq_true, if_false, hf, and_false, hd, if_neg hg, htargets,
    List.map_cons, List.map_nil, hm]
  rfl

end Sys2Proof.Machine

/-- Settles O57: a request that arrives is served in the state without its message, and each has the effect and the reply of
its own step. -/
theorem supervisorRequests : Obligations.SupervisorRequests := by
  unfold Obligations.SupervisorRequests
  intro s n pl v p s'
  refine ⟨exec_root_of_asks, exec_ovring_of_asks, fun u => exec_unitpool_of_asks, fun b => exec_ttset_of_asks, exec_inbox_of_asks,
    exec_unfence_of_asks, fun k q hk ha => ?_, exec_of_stale, fun e => exec_migrate_of_asks, fun u x => exec_counter_of_asks,
    fun b u => exec_attest_of_asks, fun b x hb hd => ?_, fun k => exec_moveHalt k s, ?_⟩
  · refine ⟨fun h => exec_processMove_of_asks h hk ha, fun h => exec_halt_of_asks h hk ha, fun h hr => ?_, fun h hr => ?_,
      fun h => exec_kill_of_asks h hk ha, fun h => exec_signal_of_asks h hk ha⟩
    · rw [exec_resume_of_asks h hk ha, if_pos hr]
    · rw [exec_resume_of_asks h hk ha, if_neg (by simp [hr])]
  · exact ⟨fun h => exec_collectiveConfigure_of_asks h hb hd, fun h => exec_collectiveRelease_of_asks h hb hd⟩
  · exact fun k t there e base usa q r u ring => exec_moveCopy_of_room
end

section
open Sys2Proof

namespace Sys2Proof.Laws.Enc

/-- The words of every well-formed instruction decode to it; a step of another agent has none. -/
theorem statement (i : Instr) : Statement i := by
  cases i with
  | add a b c => exact add a b c
  | sub a b c => exact sub a b c
  | and a b c => exact and a b c
  | or a b c => exact or a b c
  | xor a b c => exact xor a b c
  | andn a b c => exact andn a b c
  | shl a b c => exact shl a b c
  | shr a b c => exact shr a b c
  | sra a b c => exact sra a b c
  | rol a b c => exact rol a b c
  | mul a b c => exact mul a b c
  | mulh a b c => exact mulh a b c
  | mulhu a b c => exact mulhu a b c
  | div a b c => exact div a b c
  | divu a b c => exact divu a b c
  | rem a b c => exact rem a b c
  | remu a b c => exact remu a b c
  | min a b c => exact min a b c
  | max a b c => exact max a b c
  | minu a b c => exact minu a b c
  | maxu a b c => exact maxu a b c
  | slt a b c => exact slt a b c
  | sltu a b c => exact sltu a b c
  | seq a b c => exact seq a b c
  | clz a b => exact clz a b
  | ctz a b => exact ctz a b
  | popc a b => exact popc a b
  | brev a b => exact brev a b
  | bswap a b => exact bswap a b
  | sextB a b => exact sextB a b
  | sextH a b => exact sextH a b
  | sextW a b => exact sextW a b
  | zextB a b => exact zextB a b
  | zextH a b => exact zextH a b
  | zextW a b => exact zextW a b
  | lea1 a b c => exact lea1 a b c
  | lea2 a b c => exact lea2 a b c
  | lea4 a b c => exact lea4 a b c
  | lea8 a b c => exact lea8 a b c
  | addi a b imm => exact addi a b imm
  | andi a b imm => exact andi a b imm
  | ori a b imm => exact ori a b imm
  | xori a b imm => exact xori a b imm
  | slti a b imm => exact slti a b imm
  | sltiu a b imm => exact sltiu a b imm
  | shiL a b n => exact shiL a b n
  | shiR a b n => exact shiR a b n
  | shiA a b n => exact shiA a b n
  | shiRol a b n => exact shiRol a b n
  | movhi a b imm => exact movhi a b imm
  | muli a b imm => exact muli a b imm
  | extPair x f a b imm => exact extPair x f a b imm
  | beq a b imm => exact beq a b imm
  | bne a b imm => exact bne a b imm
  | blt a b imm => exact blt a b imm
  | bge a b imm => exact bge a b imm
  | bltu a b imm => exact bltu a b imm
  | bgeu a b imm => exact bgeu a b imm
  | dbnz a imm => exact dbnz a imm
  | j imm => exact j imm
  | call imm => exact call imm
  | jr b => exact jr b
  | callr a b => exact callr a b
  | ret => exact ret
  | ld a b o sz => exact ld a b o sz
  | st a b o sz => exact st a b o sz
  | ldx a b c sz => exact ldx a b c sz
  | stx a b c sz => exact stx a b c sz
  | lda a b p sz => exact lda a b p sz
  | stl a b p sz => exact stl a b p sz
  | lds a b c t => exact lds a b c t
  | sts a b c t => exact sts a b c t
  | ldf a b c t => exact ldf a b c t
  | feget a b => exact feget a b
  | feset a b => exact feset a b
  | spl a b o sz => exact spl a b o sz
  | sps a b o sz => exact sps a b o sz
  | amoAdd a b c o d => exact amoAdd a b c o d
  | amoAnd a b c o d => exact amoAnd a b c o d
  | amoOr a b c o d => exact amoOr a b c o d
  | amoXor a b c o d => exact amoXor a b c o d
  | amoMin a b c o d => exact amoMin a b c o d
  | amoMax a b c o d => exact amoMax a b c o d
  | amoMinu a b c o d => exact amoMinu a b c o d
  | amoMaxu a b c o d => exact amoMaxu a b c o d
  | amoSwap a b c o d => exact amoSwap a b c o d
  | cas a b c o d => exact cas a b c o d
  | redAdd b c d => exact redAdd b c d
  | redFadd b c d => exact redFadd b c d
  | redMin b c d => exact redMin b c d
  | redMax b c d => exact redMax b c d
  | deleg a b c => exact deleg a b c
  | fence p kinds => exact fence p kinds
  | monw a b c t n mem => exact monw a b c t n mem
  | gjoin a b => exact gjoin a b
  | gleave b => exact gleave b
  | barArrive a b => exact barArrive a b
  | barDrop a b => exact barDrop a b
  | barWait a b c t => exact barWait a b c t
  | spawn a b c n => exact spawn a b c n
  | exit => exact exit
  | exitR b => exact exitR b
  | yield => exact yield
  | prio b => exact prio b
  | jwait a t n => exact jwait a t n
  | self a => exact self a
  | send a b f d t => exact send a b f d t
  | recv a b f d t => exact recv a b f d t
  | alt a b t => exact alt a b t
  | poison a d => exact poison a d
  | mark a => exact mark a
  | chnew a b d => exact chnew a b d
  | chbind a b c d => exact chbind a b c d
  | chbindD a b => exact chbindD a b
  | chclose a d => exact chclose a d
  | amsg a b c t => exact amsg a b c t
  | winopen a b c d => exact winopen a b c d
  | winclose a d => exact winclose a d
  | sendt a b d t => exact sendt a b d t
  | recvt a b d t => exact recvt a b d t
  | thalo a b c d t => exact thalo a b c d t
  | vadd a b c k ty => exact vadd a b c k ty
  | vsub a b c k ty => exact vsub a b c k ty
  | vmul a b c k ty => exact vmul a b c k ty
  | vfma a b c k ty => exact vfma a b c k ty
  | vfms a b c k ty => exact vfms a b c k ty
  | vmin a b c k ty => exact vmin a b c k ty
  | vmax a b c k ty => exact vmax a b c k ty
  | vabs a b k ty => exact vabs a b k ty
  | vneg a b k ty => exact vneg a b k ty
  | vadds a b c k ty => exact vadds a b c k ty
  | vsubs a b c k ty => exact vsubs a b c k ty
  | vmulh a b c k ty => exact vmulh a b c k ty
  | vabsd a b c k ty => exact vabsd a b c k ty
  | vdiv a b c k ty => exact vdiv a b c k ty
  | vsqrt a b k ty => exact vsqrt a b k ty
  | vand a b c k ty => exact vand a b c k ty
  | vor a b c k ty => exact vor a b c k ty
  | vxor a b c k ty => exact vxor a b c k ty
  | vandn a b c k ty => exact vandn a b c k ty
  | vnot a b k ty => exact vnot a b k ty
  | vshl a b c k ty => exact vshl a b c k ty
  | vshr a b c k ty => exact vshr a b c k ty
  | vsra a b c k ty => exact vsra a b c k ty
  | vrol a b c k ty => exact vrol a b c k ty
  | vshlg a b c k ty => exact vshlg a b c k ty
  | vshrg a b c k ty => exact vshrg a b c k ty
  | vsrag a b c k ty => exact vsrag a b c k ty
  | vrolg a b c k ty => exact vrolg a b c k ty
  | vclz a b k ty => exact vclz a b k ty
  | vpopc a b k ty => exact vpopc a b k ty
  | vctz a b k ty => exact vctz a b k ty
  | vcmpEq a b c k ty => exact vcmpEq a b c k ty
  | vcmpNe a b c k ty => exact vcmpNe a b c k ty
  | vcmpLt a b c k ty => exact vcmpLt a b c k ty
  | vcmpLe a b c k ty => exact vcmpLe a b c k ty
  | vcmpUn a b c k ty => exact vcmpUn a b c k ty
  | vsel a b c k ty => exact vsel a b c k ty
  | kand a b c => exact kand a b c
  | kor a b c => exact kor a b c
  | kxor a b c => exact kxor a b c
  | knot a b => exact knot a b
  | kmovg a b => exact kmovg a b
  | kmovk a b => exact kmovk a b
  | kpopc a b => exact kpopc a b
  | kfirst a b => exact kfirst a b
  | vcvt a b rtz src k ty q sat => exact vcvt a b rtz src k ty q sat
  | vredsum a b k ty => exact vredsum a b k ty
  | vredmin a b k ty => exact vredmin a b k ty
  | vredmax a b k ty => exact vredmax a b k ty
  | vredand a b k ty => exact vredand a b k ty
  | vredor a b k ty => exact vredor a b k ty
  | vredxor a b k ty => exact vredxor a b k ty
  | vredsumw a b k ty => exact vredsumw a b k ty
  | vperm a b c k ty => exact vperm a b c k ty
  | vpermx a b c k ty => exact vpermx a b c k ty
  | vsldn a b c k ty => exact vsldn a b c k ty
  | vslup a b c k ty => exact vslup a b c k ty
  | vcomp a b k ty => exact vcomp a b k ty
  | vexpd a b k ty => exact vexpd a b k ty
  | vzipl a b c k ty => exact vzipl a b c k ty
  | vziph a b c k ty => exact vziph a b c k ty
  | vuzpe a b c k ty => exact vuzpe a b c k ty
  | vuzpo a b c k ty => exact vuzpo a b c k ty
  | vrev a b k ty => exact vrev a b k ty
  | vld a b k ty => exact vld a b k ty
  | vst a b k ty => exact vst a b k ty
  | vlds a b c k ty => exact vlds a b c k ty
  | vsts a b c k ty => exact vsts a b c k ty
  | vgath a b c k ty => exact vgath a b c k ty
  | vscat a b c k ty => exact vscat a b c k ty
  | vspl a b k ty => exact vspl a b k ty
  | vsps a b k ty => exact vsps a b k ty
  | vspga a b c k ty => exact vspga a b c k ty
  | vspsc a b c k ty => exact vspsc a b c k ty
  | vrcp a b k ty => exact vrcp a b k ty
  | vrsq a b k ty => exact vrsq a b k ty
  | vexp2 a b k ty => exact vexp2 a b k ty
  | vlog2 a b k ty => exact vlog2 a b k ty
  | vbcast a b k ty => exact vbcast a b k ty
  | vins a b c ty => exact vins a b c ty
  | vext a b c ty => exact vext a b c ty
  | vmov a b k ty => exact vmov a b k ty
  | viota a k ty => exact viota a k ty
  | vsplat a b c k ty => exact vsplat a b c k ty
  | tld a b c => exact tld a b c
  | tst a b c => exact tst a b c
  | tldt a b c ty => exact tldt a b c ty
  | tswap a c => exact tswap a c
  | tswapT a c => exact tswapT a c
  | tmma a b c ty => exact tmma a b c ty
  | tzero a => exact tzero a
  | tcvt a b ty => exact tcvt a b ty
  | rcfg a b n => exact rcfg a b n
  | rres a b t => exact rres a b t
  | rpub a b c => exact rpub a b c
  | rstat a b => exact rstat a b
  | rstatMap a b => exact rstatMap a b
  | rrst a n => exact rrst a n
  | mstat a b => exact mstat a b
  | mstatClr a b => exact mstatClr a b
  | mzero a b => exact mzero a b
  | mwgt a b c => exact mwgt a b c
  | nodeCmu a b c => exact nodeCmu a b c
  | nodeDrain a b c => exact nodeDrain a b c
  | nodeCopy a b c => exact nodeCopy a b c
  | nwait a b t => exact nwait a b t
  | npoll a b => exact npoll a b
  | nfree a b => exact nfree a b
  | yclaim a t => exact yclaim a t
  | yrel a => exact yrel a
  | yload a b => exact yload a b
  | yclk a b c => exact yclk a b c
  | yrun a b => exact yrun a b
  | ystop a b => exact ystop a b
  | ystopW a b t => exact ystopW a b t
  | ysave a b => exact ysave a b
  | yrest a b => exact yrest a b
  | yget a b => exact yget a b
  | yset a b c => exact yset a b c
  | yinj a b c => exact yinj a b c
  | ystat a => exact ystat a
  | ystatClr a => exact ystatClr a
  | qsearch a b c => exact qsearch a b c
  | bred a b c => exact bred a b c
  | chain a b => exact chain a b
  | bfpx a b c k ty => exact bfpx a b c k ty
  | bfpscl a b c => exact bfpscl a b c
  | bfpq a b c n => exact bfpq a b c n
  | bfpcvt a b ty n => exact bfpcvt a b ty n
  | ecall => exact ecall
  | eret => exact eret
  | mfs a num => exact mfs a num
  | mts a num => exact mts a num
  | tlbinvPage b => exact tlbinvPage b
  | tlbinvSpace => exact tlbinvSpace
  | cflushL b => exact cflushL b
  | cflushAll => exact cflushAll
  | cflushRed => exact cflushRed
  | isync => exact isync
  | brk code => exact brk code
  | wfe a t => exact wfe a t
  | preempt a b => exact preempt a b
  | _ => exact of_none rfl

end Sys2Proof.Laws.Enc

/-- Settles O1, constructor by constructor: each has its own lemma on its words. -/
theorem decodeOfEncode : Obligations.DecodeOfEncode :=
  fun i ws hw he => Laws.Enc.statement i ws hw he

end

section
open Sys2Proof

namespace Sys2Proof.Laws

/-! ### The fields of a word make it up (R79) -/

theorem encR_fields (w : IWord) : encR (fldMaj w) (fldA w) (fldB w) (fldC w) (fldFn w) = w := by
  simp only [encR, fldMaj, fldA, fldB, fldC, fldFn, BitVec.extractLsb'_append_extractLsb'_eq_extractLsb']
  exact extract_self w

theorem encI_fields (w : IWord) : encI (fldMaj w) (fldA w) (fldB w) (fldImm w) = w := by
  simp only [encI, fldMaj, fldA, fldB, fldImm, BitVec.extractLsb'_append_extractLsb'_eq_extractLsb']
  exact extract_self w

theorem encJ_fields (w : IWord) : encJ (fldMaj w) (fldImm26 w) = w := by
  simp only [encJ, fldMaj, fldImm26, BitVec.extractLsb'_append_extractLsb'_eq_extractLsb']
  exact extract_self w

/-- Every field is an upper and a lower one. -/
theorem eq_append (m n : Nat) (x : BitVec (m + n)) : x = x.extractLsb' n m ++ x.extractLsb' 0 n := by
  rw [BitVec.extractLsb'_append_extractLsb'_eq_extractLsb' (Nat.zero_add n).symm]
  exact (extract_self x).symm

theorem exists_append (m n : Nat) (x : BitVec (m + n)) : ∃ (h : BitVec m) (l : BitVec n), x = h ++ l :=
  ⟨_, _, eq_append m n x⟩

theorem eq_low_of_high {x : BitVec 5} {y : BitVec 3} (h : x.extractLsb' 3 2 = 0#2) (l : x.extractLsb' 0 3 = y) : x = 0#2 ++ y := by
  rw [← h, ← l]
  exact eq_append 2 3 x

theorem exists_ofBool (x : BitVec 1) : ∃ t, x = BitVec.ofBool t := by revert x; decide

theorem eq_ofNat {n m : Nat} {x : BitVec n} (h : x.toNat = m) : x = BitVec.ofNat n m := by subst h; simp

/-- The FN field of a major with a T bit, a function and a sub-field. -/
theorem exists_top_op_sub (fn : BitVec 11) : ∃ (t : Bool) (op sub : BitVec 5), fn = BitVec.ofBool t ++ op ++ sub := by
  obtain ⟨x, sub, rfl⟩ := exists_append 6 5 fn
  obtain ⟨y, op, rfl⟩ := exists_append 1 5 x
  obtain ⟨t, rfl⟩ := exists_ofBool y
  exact ⟨t, op, sub, rfl⟩

/-- The FN field of a major with a door, a T bit and a function. -/
theorem exists_door_top_op (fn : BitVec 11) : ∃ (d : BitVec 6) (t : Bool) (op : BitVec 4), fn = d ++ BitVec.ofBool t ++ op := by
  obtain ⟨x, op, rfl⟩ := exists_append 7 4 fn
  obtain ⟨d, y, rfl⟩ := exists_append 6 1 x
  obtain ⟨t, rfl⟩ := exists_ofBool y
  exact ⟨d, t, op, rfl⟩

/-! ### What the decoder answers is right -/

/-- A word that stands alone is read rightly: not as an EXT word, and where an instruction is read, it is well formed and
its one word is the word read. -/
def Faithful (w : IWord) : Decoded → Prop
  | .ok i => i.wf = true ∧ encode i = some [w]
  | .ill _ => True
  | .ext _ => False

/-- A type of the TY field has its own code. -/
theorem eq_code {c : BitVec 4} {t : Ty} (h : Ty.ofCode c = some t) : c = t.code := by
  unfold Ty.ofCode at h
  split at h <;> cases h <;> exact eq_ofNat ‹_›

section
variable {w : IWord}

theorem faithful_ill (d : Nat) : Faithful w (.ill d) := trivial

theorem faithful_need {ok : Bool} {d : Nat} {k : Decoded} : Faithful w (need ok d k) ↔ (ok = true → Faithful w k) := by
  cases ok
  · exact ⟨fun _ h => (by cases h), fun _ => faithful_ill d⟩
  · exact ⟨fun h _ => h, fun h => h rfl⟩

theorem faithful_ite {c : Prop} [Decidable c] {d e : Decoded} (hd : c → Faithful w d) (he : ¬ c → Faithful w e) :
    Faithful w (if c then d else e) := by
  split
  · exact hd ‹_›
  · exact he ‹_›

/-- A k or m register number comes from five bits of which the upper two are 0. -/
theorem faithful_reg3 {r : BitVec 5} {k : BitVec 3 → Decoded} (h : ∀ x, r = 0#2 ++ x → Faithful w (k x)) :
    Faithful w (reg3 r k) := by
  exact faithful_need.2 fun h0 => h _ (eq_low_of_high (beq_iff_eq.1 h0) rfl)

/-- A type comes from its own code, and from one that the row accepts. -/
theorem faithful_tyIn {acc : Ty → Bool} {c : BitVec 4} {k : Ty → Decoded}
    (h : ∀ t, c = t.code → acc t = true → Faithful w (k t)) : Faithful w (tyIn acc c k) := by
  unfold tyIn
  split
  · exact faithful_ill 4
  · exact faithful_need.2 (h _ (eq_code ‹_›))

theorem faithful_ldSz {c : BitVec 3} {k : LdSize → Decoded} (h : ∀ z, c = z.code → Faithful w (k z)) :
    Faithful w (ldSz c k) := by
  have hc (z : LdSize) (e : LdSize.ofCode c = some z) : c = z.code := by
    unfold LdSize.ofCode at e
    split at e <;> cases e <;> exact eq_ofNat ‹_›
  unfold ldSz
  split
  · exact faithful_ill 6
  · exact h _ (hc _ ‹_›)

theorem faithful_stSz {c : BitVec 3} {k : StSize → Decoded} (h : ∀ z, c = z.code → Faithful w (k z)) :
    Faithful w (stSz c k) := by
  have hc (z : StSize) (e : StSize.ofCode c = some z) : c = z.code := by
    unfold StSize.ofCode at e
    split at e <;> cases e <;> exact eq_ofNat ‹_›
  unfold stSz
  split
  · exact faithful_ill 6
  · exact h _ (hc _ ‹_›)

theorem faithful_scopeOf {c : BitVec 3} {k : Scope → Decoded} (h : ∀ p, c = p.code → Faithful w (k p)) :
    Faithful w (scopeOf c k) := by
  have hc (p : Scope) (e : Scope.ofCode c = some p) : c = p.code := by
    unfold Scope.ofCode at e
    split at e <;> cases e <;> exact eq_ofNat ‹_›
  unfold scopeOf
  split
  · exact faithful_ill 6
  · exact h _ (hc _ ‹_›)

end

/-! ### The I-forms -/

theorem decShi_faithful (a b : BitVec 5) (i : BitVec 16) : Faithful (encI 0x08#6 a b i) (decShi a b i) := by
  obtain ⟨h, n, rfl⟩ := exists_append 10 6 i
  obtain ⟨z, op, rfl⟩ := exists_append 8 2 h
  refine faithful_need.2 fun hz => ?_
  have hz : z = 0#8 := by
    rw [← extract_self z, ← extract_append_high z op (lo := 2) (by omega), ← extract_append_high (z ++ op) n (lo := 8) (by omega)]
    exact beq_iff_eq.1 hz
  subst hz
  have e2 : (0#8 ++ op ++ n : BitVec 16).extractLsb' 6 2 = op :=
    (extract_append_high (0#8 ++ op) n (by omega)).trans ((extract_append_low 0#8 op (by omega)).trans (extract_self op))
  have e3 : (0#8 ++ op ++ n : BitVec 16).extractLsb' 0 6 = n := (extract_append_low (0#8 ++ op) n (by omega)).trans (extract_self n)
  simp only [e2, e3]
  rcases two_bits op with rfl | rfl | rfl | rfl <;> exact ⟨rfl, rfl⟩

theorem decI_faithful (f : IForm) (a b : BitVec 5) (i : BitVec 16) : Faithful (encI f.major a b i) (decI f a b i) := by
  cases f
  case addi | andi | ori | xori | slti | sltiu | movhi | muli | beq | bne | blt | bge | bltu | bgeu => exact ⟨rfl, rfl⟩
  case shi => exact decShi_faithful a b i
  case dbnz =>
    refine faithful_need.2 fun h => ?_
    simp only [Bool.and_eq_true, beq_iff_eq] at h
    obtain ⟨ha, rfl⟩ := h
    exact ⟨ha, rfl⟩
  case ld | spl =>
    refine faithful_ldSz fun z hz => ⟨rfl, ?_⟩
    conv => rhs; rw [eq_append 13 3 i, hz]
    rfl
  case st | sps =>
    refine faithful_stSz fun z hz => ⟨rfl, ?_⟩
    conv => rhs; rw [eq_append 13 3 i, hz]
    rfl

/-! ### The majors of format R -/

section
variable (t : Bool) (op sub : BitVec 5)

theorem top_of_cat : (BitVec.ofBool t ++ op ++ sub : BitVec 11).getLsbD 10 = t :=
  (BitVec.getLsbD_append (x := BitVec.ofBool t ++ op) (y := sub) (i := 10)).trans
    ((BitVec.getLsbD_append (x := BitVec.ofBool t) (y := op) (i := 5)).trans (by simp))

theorem op_of_cat : (BitVec.ofBool t ++ op ++ sub : BitVec 11).extractLsb' 5 5 = op :=
  (extract_append_high (BitVec.ofBool t ++ op) sub (by omega)).trans
    ((extract_append_low (BitVec.ofBool t) op (by omega)).trans (extract_self op))

theorem sub_of_cat : (BitVec.ofBool t ++ op ++ sub : BitVec 11).extractLsb' 0 5 = sub :=
  (extract_append_low (BitVec.ofBool t ++ op) sub (by omega)).trans (extract_self sub)

end


section
variable {M : BitVec 6} {a b c : BitVec 5} {fn : BitVec 11}

/-- The instruction read has the FN field of the word, written otherwise. -/
theorem faithful_fn {fn' : BitVec 11} {i : Instr} (hw : i.wf = true) (he : encode i = some [encR M a b c fn'])
    (h : fn = fn') : Faithful (encR M a b c fn) (.ok i) :=
  h ▸ ⟨hw, he⟩

/-- The instruction read has the fields B, C and FN of the word, written otherwise. -/
theorem faithful_fields {b' c' : BitVec 5} {fn' : BitVec 11} {i : Instr} (hw : i.wf = true)
    (he : encode i = some [encR M a b' c' fn']) (hb : b' = b) (hc : c' = c) (h : fn' = fn) : Faithful (encR M a b c fn) (.ok i) :=
  hb ▸ hc ▸ h ▸ ⟨hw, he⟩

/-- A row whose C field is 0. -/
theorem faithful_zero_c {i : Instr} (hw : i.wf = true) (he : encode i = some [encR M a b 0#5 fn]) :
    Faithful (encR M a b c fn) (need (c == 0) 3 (.ok i)) := by
  refine faithful_need.2 fun h => ?_
  obtain rfl := beq_iff_eq.1 h
  exact ⟨hw, he⟩

end

theorem dec01_faithful (a b c : BitVec 5) (fn : BitVec 11) : Faithful (encR 0x01#6 a b c fn) (dec01 a b c fn) := by
  unfold dec01
  extract_lets u
  split
  case h_40 => exact faithful_ill 2
  all_goals
    rename_i h
    obtain rfl := eq_ofNat h
  case h_25 | h_26 | h_27 | h_28 | h_29 | h_30 | h_31 | h_32 | h_33 | h_34 | h_35 => exact faithful_zero_c rfl rfl
  all_goals exact ⟨rfl, rfl⟩

theorem dec14_faithful (a b c : BitVec 5) (fn : BitVec 11) : Faithful (encR 0x14#6 a b c fn) (dec14 a b c fn) := by
  unfold dec14
  split
  case h_4 => exact faithful_ill 2
  all_goals
    rename_i h
    obtain rfl := eq_ofNat h
    simp only [faithful_need, Bool.and_eq_true, beq_iff_eq, and_imp]
  · rintro rfl rfl; exact ⟨rfl, rfl⟩
  · rintro rfl; exact ⟨rfl, rfl⟩
  · rintro rfl rfl rfl; exact ⟨rfl, rfl⟩

theorem dec1B_faithful (a b c : BitVec 5) (fn : BitVec 11) : Faithful (encR 0x1B#6 a b c fn) (dec1B a b c fn) := by
  obtain ⟨t, op, sub, rfl⟩ := exists_top_op_sub fn
  simp only [dec1B, top_of_cat, op_of_cat, sub_of_cat]
  split
  case h_8 => exact faithful_ill 2
  all_goals
    rename_i h
    obtain rfl := eq_ofNat h
  case h_1 =>
    refine faithful_scopeOf fun p hp => ?_
    simp only [faithful_need, Bool.and_eq_true, Bool.not_eq_true', beq_iff_eq, and_imp]
    rintro rfl rfl rfl hc hs
    obtain rfl := eq_low_of_high hc hp
    exact faithful_fn rfl rfl (by revert hs; revert sub; decide)
  case h_2 =>
    split
    · exact faithful_ill 6
    next n hn =>
    refine faithful_need.2 fun hs => faithful_fn rfl rfl ?_
    cases t <;> cases n <;> revert hs hn <;> revert sub <;> decide
  all_goals simp only [faithful_need, Bool.and_eq_true, Bool.not_eq_true', beq_iff_eq, and_imp]
  · rintro rfl rfl rfl; exact ⟨rfl, rfl⟩
  · rintro rfl rfl rfl rfl; exact ⟨rfl, rfl⟩
  · rintro rfl rfl rfl; exact ⟨rfl, rfl⟩
  · rintro rfl rfl rfl; exact ⟨rfl, rfl⟩
  · rintro rfl; exact faithful_fn rfl rfl (by revert t; decide)

theorem dec1C_faithful (a b c : BitVec 5) (fn : BitVec 11) : Faithful (encR 0x1C#6 a b c fn) (dec1C a b c fn) := by
  obtain ⟨t, op, sub, rfl⟩ := exists_top_op_sub fn
  simp only [dec1C, top_of_cat, op_of_cat, sub_of_cat]
  split
  case h_7 => exact faithful_ill 2
  all_goals
    rename_i h
    obtain rfl := eq_ofNat h
    simp only [faithful_need, Bool.and_eq_true, Bool.not_eq_true', beq_iff_eq, and_imp]
  · rintro rfl hs; exact faithful_fn rfl rfl (by revert hs; revert sub; decide)
  · rintro rfl rfl rfl hs
    refine faithful_ite (fun h0 => faithful_fn rfl rfl ?_) fun h0 => faithful_need.2 fun hb => ?_
    · revert hs h0; revert sub; decide
    · obtain rfl := beq_iff_eq.1 hb
      exact faithful_fn rfl rfl (by revert hs h0; revert sub; decide)
  · rintro rfl rfl rfl rfl rfl; exact ⟨rfl, rfl⟩
  · rintro rfl rfl rfl rfl; exact ⟨rfl, rfl⟩
  · rintro rfl rfl hs; exact faithful_fn rfl rfl (by revert hs; revert sub t; decide)
  · rintro rfl rfl rfl rfl; exact ⟨rfl, rfl⟩

theorem dec29_faithful (a b c : BitVec 5) (fn : BitVec 11) : Faithful (encR 0x29#6 a b c fn) (dec29 a b c fn) := by
  obtain ⟨t, op, sub, rfl⟩ := exists_top_op_sub fn
  simp only [dec29, top_of_cat, op_of_cat, sub_of_cat]
  split
  case h_6 => exact faithful_ill 2
  all_goals
    rename_i h
    obtain rfl := eq_ofNat h
    simp only [faithful_need, Bool.and_eq_true, Bool.not_eq_true', beq_iff_eq, and_imp]
  · rintro rfl rfl hs; exact faithful_fn rfl rfl (by revert hs; revert sub; decide)
  · rintro rfl rfl; exact faithful_fn rfl rfl (by revert t; decide)
  · rintro rfl rfl; exact ⟨rfl, rfl⟩
  · rintro rfl rfl hs
    exact faithful_ite (fun h0 => faithful_fn rfl rfl (by revert hs h0; revert sub; decide))
      fun h0 => faithful_fn rfl rfl (by revert hs h0; revert sub; decide)
  · rintro rfl rfl rfl hs; exact faithful_fn rfl rfl (by revert hs; revert sub; decide)

theorem dec2A_faithful (a b c : BitVec 5) (fn : BitVec 11) : Faithful (encR 0x2A#6 a b c fn) (dec2A a b c fn) := by
  obtain ⟨t, op, sub, rfl⟩ := exists_top_op_sub fn
  simp only [dec2A, top_of_cat, op_of_cat, sub_of_cat]
  split
  case h_4 => exact faithful_ill 2
  all_goals
    rename_i h
    obtain rfl := eq_ofNat h
    simp only [faithful_need, Bool.and_eq_true, Bool.not_eq_true', beq_iff_eq, and_imp]
  · rintro rfl rfl hs
    exact faithful_ite (fun h0 => faithful_fn rfl rfl (by revert hs h0; revert sub; decide))
      fun h0 => faithful_fn rfl rfl (by revert hs h0; revert sub; decide)
  · rintro rfl rfl rfl; exact ⟨rfl, rfl⟩
  · rintro rfl rfl; exact ⟨rfl, rfl⟩

theorem dec2B_faithful (a b c : BitVec 5) (fn : BitVec 11) : Faithful (encR 0x2B#6 a b c fn) (dec2B a b c fn) := by
  obtain ⟨t, op, sub, rfl⟩ := exists_top_op_sub fn
  simp only [dec2B, top_of_cat, op_of_cat, sub_of_cat]
  split
  case h_7 => exact faithful_ill 2
  all_goals
    rename_i h
    obtain rfl := eq_ofNat h
    simp only [faithful_need, Bool.and_eq_true, Bool.not_eq_true', beq_iff_eq, and_imp]
  · rintro rfl rfl; exact ⟨rfl, rfl⟩
  · rintro rfl rfl; exact ⟨rfl, rfl⟩
  · rintro rfl rfl; exact ⟨rfl, rfl⟩
  · rintro rfl rfl; exact faithful_fn rfl rfl (by revert t; decide)
  · rintro rfl rfl rfl; exact ⟨rfl, rfl⟩
  · rintro rfl rfl rfl; exact ⟨rfl, rfl⟩

theorem dec2C_faithful (a b c : BitVec 5) (fn : BitVec 11) : Faithful (encR 0x2C#6 a b c fn) (dec2C a b c fn) := by
  obtain ⟨t, op, sub, rfl⟩ := exists_top_op_sub fn
  simp only [dec2C, top_of_cat, op_of_cat, sub_of_cat]
  split
  case h_13 => exact faithful_ill 2
  all_goals
    rename_i h
    obtain rfl := eq_ofNat h
    simp only [faithful_need, Bool.and_eq_true, Bool.not_eq_true', beq_iff_eq, and_imp]
  · rintro rfl rfl rfl; exact faithful_fn rfl rfl (by revert t; decide)
  · rintro rfl rfl rfl rfl; exact ⟨rfl, rfl⟩
  · rintro rfl rfl rfl; exact ⟨rfl, rfl⟩
  · rintro rfl rfl; exact ⟨rfl, rfl⟩
  · rintro rfl rfl rfl; exact ⟨rfl, rfl⟩
  · rintro rfl hs
    refine faithful_ite (fun h0 => faithful_fn rfl rfl ?_) fun h0 => faithful_need.2 fun ht => faithful_fn rfl rfl ?_
    · revert hs h0; revert sub t; decide
    · revert hs h0 ht; revert sub t; decide
  · rintro rfl rfl rfl; exact ⟨rfl, rfl⟩
  · rintro rfl rfl rfl; exact ⟨rfl, rfl⟩
  · rintro rfl rfl rfl; exact ⟨rfl, rfl⟩
  · rintro rfl rfl; exact ⟨rfl, rfl⟩
  · rintro rfl rfl; exact ⟨rfl, rfl⟩
  · rintro rfl rfl rfl hs
    exact faithful_ite (fun h0 => faithful_fn rfl rfl (by revert hs h0; revert sub; decide))
      fun h0 => faithful_fn rfl rfl (by revert hs h0; revert sub; decide)

theorem dec2D_faithful (a b c : BitVec 5) (fn : BitVec 11) : Faithful (encR 0x2D#6 a b c fn) (dec2D a b c fn) := by
  obtain ⟨t, op, sub, rfl⟩ := exists_top_op_sub fn
  simp only [dec2D, top_of_cat, op_of_cat, sub_of_cat]
  split
  case h_4 => exact faithful_ill 2
  all_goals
    rename_i h
    obtain rfl := eq_ofNat h
    simp only [faithful_need, Bool.and_eq_true, Bool.not_eq_true', beq_iff_eq, and_imp]
  · rintro rfl rfl; exact ⟨rfl, rfl⟩
  · rintro rfl rfl; exact ⟨rfl, rfl⟩
  · rintro rfl rfl rfl; exact ⟨rfl, rfl⟩

section
variable (t : Bool) (op : BitVec 7) (sz : BitVec 3)

theorem top_of_sized : (BitVec.ofBool t ++ op ++ sz : BitVec 11).getLsbD 10 = t :=
  (BitVec.getLsbD_append (x := BitVec.ofBool t ++ op) (y := sz) (i := 10)).trans
    ((BitVec.getLsbD_append (x := BitVec.ofBool t) (y := op) (i := 7)).trans (by simp))

theorem op_of_sized : (BitVec.ofBool t ++ op ++ sz : BitVec 11).extractLsb' 3 7 = op :=
  (extract_append_high (BitVec.ofBool t ++ op) sz (by omega)).trans
    ((extract_append_low (BitVec.ofBool t) op (by omega)).trans (extract_self op))

theorem sz_of_sized : (BitVec.ofBool t ++ op ++ sz : BitVec 11).extractLsb' 0 3 = sz :=
  (extract_append_low (BitVec.ofBool t ++ op) sz (by omega)).trans (extract_self sz)

end

/-- The FN field of a major with a T bit, a function and a size. -/
theorem exists_top_op_sz (fn : BitVec 11) : ∃ (t : Bool) (op : BitVec 7) (sz : BitVec 3), fn = BitVec.ofBool t ++ op ++ sz := by
  obtain ⟨x, sz, rfl⟩ := exists_append 8 3 fn
  obtain ⟨y, op, rfl⟩ := exists_append 1 7 x
  obtain ⟨t, rfl⟩ := exists_ofBool y
  exact ⟨t, op, sz, rfl⟩

theorem dec17_faithful (a b c : BitVec 5) (fn : BitVec 11) : Faithful (encR 0x17#6 a b c fn) (dec17 a b c fn) := by
  obtain ⟨t, op, sz, rfl⟩ := exists_top_op_sz fn
  simp only [dec17, top_of_sized, op_of_sized, sz_of_sized]
  split
  case h_10 => exact faithful_ill 2
  all_goals
    rename_i h
    obtain rfl := eq_ofNat h
  case h_1 =>
    refine faithful_ldSz fun z hz => faithful_need.2 fun ht => faithful_fn rfl rfl ?_
    subst hz; revert ht; revert t; cases z <;> decide
  case h_2 =>
    refine faithful_stSz fun z hz => faithful_need.2 fun ht => faithful_fn rfl rfl ?_
    subst hz; revert ht; revert t; cases z <;> decide
  case h_3 =>
    refine faithful_ldSz fun z hz => faithful_need.2 fun ht => faithful_scopeOf fun p hp => faithful_need.2 fun hc => ?_
    obtain rfl := eq_low_of_high (beq_iff_eq.1 hc) hp
    refine faithful_fn rfl rfl ?_
    subst hz; revert ht; revert t; cases z <;> decide
  case h_4 =>
    refine faithful_stSz fun z hz => faithful_need.2 fun ht => faithful_scopeOf fun p hp => faithful_need.2 fun hc => ?_
    obtain rfl := eq_low_of_high (beq_iff_eq.1 hc) hp
    refine faithful_fn rfl rfl ?_
    subst hz; revert ht; revert t; cases z <;> decide
  all_goals simp only [faithful_need, Bool.and_eq_true, Bool.not_eq_true', beq_iff_eq, and_imp]
  · rintro rfl; exact faithful_fn rfl rfl (by revert t; decide)
  · rintro rfl; exact faithful_fn rfl rfl (by revert t; decide)
  · rintro rfl; exact faithful_fn rfl rfl (by revert t; decide)
  · rintro rfl rfl rfl; exact ⟨rfl, rfl⟩
  · rintro rfl rfl rfl; exact ⟨rfl, rfl⟩

section
variable (z : Bool) (ord : BitVec 2) (op : BitVec 5) (sz : BitVec 3)

theorem top_of_atomic : (BitVec.ofBool z ++ ord ++ op ++ sz : BitVec 11).getLsbD 10 = z :=
  (BitVec.getLsbD_append (x := BitVec.ofBool z ++ ord ++ op) (y := sz) (i := 10)).trans
    ((BitVec.getLsbD_append (x := BitVec.ofBool z ++ ord) (y := op) (i := 7)).trans
      ((BitVec.getLsbD_append (x := BitVec.ofBool z) (y := ord) (i := 2)).trans (by simp)))

theorem ord_of_atomic : (BitVec.ofBool z ++ ord ++ op ++ sz : BitVec 11).extractLsb' 8 2 = ord :=
  (extract_append_high (BitVec.ofBool z ++ ord ++ op) sz (by omega)).trans
    ((extract_append_high (BitVec.ofBool z ++ ord) op (by omega)).trans
      ((extract_append_low (BitVec.ofBool z) ord (by omega)).trans (extract_self ord)))

theorem op_of_atomic : (BitVec.ofBool z ++ ord ++ op ++ sz : BitVec 11).extractLsb' 3 5 = op :=
  (extract_append_high (BitVec.ofBool z ++ ord ++ op) sz (by omega)).trans
    ((extract_append_low (BitVec.ofBool z ++ ord) op (by omega)).trans (extract_self op))

theorem sz_of_atomic : (BitVec.ofBool z ++ ord ++ op ++ sz : BitVec 11).extractLsb' 0 3 = sz :=
  (extract_append_low (BitVec.ofBool z ++ ord ++ op) sz (by omega)).trans (extract_self sz)

theorem bit0_of_atomic : (BitVec.ofBool z ++ ord ++ op ++ sz : BitVec 11).getLsbD 0 = sz.getLsbD 0 :=
  (BitVec.getLsbD_append (x := BitVec.ofBool z ++ ord ++ op) (y := sz) (i := 0)).trans (if_pos (by omega))

end

/-- The FN field of an atomic: a 0 bit, the order, the function and the size. -/
theorem exists_atomic (fn : BitVec 11) :
    ∃ (z : Bool) (ord : BitVec 2) (op : BitVec 5) (sz : BitVec 3), fn = BitVec.ofBool z ++ ord ++ op ++ sz := by
  obtain ⟨x, sz, rfl⟩ := exists_append 8 3 fn
  obtain ⟨y, op, rfl⟩ := exists_append 3 5 x
  obtain ⟨u, ord, rfl⟩ := exists_append 1 2 y
  obtain ⟨z, rfl⟩ := exists_ofBool u
  exact ⟨z, ord, op, sz, rfl⟩

theorem dec1A_faithful (a b c : BitVec 5) (fn : BitVec 11) : Faithful (encR 0x1A#6 a b c fn) (dec1A a b c fn) := by
  obtain ⟨z, ord, op, sz, rfl⟩ := exists_atomic fn
  simp only [dec1A, top_of_atomic, ord_of_atomic, op_of_atomic, sz_of_atomic, bit0_of_atomic]
  split
  case h_16 => exact faithful_ill 2
  all_goals
    rename_i h
    obtain rfl := eq_ofNat h
    simp only [faithful_need, Bool.and_eq_true, Bool.not_eq_true', beq_iff_eq, and_imp]
  case h_15 => rintro rfl rfl rfl; exact ⟨rfl, rfl⟩
  case h_11 | h_12 | h_13 | h_14 =>
    rintro hs rfl rfl rfl
    exact faithful_fn rfl rfl (by revert hs; revert sz; decide)
  all_goals
    rintro hs rfl
    exact faithful_fn rfl rfl (by revert hs; revert sz ord; decide)

section
variable (d : BitVec 6) (t : Bool) (op : BitVec 4)

theorem door_of_cat : (d ++ BitVec.ofBool t ++ op : BitVec 11).extractLsb' 5 6 = d :=
  (extract_append_high (d ++ BitVec.ofBool t) op (by omega)).trans
    ((extract_append_high d (BitVec.ofBool t) (by omega)).trans (extract_self d))

theorem bit_of_door_cat : (d ++ BitVec.ofBool t ++ op : BitVec 11).getLsbD 4 = t :=
  (BitVec.getLsbD_append (x := d ++ BitVec.ofBool t) (y := op) (i := 4)).trans
    ((BitVec.getLsbD_append (x := d) (y := BitVec.ofBool t) (i := 0)).trans (by simp))

theorem op_of_door_cat : (d ++ BitVec.ofBool t ++ op : BitVec 11).extractLsb' 0 4 = op :=
  (extract_append_low (d ++ BitVec.ofBool t) op (by omega)).trans (extract_self op)

end

theorem dec1D_faithful (a b c : BitVec 5) (fn : BitVec 11) : Faithful (encR 0x1D#6 a b c fn) (dec1D a b c fn) := by
  obtain ⟨d, t, op, rfl⟩ := exists_door_top_op fn
  have hfile (h : c.extractLsb' 1 4 = 0#4) : c = 0#4 ++ (ItemFile.ofCode (c.extractLsb' 0 1)).code := by
    revert h; revert c; decide
  simp only [dec1D, door_of_cat, bit_of_door_cat, op_of_door_cat]
  split
  case h_12 => exact faithful_ill 2
  all_goals
    rename_i h
    obtain rfl := eq_ofNat h
  case h_7 =>
    refine faithful_ite (fun ht => faithful_need.2 fun h => ?_) fun ht => ?_
    · simp only [Bool.and_eq_true, beq_iff_eq] at h
      obtain ⟨rfl, rfl⟩ := h
      exact faithful_fn rfl rfl (by revert ht; revert t; decide)
    · exact faithful_fn rfl rfl (by revert ht; revert d t; decide)
  all_goals simp only [faithful_need, Bool.and_eq_true, Bool.not_eq_true', beq_iff_eq, and_imp]
  case h_1 | h_2 =>
    intro hc
    conv => arg 1; rw [hfile hc]
    exact ⟨rfl, rfl⟩
  · rintro rfl rfl; exact ⟨rfl, rfl⟩
  · rintro rfl rfl rfl; exact faithful_fn rfl rfl (by revert d; decide)
  · rintro rfl rfl rfl rfl; exact ⟨rfl, rfl⟩
  · rintro rfl rfl; exact faithful_fn rfl rfl (by revert d; decide)
  · rintro rfl rfl rfl; exact faithful_fn rfl rfl (by revert d; decide)
  · rintro rfl; exact ⟨rfl, rfl⟩
  · rintro rfl; exact faithful_fn rfl rfl (by revert d; decide)
  · rintro rfl rfl rfl; exact faithful_fn rfl rfl (by revert d; decide)

theorem dec1E_faithful (a b c : BitVec 5) (fn : BitVec 11) : Faithful (encR 0x1E#6 a b c fn) (dec1E a b c fn) := by
  obtain ⟨d, t, op, rfl⟩ := exists_door_top_op fn
  simp only [dec1E, door_of_cat, bit_of_door_cat, op_of_door_cat]
  split
  case h_4 => exact faithful_ill 2
  all_goals
    rename_i h
    obtain rfl := eq_ofNat h
  · exact faithful_zero_c rfl rfl
  · exact faithful_zero_c rfl rfl
  · exact faithful_need.2 fun hd => ⟨hd, rfl⟩

/-- The number of a system register is spread over B, C and the low bits of FN (R275). -/
theorem num_fields (b c : BitVec 5) (n : BitVec 2) :
    (b ++ c ++ n : BitVec 12).extractLsb' 7 5 = b ∧ (b ++ c ++ n : BitVec 12).extractLsb' 2 5 = c ∧
      (b ++ c ++ n : BitVec 12).extractLsb' 0 2 = n :=
  ⟨(extract_append_high (b ++ c) n (by omega)).trans ((extract_append_high b c (by omega)).trans (extract_self b)),
    (extract_append_high (b ++ c) n (by omega)).trans ((extract_append_low b c (by omega)).trans (extract_self c)),
    (extract_append_low (b ++ c) n (by omega)).trans (extract_self n)⟩

theorem dec2F_faithful (a b c : BitVec 5) (fn : BitVec 11) : Faithful (encR 0x2F#6 a b c fn) (dec2F a b c fn) := by
  obtain ⟨t, op, sub, rfl⟩ := exists_top_op_sub fn
  obtain ⟨hb, hc, hn⟩ := num_fields b c (sub.extractLsb' 0 2)
  simp only [dec2F, top_of_cat, op_of_cat, sub_of_cat]
  split
  case h_11 => exact faithful_ill 2
  all_goals
    rename_i h
    obtain rfl := eq_ofNat h
    simp only [faithful_need, Bool.and_eq_true, Bool.not_eq_true', beq_iff_eq, decide_eq_true_eq, and_imp]
  case h_3 | h_4 =>
    rintro rfl hs hnum
    exact faithful_fields hnum rfl hb hc (by rw [hn]; clear hb hc hn hnum; revert hs; revert sub; decide)
  case h_5 =>
    rintro hs rfl rfl rfl
    refine faithful_ite (fun h0 => ?_) fun h0 => faithful_need.2 fun hb => ?_
    · exact faithful_fn rfl rfl (by revert h0; clear hs hn hb hc; revert sub; decide)
    · obtain rfl := beq_iff_eq.1 hb
      exact faithful_fn rfl rfl (by revert hs h0; clear hn hb hc; revert sub; decide)
  case h_6 =>
    rintro hs rfl rfl rfl
    refine faithful_ite (fun h0 => ?_) fun h0 => faithful_need.2 fun hb => ?_
    · exact faithful_fn rfl rfl (by revert h0; clear hs hn hb hc; revert sub; decide)
    · obtain rfl := beq_iff_eq.1 hb
      split
      · exact faithful_fn rfl rfl (by revert hs h0; clear hn hb hc; revert sub; decide)
      · exact faithful_fn rfl rfl (by revert hs h0; clear hn hb hc; revert sub; decide)
  case h_8 =>
    rintro rfl rfl rfl
    have hhi : (b ++ c : BitVec 10).extractLsb' 5 5 = b := (extract_append_high b c (by omega)).trans (extract_self b)
    have hlo : (b ++ c : BitVec 10).extractLsb' 0 5 = c := (extract_append_low b c (by omega)).trans (extract_self c)
    exact faithful_fields rfl rfl hhi hlo rfl
  · rintro rfl rfl rfl rfl rfl; exact ⟨rfl, rfl⟩
  · rintro rfl rfl rfl rfl rfl; exact ⟨rfl, rfl⟩
  · rintro rfl rfl rfl rfl rfl; exact ⟨rfl, rfl⟩
  · rintro rfl rfl rfl; exact faithful_fn rfl rfl (by revert t; decide)
  · rintro rfl rfl rfl; exact ⟨rfl, rfl⟩

/-! ### The majors of the vector format -/

section
variable {M : BitVec 6} {a b c : BitVec 5} {k : BitVec 3} {ty f : BitVec 4} {acc : Ty → Bool}

theorem faithful_abc {mk : BitVec 5 → BitVec 5 → BitVec 5 → BitVec 3 → Ty → Instr}
    (hw : ∀ t, acc t = true → (mk a b c k t).wf = true)
    (he : ∀ t, encode (mk a b c k t) = some [encR M a b c (k ++ t.code ++ f)]) :
    Faithful (encR M a b c (k ++ ty ++ f)) (VFields.abc ⟨a, b, c, k, ty⟩ acc mk) := by
  refine faithful_tyIn fun t ht hacc => ?_
  obtain rfl : ty = t.code := ht
  exact ⟨hw t hacc, he t⟩

theorem faithful_ab {mk : BitVec 5 → BitVec 5 → BitVec 3 → Ty → Instr}
    (hw : ∀ t, acc t = true → (mk a b k t).wf = true)
    (he : ∀ t, encode (mk a b k t) = some [encR M a b 0#5 (k ++ t.code ++ f)]) :
    Faithful (encR M a b c (k ++ ty ++ f)) (VFields.ab ⟨a, b, c, k, ty⟩ acc mk) := by
  refine faithful_need.2 fun hc => ?_
  obtain rfl : c = 0#5 := beq_iff_eq.1 hc
  refine faithful_tyIn fun t ht hacc => ?_
  obtain rfl : ty = t.code := ht
  exact ⟨hw t hacc, he t⟩

theorem faithful_cmp {mk : BitVec 3 → BitVec 5 → BitVec 5 → BitVec 3 → Ty → Instr}
    (hw : ∀ a t, acc t = true → (mk a b c k t).wf = true)
    (he : ∀ a t, encode (mk a b c k t) = some [encR M (0#2 ++ a) b c (k ++ t.code ++ f)]) :
    Faithful (encR M a b c (k ++ ty ++ f)) (VFields.cmp ⟨a, b, c, k, ty⟩ acc mk) := by
  refine faithful_tyIn fun t ht hacc => faithful_reg3 fun x hx => ?_
  obtain rfl : ty = t.code := ht
  obtain rfl : a = 0#2 ++ x := hx
  exact ⟨hw x t hacc, he x t⟩

theorem faithful_plain {d : Decoded} (h : Faithful (encR M a b c (0#3 ++ 0#4 ++ f)) d) :
    Faithful (encR M a b c (k ++ ty ++ f)) (VFields.plain ⟨a, b, c, k, ty⟩ d) := by
  refine faithful_need.2 fun h0 => ?_
  simp only [Bool.and_eq_true, beq_iff_eq] at h0
  obtain ⟨rfl, rfl⟩ := h0
  exact h

end

section
variable (a b c : BitVec 5) (k : BitVec 3) (ty f : BitVec 4)

theorem dec1F_faithful : Faithful (encR 0x1F#6 a b c (k ++ ty ++ f)) (dec1F ⟨a, b, c, k, ty⟩ f) := by
  unfold dec1F
  split
  case h_16 => exact faithful_ill 2
  all_goals
    rename_i h
    obtain rfl := eq_ofNat h
  case h_8 | h_9 | h_15 => exact faithful_ab (fun _ h => h) fun _ => rfl
  all_goals exact faithful_abc (fun _ h => h) fun _ => rfl

theorem dec20_faithful : Faithful (encR 0x20#6 a b c (k ++ ty ++ f)) (dec20 ⟨a, b, c, k, ty⟩ f) := by
  unfold dec20
  split
  case h_16 =>
    have hf : f.toNat = 15 := by simp only [imp_false] at *; omega
    obtain rfl := eq_ofNat hf
    exact faithful_ab (fun _ h => h) fun _ => rfl
  all_goals
    rename_i h
    obtain rfl := eq_ofNat h
  case h_5 | h_14 | h_15 => exact faithful_ab (fun _ h => h) fun _ => rfl
  all_goals exact faithful_abc (fun _ h => h) fun _ => rfl

theorem dec21_faithful : Faithful (encR 0x21#6 a b c (k ++ ty ++ f)) (dec21 ⟨a, b, c, k, ty⟩ f) := by
  unfold dec21
  extract_lets c0
  split
  case h_15 => exact faithful_ill 2
  all_goals
    rename_i h
    obtain rfl := eq_ofNat h
  case h_1 | h_2 | h_3 | h_4 | h_5 => exact faithful_cmp (fun _ _ h => h) fun _ _ => rfl
  case h_6 => exact faithful_abc (fun _ h => h) fun _ => rfl
  case h_7 | h_8 | h_9 =>
    refine faithful_plain (faithful_reg3 fun x hx => faithful_reg3 fun y hy => faithful_reg3 fun z hz => ?_)
    dsimp only at hx hy hz
    subst hx hy hz
    exact ⟨rfl, rfl⟩
  all_goals
    refine faithful_plain (faithful_need.2 fun hc => ?_)
    obtain rfl : c = 0 := beq_iff_eq.1 hc
  · refine faithful_reg3 fun x hx => faithful_reg3 fun y hy => ?_
    dsimp only at hx hy
    subst hx hy
    exact ⟨rfl, rfl⟩
  all_goals
    refine faithful_reg3 fun x hx => ?_
    dsimp only at hx
    subst hx
    exact ⟨rfl, rfl⟩

theorem dec23_faithful : Faithful (encR 0x23#6 a b c (k ++ ty ++ f)) (dec23 ⟨a, b, c, k, ty⟩ f) := by
  unfold dec23
  split
  case h_8 => exact faithful_ill 2
  all_goals
    rename_i h
    obtain rfl := eq_ofNat h
    exact faithful_ab (fun _ h => h) fun _ => rfl

theorem dec24_faithful : Faithful (encR 0x24#6 a b c (k ++ ty ++ f)) (dec24 ⟨a, b, c, k, ty⟩ f) := by
  unfold dec24
  split
  case h_12 => exact faithful_ill 2
  all_goals
    rename_i h
    obtain rfl := eq_ofNat h
  case h_5 | h_6 | h_11 => exact faithful_ab (fun _ h => h) fun _ => rfl
  all_goals exact faithful_abc (fun _ h => h) fun _ => rfl

theorem dec25_faithful : Faithful (encR 0x25#6 a b c (k ++ ty ++ f)) (dec25 ⟨a, b, c, k, ty⟩ f) := by
  unfold dec25
  split
  case h_11 => exact faithful_ill 2
  all_goals
    rename_i h
    obtain rfl := eq_ofNat h
  case h_1 | h_2 | h_7 | h_8 => exact faithful_ab (fun _ _ => rfl) fun _ => rfl
  all_goals exact faithful_abc (fun _ h => h) fun _ => rfl

theorem dec26_faithful : Faithful (encR 0x26#6 a b c (k ++ ty ++ f)) (dec26 ⟨a, b, c, k, ty⟩ f) := by
  unfold dec26
  split
  case h_5 => exact faithful_ill 2
  all_goals
    rename_i h
    obtain rfl := eq_ofNat h
    exact faithful_ab (fun _ h => h) fun _ => rfl

theorem dec27_faithful : Faithful (encR 0x27#6 a b c (k ++ ty ++ f)) (dec27 ⟨a, b, c, k, ty⟩ f) := by
  unfold dec27
  split
  case h_7 => exact faithful_ill 2
  all_goals
    rename_i h
    obtain rfl := eq_ofNat h
  case h_2 | h_3 =>
    refine faithful_need.2 fun hk => faithful_tyIn fun t ht hacc => ?_
    obtain rfl : k = 0 := beq_iff_eq.1 hk
    obtain rfl : ty = t.code := ht
    exact ⟨hacc, rfl⟩
  case h_5 =>
    refine faithful_need.2 fun h0 => faithful_tyIn fun t ht hacc => ?_
    simp only [Bool.and_eq_true, beq_iff_eq] at h0
    obtain ⟨rfl, rfl⟩ := h0
    obtain rfl : ty = t.code := ht
    exact ⟨hacc, rfl⟩
  case h_6 => exact faithful_abc (fun _ h => h) fun _ => rfl
  all_goals exact faithful_ab (fun _ h => h) fun _ => rfl

theorem dec22_faithful : Faithful (encR 0x22#6 a b c (k ++ ty ++ f)) (dec22 ⟨a, b, c, k, ty⟩ f) := by
  obtain ⟨q, y, rfl⟩ := exists_append 3 1 f
  obtain ⟨sat, rfl⟩ := exists_ofBool y
  obtain ⟨z, sc, rfl⟩ := exists_append 1 4 c
  obtain ⟨rtz, rfl⟩ := exists_ofBool z
  have hsrc : (BitVec.ofBool rtz ++ sc : BitVec 5).extractLsb' 0 4 = sc :=
    (extract_append_low (BitVec.ofBool rtz) sc (by omega)).trans (extract_self sc)
  have hrtz : (BitVec.ofBool rtz ++ sc : BitVec 5).getLsbD 4 = rtz :=
    (BitVec.getLsbD_append (x := BitVec.ofBool rtz) (y := sc) (i := 4)).trans (by simp)
  have hq : (q ++ BitVec.ofBool sat : BitVec 4).extractLsb' 1 3 = q :=
    (extract_append_high q (BitVec.ofBool sat) (by omega)).trans (extract_self q)
  have hsat : (q ++ BitVec.ofBool sat : BitVec 4).getLsbD 0 = sat :=
    (BitVec.getLsbD_append (x := q) (y := BitVec.ofBool sat) (i := 0)).trans (by simp)
  simp only [dec22, hsrc, hrtz, hq, hsat]
  split
  next s t hs ht =>
    obtain rfl := eq_code hs
    obtain rfl := eq_code ht
    refine faithful_need.2 fun htypes => faithful_need.2 fun hparts => ?_
    have hcat : k ++ t.code ++ q ++ BitVec.ofBool sat = (k ++ t.code ++ (q ++ BitVec.ofBool sat) : BitVec 11) :=
      BitVec.append_assoc
    exact faithful_fn (Bool.and_eq_true_iff.2 ⟨htypes, hparts⟩) rfl hcat.symm
  next => exact faithful_ill 4

theorem dec28_faithful : Faithful (encR 0x28#6 a b c (k ++ ty ++ f)) (dec28 ⟨a, b, c, k, ty⟩ f) := by
  unfold dec28
  extract_lets k0 ty0
  split
  case h_9 => exact faithful_ill 2
  all_goals
    rename_i h
    obtain rfl := eq_ofNat h
    refine faithful_reg3 fun x hx => ?_
    obtain rfl : a = 0#2 ++ x := hx
  case h_6 =>
    refine faithful_reg3 fun y hy => faithful_reg3 fun z hz => faithful_need.2 fun hk => faithful_tyIn fun t ht hacc => ?_
    obtain rfl : b = 0#2 ++ y := hy
    obtain rfl : c = 0#2 ++ z := hz
    obtain rfl : k = 0 := beq_iff_eq.1 hk
    obtain rfl : ty = t.code := ht
    exact ⟨hacc, rfl⟩
  case h_8 =>
    refine faithful_reg3 fun y hy => faithful_need.2 fun hk => faithful_need.2 fun hc => faithful_tyIn fun t ht hacc => ?_
    obtain rfl : b = 0#2 ++ y := hy
    obtain rfl : k = 0 := beq_iff_eq.1 hk
    obtain rfl : c = 0 := beq_iff_eq.1 hc
    obtain rfl : ty = t.code := ht
    exact ⟨hacc, rfl⟩
  all_goals
    refine faithful_need.2 fun hk => ?_
    obtain rfl : k = 0 := beq_iff_eq.1 hk
  case h_3 =>
    refine faithful_tyIn fun t ht hacc => ?_
    obtain rfl : ty = t.code := ht
    exact ⟨hacc, rfl⟩
  all_goals
    refine faithful_need.2 fun ht => ?_
    obtain rfl : ty = 0 := beq_iff_eq.1 ht
  · exact ⟨rfl, rfl⟩
  · exact ⟨rfl, rfl⟩
  all_goals
    simp only [faithful_need, Bool.and_eq_true, beq_iff_eq, and_imp]
  · rintro rfl; exact ⟨rfl, rfl⟩
  · rintro rfl; exact ⟨rfl, rfl⟩
  · rintro rfl rfl; exact ⟨rfl, rfl⟩

theorem dec2E_faithful : Faithful (encR 0x2E#6 a b c (k ++ ty ++ f)) (dec2E ⟨a, b, c, k, ty⟩ f) := by
  unfold dec2E
  refine faithful_ite (fun h0 => ?_) fun h0 => faithful_ite (fun h1 => ?_) fun h1 => faithful_ite (fun h8 => ?_) fun h8 => ?_
  · obtain rfl : f = 0 := beq_iff_eq.1 h0
    exact faithful_abc (fun _ h => h) fun _ => rfl
  · refine faithful_need.2 fun ht => faithful_need.2 fun hk => ?_
    obtain rfl : f = 1 := beq_iff_eq.1 h1
    obtain rfl : ty = 14 := beq_iff_eq.1 ht
    obtain rfl : k = 0 := beq_iff_eq.1 hk
    exact ⟨rfl, rfl⟩
  · refine faithful_need.2 fun ht => faithful_need.2 fun hk => ?_
    obtain rfl : ty = 14 := beq_iff_eq.1 ht
    obtain rfl : k = 0 := beq_iff_eq.1 hk
    refine faithful_fn (decide_eq_true ?_) rfl (by clear h0 h1 h8; revert f; decide)
    revert h0 h1 h8; revert f; decide
  · refine faithful_tyIn fun t ht hacc => faithful_need.2 fun hk => faithful_need.2 fun hc => faithful_need.2 fun hregs => ?_
    obtain rfl : ty = t.code := ht
    obtain rfl : k = 0 := beq_iff_eq.1 hk
    obtain rfl : c = 0 := beq_iff_eq.1 hc
    have hn : 2 ≤ (f - 7).toNat ∧ (f - 7).toNat ≤ 8 := by clear hregs; revert h0 h1 h8; revert f; decide
    refine faithful_fn ?_ rfl (by rw [BitVec.sub_add_cancel]; rfl)
    exact Bool.and_eq_true_iff.2 ⟨Bool.and_eq_true_iff.2 ⟨hacc, decide_eq_true hn⟩, hregs⟩

end

/-! ### Every word -/

section
variable {w : IWord} {M : BitVec 6} (h : fldMaj w = M)
include h

theorem faithful_formatR {d : BitVec 5 → BitVec 5 → BitVec 5 → BitVec 11 → Decoded}
    (hd : ∀ a b c fn, Faithful (encR M a b c fn) (d a b c fn)) : Faithful w (d (fldA w) (fldB w) (fldC w) (fldFn w)) := by
  have hw := hd (fldA w) (fldB w) (fldC w) (fldFn w)
  rwa [← h, encR_fields] at hw

theorem faithful_formatV {d : VFields → BitVec 4 → Decoded}
    (hd : ∀ a b c k ty f, Faithful (encR M a b c (k ++ ty ++ f)) (d ⟨a, b, c, k, ty⟩ f)) : Faithful w (d (vFields w) (fldF w)) := by
  have hfn : (fldFn w).extractLsb' 8 3 ++ (fldFn w).extractLsb' 4 4 ++ (fldFn w).extractLsb' 0 4 = fldFn w := by
    simp only [BitVec.extractLsb'_append_extractLsb'_eq_extractLsb']
    exact extract_self (fldFn w)
  have hw := hd (fldA w) (fldB w) (fldC w) ((fldFn w).extractLsb' 8 3) ((fldFn w).extractLsb' 4 4) ((fldFn w).extractLsb' 0 4)
  rwa [← h, hfn, encR_fields] at hw

theorem faithful_formatJ {f : BitVec 26 → Instr} (hw : ∀ x, (f x).wf = true) (he : ∀ x, encode (f x) = some [encJ M x]) :
    Faithful w (.ok (f (fldImm26 w))) := by
  refine ⟨hw _, ?_⟩
  rw [he, ← h, encJ_fields]

end

theorem decMajor_faithful (w : IWord) : Faithful w (decMajor w) := by
  unfold decMajor
  extract_lets r v
  split
  case h_28 => exact faithful_ill 1
  all_goals
    rename_i h
    replace h := eq_ofNat h
  · exact faithful_formatR h dec01_faithful
  · exact faithful_formatJ h (fun _ => rfl) fun _ => rfl
  · exact faithful_formatJ h (fun _ => rfl) fun _ => rfl
  · exact faithful_formatR h dec14_faithful
  · exact faithful_formatR h dec17_faithful
  · exact faithful_formatR h dec1A_faithful
  · exact faithful_formatR h dec1B_faithful
  · exact faithful_formatR h dec1C_faithful
  · exact faithful_formatR h dec1D_faithful
  · exact faithful_formatR h dec1E_faithful
  · exact faithful_formatV h dec1F_faithful
  · exact faithful_formatV h dec20_faithful
  · exact faithful_formatV h dec21_faithful
  · exact faithful_formatV h dec22_faithful
  · exact faithful_formatV h dec23_faithful
  · exact faithful_formatV h dec24_faithful
  · exact faithful_formatV h dec25_faithful
  · exact faithful_formatV h dec26_faithful
  · exact faithful_formatV h dec27_faithful
  · exact faithful_formatV h dec28_faithful
  · exact faithful_formatR h dec29_faithful
  · exact faithful_formatR h dec2A_faithful
  · exact faithful_formatR h dec2B_faithful
  · exact faithful_formatR h dec2C_faithful
  · exact faithful_formatR h dec2D_faithful
  · exact faithful_formatV h dec2E_faithful
  · exact faithful_formatR h dec2F_faithful

/-- The major of an I-form is its own (R81). -/
theorem eq_major {m : BitVec 6} {f : IForm} (h : IForm.ofMajor m = some f) : m = f.major := by
  unfold IForm.ofMajor at h
  split at h <;> cases h <;> exact eq_ofNat ‹_›

/-- A word of any major but 0x3E stands alone and is read rightly. -/
theorem decode1_faithful {w : IWord} (h : fldMaj w ≠ 0x3E) : Faithful w (decode1 w) := by
  unfold decode1
  rw [if_neg h]
  split
  next f hf =>
    have hw := decI_faithful f (fldA w) (fldB w) (fldImm w)
    rwa [← eq_major hf, encI_fields] at hw
  next => exact decMajor_faithful w

theorem decode1_of_ext {w : IWord} (h : fldMaj w = 0x3E) : decode1 w = .ext (fldImm26 w) := by
  unfold decode1
  exact if_pos h

theorem decode1_of_ok {w : IWord} {i : Instr} (h : decode1 w = .ok i) : i.wf = true ∧ encode i = some [w] := by
  by_cases hm : fldMaj w = 0x3E
  · rw [decode1_of_ext hm] at h
    cases h
  · have hw := decode1_faithful hm
    rwa [h] at hw

/-- Major 0x3E, and no other, is that of an EXT word (R87). -/
theorem decode1_eq_ext_iff (w : IWord) (x : BitVec 26) : decode1 w = .ext x ↔ w = 0x3E#6 ++ x := by
  constructor
  · intro h
    by_cases hm : fldMaj w = 0x3E
    · rw [decode1_of_ext hm] at h
      cases h
      exact (encJ_fields w).symm.trans (by rw [hm]; rfl)
    · have hw := decode1_faithful hm
      rw [h] at hw
      exact hw.elim
  · rintro rfl
    exact decode1_3E x

/-! ### EXT pairs (R87) -/

theorem of_need_eq_ok {ok : Bool} {d : Nat} {k : Decoded} {i : Instr} (h : need ok d k = .ok i) : ok = true ∧ k = .ok i := by
  cases ok
  · cases h
  · exact ⟨rfl, h⟩

theorem lt_of_ldSz {c : BitVec 3} {k : LdSize → Decoded} {i : Instr} (h : ldSz c k = .ok i) : c.toNat < 7 := by
  have hc : LdSize.ofCode c ≠ none := by
    intro hc
    rw [ldSz, hc] at h
    cases h
  clear h
  revert hc; revert c; decide

theorem lt_of_stSz {c : BitVec 3} {k : StSize → Decoded} {i : Instr} (h : stSz c k = .ok i) : c.toNat < 4 := by
  have hc : StSize.ofCode c ≠ none := by
    intro hc
    rw [stSz, hc] at h
    cases h
  clear h
  revert hc; revert c; decide

/-- The checks of the short form are those of the pair (R87, R112). -/
theorem extOk_of_decI {x : BitVec 26} {f : IForm} {a b : BitVec 5} {i : BitVec 16} {j : Instr} (h : decI f a b i = .ok j)
    (hx : (f != .shi || x == 0) = true) : extOk x f a b i = true := by
  cases f
  case shi => exact Bool.and_eq_true_iff.2 ⟨hx, (of_need_eq_ok h).1⟩
  case dbnz => exact (of_need_eq_ok h).1
  case ld | spl => exact decide_eq_true (lt_of_ldSz h)
  case st | sps => exact decide_eq_true (lt_of_stSz h)
  all_goals rfl

theorem decodePair_of_ok {x : BitVec 26} {w : IWord} {i : Instr} (h : decodePair x w = .ok i) :
    i.wf = true ∧ encode i = some [0x3E#6 ++ x, w] := by
  unfold decodePair at h
  split at h
  · cases h
  next f hf =>
    split at h
    next j hj =>
      obtain ⟨hx, hi⟩ := of_need_eq_ok h
      cases hi
      refine ⟨extOk_of_decI hj hx, ?_⟩
      show some [encJ 0x3E x, encI f.major (fldA w) (fldB w) (fldImm w)] = _
      rw [← eq_major hf, encI_fields]
      rfl
    next hno => exact (hno i h).elim

end Sys2Proof.Laws

/-- Settles O2: each major's decoder requires every bit that the encoder writes, so what it reads is the word's own
instruction. -/
theorem encodeOfDecode : Obligations.EncodeOfDecode :=
  ⟨fun _ _ => Laws.decode1_of_ok, Laws.decode1_eq_ext_iff, fun _ _ _ => Laws.decodePair_of_ok⟩

end

section
open Sys2Proof

/-- Settles O3: the decoder evaluated on each of the words. -/
theorem decodedWords : Obligations.DecodedWords := by
  unfold Obligations.DecodedWords
  decide

end

section
open Sys2Proof Sys2Proof.Machine Sys2Proof.Safety

namespace Sys2Proof.Machine

/-! ### The elements of a register (R176) -/

theorem packEls_lt (w : Nat) (l : List Nat) : packEls w l < 2 ^ (w * l.length) := by
  induction l with
  | nil => simp [packEls]
  | cons x xs ih =>
    have hx : x % 2 ^ w < 2 ^ w := Nat.mod_lt _ (by positivity)
    have hmul : 2 ^ w * (packEls w xs + 1) ≤ 2 ^ w * 2 ^ (w * xs.length) := Nat.mul_le_mul_left _ ih
    rw [packEls, List.length_cons, Nat.mul_succ, Nat.add_comm (w * xs.length), Nat.pow_add]
    rw [Nat.mul_add, Nat.mul_one] at hmul
    omega

/-- Element `j` of packed elements is the one given, modulo its width. -/
theorem packEls_element (w : Nat) (l : List Nat) (j : Nat) : packEls w l >>> (w * j) % 2 ^ w = l.getD j 0 % 2 ^ w := by
  induction l generalizing j with
  | nil => simp [packEls]
  | cons x xs ih =>
    cases j with
    | zero => simp [packEls, Nat.add_mod]
    | succ j =>
      have hdiv : (x % 2 ^ w + 2 ^ w * packEls w xs) / 2 ^ w = packEls w xs := by
        rw [Nat.add_mul_div_left _ _ (by positivity), Nat.div_eq_of_lt (Nat.mod_lt _ (by positivity)), Nat.zero_add]
      rw [packEls, Nat.mul_succ, Nat.add_comm (w * j), Nat.shiftRight_add, Nat.shiftRight_eq_div_pow _ w, hdiv, ih,
        List.getD_cons_succ]

theorem getEl_lt (e : Nat) (v : VReg) (j : Nat) : getEl e v j < 2 ^ (8 * e) := Nat.mod_lt _ (by positivity)

/-- An element of a register that is built from a function is its value, modulo the width. -/
theorem getEl_vBuild {e : Nat} (f : Nat → Nat) {j : Nat} (hj : j < elCount e) : getEl e (vBuild e f) j = f j % 2 ^ (8 * e) := by
  have hbits : 8 * e * (64 / e) ≤ 512 := by
    have := Nat.mul_div_le 64 e
    rw [Nat.mul_assoc]
    omega
  have hlt : packEls (8 * e) ((List.range (elCount e)).map f) < 2 ^ 512 := by
    refine (packEls_lt _ _).trans_le (Nat.pow_le_pow_right Nat.two_pos ?_)
    simpa [elCount] using hbits
  have hel : ((List.range (elCount e)).map f).getD j 0 = f j := by simp [List.getD, hj]
  rw [getEl, vBuild, BitVec.toNat_ofNat, Nat.mod_eq_of_lt hlt, packEls_element, hel]

/-- Under a mask, the active elements are those of the function and the others as before (R89). -/
theorem getEl_vMasked {e : Nat} (k : Word) (old : VReg) (f : Nat → Nat) {j : Nat} (hj : j < elCount e) :
    getEl e (vMasked e k old f) j = if k.getLsbD j then f j % 2 ^ (8 * e) else getEl e old j := by
  rw [vMasked, getEl_vBuild _ hj]
  split
  · rfl
  · exact Nat.mod_eq_of_lt (getEl_lt e old j)

/-! ### Integer elements modulo their width (R56, R57) -/

theorem wrapInt_of_modEq {w n : Nat} {x : Int} (h : x ≡ n [ZMOD 2 ^ w]) : wrapInt w x = n % 2 ^ w := by
  have hx : x % 2 ^ w = ((n % 2 ^ w : Nat) : Int) := by rw [h]; push_cast; rfl
  rw [wrapInt, hx, Int.toNat_natCast]

/-- An element read as a signed or unsigned integer is its bits, modulo the width. -/
theorem tyToInt_modEq (t : Ty) (x : Nat) : tyToInt t x ≡ x [ZMOD 2 ^ (8 * t.bytes)] := by
  have hmod : ((x % 2 ^ (8 * t.bytes) : Nat) : Int) ≡ x [ZMOD 2 ^ (8 * t.bytes)] := by
    push_cast
    exact Int.mod_modEq _ _
  unfold tyToInt toSigned
  dsimp only
  split
  · split
    · exact hmod
    · simpa using hmod.sub_right (2 ^ (8 * t.bytes)) |>.trans (by simp [Int.ModEq])
  · exact hmod

theorem elAdd_of_int {t : Ty} (h : t.isInt = true) (md : NumMode) (x y : Nat) : elAdd t md x y = (x + y) % 2 ^ (8 * t.bytes) := by
  rw [elAdd, if_pos h]
  refine wrapInt_of_modEq ?_
  push_cast
  exact (tyToInt_modEq t x).add (tyToInt_modEq t y)

theorem elSub_of_int {t : Ty} (h : t.isInt = true) (md : NumMode) (x : Nat) {y : Nat} (hy : y < 2 ^ (8 * t.bytes)) :
    elSub t md x y = (x + (2 ^ (8 * t.bytes) - y)) % 2 ^ (8 * t.bytes) := by
  rw [elSub, if_pos h]
  refine wrapInt_of_modEq ?_
  push_cast [hy.le]
  have hd := (tyToInt_modEq t x).sub (tyToInt_modEq t y)
  refine hd.trans ?_
  rw [show (x : Int) + (2 ^ (8 * t.bytes) - y) = x - y + 2 ^ (8 * t.bytes) by ring]
  simp [Int.ModEq]

theorem elMul_of_int {t : Ty} (h : t.isInt = true) (md : NumMode) (x y : Nat) : elMul t md x y = x * y % 2 ^ (8 * t.bytes) := by
  rw [elMul, if_pos h]
  refine wrapInt_of_modEq ?_
  push_cast
  exact (tyToInt_modEq t x).mul (tyToInt_modEq t y)

/-! ### What a vector instruction does (R177) -/

theorem putsV_eq (a : BitVec 5) (f : Proc → VReg) (k : Nat) (p : Proc) (s : State) :
    putsV a f k p s = s.fin k (p.wv a (f p)) := by
  simp [putsV, State.fin, Proc.advance]

theorem completes_of_vecTo {srcs : List RegRef} {a : BitVec 5} {f : Proc → VReg} {i : Instr} (hi : ∀ s, exec i s = vecTo srcs a f s) :
    Completes { srcs := srcs, dsts := [.v a] } i (putsV a f) :=
  completes_of_issue hi fun k p s => (putsV_eq a f k p s).symm

/-- An instruction of two sources, by the function of its elements modulo their width. -/
theorem elements_of_vec2 {a b c : BitVec 5} {m : BitVec 3} {ty : Ty} {i : Instr} {f : NumMode → Nat → Nat → Nat} {g : Nat → Nat → Nat}
    (hi : ∀ s, exec i s = vec2 a b c m ty f s)
    (hf : ∀ md x y, x < 2 ^ (8 * ty.bytes) → y < 2 ^ (8 * ty.bytes) → f md x y % 2 ^ (8 * ty.bytes) = g x y % 2 ^ (8 * ty.bytes)) :
    ∃ r : Proc → VReg, Completes { srcs := [.v b, .v c], dsts := [.v a] } i (putsV a r) ∧
      ∀ (p : Proc) (j : Nat), j < 64 / ty.bytes → getEl ty.bytes (r p) j =
        if (p.rk m).getLsbD j then g (getEl ty.bytes (p.rv b) j) (getEl ty.bytes (p.rv c) j) % 2 ^ (8 * ty.bytes)
        else getEl ty.bytes (p.rv a) j := by
  refine ⟨_, completes_of_vecTo hi, fun p j hj => ?_⟩
  rw [getEl_vMasked _ _ _ hj, hf _ _ _ (getEl_lt _ _ _) (getEl_lt _ _ _)]

end Sys2Proof.Machine

/-- Settles O36: every one of these instructions is an issue of `vecTo`, and an integer is its bits modulo the width. -/
theorem vectorArithmetic : Obligations.VectorArithmetic := by
  unfold Obligations.VectorArithmetic
  refine ⟨fun a b c m ty => ?_, fun a b c m ty h => ?_⟩
  · and_intros
    all_goals exact completes_of_vecTo fun _ => rfl
  · intro w el
    and_intros
    · refine elements_of_vec2 (f := elAdd ty) (fun _ => rfl) fun md x y _ _ => ?_
      rw [elAdd_of_int h, Nat.mod_mod]
    · refine elements_of_vec2 (f := elSub ty) (g := fun x y => x + (2 ^ w - y)) (fun _ => rfl) fun md x y _ hy => ?_
      rw [elSub_of_int h md x hy, Nat.mod_mod]
    · refine elements_of_vec2 (f := elMul ty) (fun _ => rfl) fun md x y _ _ => ?_
      rw [elMul_of_int h, Nat.mod_mod]
    · exact elements_of_vec2 (f := fun _ x y => x &&& y) (fun _ => rfl) fun _ _ _ _ _ => rfl
    · exact elements_of_vec2 (f := fun _ x y => x ||| y) (fun _ => rfl) fun _ _ _ _ _ => rfl
    · exact elements_of_vec2 (f := fun _ x y => x ^^^ y) (fun _ => rfl) fun _ _ _ _ _ => rfl
    · refine elements_of_vec2 (f := fun _ => elShl w) (g := fun x y => x * 2 ^ (y % w)) (fun _ => rfl) fun _ x y _ _ => ?_
      rw [elShl, Nat.mod_mod, Nat.shiftLeft_eq]
    · refine elements_of_vec2 (f := fun _ => elShr w) (g := fun x y => x / 2 ^ (y % w)) (fun _ => rfl) fun _ x y _ _ => ?_
      rw [elShr, Nat.shiftRight_eq_div_pow]

end

section
open Sys2Proof Sys2Proof.Machine Sys2Proof.Safety

namespace Sys2Proof.Machine

/-! ### What memory, the walks and the fetch see of the processes

A read, a walk (R346) and a fetch (R88) reach the processes only by what the apertures hide of sealed spaces (R450), and
change none. So an operation built of them commutes with any change of the processes that the apertures do not see. -/

/-- The part of a state that these operations neither change nor, but for the apertures and the roots of a walk, read: its
processes, its spaces and the slot that issues. -/
structure Others where
  procs : Map Proc
  spaces : Map Space
  cur : Nat

def State.others (s : State) : Others := ⟨s.procs, s.spaces, s.cur⟩

/-- The state with another such part. -/
def State.withOthers (s : State) (v : Others) : State := { s with procs := v.procs, spaces := v.spaces, cur := v.cur }

/-- Whether the apertures and the walks find the same with it (R344, R450). -/
structure Alike (s : State) (v : Others) : Prop where
  sealedFrom : ∀ ga asid, sealedFrom (s.withOthers v) ga asid = sealedFrom s ga asid
  space : ∀ asid, (s.withOthers v).space asid = s.space asid

theorem Alike.refl (s : State) : Alike s s.others := ⟨fun _ _ => rfl, fun _ => rfl⟩

/-- An operation that commutes with a change which the apertures do not see. -/
def Blind (f : State → State) : Prop := ∀ s v, Alike s v → f (s.withOthers v) = (f s).withOthers v

/-- A value that such a change leaves as it is. -/
def Unseen {β : Type} (g : State → β) : Prop := ∀ s v, Alike s v → g (s.withOthers v) = g s

namespace Blind
variable {f g : State → State}

theorem procs (h : Blind f) (s : State) : (f s).procs = s.procs := by
  rw [show f s = (f s).withOthers s.others from h s _ (.refl s)]; rfl

theorem cur (h : Blind f) (s : State) : (f s).cur = s.cur := by
  rw [show f s = (f s).withOthers s.others from h s _ (.refl s)]; rfl

theorem spaces (h : Blind f) (s : State) : (f s).spaces = s.spaces := by
  rw [show f s = (f s).withOthers s.others from h s _ (.refl s)]; rfl

end Blind

theorem sealedFrom_congr {s t : State} (hp : t.procs = s.procs) (ha : t.spaces = s.spaces) (ga : Nat) (asid : Option Nat) :
    sealedFrom t ga asid = sealedFrom s ga asid := by
  unfold sealedFrom State.procsAt State.space
  rw [hp, ha]

theorem Alike.congr {s t : State} {v : Others} (h : Alike s v) (hp : t.procs = s.procs)
    (ha : t.spaces = s.spaces) : Alike t v := by
  refine ⟨fun ga asid => ?_, fun asid => ?_⟩
  · rw [sealedFrom_congr hp ha, ← h.sealedFrom]
    exact sealedFrom_congr rfl rfl ga asid
  · have := h.space asid
    unfold State.space at this ⊢
    rw [ha]
    exact this

namespace Blind
variable {f g : State → State}

theorem alike (h : Blind f) {s : State} {v : Others} (hs : Alike s v) : Alike (f s) v :=
  hs.congr (h.procs s) (h.spaces s)

theorem comp (hg : Blind g) (hf : Blind f) : Blind fun s => g (f s) := by
  intro s v hs
  change g (f (s.withOthers v)) = _
  rw [hf s v hs, hg _ v (hf.alike hs)]

theorem ite {c : State → Prop} [∀ s, Decidable (c s)] (hc : Unseen c) (hf : Blind f) (hg : Blind g) :
    Blind fun s => if c s then f s else g s := by
  intro s v hs
  simp only [hc s v hs]
  split
  · exact hf s v hs
  · exact hg s v hs

theorem id : Blind fun s => s := fun _ _ _ => rfl

theorem foldl {β : Type} {f : State → β → State} (h : ∀ b, Blind fun s => f s b) (l : List β) : Blind fun s => l.foldl f s := by
  induction l with
  | nil => exact id
  | cons b l ih => exact ih.comp (h b)

/-- By cases on a value that the change leaves as it is. -/
theorem bind {β : Type} {c : State → β} {k : β → State → State} (hc : Unseen c) (h : ∀ b, Blind (k b)) :
    Blind fun s => k (c s) s := by
  intro s v hs
  change k (c (s.withOthers v)) _ = _
  rw [hc s v hs]
  exact h _ s v hs

end Blind

namespace Unseen

theorem const {β : Type} (b : β) : Unseen fun _ => b := fun _ _ _ => rfl

theorem after {β : Type} {c : State → β} {f : State → State} (hc : Unseen c) (hf : Blind f) : Unseen fun s => c (f s) := by
  intro s v hs
  change c (f (s.withOthers v)) = _
  rw [hf s v hs, hc _ v (hf.alike hs)]

end Unseen

/-! Reads at their homes (R349, R355, R373, R382). -/

namespace State
variable (s : State) (v : Others)

@[simp] theorem withOthers_home (h : Nat) : (s.withOthers v).home h = s.home h := rfl
@[simp] theorem withOthers_core (pl : Nat) : (s.withOthers v).core pl = s.core pl := rfl
@[simp] theorem withOthers_bad (ga : Nat) : (s.withOthers v).bad ga = s.bad ga := rfl
@[simp] theorem withOthers_mem : (s.withOthers v).mem = s.mem := rfl
@[simp] theorem withOthers_ecc : (s.withOthers v).ecc = s.ecc := rfl
theorem setHome_withOthers (h : Nat) (x : Home) : (s.withOthers v).setHome h x = (s.setHome h x).withOthers v := rfl

end State

section
variable (ga n : Nat)

theorem blind_readRow : Blind fun s => s.readRow ga := by
  intro s v _
  change (s.withOthers v).readRow ga = (s.readRow ga).withOthers v
  unfold State.readRow
  extract_lets x s₁ y t₁
  have ht : s₁ = t₁.withOthers v := by
    simp only [s₁, t₁, apply_ite (fun t : State => t.withOthers v)]
    rfl
  rw [ht, show x = y from rfl]
  cases y.rowEntry ga with
  | none => rfl
  | some e => dsimp only; split_ifs <;> rfl

theorem blind_correctLine (l : Nat) : Blind fun s => s.correctLine l := by
  intro s v _
  simp only [State.correctLine, State.withOthers_ecc]
  split <;> rfl

theorem blind_correct : Blind fun s => s.correct ga n :=
  .ite (c := fun s => s.ecc.isEmpty) (fun _ _ _ => rfl) .id (.foldl (fun l => blind_correctLine l) _)

theorem blind_met : Blind fun s => s.met ga n := (blind_correct ga n).comp (blind_readRow ga)

/-- A home admits an access as it does with other processes. -/
theorem charge_withOthers {s : State} {v : Others} (hs : Alike s v) :
    (s.withOthers v).charge ga n = (s.charge ga n).map (·.withOthers v) := by
  have hm : (s.withOthers v).met ga n = (s.met ga n).withOthers v := blind_met ga n s v hs
  simp only [State.charge, hm, State.withOthers_home, State.setHome_withOthers]
  split
  · rfl
  · split
    · rfl
    · split_ifs <;> rfl

theorem unseen_charge_isNone : Unseen fun s => (s.charge ga n).isNone := by
  intro s v hs
  simp only [charge_withOthers ga n hs, Option.isNone_map]

theorem blind_holdHome : Blind fun s => s.holdHome ga :=
  Blind.comp (g := fun s => if (s.homeAt ga).rowWaits ga then s else s.modHome (homeOf ga) fun x =>
      { x with heldSince := if x.heldSince.isSome then x.heldSince else some s.timeb })
    (.ite (c := fun s => ((s.homeAt ga).rowWaits ga : Prop)) (fun _ _ _ => rfl) .id fun _ _ _ => rfl) (blind_readRow ga)

theorem blind_readHeld : Blind fun s => s.readHeld ga n :=
  .ite (c := fun s => ((s.charge ga n).isNone : Prop)) (fun s v hs => by simp only [unseen_charge_isNone ga n s v hs]) (blind_holdHome ga) .id

theorem unseen_readWaits (src : Nat) : Unseen fun s => readWaits s src ga n := by
  intro s v hs
  have hc : ((s.withOthers v).charge ga n).isNone = (s.charge ga n).isNone := unseen_charge_isNone ga n s v hs
  simp only [readWaits, hc]
  rfl

theorem blind_putBytes (bs : List Byte) : Blind fun s => s.putBytes ga bs := by
  intro s v _
  change (match s.migratedTo ga with | none => _ | some g => _) = State.withOthers (match s.migratedTo ga with | none => _ | some g => _) v
  cases s.migratedTo ga <;> rfl

theorem blind_putFull (full : Bool) : Blind fun s => s.putFull ga full := by
  intro s v _
  cases full <;> simp only [State.putFull, Bool.false_eq_true, if_true, if_false]
  · change (match s.migratedTo ga with | none => _ | some g => _) = State.withOthers (match s.migratedTo ga with | none => _ | some g => _) v
    cases s.migratedTo ga <;> rfl
  · change (match s.migratedTo ga with | none => _ | some g => _) = State.withOthers (match s.migratedTo ga with | none => _ | some g => _) v
    cases s.migratedTo ga <;> rfl

theorem blind_combineEl (l : RedLine) (e : Nat × Word) : Blind fun s => s.combineEl l e :=
  Blind.comp (blind_putFull _ true) (Blind.bind (c := fun s => memNat s.mem (l.line * 64 + l.bytes * e.1) l.bytes)
    (k := fun old s => s.putBytes (l.line * 64 + l.bytes * e.1) (leBytes l.bytes (redApply l.op l.w (BitVec.ofNat 64 old) e.2).toNat))
    (fun _ _ _ => rfl) fun _ => blind_putBytes _ _)

theorem blind_combineQuiet (l : RedLine) : Blind fun s => s.combineQuiet l := by
  refine .ite (c := fun s => (s.bad (l.line * 64) : Prop)) (fun _ _ _ => rfl) (fun _ _ _ => rfl)
    (.ite (c := fun s => (l.barred s : Prop)) (fun s v hs => ?_) .id (.foldl (fun e => blind_combineEl l e) _))
  simp only [RedLine.barred, hs.sealedFrom]

/-- A message of a home to itself needs no link. -/
theorem blind_post_self (x : Nat) (b : Body) : Blind fun s => s.post x x none b := by
  have here (s : State) : s.post x x none b =
      let m : Msg := { src := x, dst := x, own := none, body := b }
      { s with net := s.net ++ [if onLinks s x x s.carried then { m with late := s.carried } else m] } := by
    unfold State.post
    cases agentDev s x with
    | none => rfl
    | some d => simp only [if_true]
  intro s v _
  simp only [here]
  rfl

theorem blind_gather (line : Nat) : Blind fun s => s.gather line := by
  refine Blind.bind (c := fun s => copiesOf s line) (k := fun ls s => match ls with
    | [] => s
    | ls =>
      let s := ls.foldl (fun s l => s.combineQuiet l) (s.uncopied line)
      if (s.homeAt (line * 64)).parked.isEmpty then s
      else
        s.post (agentHome (homeOf (line * 64))) (agentHome (homeOf (line * 64))) none
          (.combine { line := line, op := 0, w := false, els := [] })) (fun _ _ _ => rfl) fun ls => ?_
  cases ls with
  | nil => exact .id
  | cons l ls =>
    exact Blind.comp (g := fun s => if (s.homeAt (line * 64)).parked.isEmpty then s else s.post _ _ none _)
      (.ite (fun _ _ _ => rfl) .id (blind_post_self _ _)) (.comp (.foldl (fun l => blind_combineQuiet l) _) fun _ _ _ => rfl)

theorem blind_gathers (ls : List Nat) : Blind fun s => ls.foldl (fun s l => s.gather l) s := .foldl (fun l => blind_gather l) ls

theorem unseen_readNat : Unseen fun s => readNat s ga n :=
  Unseen.after (c := fun s => leNat (memBytes s.mem ga n)) (fun _ _ _ => rfl) (blind_gathers _)

theorem blind_readDone : Blind fun s => s.readDone ga n := by
  refine Blind.comp (g := fun s => (s.charge ga n).getD s) (fun s v hs => ?_) (blind_gathers _)
  simp only [charge_withOthers ga n hs]
  cases s.charge ga n <;> rfl

/-- The reads of a walk, one after another. -/
theorem readAll_withOthers (src : Nat) (l : List (Nat × Nat)) : ∀ {s : State} {v : Others}, Alike s v →
    (s.withOthers v).readAll src l = (s.readAll src l).map (·.withOthers v) := by
  induction l with
  | nil => intros; rfl
  | cons r rest ih =>
    intro s v hs
    have hw : readWaits (s.withOthers v) src r.1 r.2 = readWaits s src r.1 r.2 := unseen_readWaits r.1 r.2 src s v hs
    have hd : (s.withOthers v).readDone r.1 r.2 = (s.readDone r.1 r.2).withOthers v := blind_readDone r.1 r.2 s v hs
    simp only [State.readAll, hw, hd]
    split
    · rfl
    · exact ih ((blind_readDone r.1 r.2).alike hs)

end

/-! Walks (R344 to R348). -/

section
variable (dev pl asid : Nat) (va : Word)

theorem unseen_walkFrom (fuel : Nat) : ∀ level t, Unseen fun s => walkFrom s dev asid va fuel level t := by
  induction fuel with
  | zero => exact fun _ _ => .const _
  | succ fuel ih =>
    intro level t s v hs
    have hr : readNat (s.withOthers v) (entryGa dev level t va) 8 = readNat s (entryGa dev level t va) 8 :=
      unseen_readNat _ _ s v hs
    have hn (l t : Nat) : walkFrom (s.withOthers v) dev asid va fuel l t = walkFrom s dev asid va fuel l t := ih l t s v hs
    simp only [walkFrom, hr, hn, State.withOthers_bad]

theorem unseen_tablesFrom (fuel : Nat) : ∀ level t, Unseen fun s => tablesFrom s dev asid va fuel level t := by
  induction fuel with
  | zero => exact fun _ _ => .const _
  | succ fuel ih =>
    intro level t s v hs
    have hr : readNat (s.withOthers v) (entryGa dev level t va) 8 = readNat s (entryGa dev level t va) 8 :=
      unseen_readNat _ _ s v hs
    have hn (l t : Nat) : tablesFrom (s.withOthers v) dev asid va fuel l t = tablesFrom s dev asid va fuel l t := ih l t s v hs
    simp only [tablesFrom, hr, hn, State.withOthers_bad]

theorem unseen_walkStart : Unseen fun s => walkStart s pl asid va := by
  intro s v hs
  simp only [walkStart, hs.space]
  rfl

theorem unseen_walk : Unseen fun s => walk s pl asid va := by
  intro s v hs
  have hw : walkStart (s.withOthers v) pl asid va = walkStart s pl asid va := unseen_walkStart pl asid va s v hs
  have hf (n l t : Nat) : walkFrom (s.withOthers v) (devOf pl) asid va n l t = walkFrom s (devOf pl) asid va n l t :=
    unseen_walkFrom _ asid va n l t s v hs
  simp only [walk, hw, hf]

theorem unseen_walkTables : Unseen fun s => walkTables s pl asid va := by
  intro s v hs
  have hw : walkStart (s.withOthers v) pl asid va = walkStart s pl asid va := unseen_walkStart pl asid va s v hs
  have hf (n l t : Nat) : tablesFrom (s.withOthers v) (devOf pl) asid va n l t = tablesFrom s (devOf pl) asid va n l t :=
    unseen_tablesFrom _ asid va n l t s v hs
  simp only [walkTables, hw, hf]

theorem blind_cachePointers (ts : List (Nat × Nat)) : Blind fun s => s.cachePointers pl asid va ts := by
  intro s v _
  simp only [State.cachePointers]
  split <;> rfl

theorem walked_withOthers {s : State} {v : Others} (hs : Alike s v) :
    (s.withOthers v).walked pl asid va = (s.walked pl asid va).map (·.withOthers v) := by
  have ht : walkTables (s.withOthers v) pl asid va = walkTables s pl asid va := unseen_walkTables pl asid va s v hs
  simp only [State.walked, ht, readAll_withOthers pl _ hs]
  cases h : s.readAll pl _ with
  | error ga => rfl
  | ok t =>
    have hp := readAll_withOthers pl ((walkTables s pl asid va).map fun x => (entryGa (devOf pl) x.1 x.2 va, 8)) (.refl s)
    rw [show s.withOthers s.others = s from rfl, h, Except.map, Except.ok.injEq] at hp
    exact congrArg Except.ok (blind_cachePointers pl asid va _ t v (hs.congr (by rw [hp]; rfl) (by rw [hp]; rfl)))

theorem unseen_xlateAt (smode : Bool) (x : Access) : Unseen fun s => xlateAt s pl asid smode va x := by
  intro s v hs
  have hw : walk (s.withOthers v) pl asid va = walk s pl asid va := unseen_walk pl asid va s v hs
  simp only [xlateAt, hw]

/-- The same answer, and the state with the other processes. -/
def Both {β : Type} (g : State → State × β) : Prop :=
  ∀ s v, Alike s v → g (s.withOthers v) = ((g s).1.withOthers v, (g s).2)

theorem Both.blind {β : Type} {g : State → State × β} (h : Both g) : Blind fun s => (g s).1 := by
  intro s v hs
  simp only [h s v hs]

theorem both_xlateFor (smode : Bool) (x : Access) : Both fun s => xlateFor s pl asid smode va x := by
  intro s v hs
  have hw : walk (s.withOthers v) pl asid va = walk s pl asid va := unseen_walk pl asid va s v hs
  have hx : xlateAt (s.withOthers v) pl asid smode va x = xlateAt s pl asid smode va x := unseen_xlateAt pl asid va smode x s v hs
  have hh (ga : Nat) : (s.withOthers v).readHeld ga 8 = (s.readHeld ga 8).withOthers v := blind_readHeld ga 8 s v hs
  simp only [xlateFor, walked_withOthers pl asid va hs, hw, hx, hh]
  cases s.walked pl asid va with
  | error ga => rfl
  | ok t =>
    simp only [Except.map]
    congr 1
    simp only [State.countMet]
    split <;> rfl

theorem both_translate (smode : Bool) (x : Access) : Both fun s => translate s pl asid smode va x := by
  intro s v hs
  have hw : walk (s.withOthers v) pl asid va = walk s pl asid va := unseen_walk pl asid va s v hs
  have hx : xlateFor (s.withOthers v) pl asid smode va x =
      ((xlateFor s pl asid smode va x).1.withOthers v, (xlateFor s pl asid smode va x).2) := both_xlateFor pl asid va smode x s v hs
  simp only [translate, hw, hx, State.withOthers_core]
  split
  · rfl
  · split
    · rfl
    · cases walk s pl asid va with
      | fault c d b => rfl
      | ok e =>
        obtain ⟨t, y⟩ := xlateFor s pl asid smode va x
        cases y <;> rfl

end

/-! The fetch (R88, R280). -/

section
variable (pl asid ga k : Nat)

theorem both_fetchLine : Both fun s => fetchLine s pl asid ga := by
  intro s v hs
  have hw : readWaits (s.withOthers v) pl (ga / 64 * 64) 64 = readWaits s pl (ga / 64 * 64) 64 := unseen_readWaits _ _ pl s v hs
  have hh : (s.withOthers v).readHeld (ga / 64 * 64) 64 = (s.readHeld (ga / 64 * 64) 64).withOthers v := blind_readHeld _ _ s v hs
  have hd : (s.withOthers v).readDone (ga / 64 * 64) 64 = (s.readDone (ga / 64 * 64) 64).withOthers v := blind_readDone _ _ s v hs
  have hf := ((blind_readDone (ga / 64 * 64) 64).alike hs).sealedFrom ga (some asid)
  simp only [fetchLine, hw, hh, hd, hf, State.withOthers_core, State.withOthers_bad, State.withOthers_mem]
  split
  · rfl
  · split_ifs
    · rfl
    · rfl
    · rfl
    · cases rangeOf (gaPa ga) <;> rfl

theorem both_fetchWord (p : Proc) (va : Word) : Both fun s => fetchWord s k p va := by
  intro s v hs
  have ht := both_translate (placeOf k) p.asid va p.smode .exec s v hs
  have hb := (both_translate (placeOf k) p.asid va p.smode .exec).blind.alike hs
  simp only at ht
  simp only [fetchWord, ht]
  revert hb
  obtain ⟨t, y⟩ := translate s (placeOf k) p.asid p.smode va .exec
  intro hb
  cases y with
  | fault c d => rfl
  | wait => rfl
  | ok ga leaf =>
    have hl : fetchLine (t.withOthers v) (placeOf k) p.asid ga = ((fetchLine t (placeOf k) p.asid ga).1.withOthers v, _) :=
      both_fetchLine (placeOf k) p.asid ga t v hb
    simp only [hl]
    split
    · rfl
    · obtain ⟨u, z⟩ := fetchLine t (placeOf k) p.asid ga
      cases z <;> rfl

theorem both_fetch (p : Proc) : Both fun s => fetch s k p := by
  intro s v hs
  have hw (va : Word) {s : State} (hs : Alike s v) :
      fetchWord (s.withOthers v) k p va = ((fetchWord s k p va).1.withOthers v, (fetchWord s k p va).2) :=
    both_fetchWord k p va s v hs
  have hb := (both_fetchWord k p p.pc).blind.alike hs
  simp only [fetch, hw p.pc hs]
  revert hb
  obtain ⟨t, y⟩ := fetchWord s k p p.pc
  intro hb
  cases y with
  | fault c d => rfl
  | wait => rfl
  | word w =>
    simp only [hw (p.pc + 4) hb]
    split
    · rfl
    · cases decode1 w with
      | ok i => rfl
      | ill d => rfl
      | ext x =>
        obtain ⟨u, z⟩ := fetchWord t k p (p.pc + 4)
        cases z with
        | fault c d => rfl
        | wait => rfl
        | word w₂ => simp only; cases decodePair x w₂ <;> rfl

/-- A fetch changes no process and leaves the slot that issues. -/
theorem fetch_procs (s : State) (p : Proc) : (fetch s k p).1.procs = s.procs := (both_fetch k p).blind.procs s

theorem fetch_cur (s : State) (p : Proc) : (fetch s k p).1.cur = s.cur := (both_fetch k p).blind.cur s

theorem unseen_atPair (p : Proc) : Unseen fun s => atPair s k p := by
  intro s v hs
  have hw : fetchWord (s.withOthers v) k p p.pc = (_, (fetchWord s k p p.pc).2) := both_fetchWord k p p.pc s v hs
  have hx : xlateAt (s.withOthers v) (placeOf k) p.asid p.smode p.pc .exec = xlateAt s (placeOf k) p.asid p.smode p.pc .exec :=
    unseen_xlateAt _ _ _ _ _ s v hs
  have hr (ga : Nat) : readNat (s.withOthers v) ga 4 = readNat s ga 4 := unseen_readNat ga 4 s v hs
  simp only [atPair, hw, hx, hr]

end

/-! What the apertures see of a process: its place, its space and its allocation (R343, R450). -/

theorem mem_of_mget {α : Type} {m : Map α} {i : Nat} {x : α} (h : mget m i = some x) : (i, x) ∈ m := by
  induction m with
  | nil => cases h
  | cons e r ih =>
    obtain ⟨k, v⟩ := e
    simp only [mget] at h
    split at h
    · next hk => cases h; exact hk ▸ List.mem_cons_self
    · exact List.mem_cons_of_mem _ (ih h)

/-- A value changed where a test sees no difference leaves its outcome over the map. -/
theorem any_mset_of_eq {α : Type} {m : Map α} {i : Nat} {x y : α} {f : Nat × α → Bool} (h : mget m i = some x)
    (hf : f (i, y) = f (i, x)) : (mset m i y).any f = m.any f := by
  induction m with
  | nil => cases h
  | cons e r ih =>
    obtain ⟨k, v⟩ := e
    have hmem := mem_of_mget h
    simp only [mget] at h
    simp only [mset]
    split
    · rw [List.any_cons, hf, Bool.or_eq_right_iff_imp]
      exact fun hx => List.any_eq_true.2 ⟨_, hmem, hx⟩
    · split
      · next hk => rw [if_pos hk.symm] at h; cases h; subst hk; simp only [List.any_cons, hf]
      · next hk => rw [if_neg (Ne.symm hk)] at h; simp only [List.any_cons, ih h]

/-- A change of a process that leaves its space and its allocation is one that the apertures do not see. -/
theorem alike_setProc {s : State} {k : Nat} {p q : Proc} (hp : mget s.procs k = some p) (ha : q.asid = p.asid)
    (hl : q.splog = p.splog) (hb : q.spBase = p.spBase) : Alike s ⟨mset s.procs k q, s.spaces, s.cur⟩ := by
  refine ⟨fun ga asid => ?_, fun _ => rfl⟩
  simp only [sealedFrom, State.procsAt, List.any_filter]
  cases rangeOf (gaPa ga) with
  | scratch c => exact any_mset_of_eq hp (by simp only [ha, hl, hb])
  | _ => rfl


/-! ### The system instructions (R276 to R282) -/

/-- ECALL of a process in U mode traps (R276). -/
theorem execEcall_of_user {s : State} {p : Proc} (hp : mget s.procs s.cur = some p) (hm : p.smode = false) :
    execEcall s = issue {} (fun k p s => s.trap k p false 0x12 0 0) s := by
  simp only [execEcall, hp, hm, Bool.false_eq_true, if_false]

/-- The request that an ECALL in S mode sends, and the answer to one of an unknown code (R276). -/
def ecallRequest (k : Nat) (p : Proc) (s : State) : State :=
  let args : List (BitVec 5) := [1, 2, 3, 4, 5, 6, 7]
  let pl := placeOf k
  let sc := devOf pl * 1024 + 768 + servingDie s (devOf pl) (coreDie (coreOf pl))
  let s := if serviceCode (p.rg 1).toNat then s.post pl sc none (.svc { p := k, gen := p.gen, args := args.map p.rg })
    else s.post sc pl none (.fill (svcFill k p.gen stBadType 0))
  s.waitIn k p .ecall 0 0 none

theorem execEcall_of_super {s : State} {p : Proc} (hp : mget s.procs s.cur = some p) (hm : p.smode = true) :
    execEcall s = issue { srcs := ([1, 2, 3, 4, 5, 6, 7] : List (BitVec 5)).map .g } ecallRequest s := by
  simp only [execEcall, hp, hm, if_true]
  rfl

theorem spaceBusy_eq_false {s : State} {dev asid : Nat} :
    spaceBusy s dev asid = false ↔ ∀ m ∈ s.net, usesSpace s m dev asid = false := by
  simp [spaceBusy]

/-- TLBINV drops the translations; it goes on where no access of the space is under way (R279). -/
theorem completesIf_tlbInv_idle {nd : Need} {i : Instr} {va : Proc → Option Word} (hi : ∀ s, exec i s = tlbInv nd va s) :
    CompletesIf nd i (fun k p s => ∀ m ∈ (s.invalidate (keyDev k) p.asid (va p)).net,
        usesSpace (s.invalidate (keyDev k) p.asid (va p)) m (keyDev k) p.asid = false)
      (fun k p s => (s.invalidate (keyDev k) p.asid (va p)).setProc k p.advance) := by
  refine completesIf_of_issue hi fun k p s h => ?_
  rw [← spaceBusy_eq_false] at h
  simp only [h, Bool.false_eq_true, if_false]
  rfl

/-- and waits for them where one is (R137, R279). -/
theorem completesIf_tlbInv_busy {nd : Need} {i : Instr} {va : Proc → Option Word} (hi : ∀ s, exec i s = tlbInv nd va s) :
    CompletesIf nd i (fun k p s => ¬ ∀ m ∈ (s.invalidate (keyDev k) p.asid (va p)).net,
        usesSpace (s.invalidate (keyDev k) p.asid (va p)) m (keyDev k) p.asid = false)
      (fun k p s => ((s.invalidate (keyDev k) p.asid (va p)).post (agentPart k) (placeOf k) none
        (.fill (invFill k p (va p)))).waitIn k p (.tlbinv (va p)) 0 0 none) := by
  refine completesIf_of_issue hi fun k p s h => ?_
  rw [← spaceBusy_eq_false, Bool.not_eq_false] at h
  simp only [h, if_true]

/-- What PREEMPT of the handle in g[b] does (R282). -/
def preemptBy (a b : BitVec 5) (k : Nat) (p : Proc) (s : State) : State :=
  let h := p.rg b
  let end_ (code : Nat) : State := s.fin k (p.wg a (BitVec.ofNat 64 code))
  if decide (768 ≤ coreOf (placeOf (handleKey h)) ∧ coreOf (placeOf (handleKey h)) < 772) then end_ stBadType
  else
    match s.byHandle h with
    | none => end_ stClosed
    | some (j, q) =>
      if j = k then (((s.fin k (p.wg a 0)).detach k).makeReady k)
      else if q.asid ≠ p.asid then end_ stBadType
      else if !q.isRunning then end_ stOk
      else
        (s.setProc j { q with haltReq := if q.haltReq = 0 then 2 else q.haltReq, haltFor := q.haltFor ++ [(k, p.gen)] }).waitIn
          k p (.preempt j) a 0 none

section
variable {a b : BitVec 5} {k : Nat} {p : Proc} {s : State}

theorem preemptBy_service (h : 768 ≤ coreOf (placeOf (handleKey (p.rg b))) ∧ coreOf (placeOf (handleKey (p.rg b))) < 772) :
    preemptBy a b k p s = s.fin k (p.wg a (BitVec.ofNat 64 stBadType)) := by
  unfold preemptBy
  exact if_pos (decide_eq_true h)

variable (h : ¬ (768 ≤ coreOf (placeOf (handleKey (p.rg b))) ∧ coreOf (placeOf (handleKey (p.rg b))) < 772))
include h

theorem preemptBy_stale (hs : s.byHandle (p.rg b) = none) : preemptBy a b k p s = s.fin k (p.wg a (BitVec.ofNat 64 stClosed)) := by
  simp only [preemptBy, h, hs, decide_false, Bool.false_eq_true, if_false]

theorem preemptBy_process {j : Nat} {q : Proc} (hs : s.byHandle (p.rg b) = some (j, q)) :
    preemptBy a b k p s =
      if j = k then (((s.fin k (p.wg a 0)).detach k).makeReady k)
      else if q.asid ≠ p.asid then s.fin k (p.wg a (BitVec.ofNat 64 stBadType))
      else if !q.isRunning then s.fin k (p.wg a (BitVec.ofNat 64 stOk))
      else
        (s.setProc j { q with haltReq := if q.haltReq = 0 then 2 else q.haltReq, haltFor := q.haltFor ++ [(k, p.gen)] }).waitIn
          k p (.preempt j) a 0 none := by
  simp only [preemptBy, h, hs, decide_false, Bool.false_eq_true, if_false]

end

/-- A process that runs at a boundary, of which no halt is asked, takes its pending cause (R398). -/
theorem execTakeAsyncTrap_of_cause {s : State} {k code : Nat} {p : Proc} {v : Word} (hp : mget s.procs k = some p)
    (hr : p.isRunning = true) (hw : p.wait = none) (hh : p.haltReq = 0) (hc : asyncCause s (keyDev k) p = some (code, v)) :
    execTakeAsyncTrap k s =
      let t := if code = 0x0C ∨ code = 0x0D then s.setProc k { p with yardTrap := none } else s
      .next (t.takeTrap k code 0 v p.pc true (atPair t k p)) := by
  simp [execTakeAsyncTrap, hp, hr, hw, hh, hc]

/-- A change of the yard's trap of a process does not move what its PC stands at. -/
theorem atPair_clear_yardTrap {s : State} {k : Nat} {p : Proc} (hp : mget s.procs k = some p) :
    atPair (s.setProc k { p with yardTrap := none }) k p = atPair s k p :=
  unseen_atPair k p s _ (alike_setProc (q := { p with yardTrap := none }) hp rfl rfl rfl)

theorem exec_takeAsyncTrap_of_cause {s : State} {k cause : Nat} {p : Proc} {v : Word} (hp : mget s.procs k = some p)
    (hr : p.isRunning = true) (hw : p.wait = none) (hh : p.haltReq = 0) (hc : asyncCause s (keyDev k) p = some (cause, v)) :
    exec (.takeAsyncTrap k) s = .next
      ((if cause = 0x0C ∨ cause = 0x0D then s.setProc k { p with yardTrap := none } else s).takeTrap k cause 0 v p.pc true (atPair s k p)) := by
  rw [exec_takeAsyncTrap, execTakeAsyncTrap_of_cause hp hr hw hh hc]
  dsimp only
  split
  · rw [atPair_clear_yardTrap hp]
  · rfl

/-- CFLUSH.L drops the line that its address names (R280). -/
def flushLine (b : BitVec 5) (k : Nat) (p : Proc) (s : State) : State :=
  match translate s (placeOf k) p.asid p.smode (p.rg b) .read with
  | (s, .fault _ _) => s.fin k p
  | (s, .wait) => s.stallOn k p .order none
  | (s, .ok ga _) => (s.modCore (placeOf k) fun c => { c with roLines := mdel c.roLines (ga / 64) }).fin k p

theorem completesIf_cflushL {b : BitVec 5} {cond : Nat → Proc → State → Prop} {effect : Nat → Proc → State → State}
    (h : ∀ k p s, cond k p s → flushLine b k p s = effect k p s) : CompletesIf { srcs := [.g b] } (.cflushL b) cond effect :=
  completesIf_of_issue (body := flushLine b) (fun _ => rfl) h

/-- BREAK traps with its word (R281). -/
theorem completes_brk (code : BitVec 10) : Completes {} (.brk code) (fun k p s =>
    s.trap k p false 0x11 0 ((encR 0x2F 0 (code.extractLsb' 5 5) (code.extractLsb' 0 5) 0x0E0).setWidth 64)) := by
  refine completes_of_issue (fun s => ?_) (fun _ _ _ => rfl)
  rw [exec_brk, execBrk]

/-- WFE goes on where an event is pending or the timer has come, and else gives the slot up (R281). -/
def waitForEvent (a : BitVec 5) (t : Bool) (k : Nat) (p : Proc) (s : State) : State :=
  if p.evpend ≠ 0 || timerLevel s (keyDev k) p then s.fin k (p.wg a 0) else (s.waitIn k p .wfe a 0 (deadlineOf s k p t)).block k

theorem completesIf_wfe {a : BitVec 5} {t : Bool} {cond : Nat → Proc → State → Prop} {effect : Nat → Proc → State → State}
    (h : ∀ k p s, cond k p s → waitForEvent a t k p s = effect k p s) : CompletesIf { dsts := [.g a] } (.wfe a t) cond effect :=
  completesIf_of_issue (body := waitForEvent a t) (fun _ => rfl) h

theorem eventPending_iff (s : State) (k : Nat) (p : Proc) :
    (p.evpend ≠ 0 || timerLevel s (keyDev k) p) = true ↔ field p.pstat 24 3 ≠ 0 ∨ p.timecmp.toNat ≤ s.timebOf (keyDev k) := by
  rw [Bool.or_eq_true, decide_eq_true_iff, timerLevel, decide_eq_true_iff, Proc.evpend]

theorem completesIf_preempt {a b : BitVec 5} {cond : Nat → Proc → State → Prop} {effect : Nat → Proc → State → State}
    (h : ∀ k p s, cond k p s → preemptBy a b k p s = effect k p s) :
    CompletesIf { needS := true, srcs := [.g b], dsts := [.g a], word := encR 0x2F a b 0 0x120 } (.preempt a b) cond effect :=
  completesIf_of_issue (body := preemptBy a b) (fun _ => rfl) h

end Sys2Proof.Machine

/-- Settles O48, from what each instruction does once it issues; that a pending trap reports the same EXT pair after the
yard's trap is cleared is `atPair_clear_yardTrap`. -/
theorem systemInstructions : Obligations.SystemInstructions := by
  unfold Obligations.SystemInstructions
  intro a b t code args word
  refine ⟨fun s k p s' q => ⟨fun h hm => ?_, fun h hm hc => ?_⟩, ⟨⟨?_, ?_⟩, ?_, ?_⟩, ⟨?_, ?_, ?_, ?_, ?_⟩, completes_brk code,
    ?_, ?_, ?_, ?_, ?_⟩
  · rw [exec_ecall, execEcall_of_user (h.1.cur ▸ h.1.here) hm, issue_of_issues h]
  · rw [exec_ecall, execEcall_of_super (h.1.cur ▸ h.1.here) hm, issue_of_issues h]
    simp only [ecallRequest, hc, if_true]
    rfl
  · exact completesIf_tlbInv_idle fun _ => rfl
  · exact completesIf_tlbInv_busy fun _ => rfl
  · exact completesIf_tlbInv_idle fun _ => rfl
  · exact completesIf_tlbInv_busy fun _ => rfl
  · exact completes_of_issue (fun _ => rfl) fun _ _ _ => rfl
  · exact completes_of_issue (fun _ => rfl) fun _ _ _ => rfl
  · exact completes_of_issue (fun _ => rfl) fun _ _ _ => rfl
  · refine fun ga leaf s₁ => completesIf_cflushL fun k p s h => ?_
    simp only [flushLine, h]
    rfl
  · refine fun x y s₁ => completesIf_cflushL fun k p s h => ?_
    simp only [flushLine, h]
    rfl
  · refine completesIf_wfe fun k p s h => ?_
    rw [waitForEvent, if_pos ((eventPending_iff s k p).2 h), putsG_eq]
  · refine completesIf_wfe fun k p s h => ?_
    rw [waitForEvent, if_neg (mt (eventPending_iff s k p).1 (not_or.2 ⟨not_not.2 h.1, not_le.2 h.2⟩))]
  · intro nd core service
    refine ⟨completesIf_preempt fun k p s h => ?_, completesIf_preempt fun k p s h => ?_, fun j q => ?_⟩
    · rw [preemptBy_service h, putsG_eq]; rfl
    · rw [preemptBy_stale h.1 h.2, putsG_eq]; rfl
    · intro names
      refine ⟨completesIf_preempt fun k p s h => ?_, completesIf_preempt fun k p s h => ?_,
        completesIf_preempt fun k p s h => ?_, completesIf_preempt fun k p s h => ?_⟩
      · obtain ⟨⟨hs, hq⟩, rfl⟩ := h
        rw [preemptBy_process hs hq, if_pos rfl]; rfl
      · obtain ⟨⟨hs, hq⟩, hj, ha⟩ := h
        rw [preemptBy_process hs hq, if_neg hj, if_pos ha, putsG_eq]; rfl
      · obtain ⟨⟨hs, hq⟩, hj, ha, hr⟩ := h
        rw [preemptBy_process hs hq, if_neg hj, if_neg (not_not.2 ha), if_pos (by simp [hr]), putsG_eq]; rfl
      · obtain ⟨⟨hs, hq⟩, hj, ha, hr⟩ := h
        rw [preemptBy_process hs hq, if_neg hj, if_neg (not_not.2 ha), if_neg (by simp [hr])]
  · exact fun detail tval ext s p hp => exec_illegalWord detail tval ext s ▸ run_of_get rfl hp _
  · exact fun s k cause p v hp hr hw hh _ hc => exec_takeAsyncTrap_of_cause hp hr hw hh hc

end

section
open Sys2Proof Sys2Proof.Machine Sys2Proof.Safety

namespace Sys2Proof.Machine

/-! ### A request that the host rings (R437) -/

/-- A request that is rung in a window that is not busy is served, with the words of the window. -/
theorem hostRequest_of_rings {s s' : State} {dev win op : Nat} {tag : BitVec 16} {r : List Word} (h : Rings s dev win tag op s' r)
    (go : State → Nat → List Word → State) : s.hostRequest dev win tag op go = .next (go s' (dev * 4 + win) r) := by
  obtain ⟨hw, hon, hb, hr, hop, hlt, rfl⟩ := h
  have hcode : field (r.headD 0) 0 16 = op := by
    rw [hop]; simp [field, BitVec.extractLsb']; omega
  have hrest : field (r.headD 0) 16 48 = 0 := by
    rw [hop]; simp [field, BitVec.extractLsb', Nat.shiftRight_eq_div_pow]; omega
  simp only [State.hostRequest, hr, hb, hon, hcode, hrest, Nat.not_le.2 hw, Bool.true_eq_false, ne_eq, not_true_eq_false,
    or_self, Bool.false_eq_true, if_false]

section
variable {s s' : State} {dev win : Nat} {tag : BitVec 16} {r : List Word}

/-! LAUNCH (R107, R440, R444). -/

/-- What a launch does with the address space it takes. -/
def launchInto (s : State) (key dev asid : Nat) (l : LaunchBlock) : State :=
  match firstBad (l.checks ++ imageChecks l asid) with
  | some (reason, off) => s.rejectLaunch key dev reason off (rejecter l asid dev reason off)
  | none =>
    match unreachableDev s l dev with
    | some d => s.rejectLaunch key dev 9 0 d
    | none =>
      match (grantSlices s l.devs).bind fun slices => s.loadAll l dev asid slices with
      | .error d => s.rejectLaunch key dev 8 0 d
      | .ok s => s.respond key stOk [BitVec.ofNat 64 asid]

theorem launch_of_rings (h : Rings s dev win tag 0x0001 s' r) {asid : Nat} (ha : freeAsid s' = some asid) :
    exec (.launch dev win tag) s = .next (launchInto s' (dev * 4 + win) dev asid (launchBlock s' dev (r.getD 1 0).toNat)) := by
  rw [exec_launch, execLaunch, hostRequest_of_rings h]
  simp only [ha]
  rfl

/-! ENDPOINT (R441). -/

theorem endpoint_of_rings (h : Rings s dev win tag 0x0002 s' r) (h₀ : field (reqArg r 1) 24 40 = 0)
    (h₁ : 1 ≤ field (reqArg r 1) 12 4) (h₂ : field (reqArg r 1) 12 4 ≤ 12)
    (h₃ : field (reqArg r 1) 16 6 = 0 ∨ 16 ≤ field (reqArg r 1) 16 6) (h₄ : (reqArg r 2).toNat % 4096 = 0)
    (h₅ : (reqArg r 3).toNat = 0) (h₆ : mget s'.hostEps (dev * 1024 + field (reqArg r 1) 0 10) = none) :
    exec (.endpoint dev win tag) s = .next (({ s' with
      hostEps := mset s'.hostEps (dev * 1024 + field (reqArg r 1) 0 10)
        { toHost := (reqArg r 1).getLsbD 10, isMsg := (reqArg r 1).getLsbD 11, logs := field (reqArg r 1) 12 4
          vec := field (reqArg r 1) 16 6, sc := field (reqArg r 1) 22 2, base := (reqArg r 2).toNat
          chan := none, pend := [], acks := [] } } : State).respond (dev * 4 + win) stOk []) := by
  have h₅ : reqArg r 3 = 0 := BitVec.eq_of_toNat_eq h₅
  rw [exec_endpoint, execEndpoint, hostRequest_of_rings h]
  dsimp only
  rw [if_neg (by rw [h₅]; simp only [ne_eq, not_true_eq_false, or_false]; omega), h₆]
  rfl

/-! BIND (R438). -/

/-- What the bind of an end does once its new holder is known. -/
def bindEnd (s : State) (key k d : Nat) (e : Door) (x : Chan) (h : Holder) : State :=
  if e.isSend && isFaultChan s e.chan then ((s.moveFaultEnd k d h false e).chanEvent e.chan).respond key stOk []
  else if !e.isSend && x.moving then s.respond key stBadType []
  else
    let s := match quietOf s e.chan x e.isSend with
      | .closes door => s.quiesce e.chan x e.isSend door
      | .free | .busy => s
    let s := if e.isSend then s else s.modChan e.chan fun x => { x with moving := true }
    s.post (placeOf k) (ownPlace (hostOwner key).p) none (.recordCopy e.chan e.isSend h d false (hostOwner key))

section
variable {key k d : Nat} {e : Door} {x : Chan} {y : Holder}

theorem bindEnd_fault (hs : e.isSend = true) (hf : isFaultChan s e.chan = true) :
    bindEnd s key k d e x y = ((s.moveFaultEnd k d y false e).chanEvent e.chan).respond key stOk [] := by
  unfold bindEnd
  rw [if_pos (by rw [hs, hf]; rfl)]

theorem bindEnd_free (hf : isFaultChan s e.chan = false) (hm : e.isSend = false → x.moving = false)
    (hq : quietOf s e.chan x e.isSend = .free) :
    bindEnd s key k d e x y = (if e.isSend then s else s.modChan e.chan fun x => { x with moving := true }).post (placeOf k)
      (ownPlace (hostOwner key).p) none (.recordCopy e.chan e.isSend y d false (hostOwner key)) := by
  have hmoving : (!e.isSend && x.moving) = false := by
    cases hs : e.isSend
    · exact hm hs
    · rfl
  unfold bindEnd
  rw [if_neg (by rw [hf, Bool.and_false]; exact Bool.false_ne_true), if_neg (by rw [hmoving]; exact Bool.false_ne_true), hq]

end

theorem bind_of_rings (h : Rings s dev win tag 0x0003 s' r) {k : Nat} {p : Proc} {e : Door} {x : Chan} {y : Holder}
    (hk : s'.byHandle (reqArg r 1) = some (k, p)) (hd : (reqArg r 2).toNat < 64) (hs : (s'.space p.asid).sealed = false)
    (he : mget p.doors (reqArg r 2).toNat = some e) (hx : mget s'.chans e.chan = some x)
    (hb : bindHolder s' (dev * 2 ^ 22) p x e.isSend 1 (reqArg r 3) 0 = .ok y) :
    exec (.bind dev win tag) s = .next (bindEnd s' (dev * 4 + win) k (reqArg r 2).toNat e x y) := by
  rw [exec_bind, execBind, hostRequest_of_rings h]
  dsimp only
  rw [hk]
  dsimp only
  rw [if_neg (not_or.2 ⟨not_le.2 hd, by simp [hs]⟩), he]
  dsimp only
  rw [hx]
  dsimp only
  rw [hb]
  rfl

theorem ownPlace_hostOwner (dev : Nat) {win : Nat} (h : win < 4) :
    ownPlace (hostOwner (dev * 4 + win)).p = dev * 1024 + 768 + win := by
  unfold ownPlace
  rw [show (hostOwner (dev * 4 + win)).p = 2 ^ 40 + (dev * 4 + win) from rfl, if_neg (by omega)]
  omega

/-! MAP, HOST_ATTEST (R438, R454). -/

theorem map_of_rings (h : Rings s dev win tag 0x0004 s' r) {ga : Nat} (hl : (s'.space (reqArg r 1).toNat).live = true)
    (hs : (s'.space (reqArg r 1).toNat).sealed = false) (h₂ : 2 ≤ (reqArg r 4).toNat) (h₄ : (reqArg r 4).toNat ≤ 4)
    (hg : spaceEntry s' dev (reqArg r 1).toNat (reqArg r 2) (reqArg r 4).toNat = some ga) :
    exec (.map dev win tag) s =
      let asid := (reqArg r 1).toNat
      let u := (s'.putWord asid ga 0 (leBytes 8 (reqArg r 3).toNat)).invalidate dev asid (some (reqArg r 2))
      .next (if spaceBusy u dev asid then u.whenDrained dev (some (dev * 4 + win)) asid (some (reqArg r 2))
        else u.respond (dev * 4 + win) stOk []) := by
  rw [exec_map, execMap, hostRequest_of_rings h]
  dsimp only
  rw [if_pos (by rw [hl, hs, decide_eq_true ⟨h₂, h₄⟩]; rfl), hg]

theorem hostAttest_of_rings (h : Rings s dev win tag 0x0005 s' r)
    (ha : (reqArg r 2).toNat = 0xFFFF ∨
      ((s'.space (reqArg r 2).toNat).live = true ∧ (s'.space (reqArg r 2).toNat).devices.contains dev = true)) :
    exec (.hostAttest dev win tag) s = .next ((s'.hostPut dev (reqArg r 3).toNat
      (attestReport s' dev (if (reqArg r 2).toNat = 0xFFFF then none else some (reqArg r 2).toNat)
        (hostBytes s' dev (reqArg r 1).toNat 32) [])).respond (dev * 4 + win) stOk []) := by
  rw [exec_hostAttest, execHostAttest, hostRequest_of_rings h]
  dsimp only
  by_cases h₀ : (reqArg r 2).toNat = 0xFFFF
  · rw [if_pos h₀, if_pos h₀]
  · obtain ⟨hl, hd⟩ := ha.resolve_left h₀
    rw [if_neg h₀, if_neg h₀, if_pos (by rw [hl, hd]; rfl)]

/-! STAGE, ACTIVATE (R454). -/

theorem stage_of_rings (h : Rings s dev win tag 0x0006 s' r) {is : List Nat} (hk : carriesImage (reqArg r 3).toNat = true)
    (hi : instances (reqArg r 3).toNat (reqArg r 4) = some is) :
    exec (.stage dev win tag) s =
      let kind := (reqArg r 3).toNat
      let b := hostBytes s' dev (reqArg r 1).toNat (Min.min (reqArg r 2).toNat (2 ^ 24 + 128))
      .next (if imageValid s' dev kind b then
        (is.foldl (fun s i => s.setPart dev kind i ((s.part dev kind i).setInactive b)) s').respond (dev * 4 + win) stOk []
      else s'.respond (dev * 4 + win) stBadType []) := by
  rw [exec_stage, execStage, hostRequest_of_rings h]
  dsimp only
  rw [hk, hi, Bool.true_and]
  cases imageValid s' dev _ _ <;> rfl

section
variable {is : List Nat} (h : Rings s dev win tag 0x0007 s' r) (hk : carriesImage (reqArg r 1).toNat = true)
  (hi : instances (reqArg r 1).toNat (reqArg r 2) = some is)
include h hk hi

theorem activate_grestra_of_rings (h₁ : (reqArg r 1).toNat = 10) :
    exec (.activate dev win tag) s =
      let y := s'.activate dev 10 0 ((reqArg r 3).getLsbD 0)
      .next (y.1.respond (dev * 4 + win) (if y.2 then stOk else stBadType) []) := by
  rw [exec_activate, execActivate, hostRequest_of_rings h]
  dsimp only
  rw [if_pos hk, hi]
  exact congrArg _ (if_pos h₁)

theorem activate_part_of_rings (h₁ : (reqArg r 1).toNat ≠ 10)
    (hf : ∀ i ∈ is, serviceFull s' dev (reqArg r 1).toNat i true = false) :
    exec (.activate dev win tag) s =
      .next (s'.startService dev (dev * 4 + win) (reqArg r 1).toNat is true ((reqArg r 3).getLsbD 0)) := by
  rw [exec_activate, execActivate, hostRequest_of_rings h]
  dsimp only
  rw [if_pos hk, hi]
  dsimp only
  rw [if_neg h₁, if_neg (by simpa using hf)]

end

/-! SERVICE (R455). -/

/-- What a request for a service does that no other one excludes. -/
def serve (s : State) (key dev kind i op : Nat) : State :=
  match op, kind with
  | 1, 0 =>
    if coreCanEmpty s (dev * 1024 + i) then ((s.takeOutCore (dev * 1024 + i)).startService dev key 0 [i] false false)
    else s.respond key stFull []
  | 1, _ => s.startService dev key kind [i] false false
  | 2, _ | 3, 2 | 4, 2 => (s.putBack dev kind i).respond key stOk []
  | 3, 5 => (s.countLink dev i 4).respond key stOk []
  | _, _ => s.respond key stBadType []

theorem serve_out {key kind i : Nat} (h : kind ≠ 0) :
    serve s key dev kind i 1 = s.startService dev key kind [i] false false := by
  obtain ⟨k, rfl⟩ := Nat.exists_eq_succ_of_ne_zero h
  rfl

theorem serve_putBack {key kind i op : Nat} (h : op = 2 ∨ (kind = 2 ∧ (op = 3 ∨ op = 4))) :
    serve s key dev kind i op = (s.putBack dev kind i).respond key stOk [] := by
  obtain rfl | ⟨rfl, rfl | rfl⟩ := h <;> rfl

theorem service_of_rings (h : Rings s dev win tag 0x0008 s' r) {kind op : Nat} (hk : (reqArg r 1).toNat = kind) (h₇ : kind ≤ 7)
    (hi : (reqArg r 2).toNat < kindCount kind) (ho : (reqArg r 3).toNat = op)
    (hf : serviceFull s' dev kind (reqArg r 2).toNat (op == 1) = false) :
    exec (.service dev win tag) s = .next (serve s' (dev * 4 + win) dev kind (reqArg r 2).toNat op) := by
  subst hk ho
  rw [exec_service, execService, hostRequest_of_rings h]
  dsimp only
  rw [if_neg (not_or.2 ⟨not_lt.2 h₇, not_le.2 hi⟩), hf]
  rfl

/-! HOST_COUNTER, END (R454, R457). -/

theorem hostCounter_of_rings (h : Rings s dev win tag 0x0009 s' r) {u : State} {x : Word}
    (hc : s'.readCounter dev (reqArg r 1) = some (u, x)) :
    exec (.hostCounter dev win tag) s = .next (u.respond (dev * 4 + win) stOk [x]) := by
  rw [exec_hostCounter, execHostCounter, hostRequest_of_rings h, hc]

theorem endSpace_of_rings (h : Rings s dev win tag 0x000A s' r) (hl : (s'.space (reqArg r 1).toNat).live = true) :
    exec (.endSpace dev win tag) s =
      .next ((s'.killSpace (reqArg r 1).toNat).whenDrained dev (some (dev * 4 + win)) (reqArg r 1).toNat none) := by
  rw [exec_endSpace, execEndSpace, hostRequest_of_rings h]
  dsimp only
  rw [hl]
  rfl

end

/-! Memory and BAR0 (R343, R435, R443). -/

theorem gaPa_gaOf {dev pa : Nat} (h : pa < 2 ^ 44) : gaPa (gaOf dev pa) = pa := by
  unfold gaPa gaOf
  omega

theorem rangeOf_hbm {pa : Nat} (h : pa < 0x0C000000000) : rangeOf pa = .hbm (pa / 2 ^ 30) := if_pos h

theorem rangeOf_gap {pa : Nat} (h₀ : 0x0C000000000 ≤ pa) (h₁ : pa < 0x10000000000) : rangeOf pa = .none := by
  rw [rangeOf, if_neg (by omega), if_pos h₁]

theorem rangeOf_tier2 {pa : Nat} (h₀ : 0x10000000000 ≤ pa) (h₁ : pa < 0x20000000000) : rangeOf pa = .tier2 (pa / 2 ^ 38 % 4) := by
  rw [rangeOf, if_neg (by omega), if_neg (by omega), if_pos h₁]

section
variable {s : State} {dev off : Nat} (ho : off < 2 ^ 43) (hon : (s.device dev).on = true)
include ho hon

/-- An access of the host to a word of memory is asked of its home (R443). -/
theorem hostMemAccess_memory (h : off % 2 ^ 41 < 0x0C000000000 ∨ (0x10000000000 ≤ off % 2 ^ 41 ∧ off % 2 ^ 41 < 0x20000000000))
    (wr : Option (BitVec 64)) : exec (.hostMemAccess dev off wr) s = .next
      (s.post (dev * 1024 + 768 + servingDie s dev (off / 2 ^ 41)) (agentHome (homeOf (gaOf dev (off % 2 ^ 41 / 8 * 8)))) none
        (.host (gaOf dev (off % 2 ^ 41 / 8 * 8)) 8 (wr.map fun x => leBytes 8 x.toNat) none false false)) := by
  have hga : gaPa (gaOf dev (off % 2 ^ 41 / 8 * 8)) = off % 2 ^ 41 / 8 * 8 := gaPa_gaOf (by omega)
  rw [exec_hostMemAccess]
  delta execHostMemAccess
  rw [if_neg (not_or.2 ⟨not_le.2 ho, by simp [hon]⟩)]
  rcases h with h | ⟨h₀, h₁⟩
  · simp only [hga, rangeOf_hbm (show off % 2 ^ 41 / 8 * 8 < 0x0C000000000 by omega)]
  · simp only [hga, rangeOf_tier2 (show 0x10000000000 ≤ off % 2 ^ 41 / 8 * 8 by omega) (by omega)]

/-- Where there is no memory, a read gives all-ones (R443). -/
theorem hostMemAccess_gap_read (h₀ : 0x0C000000000 ≤ off % 2 ^ 41) (h₁ : off % 2 ^ 41 < 0x10000000000) :
    exec (.hostMemAccess dev off none) s = .next { s with hostData := BitVec.allOnes 64, hostPoison := false } := by
  have hga : gaPa (gaOf dev (off % 2 ^ 41 / 8 * 8)) = off % 2 ^ 41 / 8 * 8 := gaPa_gaOf (by omega)
  rw [exec_hostMemAccess]
  delta execHostMemAccess
  rw [if_neg (not_or.2 ⟨not_le.2 ho, by simp [hon]⟩)]
  simp only [hga, rangeOf_gap (show 0x0C000000000 ≤ off % 2 ^ 41 / 8 * 8 by omega) (by omega)]

/-- and a write is dropped (R443). -/
theorem hostMemAccess_gap_write (h₀ : 0x0C000000000 ≤ off % 2 ^ 41) (h₁ : off % 2 ^ 41 < 0x10000000000) (x : BitVec 64) :
    exec (.hostMemAccess dev off (some x)) s = .next s := by
  have hga : gaPa (gaOf dev (off % 2 ^ 41 / 8 * 8)) = off % 2 ^ 41 / 8 * 8 := gaPa_gaOf (by omega)
  rw [exec_hostMemAccess]
  delta execHostMemAccess
  rw [if_neg (not_or.2 ⟨not_le.2 ho, by simp [hon]⟩)]
  simp only [hga, rangeOf_gap (show 0x0C000000000 ≤ off % 2 ^ 41 / 8 * 8 by omega) (by omega)]

end

/-- PORT_HOST of a word of device memory (R370, R443). -/
theorem portHost_device {s u : State} {n src dst ga sz : Nat} {own : Option Own} {wr : Option (List Byte)}
    {t : Option (Target × Word)} {drop pois : Bool}
    (ha : s.arriving n = some { src := src, dst := dst, own := own, body := .host ga sz wr t drop pois })
    (hr : rangeOf (gaPa ga) ≠ .host) (hc : s.charge ga sz = some u) :
    exec (.portHost n) s = .next ((u.took n).cxl src ga wr) := by
  rw [exec_portHost, execPortHost]
  simp only [ha, hc]
  rw [if_pos hr]

section
variable {s : State} {src ga : Nat}

theorem cxl_read_of_sealedPage (h : sealedPage s ga = true) : s.cxl src ga none =
    { s.count (gaDev ga) 6 (coreOf src - 768) 1 1 with hostData := BitVec.allOnes 64, hostPoison := true } := by
  unfold State.cxl
  exact if_pos h

theorem cxl_write_of_sealedPage (h : sealedPage s ga = true) (bs : List Byte) :
    s.cxl src ga (some bs) = s.count (gaDev ga) 6 (coreOf src - 768) 1 1 := by
  unfold State.cxl
  exact if_pos h

theorem cxl_read (h : sealedPage s ga = false) (hb : (s.recall (ga / 64)).bad ga = false) : s.cxl src ga none =
    { s.recall (ga / 64) with hostData := BitVec.ofNat 64 (memNat (s.recall (ga / 64)).mem ga 8), hostPoison := false } := by
  simp only [State.cxl, h, hb, Bool.false_eq_true, if_false]

theorem cxl_write (h : sealedPage s ga = false) (hb : (s.recall (ga / 64)).bad ga = false) (bs : List Byte) :
    s.cxl src ga (some bs) = (((s.recall (ga / 64)).putBytes ga bs).putFull ga true).wrote (s.recall (ga / 64)) ga 8 := by
  simp only [State.cxl, h, hb, Bool.false_eq_true, if_false]

end

/-! The registers of a window lie at the multiples of 8 of its 4 KiB (R435). -/

section
variable {s : State} {dev win o : Nat} (hon : (s.device dev).on = true) (ho : o < 4096) (h8 : o % 8 = 0)
include hon ho h8

theorem registerWrite_write (hw : win < 4) (x : BitVec 64) :
    exec (.registerWrite dev (4096 * win + o) (some x)) s =
      let w := s.window (dev * 4 + win)
      if o < 0x40 then .next (s.setWindow (dev * 4 + win) { w with req := listSet w.req (o / 8) x })
      else if o = 0x88 then .next (s.setWindow (dev * 4 + win) { w with done := w.done && !x.getLsbD 1 })
      else if o = 0x80 ∧ knownOp (field (w.req.headD 0) 0 16) = false then
        s.hostRequest dev win (x.setWidth 16) (field (w.req.headD 0) 0 16) fun s key _ => s.respond key stBadType []
      else .next s := by
  have hdiv : (4096 * win + o) / 4096 = win := by omega
  have hmod : (4096 * win + o) % 4096 = o := by omega
  have h8' : (4096 * win + o) % 8 = 0 := by omega
  simp only [exec_registerWrite, execRegisterWrite, hdiv, hmod, h8', hon, hw, ne_eq, not_true_eq_false, Bool.true_eq_false,
    or_self, if_false, if_true]

omit ho in
theorem registerWrite_read (base : Nat) (hb : base % 8 = 0) :
    exec (.registerWrite dev (base + o) none) s = .next { s with hostData := barRead s dev (base + o), hostPoison := false } := by
  have h8' : (base + o) % 8 = 0 := by omega
  simp only [exec_registerWrite, execRegisterWrite, h8', hon, ne_eq, not_true_eq_false, Bool.true_eq_false, or_self, if_false]

omit hon ho h8 in
theorem barRead_vectors {i : Nat} (hi : i < 128) :
    barRead s dev (0x8000 + 8 * i) = BitVec.ofNat 64 (leNat (((s.device dev).vectors.drop (8 * i)).take 8)) := by
  unfold barRead
  dsimp only
  rw [if_neg (by omega), if_pos (by omega), Nat.add_sub_cancel_left]

omit hon h8 in
theorem barRead_window (hw : win < 4) : barRead s dev (4096 * win + o) =
    let w := s.window (dev * 4 + win)
    if o < 0x40 then w.req.getD (o / 8) 0
    else if o < 0x80 then w.rsp.getD ((o - 0x40) / 8) 0
    else if o = 0x88 then BitVec.ofNat 64 ((if w.busy then 1 else 0) + (if w.done then 2 else 0))
    else 0 := by
  have hdiv : (4096 * win + o) / 4096 = win := by omega
  have hmod : (4096 * win + o) % 4096 = o := by omega
  have hlt : 4096 * win + o < 0x4000 := by omega
  simp only [barRead, hdiv, hmod, hlt, if_true]

end

end Sys2Proof.Machine

/-- Settles O58: a request that is rung is served by its body; the rest are the steps' own equations. -/
theorem hostRequests : Obligations.HostRequests := by
  unfold Obligations.HostRequests
  intro s dev win tag s' r key arg num rings
  refine ⟨?launch, ?endpoint, ?bind, ?map, ?attest, ?stage, ?activate, ?service, ?serviceCore, ?serviceLink, ?counter, ?endSpace,
    ?drained, ?endpointRoom, ?hostMem, ?portHost, ?bar, ?takeout, ?powerOn, ?heat⟩
  case launch =>
    intro asid h l no ha
    rw [launch_of_rings h ha]
    unfold launchInto
    refine ⟨fun u slices hc hu hg hl => ?_, fun reason off hc => ?_, fun d hc hu => ?_, fun d hc hu hg => ?_⟩
    · rw [hc, hu, hg, Except.bind, hl]; rfl
    · rw [hc]; rfl
    · rw [hc, hu]; rfl
    · rw [hc, hu, hg]; rfl
  case endpoint =>
    exact fun h h₀ h₁ h₂ h₃ h₄ h₅ h₆ => endpoint_of_rings h h₀ h₁ h₂ h₃ h₄ h₅ h₆
  case bind =>
    intro k p e x hd h hk hd64 hs he hx hb
    rw [bind_of_rings h hk hd64 hs he hx hb]
    refine ⟨fun hf hsend => ?_, fun hf hm hq => ?_⟩
    · rw [bindEnd_fault hsend hf]; rfl
    · rw [bindEnd_free hf hm hq, ownPlace_hostOwner dev h.1]; rfl
  case map => exact fun ga h hl hs h₂ h₄ hg => map_of_rings h hl hs h₂ h₄ hg
  case attest => exact fun h ha => hostAttest_of_rings h ha
  case stage => exact fun is h hk hi => stage_of_rings h hk hi
  case activate =>
    exact fun is h hk hi => ⟨fun h₁ => activate_grestra_of_rings h hk hi h₁, fun h₁ hf => activate_part_of_rings h hk hi h₁ hf⟩
  case service =>
    intro h hk hi
    refine ⟨fun h₁ h₀ hf => ?_, fun h₂ hf => ?_⟩
    · exact (service_of_rings h rfl hk hi h₁ hf).trans (congrArg _ (serve_out h₀))
    · have hne : (num 3 == 1) = false := by
        rcases h₂ with h₂ | ⟨-, h₂ | h₂⟩ <;> rw [h₂] <;> rfl
      exact (service_of_rings h rfl hk hi rfl (hne ▸ hf)).trans (congrArg _ (serve_putBack h₂))
  case serviceCore =>
    intro h h₁ h₀ hi hf
    exact service_of_rings (kind := 0) h h₀ (by decide) hi h₁ hf
  case serviceLink =>
    intro h h₃ h₅ hi hf
    exact service_of_rings (kind := 5) h h₅ (by decide) hi h₃ hf
  case counter => exact fun u x h hc => hostCounter_of_rings h hc
  case endSpace => exact fun h hl => endSpace_of_rings h hl
  case drained =>
    intro n src dst asid own va w
    refine ⟨fun ha hb => ?_, fun ha hb => ?_⟩
    · simp only [exec_fillArrival, execFillArrival, ha, hb, Bool.false_eq_true, if_false]
    · simp only [exec_fillArrival, execFillArrival, ha, hb, Bool.false_eq_true, if_false]
  case endpointRoom =>
    intro bell e ep hw hon hop he ht hsc
    refine ⟨?_, rfl⟩
    rw [exec_endpointDoorbell, execEndpointDoorbell]
    dsimp only
    rw [if_neg (not_or.2 ⟨not_le.2 hw, not_or.2 ⟨by simp [hon], not_not.2 hop⟩⟩), he]
    dsimp only
    rw [if_neg (by simp [ht, hsc])]
  case hostMem =>
    exact fun off wr ho hon => ⟨fun h => hostMemAccess_memory ho hon h wr,
      fun h₀ h₁ => ⟨hostMemAccess_gap_read ho hon h₀ h₁, hostMemAccess_gap_write ho hon h₀ h₁⟩⟩
  case portHost =>
    intro n src dst ga sz own wr t drop pois u ha hr hc v w
    rw [portHost_device ha hr hc]
    refine ⟨fun h hwr => ?_, fun h hwr => ?_, fun h hb => ⟨fun hwr => ?_, fun bs hwr => ?_⟩⟩
    · rw [hwr, cxl_read_of_sealedPage h]
    · obtain ⟨bs, rfl⟩ := Option.ne_none_iff_exists'.1 hwr
      rw [cxl_write_of_sealedPage h]
    · rw [hwr, cxl_read h hb]
    · rw [hwr, cxl_write h hb]
  case bar =>
    intro i x hw hon
    refine ⟨fun hi => ?_, ?_, fun h₀ h₁ => ?_, fun hi => ?_, fun hi => ?_, ?_, fun hi => ?_, ?_, fun hi => ?_⟩
    · rw [registerWrite_write hon (by omega) (by omega) hw]
      dsimp only
      rw [if_pos (by omega), Nat.mul_div_cancel_left _ (by decide)]
    · rw [registerWrite_write hon (by omega) (by omega) hw]
      rfl
    · rw [registerWrite_write hon (by omega) (by omega) hw]
      dsimp only
      rw [if_neg (by omega), if_neg (by omega), if_neg (by omega)]
    · rw [registerWrite_read hon (by omega) _ (by omega), barRead_window (by omega) hw]
      dsimp only
      rw [if_pos (by omega), Nat.mul_div_cancel_left _ (by decide)]
    · rw [Nat.add_assoc, registerWrite_read hon (by omega) _ (by omega), barRead_window (by omega) hw]
      dsimp only
      rw [if_neg (by omega), if_pos (by omega), Nat.add_sub_cancel_left, Nat.mul_div_cancel_left _ (by decide)]
    · rw [registerWrite_read hon (by omega) _ (by omega), barRead_window (by omega) hw]
      rfl
    · rw [registerWrite_read hon (by omega) _ (by omega), barRead_vectors hi]
    · exact registerWrite_read hon (o := 0x400) (by omega) 0x8000 (by omega)
    · rw [registerWrite_read hon (by omega) _ (by omega), barRead_window (by omega) hw]
      dsimp only
      rw [if_neg (by omega), if_neg (by omega), if_neg (by omega)]
  case takeout => exact fun _ => rfl
  case powerOn =>
    intro hoff u
    rw [exec_powerOn, execPowerOn, if_neg (by simp [hoff])]
    change (if !inService u dev 10 0 then _ else _) = _
    cases inService u dev 10 0 <;> rfl
  case heat =>
    intro die hd hon
    refine ⟨fun hn => ?_, fun t ht => ?_, ?_⟩
    · rw [exec_throttle, execThrottle]
      dsimp only
      rw [if_neg (by simp [hd, hon, hn])]
    · rw [exec_throttleEnd, execThrottleEnd]
      dsimp only
      rw [ht]
    · rw [exec_overheatShutdown, execOverheatShutdown, if_neg (by simp [hd, hon])]

end

section
open Sys2Proof Sys2Proof.Machine Sys2Proof.Safety

namespace Sys2Proof.Machine

/-! ### How each instruction and each step answers (R83, R84) -/

/-- An answer that goes on to a next state. -/
def Goes (o : Out) : Prop := ∃ t, o = .next t

/-- The answer of an instruction of the slot that issues: it goes on where a process stands there, and stops where none does. -/
def Slot (s : State) (o : Out) : Prop := (mget s.procs s.cur = none → o = .fault .noProcess) ∧ (mget s.procs s.cur ≠ none → Goes o)

/-- An operation is either one of the slot that issues, or one that goes on from every state. -/
def Settled (f : State → Out) : Prop := (∀ s, Slot s (f s)) ∨ ∀ s, Goes (f s)

theorem slot_run (s : State) (f : Nat → Proc → State) : Slot s (run s f) := by
  unfold run
  cases h : mget s.procs s.cur with
  | none => exact ⟨fun _ => rfl, fun hn => absurd h hn⟩
  | some p => exact ⟨fun hn => absurd (h.symm.trans hn) (Option.some_ne_none p), fun _ => ⟨_, rfl⟩⟩

theorem settled_run {f : State → Nat → Proc → State} : Settled fun s => run s (f s) := .inl fun s => slot_run s _

theorem slot_issue {nd : Need} {body : Nat → Proc → State → State} {s : State} : Slot s (issue nd body s) := by
  unfold issue
  exact slot_run s _

theorem settled_issue {nd : Need} {body : Nat → Proc → State → State} : Settled (issue nd body) := .inl fun _ => slot_issue

/-! The shapes that instructions share. -/

theorem settled_execG {srcs : List RegRef} {a : BitVec 5} {ext : Bool} {f : Proc → Word} :
    Settled (execG srcs a ext f) := settled_issue

theorem settled_vecTo {srcs : List RegRef} {a : BitVec 5} {f : Proc → VReg} : Settled (vecTo srcs a f) := settled_issue

theorem settled_exec2 {a b c : BitVec 5} {f : Word → Word → Word} : Settled (exec2 a b c f) := settled_execG

theorem settled_exec1 {a b : BitVec 5} {f : Word → Word} : Settled (exec1 a b f) := settled_execG

theorem settled_immOp {f : Word → Word → Word} {a b : BitVec 5} {imm : Word} {ext : Bool} :
    Settled (immOp f a b imm ext) := settled_execG

theorem settled_branch {cond : Word → Word → Bool} {a b : BitVec 5} {imm : Word} {ext : Bool} :
    Settled (branch cond a b imm ext) := settled_issue

theorem settled_dbnzBy {a : BitVec 5} {imm : Word} {ext : Bool} : Settled (dbnzBy a imm ext) := settled_issue

theorem settled_jumpReg {b : BitVec 5} {link : Option (BitVec 5)} : Settled (jumpReg b link) := settled_issue

theorem settled_loadAt {a b : BitVec 5} {z : LdSize} {off : Word} {ext : Bool} : Settled (loadAt a b z off ext) := settled_issue

theorem settled_storeAt {a b : BitVec 5} {z : StSize} {off : Word} {ext : Bool} : Settled (storeAt a b z off ext) := settled_issue

theorem settled_syncLoad {a b c : BitVec 5} {t : Bool} {kind : Access} {op : AtomOp} :
    Settled (syncLoad a b c t kind op) := settled_issue

theorem settled_splAt {a b : BitVec 5} {z : LdSize} {off : Word} {ext : Bool} : Settled (splAt a b z off ext) := settled_issue

theorem settled_spsAt {a b : BitVec 5} {z : StSize} {off : Word} {ext : Bool} : Settled (spsAt a b z off ext) := settled_issue

theorem settled_atomic {op : Nat} {a b c : BitVec 5} {o : AtomOrd} {d : Bool} : Settled (atomic op a b c o d) := settled_issue

theorem settled_reduction {op : Nat} {b c : BitVec 5} {d : Bool} : Settled (reduction op b c d) := settled_issue

theorem settled_groupOp {op : AtomOp} {a b : BitVec 5} {t : Touch} {kind : Access} {tok : List RegRef} {deadline : Nat → Proc →
    State → Option Nat} {word : IWord} {mk : Proc → AtomOp} :
    Settled (groupOp op a b t kind tok deadline word mk) := settled_issue

theorem settled_vec2 {a b c : BitVec 5} {k : BitVec 3} {ty : Ty} {f : NumMode → Nat → Nat → Nat} :
    Settled (vec2 a b c k ty f) := settled_vecTo

theorem settled_vecFma {sub : Bool} {a b c : BitVec 5} {k : BitVec 3} {ty : Ty} : Settled (vecFma sub a b c k ty) := settled_vecTo

theorem settled_vec1 {a b : BitVec 5} {k : BitVec 3} {ty : Ty} {f : NumMode → Nat → Nat} :
    Settled (vec1 a b k ty f) := settled_vecTo

theorem settled_vecCount {a b c : BitVec 5} {k : BitVec 3} {ty : Ty} {f : Nat → Nat → Nat} :
    Settled (vecCount a b c k ty f) := settled_vecTo

theorem settled_vecCmp {a : BitVec 3} {b c : BitVec 5} {k : BitVec 3} {ty : Ty} {f : Bool → Nat → Nat → Bool} :
    Settled (vecCmp a b c k ty f) := settled_issue

theorem settled_maskTo {a : BitVec 3} {f : Proc → Word} : Settled (maskTo a f) := settled_issue

theorem settled_vecRed {a b : BitVec 5} {f : Proc → Word} : Settled (vecRed a b f) := settled_execG

theorem settled_vecPerm {srcs : List RegRef} {a : BitVec 5} {k : BitVec 3} {ty : Ty} {f : Proc → Nat → Nat} :
    Settled (vecPerm srcs a k ty f) := settled_vecTo

theorem settled_ringState {a b : BitVec 5} {f : Ring → Nat → Proc → Word} : Settled (ringState a b f) := settled_issue

theorem settled_slotStat {a b : BitVec 5} {clr : Bool} : Settled (slotStat a b clr) := settled_issue

theorem settled_yardOp {need : Need} {pre : Nat → Proc → State → (State → State) → State} {outside : Nat → Proc → State → State}
    {body : Nat → Proc → State → Yard → State} :
    Settled (yardOp need pre outside body) := settled_issue

theorem settled_tlbInv {need : Need} {va : Proc → Option Word} : Settled (tlbInv need va) := by
  unfold tlbInv
  exact settled_issue

theorem settled_badPair {detail : Nat} {x : BitVec 26} {f : IForm} {a b : BitVec 5} {i : BitVec 16} :
    Settled (badPair detail x f a b i) := by
  refine .inl fun s => ?_
  exact slot_run s _


theorem slot_swap {a : BitVec 3} {c : BitVec 5} {timed : Bool} {old : Option (Option Nat)} {s : State} : Slot s (swap a c timed old s) :=
  slot_issue

theorem slot_claimYard {a : BitVec 5} {t : Bool} {old : Option (Option Nat)} {s : State} :
    Slot s (claimYard a t old s) := slot_issue


/-! The steps of other agents: every branch of each goes on. -/

theorem goes_supervisor {s : State} {n op : Nat} {go : State → Nat → Svc → Proc → State} : Goes (s.supervisor n op go) := by
  unfold State.supervisor
  (repeat' split) <;> exact ⟨_, rfl⟩

theorem goes_hostRequest {s : State} {dev win op : Nat} {tag : BitVec 16} {go : State → Nat → List Word → State} :
    Goes (s.hostRequest dev win tag op go) := by
  unfold State.hostRequest
  dsimp only
  (repeat' split) <;> exact ⟨_, rfl⟩

theorem goes_execRoot {n : Nat} {s : State} : Goes (execRoot n s) := by
  unfold execRoot
  extract_lets waits
  split
  · exact ⟨_, rfl⟩
  · exact goes_supervisor

theorem goes_execRegisterWrite {dev off : Nat} {val : Option (BitVec 64)} {s : State} : Goes (execRegisterWrite dev off val s) := by
  unfold execRegisterWrite
  dsimp only
  split
  · exact ⟨_, rfl⟩
  · split
    · exact ⟨_, rfl⟩
    · split_ifs
      · exact ⟨_, rfl⟩
      · exact ⟨_, rfl⟩
      · exact goes_hostRequest
      all_goals exact ⟨_, rfl⟩

theorem goes_execTakeAsyncTrap {proc : Nat} {s : State} : Goes (execTakeAsyncTrap proc s) := by
  unfold execTakeAsyncTrap
  (repeat' split) <;> exact ⟨_, rfl⟩

theorem goes_execTimerEvent {proc : Nat} {s : State} : Goes (execTimerEvent proc s) := by
  unfold execTimerEvent
  (repeat' split) <;> exact ⟨_, rfl⟩

theorem goes_execFillArrival {n : Nat} {s : State} : Goes (execFillArrival n s) := by
  unfold execFillArrival
  (repeat' split) <;> exact ⟨_, rfl⟩

theorem goes_execWaitDeadline {proc : Nat} {s : State} : Goes (execWaitDeadline proc s) := by
  unfold execWaitDeadline
  dsimp only
  (repeat' split) <;> exact ⟨_, rfl⟩

theorem goes_execSlotGiveUp {proc : Nat} {s : State} : Goes (execSlotGiveUp proc s) := by
  unfold execSlotGiveUp
  dsimp only
  (repeat' split) <;> exact ⟨_, rfl⟩

theorem goes_execSpillSwap {place : Nat} {s : State} : Goes (execSpillSwap place s) := by
  unfold execSpillSwap
  dsimp only
  (repeat' split) <;> exact ⟨_, rfl⟩

theorem goes_execStarvationRaise {proc : Nat} {s : State} : Goes (execStarvationRaise proc s) := by
  unfold execStarvationRaise
  (repeat' split) <;> exact ⟨_, rfl⟩

theorem goes_execQuantumExpiry {proc : Nat} {s : State} : Goes (execQuantumExpiry proc s) := by
  unfold execQuantumExpiry
  (repeat' split) <;> exact ⟨_, rfl⟩

theorem goes_execPreemptionHalt {proc : Nat} {s : State} : Goes (execPreemptionHalt proc s) := by
  unfold execPreemptionHalt
  (repeat' split) <;> exact ⟨_, rfl⟩

theorem goes_execStealRequest {place : Nat} {s : State} : Goes (execStealRequest place s) := by
  unfold execStealRequest
  dsimp only
  (repeat' split) <;> exact ⟨_, rfl⟩

theorem goes_execStealArrival {n : Nat} {s : State} : Goes (execStealArrival n s) := by
  unfold execStealArrival
  extract_lets
  (repeat' split) <;> exact ⟨_, rfl⟩

theorem goes_execStealReturned {n : Nat} {s : State} : Goes (execStealReturned n s) := by
  unfold execStealReturned
  split <;> exact ⟨_, rfl⟩

theorem goes_execChildEnd {n : Nat} {s : State} : Goes (execChildEnd n s) := by
  unfold execChildEnd
  dsimp only
  (repeat' split) <;> exact ⟨_, rfl⟩

theorem goes_execDeadlockProbe {proc : Nat} {s : State} : Goes (execDeadlockProbe proc s) := by
  unfold execDeadlockProbe
  dsimp only
  (repeat' split) <;> exact ⟨_, rfl⟩

theorem goes_execProbeForward {n : Nat} {s : State} : Goes (execProbeForward n s) := by
  unfold execProbeForward
  extract_lets
  (repeat' split) <;> exact ⟨_, rfl⟩

theorem goes_execWatchdogT1 {place asid queue : Nat} {s : State} : Goes (execWatchdogT1 place asid queue s) := by
  unfold execWatchdogT1
  extract_lets
  (repeat' split) <;> exact ⟨_, rfl⟩

theorem goes_execWatchdogT2 {place asid queue : Nat} {s : State} : Goes (execWatchdogT2 place asid queue s) := by
  unfold execWatchdogT2
  dsimp only
  (repeat' split) <;> exact ⟨_, rfl⟩

theorem goes_execWatchdogT3 {place asid queue : Nat} {s : State} : Goes (execWatchdogT3 place asid queue s) := by
  unfold execWatchdogT3
  split <;> exact ⟨_, rfl⟩

theorem goes_execFeRefusal {n : Nat} {s : State} : Goes (execFeRefusal n s) := by
  unfold execFeRefusal
  extract_lets
  (repeat' split) <;> exact ⟨_, rfl⟩

theorem goes_execPortRead {n : Nat} {s : State} : Goes (execPortRead n s) := by
  unfold execPortRead
  (repeat' split) <;> exact ⟨_, rfl⟩

theorem goes_execPortWrite {n : Nat} {s : State} : Goes (execPortWrite n s) := by
  unfold execPortWrite
  dsimp only
  (repeat' split) <;> exact ⟨_, rfl⟩

theorem goes_execPortAtomic {n : Nat} {s : State} : Goes (execPortAtomic n s) := by
  unfold execPortAtomic
  dsimp only
  (repeat' split) <;> exact ⟨_, rfl⟩

theorem goes_execPortCombine {n : Nat} {s : State} : Goes (execPortCombine n s) := by
  unfold execPortCombine
  (repeat' split) <;> exact ⟨_, rfl⟩

theorem goes_execPortRecall {home line : Nat} {s : State} : Goes (execPortRecall home line s) := by
  unfold execPortRecall
  split <;> exact ⟨_, rfl⟩

theorem goes_execPortPush {n : Nat} {s : State} : Goes (execPortPush n s) := by
  unfold execPortPush
  (repeat' split) <;> exact ⟨_, rfl⟩

theorem goes_execPortChain {n : Nat} {s : State} : Goes (execPortChain n s) := by
  unfold execPortChain
  dsimp only
  (repeat' split) <;> exact ⟨_, rfl⟩

theorem goes_execPortEread {n : Nat} {s : State} : Goes (execPortEread n s) := by
  unfold execPortEread
  dsimp only
  (repeat' split) <;> exact ⟨_, rfl⟩

theorem goes_execPortEwrite {n : Nat} {s : State} : Goes (execPortEwrite n s) := by
  unfold execPortEwrite
  dsimp only
  (repeat' split) <;> exact ⟨_, rfl⟩

theorem goes_execPortMigrate {n : Nat} {s : State} : Goes (execPortMigrate n s) := by
  unfold execPortMigrate
  dsimp only
  (repeat' split) <;> exact ⟨_, rfl⟩

theorem goes_execPortHost {n : Nat} {s : State} : Goes (execPortHost n s) := by
  unfold execPortHost
  (repeat' split) <;> exact ⟨_, rfl⟩

theorem goes_execBudgetBoundary {home budget : Nat} {s : State} : Goes (execBudgetBoundary home budget s) := by
  unfold execBudgetBoundary
  extract_lets
  (repeat' split) <;> exact ⟨_, rfl⟩

theorem goes_execChainReturn {n : Nat} {s : State} : Goes (execChainReturn n s) := by
  unfold execChainReturn
  extract_lets
  (repeat' split) <;> exact ⟨_, rfl⟩

theorem goes_execMemoryServerRequest {place : Nat} {s : State} : Goes (execMemoryServerRequest place s) := by
  unfold execMemoryServerRequest
  (repeat' split) <;> exact ⟨_, rfl⟩

theorem goes_execWindowPush {n : Nat} {s : State} : Goes (execWindowPush n s) := by
  unfold execWindowPush
  split <;> exact ⟨_, rfl⟩

theorem goes_execNodeFinish {n : Nat} {s : State} : Goes (execNodeFinish n s) := by
  unfold execNodeFinish
  extract_lets
  (repeat' split) <;> exact ⟨_, rfl⟩

theorem goes_execMatrixStepGrant {shed : Nat} {s : State} : Goes (execMatrixStepGrant shed s) := by
  unfold execMatrixStepGrant
  (repeat' split) <;> exact ⟨_, rfl⟩

theorem goes_execKstepRetire {shed : Nat} {s : State} : Goes (execKstepRetire shed s) := by
  unfold execKstepRetire
  dsimp only
  (repeat' split) <;> exact ⟨_, rfl⟩

theorem goes_execCopyRun {place : Nat} {s : State} : Goes (execCopyRun place s) := by
  unfold execCopyRun
  dsimp only
  (repeat' split) <;> exact ⟨_, rfl⟩

theorem goes_execSearchQueryStart {unit : Nat} {s : State} : Goes (execSearchQueryStart unit s) := by
  unfold execSearchQueryStart
  dsimp only
  (repeat' split) <;> exact ⟨_, rfl⟩

theorem goes_execShardReport {n : Nat} {s : State} : Goes (execShardReport n s) := by
  unfold execShardReport
  dsimp only
  (repeat' split) <;> exact ⟨_, rfl⟩

theorem goes_execBredChunk {unit : Nat} {s : State} : Goes (execBredChunk unit s) := by
  unfold execBredChunk
  extract_lets
  (repeat' split) <;> exact ⟨_, rfl⟩

theorem goes_execRecordOffer {n : Nat} {s : State} : Goes (execRecordOffer n s) := by
  unfold execRecordOffer
  split <;> exact ⟨_, rfl⟩

theorem goes_execRecordReceive {n : Nat} {s : State} : Goes (execRecordReceive n s) := by
  unfold execRecordReceive
  extract_lets
  (repeat' split) <;> exact ⟨_, rfl⟩

theorem goes_execRecordWithdrawal {n : Nat} {s : State} : Goes (execRecordWithdrawal n s) := by
  unfold execRecordWithdrawal
  dsimp only
  (repeat' split) <;> exact ⟨_, rfl⟩

theorem goes_execRecordItem {n : Nat} {s : State} : Goes (execRecordItem n s) := by
  unfold execRecordItem
  split <;> exact ⟨_, rfl⟩

theorem goes_execRecordMarker {n : Nat} {s : State} : Goes (execRecordMarker n s) := by
  unfold execRecordMarker
  split <;> exact ⟨_, rfl⟩

theorem goes_execRecordErrorToken {n : Nat} {s : State} : Goes (execRecordErrorToken n s) := by
  unfold execRecordErrorToken
  split <;> exact ⟨_, rfl⟩

theorem goes_execRecordClose {n : Nat} {s : State} : Goes (execRecordClose n s) := by
  unfold execRecordClose
  split <;> exact ⟨_, rfl⟩

theorem goes_execSendAck {n : Nat} {s : State} : Goes (execSendAck n s) := by
  unfold execSendAck
  dsimp only
  (repeat' split) <;> exact ⟨_, rfl⟩

theorem goes_execTileGo {n : Nat} {s : State} : Goes (execTileGo n s) := by
  unfold execTileGo
  extract_lets
  (repeat' split) <;> exact ⟨_, rfl⟩

theorem goes_execTileCopyLanded {n : Nat} {s : State} : Goes (execTileCopyLanded n s) := by
  unfold execTileCopyLanded
  extract_lets
  (repeat' split) <;> exact ⟨_, rfl⟩

theorem goes_execSlotToken {n : Nat} {s : State} : Goes (execSlotToken n s) := by
  unfold execSlotToken
  extract_lets
  (repeat' split) <;> exact ⟨_, rfl⟩

theorem goes_execLostEntry {dev port : Nat} {s : State} : Goes (execLostEntry dev port s) := by
  unfold execLostEntry
  dsimp only
  (repeat' split) <;> exact ⟨_, rfl⟩

theorem goes_execRecordCopy {n : Nat} {s : State} : Goes (execRecordCopy n s) := by
  unfold execRecordCopy
  dsimp only
  (repeat' split) <;> exact ⟨_, rfl⟩

theorem goes_execRebindAnnounce {n : Nat} {s : State} : Goes (execRebindAnnounce n s) := by
  unfold execRebindAnnounce
  split <;> exact ⟨_, rfl⟩

theorem goes_execRebindAck {n : Nat} {s : State} : Goes (execRebindAck n s) := by
  unfold execRebindAck
  dsimp only
  (repeat' split) <;> exact ⟨_, rfl⟩

theorem goes_execInboxMessage {n : Nat} {s : State} : Goes (execInboxMessage n s) := by
  unfold execInboxMessage
  extract_lets
  (repeat' split) <;> exact ⟨_, rfl⟩

theorem goes_execHandlerDispatch {place asid : Nat} {s : State} : Goes (execHandlerDispatch place asid s) := by
  unfold execHandlerDispatch
  (repeat' split) <;> exact ⟨_, rfl⟩

theorem goes_execDelegRequest {n : Nat} {s : State} : Goes (execDelegRequest n s) := by
  unfold execDelegRequest
  dsimp only
  (repeat' split) <;> exact ⟨_, rfl⟩

theorem goes_execDelegRoutineStart {place asid : Nat} {s : State} : Goes (execDelegRoutineStart place asid s) := by
  unfold execDelegRoutineStart
  extract_lets
  (repeat' split) <;> exact ⟨_, rfl⟩

theorem goes_execYardInputItem {place input : Nat} {s : State} : Goes (execYardInputItem place input s) := by
  unfold execYardInputItem
  extract_lets
  (repeat' split) <;> exact ⟨_, rfl⟩

theorem goes_execYardClaimDone {place : Nat} {s : State} : Goes (execYardClaimDone place s) := by
  unfold execYardClaimDone
  extract_lets
  (repeat' split) <;> exact ⟨_, rfl⟩

theorem goes_execYardRestore {place : Nat} {s : State} : Goes (execYardRestore place s) := by
  unfold execYardRestore
  extract_lets
  (repeat' split) <;> exact ⟨_, rfl⟩

theorem goes_execMoveCopy {proc : Nat} {s : State} : Goes (execMoveCopy proc s) := by
  unfold execMoveCopy
  dsimp only
  (repeat' split) <;> exact ⟨_, rfl⟩

theorem goes_execMigrationSwitch {page : Nat} {s : State} : Goes (execMigrationSwitch page s) := by
  unfold execMigrationSwitch
  dsimp only
  (repeat' split) <;> exact ⟨_, rfl⟩

theorem goes_execRemapReload {home seg : Nat} {shadowOk : Bool} {s : State} : Goes (execRemapReload home seg shadowOk s) := by
  unfold execRemapReload
  (repeat' split) <;> exact ⟨_, rfl⟩

theorem goes_execFlitAckTimeout {dev port : Nat} {s : State} : Goes (execFlitAckTimeout dev port s) := by
  unfold execFlitAckTimeout
  extract_lets
  (repeat' split) <;> exact ⟨_, rfl⟩

theorem goes_execLaneSpare {dev port : Nat} {s : State} : Goes (execLaneSpare dev port s) := by
  unfold execLaneSpare
  extract_lets
  (repeat' split) <;> exact ⟨_, rfl⟩

theorem goes_execPathGiveUp {dev port : Nat} {s : State} : Goes (execPathGiveUp dev port s) := by
  unfold execPathGiveUp
  extract_lets
  (repeat' split) <;> exact ⟨_, rfl⟩

theorem goes_execReduceStep {binding : Nat} {s : State} : Goes (execReduceStep binding s) := by
  unfold execReduceStep
  (repeat' split) <;> exact ⟨_, rfl⟩

theorem goes_execFanoutStep {binding : Nat} {s : State} : Goes (execFanoutStep binding s) := by
  unfold execFanoutStep
  dsimp only
  (repeat' split) <;> exact ⟨_, rfl⟩

theorem goes_execEndpointDoorbell {dev win : Nat} {bell : BitVec 16} {s : State} :
    Goes (execEndpointDoorbell dev win bell s) := by
  unfold execEndpointDoorbell
  extract_lets
  (repeat' split) <;> exact ⟨_, rfl⟩

theorem goes_execHostMemAccess {dev off : Nat} {wr : Option (BitVec 64)} {s : State} : Goes (execHostMemAccess dev off wr s) := by
  delta execHostMemAccess
  extract_lets
  (repeat' split) <;> exact ⟨_, rfl⟩

theorem goes_execPowerOn {dev : Nat} {s : State} : Goes (execPowerOn dev s) := by
  unfold execPowerOn
  extract_lets
  (repeat' split) <;> exact ⟨_, rfl⟩

theorem goes_execThrottle {dev die : Nat} {s : State} : Goes (execThrottle dev die s) := by
  unfold execThrottle
  extract_lets
  (repeat' split) <;> exact ⟨_, rfl⟩

theorem goes_execOverheatShutdown {dev die : Nat} {s : State} : Goes (execOverheatShutdown dev die s) := by
  unfold execOverheatShutdown
  split <;> exact ⟨_, rfl⟩

theorem goes_execChildCreation {n : Nat} {s : State} : Goes (execChildCreation n s) := by
  unfold execChildCreation
  extract_lets
  (repeat' split) <;> exact ⟨_, rfl⟩

theorem goes_execFlitArrival {dev port : Nat} {crcOk tagOk : Bool} {s : State} :
    Goes (execFlitArrival dev port crcOk tagOk s) := by
  unfold execFlitArrival
  dsimp only
  (repeat' split) <;> exact ⟨_, rfl⟩

theorem goes_execLinkPortUp {dev port : Nat} {s : State} : Goes (execLinkPortUp dev port s) := by
  unfold execLinkPortUp
  split <;> exact ⟨_, rfl⟩

theorem goes_execThrottleEnd {dev die : Nat} {s : State} : Goes (execThrottleEnd dev die s) := by
  unfold execThrottleEnd
  extract_lets
  (repeat' split) <;> exact ⟨_, rfl⟩

theorem goes_execTileClaim {place : Nat} {s : State} : Goes (execTileClaim place s) := by
  unfold execTileClaim
  (repeat' split) <;> exact ⟨_, rfl⟩

/-! Instructions with more than one shape. -/

theorem settled_execExtPair {x : BitVec 26} {f : IForm} {a b : BitVec 5} {i : BitVec 16} : Settled (execExtPair x f a b i) := by
  unfold execExtPair
  cases f <;> dsimp only
  case addi | andi | ori | xori | slti | sltiu | movhi | muli => exact settled_immOp
  case shi => exact settled_execG
  case beq | bne | blt | bge | bltu | bgeu => exact settled_branch
  case dbnz => exact settled_dbnzBy
  case ld => cases LdSize.ofCode (i.extractLsb' 0 3) <;> [exact settled_badPair; exact settled_loadAt]
  case st => cases StSize.ofCode (i.extractLsb' 0 3) <;> [exact settled_badPair; exact settled_storeAt]
  case spl => cases LdSize.ofCode (i.extractLsb' 0 3) <;> [exact settled_badPair; exact settled_splAt]
  case sps => cases StSize.ofCode (i.extractLsb' 0 3) <;> [exact settled_badPair; exact settled_spsAt]

theorem settled_execMfs {a : BitVec 5} {num : BitVec 12} : Settled (execMfs a num) := by
  unfold execMfs
  cases sysNum num with
  | unlisted => exact settled_run
  | machine => exact settled_run
  | reg r => exact settled_issue

theorem settled_execMts {a : BitVec 5} {num : BitVec 12} : Settled (execMts a num) := by
  unfold execMts
  cases sysNum num with
  | unlisted => exact settled_run
  | machine => exact settled_run
  | reg r => 
    dsimp only
    split
    · exact settled_run
    · exact settled_issue

/-- ECALL is decided by the mode of the process in the slot (R276). -/
theorem settled_execEcall : Settled execEcall := .inl fun s => by
  cases h : mget s.procs s.cur with
  | none => exact ⟨fun _ => by simp only [execEcall, h], fun hn => absurd h hn⟩
  | some p =>
    refine ⟨fun hn => absurd (h.symm.trans hn) (Option.some_ne_none p), fun hn => ?_⟩
    cases hm : p.smode with
    | true => rw [execEcall_of_super h hm]; exact slot_issue.2 hn
    | false => rw [execEcall_of_user h hm]; exact slot_issue.2 hn

/-- Every instruction is one of the slot that issues, and every step of another agent goes on. -/
theorem settled_exec (i : Instr) : Settled (exec i) := by
  unfold exec
  cases i <;> dsimp only
  case add | sub | and | or | xor | andn | shl | shr | sra | rol | mul | mulh | mulhu | div | divu | rem | remu | min | max | minu
      | maxu | slt | sltu | seq | lea1 | lea2 | lea4 | lea8 =>
    exact settled_exec2
  case clz | ctz | popc | brev | bswap | sextB | sextH | sextW | zextB | zextH | zextW | shiL | shiR | shiA | shiRol =>
    exact settled_exec1
  case addi | andi | ori | xori | slti | sltiu | movhi | muli =>
    exact settled_immOp
  case beq | bne | blt | bge | bltu | bgeu =>
    exact settled_branch
  case dbnz =>
    exact settled_dbnzBy
  case j | call | eret | ldx | lda | stx | stl | sts | feget | feset | deleg | fence | self | kmovk | bfpcvt | monw | spawn | exit
      | exitR | yield | prio | jwait | send | recv | alt | poison | mark | chnew | chbindD | chclose | winopen | winclose |
      sendt | recvt | thalo | vld | vlds | vgath | vst | vsts | vscat | vspl | vspga | vsps | vspsc | tld | tldt | tst | tmma |
      tzero | tcvt | rcfg | rres | rpub | rrst | mzero | mwgt | nodeCmu | bred | nwait | npoll | nfree | qsearch | chain | bfpx
      | bfpscl | bfpq | cflushL | cflushAll | isync | cflushRed | brk | wfe | preempt =>
    exact settled_issue
  case jr | callr | ret =>
    exact settled_jumpReg
  case ld =>
    exact settled_loadAt
  case st =>
    exact settled_storeAt
  case lds | ldf =>
    exact settled_syncLoad
  case spl =>
    exact settled_splAt
  case sps =>
    exact settled_spsAt
  case amoAdd | amoAnd | amoOr | amoXor | amoMin | amoMax | amoMinu | amoMaxu | amoSwap | cas =>
    exact settled_atomic
  case redAdd | redFadd | redMin | redMax =>
    exact settled_reduction
  case gjoin | gleave | barArrive | barDrop | barWait =>
    exact settled_groupOp
  case vadd | vsub | vmul | vmin | vmax | vadds | vsubs | vmulh | vabsd | vdiv | vand | vor | vxor | vandn | vshl | vshr | vsra |
      vrol =>
    exact settled_vec2
  case vfma | vfms =>
    exact settled_vecFma
  case vabs | vneg | vsqrt | vnot | vclz | vpopc | vctz | vrcp | vrsq | vexp2 | vlog2 | vmov =>
    exact settled_vec1
  case vshlg | vshrg | vsrag | vrolg =>
    exact settled_vecCount
  case vcmpEq | vcmpNe | vcmpLt | vcmpLe | vcmpUn =>
    exact settled_vecCmp
  case vsel | vcvt | vcomp | vexpd | vins =>
    exact settled_vecTo
  case kand | kor | kxor | knot =>
    exact settled_maskTo
  case kmovg | kpopc | kfirst | vext =>
    exact settled_execG
  case vredsum | vredmin | vredmax | vredand | vredor | vredxor | vredsumw =>
    exact settled_vecRed
  case vperm | vpermx | vsldn | vslup | vzipl | vziph | vuzpe | vuzpo | vrev | vbcast | viota | vsplat =>
    exact settled_vecPerm
  case rstat | rstatMap =>
    exact settled_ringState
  case mstat | mstatClr =>
    exact settled_slotStat
  case yrel | yload | yclk | yrun | ystop | ystopW | ysave | yrest | yget | yset | yinj | ystat | ystatClr =>
    exact settled_yardOp
  case tlbinvPage | tlbinvSpace =>
    exact settled_tlbInv
  case amsg | nodeDrain | nodeCopy => exact .inl fun _ => slot_issue
  case chbind =>
    unfold execChbind
    exact settled_issue
  case tswap | tswapT => exact .inl fun _ => slot_swap
  case yclaim => exact .inl fun _ => slot_claimYard
  case extPair => exact settled_execExtPair
  case mfs => exact settled_execMfs
  case mts => exact settled_execMts
  case ecall => exact settled_execEcall
  case illegalWord => exact settled_run
  case processMove | collectiveConfigure | collectiveRelease | migrate | ovring | unitpool | ttset | halt | resume | kill | signal
      | inbox | unfence | counter | attest =>
    exact .inr fun _ => goes_supervisor
  case launch | endpoint | bind | map | hostAttest | stage | activate | service | hostCounter | endSpace =>
    exact .inr fun _ => goes_hostRequest
  case stealExpiry | exitRetainTimeout | faultMessageRelease | yardStep | moveHalt | laneRetrain | portDown | sessionAgreement |
      portTakeoutComplete | toHostEndpointRoom =>
    exact .inr fun _ => ⟨_, rfl⟩
  case takeAsyncTrap => exact .inr fun _ => goes_execTakeAsyncTrap
  case timerEvent => exact .inr fun _ => goes_execTimerEvent
  case fillArrival => exact .inr fun _ => goes_execFillArrival
  case waitDeadline => exact .inr fun _ => goes_execWaitDeadline
  case slotGiveUp => exact .inr fun _ => goes_execSlotGiveUp
  case spillSwap => exact .inr fun _ => goes_execSpillSwap
  case starvationRaise => exact .inr fun _ => goes_execStarvationRaise
  case quantumExpiry => exact .inr fun _ => goes_execQuantumExpiry
  case preemptionHalt => exact .inr fun _ => goes_execPreemptionHalt
  case stealRequest => exact .inr fun _ => goes_execStealRequest
  case stealArrival => exact .inr fun _ => goes_execStealArrival
  case stealReturned => exact .inr fun _ => goes_execStealReturned
  case childEnd => exact .inr fun _ => goes_execChildEnd
  case deadlockProbe => exact .inr fun _ => goes_execDeadlockProbe
  case probeForward => exact .inr fun _ => goes_execProbeForward
  case watchdogT1 => exact .inr fun _ => goes_execWatchdogT1
  case watchdogT2 => exact .inr fun _ => goes_execWatchdogT2
  case watchdogT3 => exact .inr fun _ => goes_execWatchdogT3
  case feRefusal => exact .inr fun _ => goes_execFeRefusal
  case portRead => exact .inr fun _ => goes_execPortRead
  case portWrite => exact .inr fun _ => goes_execPortWrite
  case portAtomic => exact .inr fun _ => goes_execPortAtomic
  case portCombine => exact .inr fun _ => goes_execPortCombine
  case portRecall => exact .inr fun _ => goes_execPortRecall
  case portPush => exact .inr fun _ => goes_execPortPush
  case portChain => exact .inr fun _ => goes_execPortChain
  case portEread => exact .inr fun _ => goes_execPortEread
  case portEwrite => exact .inr fun _ => goes_execPortEwrite
  case portMigrate => exact .inr fun _ => goes_execPortMigrate
  case portHost => exact .inr fun _ => goes_execPortHost
  case budgetBoundary => exact .inr fun _ => goes_execBudgetBoundary
  case chainReturn => exact .inr fun _ => goes_execChainReturn
  case memoryServerRequest => exact .inr fun _ => goes_execMemoryServerRequest
  case windowPush => exact .inr fun _ => goes_execWindowPush
  case nodeFinish => exact .inr fun _ => goes_execNodeFinish
  case matrixStepGrant => exact .inr fun _ => goes_execMatrixStepGrant
  case kstepRetire => exact .inr fun _ => goes_execKstepRetire
  case copyRun => exact .inr fun _ => goes_execCopyRun
  case searchQueryStart => exact .inr fun _ => goes_execSearchQueryStart
  case shardReport => exact .inr fun _ => goes_execShardReport
  case bredChunk => exact .inr fun _ => goes_execBredChunk
  case recordOffer => exact .inr fun _ => goes_execRecordOffer
  case recordReceive => exact .inr fun _ => goes_execRecordReceive
  case recordWithdrawal => exact .inr fun _ => goes_execRecordWithdrawal
  case recordItem => exact .inr fun _ => goes_execRecordItem
  case recordMarker => exact .inr fun _ => goes_execRecordMarker
  case recordErrorToken => exact .inr fun _ => goes_execRecordErrorToken
  case recordClose => exact .inr fun _ => goes_execRecordClose
  case sendAck => exact .inr fun _ => goes_execSendAck
  case tileGo => exact .inr fun _ => goes_execTileGo
  case tileCopyLanded => exact .inr fun _ => goes_execTileCopyLanded
  case slotToken => exact .inr fun _ => goes_execSlotToken
  case lostEntry => exact .inr fun _ => goes_execLostEntry
  case recordCopy => exact .inr fun _ => goes_execRecordCopy
  case rebindAnnounce => exact .inr fun _ => goes_execRebindAnnounce
  case rebindAck => exact .inr fun _ => goes_execRebindAck
  case inboxMessage => exact .inr fun _ => goes_execInboxMessage
  case handlerDispatch => exact .inr fun _ => goes_execHandlerDispatch
  case delegRequest => exact .inr fun _ => goes_execDelegRequest
  case delegRoutineStart => exact .inr fun _ => goes_execDelegRoutineStart
  case yardInputItem => exact .inr fun _ => goes_execYardInputItem
  case yardClaimDone => exact .inr fun _ => goes_execYardClaimDone
  case yardRestore => exact .inr fun _ => goes_execYardRestore
  case moveCopy => exact .inr fun _ => goes_execMoveCopy
  case migrationSwitch => exact .inr fun _ => goes_execMigrationSwitch
  case remapReload => exact .inr fun _ => goes_execRemapReload
  case flitAckTimeout => exact .inr fun _ => goes_execFlitAckTimeout
  case laneSpare => exact .inr fun _ => goes_execLaneSpare
  case pathGiveUp => exact .inr fun _ => goes_execPathGiveUp
  case reduceStep => exact .inr fun _ => goes_execReduceStep
  case fanoutStep => exact .inr fun _ => goes_execFanoutStep
  case endpointDoorbell => exact .inr fun _ => goes_execEndpointDoorbell
  case hostMemAccess => exact .inr fun _ => goes_execHostMemAccess
  case registerWrite => exact .inr fun _ => goes_execRegisterWrite
  case root => exact .inr fun _ => goes_execRoot
  case powerOn => exact .inr fun _ => goes_execPowerOn
  case throttle => exact .inr fun _ => goes_execThrottle
  case overheatShutdown => exact .inr fun _ => goes_execOverheatShutdown
  case childCreation => exact .inr fun _ => goes_execChildCreation
  case flitArrival => exact .inr fun _ => goes_execFlitArrival
  case linkPortUp => exact .inr fun _ => goes_execLinkPortUp
  case throttleEnd => exact .inr fun _ => goes_execThrottleEnd
  case tileClaim => exact .inr fun _ => goes_execTileClaim

/-! ### Every step (R83, R303) -/

theorem Settled.goes {f : State → Out} (h : Settled f) {s : State} (hs : mget s.procs s.cur ≠ none) : Goes (f s) :=
  h.elim (fun h => (h s).2 hs) fun h => h s

/-- What goes on from a state goes on from every state with its processes and its slot. -/
theorem Settled.goes_of_goes {f : State → Out} (h : Settled f) {s t : State} (hp : t.procs = s.procs) (hc : t.cur = s.cur)
    (hs : Goes (f s)) : Goes (f t) := by
  obtain hslot | halways := h
  · refine (hslot t).2 fun hnone => ?_
    rw [hp, hc] at hnone
    obtain ⟨u, hu⟩ := hs
    exact nomatch ((hslot s).1 hnone).symm.trans hu
  · exact halways t

theorem goes_of_changes {o : Out} {s : State} (h : changes o s = true) : Goes o := by
  cases o with
  | next t => exact ⟨t, rfl⟩
  | fault f => cases h
  | refused r => cases h

/-- A step that is due goes on. -/
theorem goes_of_due {s : State} {i : Instr} (h : due s = some i) : Goes (exec i s) := by
  unfold due at h
  split at h
  · exact goes_of_changes (List.find?_some (p := fun i => changes (exec i s) s) h)
  · cases h

/-- A fold that at each element keeps what it has or takes the element ends with an element, or with what it began with. -/
theorem mem_of_foldl_eq_some {α : Type} {f : Option α → α → Option α} (hf : ∀ b e, f b e = b ∨ f b e = some e) {x : α} :
    ∀ (l : List α) (b : Option α), l.foldl f b = some x → x ∈ l ∨ b = some x
  | [], _, h => .inr h
  | e :: l, b, h => by
    obtain hl | hb := mem_of_foldl_eq_some hf l _ h
    · exact .inl (List.mem_cons_of_mem _ hl)
    · obtain he | he := hf b e
      · exact .inr (he ▸ hb)
      · cases he.symm.trans hb
        exact .inl List.mem_cons_self

theorem firstTurn_mem {l : List (Nat × Proc)} {e : Nat × Proc} (h : firstTurn l = some e) : e ∈ l := by
  unfold firstTurn at h
  refine (mem_of_foldl_eq_some (fun b x => ?_) l none h).resolve_right (Option.some_ne_none e).symm
  cases b with
  | none => exact .inr rfl
  | some y => by_cases hy : turnOf x < turnOf y <;> simp [hy]

theorem mget_ne_none_of_mem {α : Type} {m : Map α} {i : Nat} {x : α} (h : (i, x) ∈ m) : mget m i ≠ none := by
  induction m with
  | nil => cases h
  | cons e r ih =>
    obtain ⟨k, v⟩ := e
    simp only [mget]
    split
    · exact Option.some_ne_none v
    · next hk =>
      obtain heq | hr := List.mem_cons.1 h
      · exact absurd (Prod.mk.inj heq).1.symm hk
      · exact ih hr

/-- The process that issues next stands in the table. -/
theorem mget_of_pick {s : State} {k : Nat} {p : Proc} (h : pick s = some (k, p)) : mget s.procs k ≠ none := by
  have hmem : (k, p) ∈ s.procs := by
    unfold pick at h
    dsimp only at h
    split at h
    · next e he =>
      cases h
      exact (List.mem_filter.1 (List.mem_filter.1 (firstTurn_mem he)).1).1
    · exact (List.mem_filter.1 (firstTurn_mem h)).1
  exact mget_ne_none_of_mem hmem

/-- The slot that issues goes on. -/
theorem goes_issueNext {s : State} {k : Nat} {p : Proc} (hk : mget s.procs k ≠ none) : Goes (issueNext s k p) := by
  have hstands (i : Instr) {t : State} (hp : t.procs = s.procs) (hc : t.cur = k) : Goes (exec i t) :=
    (settled_exec i).goes (by rw [hp, hc]; exact hk)
  unfold issueNext
  extract_lets u
  have hp : (fetch u k p).1.procs = s.procs := fetch_procs k u p
  have hc : (fetch u k p).1.cur = k := fetch_cur k u p
  split
  · exact hstands _ rfl rfl
  · revert hp hc
    obtain ⟨t, f⟩ := fetch u k p
    intro hp hc
    cases f with
    | instr i => exact hstands i hp hc
    | illegal d tval ext => exact hstands _ hp hc
    | fault c d va ext => exact ⟨_, rfl⟩
    | wait => exact ⟨_, rfl⟩

end Sys2Proof.Machine

/-- Settles O5, from `settled_exec`: a step that is due has gone on already, and what issues does so for a process that stands
in its slot. -/
theorem everyStepAnswers : Obligations.EveryStepAnswers := by
  refine ⟨fun i s => ?_, fun s ht => ?_⟩
  · obtain hslot | halways := settled_exec i
    · by_cases hs : mget s.procs s.cur = none
      · exact .inr ⟨(hslot s).1 hs, hs⟩
      · exact .inl ((hslot s).2 hs)
    · exact .inl (halways s)
  · show Goes (step s)
    cases hd : due s with
    | some i =>
      rw [step_of_due ht hd]
      exact (settled_exec i).goes_of_goes (s := s) rfl rfl (goes_of_due hd)
    | none =>
      cases hp : pick s with
      | some e => rw [step_of_pick ht hd hp]; exact goes_issueNext (s := s.tick) (mget_of_pick (s := s) hp)
      | none => exact ⟨_, step_of_idle ht hd hp⟩

end

section
open Sys2Proof Sys2Proof.Machine Sys2Proof.Safety

namespace Sys2Proof.Machine

/-! ### Completing with a g register written (R109, R111, R112) -/

/-- An instruction that computes a g register puts it there. -/
theorem completes_of_execG {srcs : List RegRef} {a : BitVec 5} {i : Instr} {f g : Proc → Word}
    (hi : ∀ s, exec i s = execG srcs a false f s) (hf : ∀ p, f p = g p) :
    Completes { srcs := srcs, dsts := [.g a] } i (putsG a g) :=
  completes_of_issue hi fun k p s => by rw [hf, Proc.over_wg]; rfl

theorem completes_of_execG_ext {srcs : List RegRef} {a : BitVec 5} {i : Instr} {f g : Proc → Word}
    (hi : ∀ s, exec i s = execG srcs a true f s) (hf : ∀ p, f p = g p) :
    Completes { srcs := srcs, dsts := [.g a], ext := true } i (fun k p s => s.setProc k { p.wg a (g p) with pc := p.pc + 8 }) :=
  completes_of_issue hi fun k p s => by rw [hf, Proc.over_wg]; rfl

theorem completes_of_exec2 {a b c : BitVec 5} {i : Instr} {f g : Word → Word → Word} (hi : ∀ s, exec i s = exec2 a b c f s)
    (hf : ∀ x y, f x y = g x y) :
    Completes { srcs := [.g b, .g c], dsts := [.g a] } i (putsG a fun p => g (p.rg b) (p.rg c)) :=
  completes_of_execG hi fun _ => hf _ _

theorem completes_of_exec1 {a b : BitVec 5} {i : Instr} {f g : Word → Word} (hi : ∀ s, exec i s = exec1 a b f s)
    (hf : ∀ x, f x = g x) : Completes { srcs := [.g b], dsts := [.g a] } i (putsG a fun p => g (p.rg b)) :=
  completes_of_execG hi fun _ => hf _

/-! ### The results of the table of R109 in numbers -/

/-- The upper half of 128 bits that hold an integer. -/
theorem upper_ofInt (n : Int) : (BitVec.ofInt 128 n).extractLsb' 64 64 = BitVec.ofInt 64 (n / 2 ^ 64) := by
  apply BitVec.eq_of_toNat_eq
  rw [BitVec.extractLsb'_toNat, BitVec.toNat_ofInt, BitVec.toNat_ofInt, Nat.shiftRight_eq_div_pow]
  omega

/-- Bits 127:64 of the signed and of the unsigned product (R109). -/
theorem mulHS_eq (x y : Word) : mulHS x y = (x.signExtend 128 * y.signExtend 128).extractLsb' 64 64 := by
  have hprod : x.signExtend 128 * y.signExtend 128 = BitVec.ofInt 128 (x.toInt * y.toInt) := by
    rw [BitVec.ofInt_mul]; rfl
  rw [hprod, upper_ofInt, mulHS]

theorem mulHU_eq (x y : Word) : mulHU x y = (x.setWidth 128 * y.setWidth 128).extractLsb' 64 64 := by
  have hprod : x.setWidth 128 * y.setWidth 128 = BitVec.ofInt 128 (x.toNat * y.toNat : Nat) := by
    rw [BitVec.ofInt_natCast, BitVec.ofNat_mul]; simp
  rw [hprod, upper_ofInt, mulHU, ← BitVec.ofInt_natCast]
  push_cast
  rfl

theorem divS_eq (x y : Word) : divS x y = if y = 0 then BitVec.allOnes 64 else x.sdiv y := by
  unfold divS
  split
  · rfl
  · rw [← BitVec.toInt_inj, BitVec.toInt_sdiv, BitVec.toInt_ofInt]

theorem remS_eq (x y : Word) : remS x y = if y = 0 then x else x.srem y := by
  unfold remS
  split
  · rfl
  · rw [← BitVec.toInt_srem, BitVec.ofInt_toInt]

theorem divU_eq (x y : Word) : divU x y = if y = 0 then BitVec.allOnes 64 else x / y := by
  unfold divU
  split
  · rfl
  · rw [← BitVec.toNat_udiv, BitVec.ofNat_toNat, BitVec.setWidth_eq]

theorem remU_eq (x y : Word) : remU x y = if y = 0 then x else x % y := by
  unfold remU
  split
  · rfl
  · rw [← BitVec.toNat_umod, BitVec.ofNat_toNat, BitVec.setWidth_eq]

theorem minS_eq (x y : Word) : (if y.slt x then y else x) = BitVec.ofInt 64 (min x.toInt y.toInt) := by
  simp only [BitVec.slt_iff_toInt_lt]
  split
  · rw [min_eq_right (by omega), BitVec.ofInt_toInt]
  · rw [min_eq_left (by omega), BitVec.ofInt_toInt]

theorem maxS_eq (x y : Word) : (if x.slt y then y else x) = BitVec.ofInt 64 (max x.toInt y.toInt) := by
  simp only [BitVec.slt_iff_toInt_lt]
  split
  · rw [max_eq_right (by omega), BitVec.ofInt_toInt]
  · rw [max_eq_left (by omega), BitVec.ofInt_toInt]

theorem minU_eq (x y : Word) : (if y < x then y else x) = BitVec.ofNat 64 (min x.toNat y.toNat) := by
  simp only [BitVec.lt_def]
  split
  · rw [min_eq_right (by omega), BitVec.ofNat_toNat, BitVec.setWidth_eq]
  · rw [min_eq_left (by omega), BitVec.ofNat_toNat, BitVec.setWidth_eq]

theorem maxU_eq (x y : Word) : (if x < y then y else x) = BitVec.ofNat 64 (max x.toNat y.toNat) := by
  simp only [BitVec.lt_def]
  split
  · rw [max_eq_right (by omega), BitVec.ofNat_toNat, BitVec.setWidth_eq]
  · rw [max_eq_left (by omega), BitVec.ofNat_toNat, BitVec.setWidth_eq]

theorem truth_slt (x y : Word) : truth (x.slt y) = if x.toInt < y.toInt then 1 else 0 := by
  simp only [truth, BitVec.slt_iff_toInt_lt]

theorem truth_ult (x y : Word) : truth (x.ult y) = if x.toNat < y.toNat then 1 else 0 := by
  simp only [truth, BitVec.ult_iff_toNat_lt]

theorem truth_beq (x y : Word) : truth (x == y) = if x = y then 1 else 0 := by
  simp only [truth, beq_iff_eq]

/-! ### Counting bits (R109) -/

/-- The highest 1 bit of a word, and its leading zeros. -/
theorem clzN_of_highest {x : Word} {n : Nat} (h : x.getLsbD n = true) (hz : ∀ j, n < j → x.getLsbD j = false) :
    clzN 64 x.toNat = 63 - n := by
  have hbit : x.toNat.testBit n = true := h
  have hx : x.toNat ≠ 0 := by rintro h0; simp [h0] at hbit
  have hlog : x.toNat.log2 = n := by
    refine (Nat.log2_eq_iff hx).2 ⟨Nat.ge_two_pow_of_testBit hbit, Nat.lt_pow_two_of_testBit _ fun j hj => hz j hj⟩
  rw [clzN, if_neg hx, hlog]

theorem ctzLoop_zero (fuel i : Nat) : ctzLoop 0 fuel i = i + fuel := by
  induction fuel generalizing i with
  | zero => rfl
  | succ fuel ih => rw [ctzLoop, Nat.zero_testBit, if_neg Bool.false_ne_true, ih]; omega

/-- The lowest 1 bit stops the search. -/
theorem ctzLoop_of_lowest {m n fuel i : Nat} (hi : i ≤ n) (hn : n < i + fuel) (h : m.testBit n = true)
    (hz : ∀ j, j < n → m.testBit j = false) : ctzLoop m fuel i = n := by
  induction fuel generalizing i with
  | zero => omega
  | succ fuel ih =>
    rw [ctzLoop]
    rcases hi.eq_or_lt with rfl | hlt
    · rw [if_pos h]
    · rw [hz i hlt, if_neg Bool.false_ne_true]
      exact ih hlt (by omega)

/-- The number of 1 bits of a number is that of the places below `w` at which it has one. -/
theorem popN_eq_countP (w n : Nat) : popN w n = (List.range w).countP fun i => n.testBit i := by
  induction w generalizing n with
  | zero => rfl
  | succ w ih =>
    rw [popN, ih, List.range_succ_eq_map, List.countP_cons, List.countP_map, Nat.testBit_zero]
    simp only [Function.comp_def, Nat.testBit_succ, decide_eq_true_eq]
    split <;> omega

/-! ### Reversing bits and bytes (R109) -/

theorem getLsbD_ofNat_packEls {w : Nat} {l : List Nat} {j i : Nat} (hi : i < w) (hlt : w * j + i < 64) :
    (BitVec.ofNat 64 (packEls w l)).getLsbD (w * j + i) = (l.getD j 0).testBit i := by
  have hel := congrArg (Nat.testBit · i) (packEls_element w l j)
  simp only [Nat.testBit_mod_two_pow, Nat.testBit_shiftRight, hi, decide_true, Bool.true_and] at hel
  rw [BitVec.getLsbD_ofNat, hel, decide_eq_true hlt, Bool.true_and]

theorem getLsbD_revBits (x : Word) {j : Nat} (hj : j < 64) : (revBits x).getLsbD j = x.getLsbD (63 - j) := by
  have h := getLsbD_ofNat_packEls (l := (List.range 64).map fun j => if x.getLsbD (63 - j) then 1 else 0) (j := j) Nat.one_pos
    (by omega)
  rw [Nat.one_mul, Nat.add_zero] at h
  rw [revBits, h]
  cases hb : x.getLsbD (63 - j) <;> simp [List.getD, hj, hb]

theorem getLsbD_revBytes (x : Word) {j i : Nat} (hj : j < 8) (hi : i < 8) :
    (revBytes x).getLsbD (8 * j + i) = x.getLsbD (8 * (7 - j) + i) := by
  rw [revBytes, getLsbD_ofNat_packEls hi (by omega)]
  have hget : ((List.range 8).map fun j => field x (8 * (7 - j)) 8).getD j 0 = field x (8 * (7 - j)) 8 := by simp [List.getD, hj]
  rw [hget, field, BitVec.testBit_toNat, BitVec.getLsbD_extractLsb', decide_eq_true hi, Bool.true_and]

/-- A low part, zero-extended, is the word under a mask (R109). -/
theorem zext_eq_and (x : Word) {n : Nat} : (x.setWidth n).setWidth 64 = x &&& BitVec.ofNat 64 (2 ^ n - 1) := by
  ext i hi
  rw [← BitVec.getLsbD_eq_getElem, ← BitVec.getLsbD_eq_getElem, BitVec.getLsbD_and, BitVec.getLsbD_ofNat,
    Nat.testBit_two_pow_sub_one]
  simp [hi, Bool.and_comm]

end Sys2Proof.Machine

/-- Settles O9: each of these instructions puts a function of its sources in g[A], and that function is the one of the
table in numbers. (What an instruction does is established for `two` and `one` as they are defined; without their values the
functions of the clauses are found at once.) -/
theorem integerRegister : Obligations.IntegerRegister := by
  unfold Obligations.IntegerRegister
  refine ⟨fun a b c => ?_, fun a b => ?_⟩
  · intro two
    have put {i : Instr} {f g : Word → Word → Word} (hi : ∀ s, exec i s = exec2 a b c f s) (hf : ∀ x y, f x y = g x y) :
        two i g := completes_of_exec2 hi hf
    clear_value two
    exact ⟨put (exec_add a b c) fun _ _ => rfl, put (exec_sub a b c) fun _ _ => rfl,
      put (exec_and a b c) fun _ _ => rfl, put (exec_or a b c) fun _ _ => rfl,
      put (exec_xor a b c) fun _ _ => rfl, put (exec_andn a b c) fun _ _ => rfl,
      put (exec_shl a b c) fun _ _ => rfl, put (exec_shr a b c) fun _ _ => rfl,
      put (exec_sra a b c) fun _ _ => rfl, put (exec_rol a b c) fun _ _ => rfl,
      put (exec_mul a b c) fun _ _ => rfl, put (exec_mulh a b c) mulHS_eq,
      put (exec_mulhu a b c) mulHU_eq, put (exec_div a b c) divS_eq,
      put (exec_divu a b c) divU_eq, put (exec_rem a b c) remS_eq,
      put (exec_remu a b c) remU_eq, put (exec_min a b c) minS_eq,
      put (exec_max a b c) maxS_eq, put (exec_minu a b c) minU_eq,
      put (exec_maxu a b c) maxU_eq, put (exec_slt a b c) truth_slt,
      put (exec_sltu a b c) truth_ult, put (exec_seq a b c) truth_beq,
      put (exec_lea1 a b c) fun _ _ => rfl, put (exec_lea2 a b c) fun _ _ => rfl,
      put (exec_lea4 a b c) fun _ _ => rfl, put (exec_lea8 a b c) fun _ _ => rfl⟩
  · intro one
    have put {i : Instr} {f g : Word → Word} (hi : ∀ s, exec i s = exec1 a b f s) (hf : ∀ x, f x = g x) : one i g :=
      completes_of_exec1 hi hf
    clear_value one
    refine ⟨⟨_, put (exec_clz a b) fun _ => rfl, rfl, fun x n _ h hz => ?_⟩,
      ⟨_, put (exec_ctz a b) fun _ => rfl, ?_, fun x n hn h hz => ?_⟩,
      put (exec_popc a b) fun x => ?_,
      ⟨_, put (exec_brev a b) fun _ => rfl, fun x _ => getLsbD_revBits x⟩,
      ⟨_, put (exec_bswap a b) fun _ => rfl, fun x _ _ => getLsbD_revBytes x⟩,
      put (exec_sextB a b) fun x => by rw [BitVec.setWidth_eq_extractLsb' (by decide)],
      put (exec_sextH a b) fun x => by rw [BitVec.setWidth_eq_extractLsb' (by decide)],
      put (exec_sextW a b) fun x => by rw [BitVec.setWidth_eq_extractLsb' (by decide)],
      put (exec_zextB a b) fun x => zext_eq_and x, put (exec_zextH a b) fun x => zext_eq_and x,
      put (exec_zextW a b) fun x => zext_eq_and x⟩
    · rw [clzN_of_highest h hz]
    · exact congrArg (BitVec.ofNat 64) (ctzLoop_zero 64 0)
    · exact congrArg (BitVec.ofNat 64) (ctzLoop_of_lowest (Nat.zero_le n) (by omega) h hz)
    · rw [popN_eq_countP]; rfl
end

section
open Sys2Proof Sys2Proof.Machine Sys2Proof.Safety

namespace Sys2Proof.Machine

/-! ### Immediate instructions (R111) -/

/-- An immediate instruction of either form puts its result in g[A]. -/
theorem completes_of_immOp {a b : BitVec 5} {imm : Word} {i : Instr} {f g : Word → Word → Word}
    (hi : ∀ s, exec i s = immOp f a b imm false s) (hf : ∀ x y, f x y = g x y) :
    Completes { srcs := [.g b], dsts := [.g a] } i (putsG a fun p => g (p.rg b) imm) :=
  completes_of_execG hi fun _ => hf _ _

theorem completes_of_immOp_ext {a b : BitVec 5} {imm : Word} {i : Instr} {f g : Word → Word → Word}
    (hi : ∀ s, exec i s = immOp f a b imm true s) (hf : ∀ x y, f x y = g x y) :
    Completes { srcs := [.g b], dsts := [.g a], ext := true } i
      (fun k p s => s.setProc k { p.wg a (g (p.rg b) imm) with pc := p.pc + 8 }) :=
  completes_of_execG_ext hi fun _ => hf _ _

end Sys2Proof.Machine

/-- Settles O10: each immediate instruction is `immOp` of its function, on the short value or on the 42 bits of the pair. -/
theorem immediates : Obligations.Immediates := by
  unfold Obligations.Immediates
  intro a b i x imm
  have put {f : IForm} {j : Instr} {short : Word} {r g : Word → Word → Word}
      (hshort : ∀ s, exec j s = immOp r a b short false s)
      (hlong : ∀ s, exec (.extPair x f a b i) s = immOp r a b (extImm x i) true s) (hr : ∀ u v, r u v = g u v) :
      imm f j short g := ⟨completes_of_immOp hshort hr, completes_of_immOp_ext hlong hr⟩
  clear_value imm
  exact ⟨put (exec_addi a b i) (exec_extPair x .addi a b i) fun _ _ => rfl,
    put (exec_andi a b i) (exec_extPair x .andi a b i) fun _ _ => rfl,
    put (exec_ori a b i) (exec_extPair x .ori a b i) fun _ _ => rfl,
    put (exec_xori a b i) (exec_extPair x .xori a b i) fun _ _ => rfl,
    put (exec_slti a b i) (exec_extPair x .slti a b i) truth_slt,
    put (exec_sltiu a b i) (exec_extPair x .sltiu a b i) truth_ult,
    put (exec_movhi a b i) (exec_extPair x .movhi a b i) fun _ _ => rfl,
    put (exec_muli a b i) (exec_extPair x .muli a b i) fun _ _ => rfl⟩
end

section
open Sys2Proof Sys2Proof.Machine Sys2Proof.Safety

namespace Sys2Proof.Laws

/-! ### EXT pairs of the I-forms (R87, R112) -/

theorem ofMajor_major (f : IForm) : IForm.ofMajor f.major = some f := by cases f <;> rfl

theorem decodePair_of_ok_form {f : IForm} {a b : BitVec 5} {i : BitVec 16} {j : Instr} (x : BitVec 26)
    (h : decI f a b i = .ok j) :
    decodePair x (encI f.major a b i) = need (f != .shi || x == 0) 3 (.ok (.extPair x f a b i)) := by
  simp only [decodePair, fldMaj_encI, fldA_encI, fldB_encI, fldImm_encI, ofMajor_major, h]

theorem decodePair_of_ill_form {f : IForm} {a b : BitVec 5} {i : BitVec 16} {d : Nat} (x : BitVec 26)
    (h : decI f a b i = .ill d) : decodePair x (encI f.major a b i) = .ill d := by
  simp only [decodePair, fldMaj_encI, fldA_encI, fldB_encI, fldImm_encI, ofMajor_major, h]

/-- The reserved bits, the kind and the count of SHI (R112). -/
theorem shi_fields (hi : BitVec 8) (kind : BitVec 2) (n : BitVec 6) :
    (hi ++ kind ++ n : BitVec 16).extractLsb' 8 8 = hi ∧ (hi ++ kind ++ n : BitVec 16).extractLsb' 6 2 = kind ∧
      (hi ++ kind ++ n : BitVec 16).extractLsb' 0 6 = n :=
  ⟨(extract_append_high (hi ++ kind) n (by omega)).trans ((extract_append_high hi kind (by omega)).trans (extract_self hi)),
    (extract_append_high (hi ++ kind) n (by omega)).trans ((extract_append_low hi kind (by omega)).trans (extract_self kind)),
    (extract_append_low (hi ++ kind) n (by omega)).trans (extract_self n)⟩

end Sys2Proof.Laws

namespace Sys2Proof.Machine

/-- The instruction of a kind of SHI (R112). -/
def shiInstr (kind : BitVec 2) (a b : BitVec 5) (n : BitVec 6) : Instr :=
  if kind = 0 then .shiL a b n else if kind = 1 then .shiR a b n else if kind = 2 then .shiA a b n else .shiRol a b n

theorem shiOf_eq (kind : BitVec 2) (n : BitVec 6) (v : Word) :
    shiOf kind n v = if kind = 0 then v <<< n.toNat else if kind = 1 then v >>> n.toNat
      else if kind = 2 then v.sshiftRight n.toNat else v.rotateLeft n.toNat := by
  rcases Laws.two_bits kind with rfl | rfl | rfl | rfl <;> rfl

theorem exec_shiInstr (kind : BitVec 2) (a b : BitVec 5) (n : BitVec 6) (s : State) :
    exec (shiInstr kind a b n) s = exec1 a b (shiOf kind n) s := by
  rcases Laws.two_bits kind with rfl | rfl | rfl | rfl
  · exact exec_shiL a b n s
  · exact exec_shiR a b n s
  · exact exec_shiA a b n s
  · exact exec_shiRol a b n s

theorem decShi_eq (a b : BitVec 5) (hi : BitVec 8) (kind : BitVec 2) (n : BitVec 6) :
    decShi a b (hi ++ kind ++ n) = if hi = 0 then .ok (shiInstr kind a b n) else .ill 3 := by
  obtain ⟨hhi, hkind, hn⟩ := Laws.shi_fields hi kind n
  unfold decShi need
  simp only [hhi, hkind, hn, beq_iff_eq]
  rcases Laws.two_bits kind with rfl | rfl | rfl | rfl <;> rfl

end Sys2Proof.Machine

/-- Settles O11: the fields of the word decide what `decShi` reads, and the kind which shift is run. -/
theorem shiftImmediate : Obligations.ShiftImmediate := by
  unfold Obligations.ShiftImmediate
  intro a b hi kind n x w sh i
  have hdec : decI .shi a b (hi ++ kind ++ n) = if hi = 0 then .ok i else .ill 3 := decShi_eq a b hi kind n
  have hw : w = encI IForm.shi.major a b (hi ++ kind ++ n) := rfl
  have hsh (v : Word) : shiOf kind n v = sh v := shiOf_eq kind n v
  refine ⟨?_, ?_, completes_of_exec1 (exec_shiInstr kind a b n) hsh, fun _ _ => ?_⟩
  · rw [hw, Laws.decode1_encI, hdec]
  · rw [hw]
    by_cases h : hi = 0
    · rw [if_pos h] at hdec
      rw [Laws.decodePair_of_ok_form x hdec]
      simp [need, h]
    · rw [if_neg h] at hdec
      rw [Laws.decodePair_of_ill_form x hdec, if_neg fun hc => h hc.1]
  · obtain ⟨-, hkind, hn⟩ := Laws.shi_fields hi kind n
    refine completes_of_execG_ext (exec_extPair x .shi a b (hi ++ kind ++ n)) fun p => ?_
    rw [hkind, hn, hsh]
end

section
open Sys2Proof Sys2Proof.Machine Sys2Proof.Safety

namespace Sys2Proof.Machine

/-! ### Branches and jumps (R114, R115, R119) -/

/-- A compare-branch of either form moves the PC alone. -/
theorem completes_of_branch {taken cond : Word → Word → Bool} {a b : BitVec 5} {imm : Word} {ext : Bool} {i : Instr}
    (hi : ∀ s, exec i s = branch cond a b imm ext s) (hc : ∀ u v, cond u v = taken u v) :
    Completes { srcs := [.g b, .g a], ext := ext } i (fun k p s =>
      s.setProc k { p with pc := if taken (p.rg a) (p.rg b) then p.pc + 4 * imm else p.pc + if ext then 8 else 4 }) :=
  completes_of_issue hi fun k p s => by
    rw [hc]
    split <;> rfl

/-- The counted branch of either form. -/
theorem completes_of_dbnzBy {a : BitVec 5} {imm : Word} {ext : Bool} {i : Instr} (hi : ∀ s, exec i s = dbnzBy a imm ext s) :
    Completes { srcs := [.g a], ext := ext } i (fun k p s =>
      s.setProc k { p.wg a (p.rg a - 1) with
        pc := if p.rg a - 1 ≠ 0 then p.pc + 4 * imm else p.pc + if ext then 8 else 4 }) :=
  completes_of_issue hi fun k p s => by
    dsimp only
    rw [Proc.over_wg]
    split <;> rfl

theorem bltIf_eq (u v : Word) : bltIf u v = decide (u.toInt < v.toInt) := BitVec.slt_eq_decide

theorem bgeIf_eq (u v : Word) : bgeIf u v = decide (v.toInt ≤ u.toInt) := by
  rw [bgeIf, BitVec.slt_eq_decide, ← decide_not, Bool.decide_congr not_lt]

theorem bltuIf_eq (u v : Word) : bltuIf u v = decide (u.toNat < v.toNat) := BitVec.ult_eq_decide

theorem bgeuIf_eq (u v : Word) : bgeuIf u v = decide (v.toNat ≤ u.toNat) := by
  rw [bgeuIf, BitVec.ult_eq_decide, ← decide_not, Bool.decide_congr not_lt]

/-- DBNZ asks for B = 0 and for a counter other than g0 (R115). -/
theorem decI_dbnz (a b : BitVec 5) (i : BitVec 16) :
    decI .dbnz a b i = if b ≠ 0 ∨ a = 0 then .ill 3 else .ok (.dbnz a i) := by
  simp only [decI, need, Bool.and_eq_true, bne_iff_ne, ne_eq, beq_iff_eq]
  split
  case isTrue h => rw [if_neg (by tauto)]
  case isFalse h => rw [if_pos (by tauto)]

end Sys2Proof.Machine

/-- Settles O12: each compare-branch is `branch` on its comparison, with the short or the 42-bit offset. -/
theorem branches : Obligations.Branches := by
  unfold Obligations.Branches
  intro a b i x br
  have move {f : IForm} {j : Instr} {cond taken : Word → Word → Bool}
      (hshort : ∀ s, exec j s = branch cond a b (i.signExtend 64) false s)
      (hlong : ∀ s, exec (.extPair x f a b i) s = branch cond a b (extImm x i) true s) (hc : ∀ u v, cond u v = taken u v) :
      br f j taken := ⟨completes_of_branch hshort hc, completes_of_branch hlong hc⟩
  clear_value br
  exact ⟨move (exec_beq a b i) (exec_extPair x .beq a b i) fun _ _ => rfl,
    move (exec_bne a b i) (exec_extPair x .bne a b i) fun _ _ => rfl,
    move (exec_blt a b i) (exec_extPair x .blt a b i) bltIf_eq, move (exec_bge a b i) (exec_extPair x .bge a b i) bgeIf_eq,
    move (exec_bltu a b i) (exec_extPair x .bltu a b i) bltuIf_eq,
    move (exec_bgeu a b i) (exec_extPair x .bgeu a b i) bgeuIf_eq⟩

/-- Settles O13: the required fields are those that the decoder of the form needs, and both forms are `dbnzBy`. -/
theorem countedBranch : Obligations.CountedBranch := by
  unfold Obligations.CountedBranch
  intro a b i x w go
  have hw : w = encI IForm.dbnz.major a b i := rfl
  rw [hw, Laws.decode1_encI]
  split
  case isTrue h =>
    have hill : decI .dbnz a b i = .ill 3 := by rw [decI_dbnz, if_pos h]
    exact ⟨hill, Laws.decodePair_of_ill_form x hill⟩
  case isFalse h =>
    have hok : decI .dbnz a b i = .ok (.dbnz a i) := by rw [decI_dbnz, if_neg h]
    exact ⟨hok, Laws.decodePair_of_ok_form x hok, completes_of_dbnzBy (exec_dbnz a i),
      completes_of_dbnzBy (exec_extPair x .dbnz a b i)⟩

/-- Settles O14: J and CALL take every offset, and neither is an I-form, which EXT asks for. -/
theorem jumps : Obligations.Jumps := by
  unfold Obligations.Jumps
  intro i x
  have hpair {maj : BitVec 6} (h : IForm.ofMajor maj = none) : decodePair x (encJ maj i) = .ill 5 := by
    unfold decodePair
    rw [Laws.fldMaj_encJ, h]
  exact ⟨Laws.decode1_12 i, Laws.decode1_13 i, hpair rfl, hpair rfl, completes_of_issue (exec_j i) fun _ _ _ => rfl,
    completes_of_issue (exec_call i) fun _ _ _ => rfl⟩
end

section
open Sys2Proof Sys2Proof.Machine Sys2Proof.Safety

namespace Sys2Proof.Machine

/-! ### The sizes of EXT pairs (R87, R121) -/

theorem ldSize_ofCode_code (z : LdSize) : LdSize.ofCode z.code = some z := by cases z <;> rfl
theorem stSize_ofCode_code (z : StSize) : StSize.ofCode z.code = some z := by cases z <;> rfl

section
variable {x : BitVec 26} {a b : BitVec 5} {i : BitVec 16}

theorem exec_extPair_ld {z : LdSize} (h : i.extractLsb' 0 3 = z.code) (s : State) :
    exec (.extPair x .ld a b i) s = loadAt a b z (longOff x i (ldBytes z)) true s := by
  simp only [exec_extPair, execExtPair, h, ldSize_ofCode_code]

theorem exec_extPair_st {z : StSize} (h : i.extractLsb' 0 3 = z.code) (s : State) :
    exec (.extPair x .st a b i) s = storeAt a b z (longOff x i (stBytes z)) true s := by
  simp only [exec_extPair, execExtPair, h, stSize_ofCode_code]

theorem exec_extPair_spl {z : LdSize} (h : i.extractLsb' 0 3 = z.code) (s : State) :
    exec (.extPair x .spl a b i) s = splAt a b z (longOff x i (ldBytes z)) true s := by
  simp only [exec_extPair, execExtPair, h, ldSize_ofCode_code]

theorem exec_extPair_sps {z : StSize} (h : i.extractLsb' 0 3 = z.code) (s : State) :
    exec (.extPair x .sps a b i) s = spsAt a b z (longOff x i (stBytes z)) true s := by
  simp only [exec_extPair, execExtPair, h, stSize_ofCode_code]

end

/-! ### Loads and stores that find their word (R122, R123) -/

/-- A message that is sent takes no time. -/
theorem State.post_cycle (s : State) (src dst : Nat) (own : Option Own) (b : Body) : (s.post src dst own b).cycle = s.cycle := by
  rcases s.post_cases src dst own b with ⟨_, h⟩ | ⟨d, e, _, _, _, h⟩ <;> rw [h]
  unfold State.enlink State.enqLink State.useNonce
  dsimp only
  split <;> rfl

theorem Proc.over_eg (p : Proc) (a : BitVec 5) (ext : Bool) :
    (p.eg a).over ext = { p.eg a with pc := p.pc + (if ext then 8 else 4) } := by
  simp [Proc.over]

/-- The read-only line from which a core may serve a load (R352, log 6). -/
def heldLine (s : State) (pl ga : Nat) (leaf : Word) : Option RoLine :=
  if readOnly pl ga leaf then mget (s.core pl).roLines (ga / 64) else none

section
variable {s s' : State} {k ga : Nat} {p : Proc} {va leaf : Word} {z : LdSize} {a : BitVec 5}

/-- A load that a read-only line of its core serves is over at once (R352). -/
theorem loadGo_of_heldLine {line : RoLine} (hm : Maps s k p va (ldBytes z) .read s' ga leaf)
    (hl : heldLine s' (placeOf k) ga leaf = some line) (ext : Bool) (t : Touch) :
    s.loadGo k p ext a z va t =
      (s'.modCore (placeOf k) fun c => c.reach (ga / 64) (viaLeaf s' (placeOf k) p.asid va)).setProc k
        ((p.wg a (ldExtend z (line.data.toNat >>> (8 * (ga % 64)) % 2 ^ (8 * (ldBytes z))))).over ext) := by
  unfold heldLine at hl
  simp only [State.loadGo, access_of_maps hm, hl]

/-- Every other load sends its request and leaves its register empty; under DROPTRAP its process waits in it (R122). -/
theorem loadGo_of_home (hm : Maps s k p va (ldBytes z) .read s' ga leaf)
    (hl : heldLine s' (placeOf k) ga leaf = none) (ext : Bool) (t : Touch) :
    s.loadGo k p ext a z va t =
      (s'.post (placeOf k) (accessAgent s' (placeOf k) ga) (some (ownOf k p t))
        (readBody s' (placeOf k) p.asid ga (ldBytes z) leaf (.g a z) va p.dropTrap)).setProc k
          (if p.dropTrap then
            { (p.eg a).over ext with
              wait := some { kind := .load, status := 0, door := 0, since := s'.cycle, deadline := none, pc := p.pc, ext := ext,
                             nan := p.nan1 } }
          else (p.eg a).over ext) := by
  unfold heldLine at hl
  simp only [State.loadGo, access_of_maps hm, hl, State.post_cycle]
  split <;> rfl

end

theorem storeGo_of_maps {s s' : State} {k ga : Nat} {p : Proc} {va leaf : Word} {z : StSize}
    (hm : Maps s k p va (stBytes z) .write s' ga leaf) (ext : Bool) (a : BitVec 5) (t : Touch) :
    s.storeGo k p ext a z va t =
      ((s'.combineAt (placeOf k) ga).post (placeOf k) (accessAgent s' (placeOf k) ga) (some (ownOf k p t))
        (writeBody ga (leBytes (stBytes z) (p.rg a).toNat) leaf)).setProc k (p.over ext) := by
  simp only [State.storeGo, access_of_maps hm]

/-- The loads and stores with an offset, of either form (R121). -/
theorem accessCompletes_of_loadAt {a b : BitVec 5} {z : LdSize} {off : Word} {ext : Bool} {i : Instr}
    {effect : Nat → Proc → State → Nat → Word → State} (hi : ∀ s, exec i s = loadAt a b z off ext s)
    (he : ∀ k p s s' ga leaf, Maps s k p (p.rg b + off) (ldBytes z) .read s' ga leaf →
      s.loadGo k p ext a z (p.rg b + off) .plain = effect k p s' ga leaf) :
    AccessCompletes { srcs := [.g b], dsts := [.g a], touch := .plain, ext := ext } i (fun p => p.rg b + off) (ldBytes z) .read
      effect :=
  accessCompletes_of_issue hi he

theorem accessCompletes_of_storeAt {a b : BitVec 5} {z : StSize} {off : Word} {ext : Bool} {i : Instr}
    {effect : Nat → Proc → State → Nat → Word → State} (hi : ∀ s, exec i s = storeAt a b z off ext s)
    (he : ∀ k p s s' ga leaf, Maps s k p (p.rg b + off) (stBytes z) .write s' ga leaf →
      s.storeGo k p ext a z (p.rg b + off) .plain = effect k p s' ga leaf) :
    AccessCompletes { srcs := [.g b, .g a], touch := .plain, ext := ext } i (fun p => p.rg b + off) (stBytes z) .write effect :=
  accessCompletes_of_issue hi he

end Sys2Proof.Machine

/-- Settles O16: a load is an access, which a read-only line of the core serves or a request to the home. -/
theorem loads : Obligations.Loads := by
  unfold Obligations.Loads
  intro a b c o x i sc z n sends
  have sent (t : Touch) (ext : Bool) (va : Proc → Word) {k : Nat} {p : Proc} {s s' : State} {ga : Nat} {leaf : Word}
      (hm : Maps s k p (va p) n .read s' ga leaf) :
      s.loadGo k p ext a z (va p) t = sends t (if ext then 8 else 4) ext va k p s' ga leaf := by
    dsimp only [sends]
    cases hl : heldLine s' (placeOf k) ga leaf with
    | some line =>
      rw [loadGo_of_heldLine hm hl, Proc.over_wg, Nat.shiftRight_eq_div_pow]
      unfold heldLine at hl
      rw [hl]
    | none =>
      rw [loadGo_of_home hm hl, Proc.over_eg]
      unfold heldLine at hl
      rw [hl]
      rfl
  exact ⟨accessCompletes_of_loadAt (exec_ld a b o z) fun _ _ _ _ _ _ => sent .plain false fun p => p.rg b + shortOff o n,
    fun h => accessCompletes_of_loadAt (exec_extPair_ld h) fun _ _ _ _ _ _ => sent .plain true fun p => p.rg b + longOff x i n,
    accessCompletes_of_issue (exec_ldx a b c z) fun _ _ _ _ _ _ => sent .plain false fun p => p.rg b + p.rg c,
    accessCompletes_of_issue (exec_lda a b sc z) fun _ _ _ _ _ _ => sent .acquire false fun p => p.rg b⟩

/-- Settles O17: a store is an access whose write follows the reduction lines of its core. -/
theorem stores : Obligations.Stores := by
  unfold Obligations.Stores
  intro a b c o x i sc z n sends
  exact ⟨accessCompletes_of_storeAt (exec_st a b o z) fun _ _ _ _ _ _ hm => storeGo_of_maps hm false a .plain,
    fun h => accessCompletes_of_storeAt (exec_extPair_st h) fun _ _ _ _ _ _ hm => storeGo_of_maps hm true a .plain,
    accessCompletes_of_issue (exec_stx a b c z) fun _ _ _ _ _ _ hm => storeGo_of_maps hm false a .plain,
    accessCompletes_of_issue (exec_stl a b sc z) fun _ _ _ _ _ _ hm => storeGo_of_maps hm false a .release⟩
end

section
open Sys2Proof Sys2Proof.Machine Sys2Proof.Safety

namespace Sys2Proof.Machine

/-! ### Accesses at an address that is no multiple of their size (R122) -/

/-- Such an access traps ALIGN with its address. -/
theorem access_of_misaligned {s : State} {k n : Nat} {p : Proc} {va : Word} (h : ¬ n ∣ va.toNat) (ext : Bool) (a : Access)
    (go : State → Nat → Word → State) : s.access k p ext va n a go = s.trap k p ext 4 0 va :=
  if_pos fun h0 => h (Nat.dvd_of_mod_eq_zero h0)

/-- The instruction with the needs `nd` traps ALIGN where the address `va` is no multiple of `n`. -/
def TrapsAlign (nd : Need) (i : Instr) (va : Proc → Word) (n : Nat) : Prop :=
  CompletesIf nd i (fun _ p _ => ¬ n ∣ (va p).toNat) (fun k p s => s.trap k p nd.ext 0x04 0 (va p))

section
variable {a b c : BitVec 5} {i : Instr}

theorem trapsAlign_of_loadAt {z : LdSize} {off : Word} {ext : Bool} (hi : ∀ s, exec i s = loadAt a b z off ext s) :
    TrapsAlign { srcs := [.g b], dsts := [.g a], touch := .plain, ext := ext } i (fun p => p.rg b + off) (ldBytes z) :=
  completesIf_of_issue hi fun _ _ _ h => access_of_misaligned h _ _ _

theorem trapsAlign_of_storeAt {z : StSize} {off : Word} {ext : Bool} (hi : ∀ s, exec i s = storeAt a b z off ext s) :
    TrapsAlign { srcs := [.g b, .g a], touch := .plain, ext := ext } i (fun p => p.rg b + off) (stBytes z) :=
  completesIf_of_issue hi fun _ _ _ h => access_of_misaligned h _ _ _

theorem trapsAlign_of_syncLoad {t : Bool} {acc : Access} {op : AtomOp} (hi : ∀ s, exec i s = syncLoad a b c t acc op s) :
    TrapsAlign { srcs := [.g b], dsts := [.g a, .g c], touch := .acquire } i (fun p => p.rg b) 8 :=
  completesIf_of_issue hi fun _ _ _ h => access_of_misaligned h _ _ _

theorem trapsAlign_of_atomic {op : Nat} {ord : AtomOrd} {d : Bool} (hi : ∀ s, exec i s = atomic op a b c ord d s) :
    TrapsAlign { srcs := if op = 9 then [.g b, .g c, .g a] else [.g b, .g c], dsts := [.g a], touch := ordTouch ord } i
      (fun p => p.rg b) (if d then 8 else 4) :=
  completesIf_of_issue hi fun _ _ _ h => access_of_misaligned h _ _ _

theorem trapsAlign_of_reduction {op : Nat} {d : Bool} (hi : ∀ s, exec i s = reduction op b c d s) :
    TrapsAlign { srcs := [.g b, .g c], touch := .plain } i (fun p => p.rg b) (if d then 8 else 4) :=
  completesIf_of_issue hi fun _ _ _ h => access_of_misaligned h _ _ _

theorem trapsAlign_of_groupOp {op : AtomOp} {t : Touch} {acc : Access} {tok : List RegRef}
    {deadline : Nat → Proc → State → Option Nat} {w : IWord} {mk : Proc → AtomOp}
    (hi : ∀ s, exec i s = groupOp op a b t acc tok deadline w mk s) :
    TrapsAlign { srcs := .g b :: tok, dsts := [.g a], touch := t, noRoutine := true, word := w } i (fun p => p.rg b) 64 :=
  completesIf_of_issue hi fun _ _ _ h => access_of_misaligned h _ _ _

end

end Sys2Proof.Machine

/-- Settles O18: each of these instructions begins with an access of its size, which checks the address first. -/
theorem misalignedAccess : Obligations.MisalignedAccess := by
  unfold Obligations.MisalignedAccess
  intro a b c o x i sc z y t d ord
  exact ⟨trapsAlign_of_loadAt (exec_ld a b o z), trapsAlign_of_storeAt (exec_st a b o y),
    fun h => trapsAlign_of_loadAt (exec_extPair_ld h), fun h => trapsAlign_of_storeAt (exec_extPair_st h),
    completesIf_of_issue (exec_ldx a b c z) fun _ _ _ h => access_of_misaligned h _ _ _,
    completesIf_of_issue (exec_stx a b c y) fun _ _ _ h => access_of_misaligned h _ _ _,
    completesIf_of_issue (exec_lda a b sc z) fun _ _ _ h => access_of_misaligned h _ _ _,
    completesIf_of_issue (exec_stl a b sc y) fun _ _ _ h => access_of_misaligned h _ _ _,
    trapsAlign_of_syncLoad (exec_lds a b c t), trapsAlign_of_syncLoad (exec_ldf a b c t),
    completesIf_of_issue (exec_sts a b c t) fun _ _ _ h => access_of_misaligned h _ _ _,
    completesIf_of_issue (exec_feget a b) fun _ _ _ h => access_of_misaligned h _ _ _,
    completesIf_of_issue (exec_feset a b) fun _ _ _ h => access_of_misaligned h _ _ _,
    trapsAlign_of_atomic (exec_amoAdd a b c ord d), trapsAlign_of_atomic (exec_amoAnd a b c ord d),
    trapsAlign_of_atomic (exec_amoOr a b c ord d), trapsAlign_of_atomic (exec_amoXor a b c ord d),
    trapsAlign_of_atomic (exec_amoMin a b c ord d), trapsAlign_of_atomic (exec_amoMax a b c ord d),
    trapsAlign_of_atomic (exec_amoMinu a b c ord d), trapsAlign_of_atomic (exec_amoMaxu a b c ord d),
    trapsAlign_of_atomic (exec_amoSwap a b c ord d), trapsAlign_of_atomic (exec_cas a b c ord d),
    trapsAlign_of_reduction (exec_redAdd b c d), trapsAlign_of_reduction (exec_redFadd b c d),
    trapsAlign_of_reduction (exec_redMin b c d), trapsAlign_of_reduction (exec_redMax b c d),
    trapsAlign_of_groupOp (exec_gjoin a b), trapsAlign_of_groupOp (exec_gleave b), trapsAlign_of_groupOp (exec_barArrive a b),
    trapsAlign_of_groupOp (exec_barDrop a b), trapsAlign_of_groupOp (exec_barWait a b c t)⟩
end

section
open Sys2Proof Sys2Proof.Machine Sys2Proof.Safety

namespace Sys2Proof.Machine

/-- In the device's own memory every access has full/empty bits and atomics (R128, R343). -/
theorem notHost_of_inDevice {ga : Nat} (h : InDevice ga) (s : State) (k : Nat) (p : Proc) (va : Word) (go : State) :
    s.notHost k p va ga go = go := by
  unfold State.notHost
  split
  · exact absurd ‹_› h
  all_goals rfl

/-- An access that finds its word in the device's own memory goes on with it. -/
theorem access_notHost_of_maps {s s' : State} {k n ga : Nat} {p : Proc} {va leaf : Word} {a : Access} {ext : Bool}
    (hm : Maps s k p va n a s' ga leaf) (hd : InDevice ga) (go : State → Nat → Word → State) :
    (s.access k p ext va n a fun s ga leaf => s.notHost k p va ga (go s ga leaf)) = go s' ga leaf := by
  rw [access_of_maps hm, notHost_of_inDevice hd]

/-- FERETRY's count is its low byte (R48). -/
theorem feRetry_eq (p : Proc) : feRetry p = p.feretry.toNat % 256 := by simp [feRetry, field]

end Sys2Proof.Machine

/-- Settles O19: each synchronised access is an access of 8 bytes that, in the device's memory, sends its request. -/
theorem synchronisedAccesses : Obligations.SynchronisedAccesses := by
  unfold Obligations.SynchronisedAccesses
  intro a b c t req sync
  have sends {nd : Need} {i : Instr} {acc : Access} {body : Nat → Proc → State → State}
      {effect : Nat → Proc → State → Nat → Word → State} (hi : ∀ s, exec i s = issue nd body s)
      (hb : ∀ k p s s' ga leaf, Maps s k p (p.rg b) 8 acc s' ga leaf → InDevice ga → body k p s = effect k p s' ga leaf) :
      sync nd i acc effect := by
    intro s k p s₀ q s' ga leaf h hm hdev
    rw [hi, issue_of_issues h, hb _ _ _ _ _ _ hm hdev]
  have loads (op : AtomOp) {i : Instr} {acc : Access} (hi : ∀ s, exec i s = syncLoad a b c t acc op s) :
      sync { srcs := [.g b], dsts := [.g a, .g c], touch := .acquire } i acc (fun k p s ga leaf =>
        (req k p s ga leaf op .acquire (p.feretry.toNat % 256) t).produced k p ((p.eg a).eg c)) :=
    sends hi fun k p s s' ga leaf hm hd => (access_notHost_of_maps hm hd _).trans (by rw [feRetry_eq]; rfl)
  refine ⟨loads (.lds a c) (exec_lds a b c t), loads (.ldf a c) (exec_ldf a b c t), sends (exec_sts a b c t) ?_,
    sends (exec_feget a b) ?_, sends (exec_feset a b) ?_⟩
  · exact fun k p s s' ga leaf hm hd => (access_notHost_of_maps hm hd _).trans (by rw [feRetry_eq]; rfl)
  · exact fun k p s s' ga leaf hm hd => (access_notHost_of_maps hm hd _).trans rfl
  · exact fun k p s s' ga leaf hm hd => (access_notHost_of_maps hm hd _).trans rfl
end

section
open Sys2Proof Sys2Proof.Machine Sys2Proof.Safety

namespace Sys2Proof.Machine

/-! ### What a scratchpad access meets first (R132, R133, R361) -/

section
variable {s : State} {k ga : Nat} {p : Proc} (ext : Bool) (val : Word) (go : State)

theorem withSpad_of_none (h : p.splog = 0) (gas : List Nat) : s.withSpad k p ext val go gas = s.trap k p ext 6 6 val :=
  if_pos h

theorem withSpad_of_waits (h : p.splog ≠ 0) (hw : spadWaits s k p.gen = true ∨ feWaits s k p.gen ga = true) :
    s.withSpad k p ext val go [ga] = (s.recallSpad (placeOf k)).stallOn k p .order none := by
  unfold State.withSpad
  rw [if_neg h, if_pos (by simpa using hw)]

theorem withSpad_of_goes (h : p.splog ≠ 0) (hs : spadWaits s k p.gen = false) (hf : feWaits s k p.gen ga = false) :
    s.withSpad k p ext val go [ga] = go := by
  unfold State.withSpad
  rw [if_neg h, if_neg (by simp [hs, hf])]

end

end Sys2Proof.Machine

/-- Settles O20: a scratchpad access is its read or write behind `withSpad`, whose three outcomes are the three clauses. -/
theorem scratchpadAccesses : Obligations.ScratchpadAccesses := by
  unfold Obligations.ScratchpadAccesses
  intro a b o x i z y at_ loads stores short long both
  have behind {nd : Need} {j : Instr} {off : Word} {n : Nat} {body effect go : Nat → Proc → State → State}
      (hi : ∀ s, exec j s = issue nd body s)
      (hb : ∀ k p s, body k p s = s.withSpad k p nd.ext (p.rg b + off) (go k p s) [spadGa k p (scratchOff p (p.rg b) off n)])
      (hgo : ∀ k p s, go k p s = effect k p s) : both nd j off n effect := by
    refine ⟨completesIf_of_issue hi fun k p s h => ?_, completesIf_of_issue hi fun k p s h => ?_,
      completesIf_of_issue hi fun k p s h => (hb k p s).trans (withSpad_of_none _ _ _ h _)⟩
    · obtain ⟨hlog, hspad, hfe⟩ := h
      exact (hb k p s).trans ((withSpad_of_goes _ _ _ hlog hspad hfe).trans (hgo k p s))
    · exact (hb k p s).trans (withSpad_of_waits _ _ _ h.1 h.2)
  have load {j : Instr} {off : Word} {ext : Bool} (hi : ∀ s, exec j s = splAt a b z off ext s) :
      both { srcs := [.g b], dsts := [.g a], touch := .plain, ext := ext } j off (ldBytes z) (loads off (if ext then 8 else 4)) :=
    behind hi (fun _ _ _ => rfl) fun k p s => by rw [Proc.over_eg]; rfl
  have store {j : Instr} {off : Word} {ext : Bool} (hi : ∀ s, exec j s = spsAt a b y off ext s) :
      both { srcs := [.g b, .g a], touch := .plain, ext := ext } j off (stBytes y) (stores off (if ext then 8 else 4)) :=
    behind hi (fun _ _ _ => rfl) fun _ _ _ => rfl
  exact ⟨load (exec_spl a b o z), store (exec_sps a b o y), fun h => load (exec_extPair_spl h),
    fun h => store (exec_extPair_sps h)⟩
end

section
open Sys2Proof Sys2Proof.Machine Sys2Proof.Safety

namespace Sys2Proof.Machine

/-! ### A host write to device memory (R343, R443)

The last clause of `Obligations.MemoryFrame` is worded for host memory, but its message may as well carry an address of the
device: then the write recalls the reduction lines of its line first (R141, R443), and these store outside the bytes written. -/

/-- The first 8 bytes of HBM, which the host writes, and of whose line core 0 holds an addition to the second 8 bytes. -/
def hostWriteMsg : Msg :=
  { src := 5, dst := 0, own := none, body := .host 0 (leBytes 8 7).length (some (leBytes 8 7)) none false false }

def hostWriteState : State :=
  { State.reset with
    cores := [(0, { Core.reset with redLines := [{ line := 0, op := 0, w := false, els := [(1, 1)] }] })]
    net := [hostWriteMsg] }

theorem hostWriteState_arriving : hostWriteState.arriving 0 = some hostWriteMsg := by decide +kernel

/-- What memory holds at an address after an answer. -/
def byteAfter (o : Out) (a : Nat) : Option Byte :=
  match o with
  | .next t => some (memGet t.mem a)
  | .fault _ | .refused _ => none

theorem next_of_byteAfter {o : Out} {a : Nat} {b : Byte} (h : byteAfter o a = some b) :
    ∃ t, o = .next t ∧ memGet t.mem a = b := by
  cases o with
  | next t => exact ⟨t, rfl, Option.some.inj h⟩
  | fault r => cases h
  | refused r => cases h

/-- The host's write answers a state in which the held addition has been stored at byte 8. -/
theorem hostWriteState_stores_held_line : byteAfter (execPortHost 0 hostWriteState) 8 = some 1 := by decide +kernel

/-- No page migrates, so the write stores at its own 8 bytes alone. -/
theorem not_stored_hostWrite : ¬ Stored hostWriteState 0 (leBytes 8 7).length 8 := by
  have hnone : hostWriteState.migratedTo 0 = none := rfl
  rintro (⟨-, h⟩ | ⟨g, h, -⟩)
  · exact absurd h (by decide)
  · rw [hnone] at h
    cases h

end Sys2Proof.Machine

/-- Refutes O60: its last clause, on a write of the host, also admits an address in the device's own memory. There the
write of 8 bytes at address 0 recalls the reduction line that core 0 holds of them, and the held addition to the next word
changes byte 8, which is not among the bytes written. -/
theorem not_memoryFrame : ¬ Obligations.MemoryFrame := by
  unfold Obligations.MemoryFrame
  intro h
  obtain ⟨-, -, -, -, -, -, -, -, -, -, -, -, -, -, -, -, hwrites⟩ := h 0 0 0 0 0 0 0 .core .b .b .i8 false
  obtain ⟨t, ht, hbyte⟩ := next_of_byteAfter hostWriteState_stores_held_line
  obtain ⟨-, hhost⟩ := hwrites hostWriteState 0 5 0 0 none (leBytes 8 7) false t rfl
  have hframe : memGet t.mem 8 = 0 := hhost hostWriteState_arriving ((exec_portHost 0 _).trans ht) 8 not_stored_hostWrite
  rw [hbyte] at hframe
  exact absurd hframe (by decide)
end

section
open Sys2Proof Sys2Proof.Machine Sys2Proof.Safety

namespace Sys2Proof.Machine

/-! ### Requests to a home in the device's own memory (R138, R141, R146 to R148) -/

section
variable {s s₀ s' : State} {k n ga : Nat} {p q : Proc} {va : Proc → Word} {leaf : Word} {nd : Need} {i : Instr} {acc : Access}

/-- An instruction that issues answers what its body makes of the process that issues. -/
theorem exec_of_issues {body : Nat → Proc → State → State} (hi : ∀ s, exec i s = issue nd body s)
    (h : Issues s k p nd s₀ q) : exec i s = .next ((body k q s₀).retired k q) := by
  rw [hi, issue_of_issues h]

/-- An instruction that is an access and then `go` answers what `go` makes of the word it finds. -/
theorem exec_of_access {go : Nat → Proc → State → Nat → Word → State}
    (hi : ∀ s, exec i s = issue nd (fun k p s => s.access k p false (va p) n acc (go k p)) s) (h : Issues s k p nd s₀ q)
    (hm : Maps s₀ k q (va q) n acc s' ga leaf) : exec i s = .next ((go k q s' ga leaf).retired k q) := by
  rw [exec_of_issues hi h, access_of_maps hm]

/-- The same for one that needs full/empty bits or atomics, at a word that has them. -/
theorem exec_of_deviceAccess {go : Nat → Proc → State → Nat → Word → State}
    (hi : ∀ s, exec i s = issue nd (fun k p s =>
      s.access k p false (va p) n acc fun s ga leaf => s.notHost k p (va p) ga (go k p s ga leaf)) s)
    (h : Issues s k p nd s₀ q) (hm : Maps s₀ k q (va q) n acc s' ga leaf) (hd : InDevice ga) :
    exec i s = .next ((go k q s' ga leaf).retired k q) := by
  rw [exec_of_issues hi h, access_notHost_of_maps hm hd]

end

/-! ### The operations of the atomics in numbers (R138) -/

section
variable {w : Nat} (x y : BitVec w)

theorem ite_slt_eq_min : (if y.slt x then y else x) = BitVec.ofInt w (min x.toInt y.toInt) := by
  simp only [BitVec.slt_iff_toInt_lt]
  split
  · rw [min_eq_right (by omega), BitVec.ofInt_toInt]
  · rw [min_eq_left (by omega), BitVec.ofInt_toInt]

theorem ite_slt_eq_max : (if x.slt y then y else x) = BitVec.ofInt w (max x.toInt y.toInt) := by
  simp only [BitVec.slt_iff_toInt_lt]
  split
  · rw [max_eq_right (by omega), BitVec.ofInt_toInt]
  · rw [max_eq_left (by omega), BitVec.ofInt_toInt]

theorem ite_ult_eq_min : (if y.ult x then y else x) = BitVec.ofNat w (min x.toNat y.toNat) := by
  simp only [BitVec.ult_iff_toNat_lt]
  split
  · rw [min_eq_right (by omega), BitVec.ofNat_toNat, BitVec.setWidth_eq]
  · rw [min_eq_left (by omega), BitVec.ofNat_toNat, BitVec.setWidth_eq]

theorem ite_ult_eq_max : (if x.ult y then y else x) = BitVec.ofNat w (max x.toNat y.toNat) := by
  simp only [BitVec.ult_iff_toNat_lt]
  split
  · rw [max_eq_right (by omega), BitVec.ofNat_toNat, BitVec.setWidth_eq]
  · rw [max_eq_left (by omega), BitVec.ofNat_toNat, BitVec.setWidth_eq]

end

/-- Comparing two fields of 4 bytes by their sign extensions compares them as signed numbers, by their zero extensions as
unsigned ones. -/
theorem slt_signExtend (u v : BitVec 32) : (u.signExtend 64).slt (v.signExtend 64) = u.slt v := by
  simp only [BitVec.slt, BitVec.toInt_signExtend_of_le (show 32 ≤ 64 by decide)]

theorem ult_setWidth (u v : BitVec 32) : (u.setWidth 64).ult (v.setWidth 64) = u.ult v := by
  simp only [BitVec.ult, BitVec.toNat_setWidth_of_le (show 32 ≤ 64 by decide)]

/-! ### An atomic at a sound word (R139, R370) -/

theorem State.post_empties (s : State) (src dst : Nat) (own : Option Own) (b : Body) :
    (s.post src dst own b).empties = s.empties := by
  rcases s.post_cases src dst own b with ⟨_, h⟩ | ⟨d, e, _, _, _, h⟩ <;> rw [h]
  unfold State.enlink State.enqLink State.useNonce
  dsimp only
  split <;> rfl

/-- The old value of the field of an atomic, of 4 or 8 bytes. -/
abbrev amoOld (m : List Host.Cell) (ga : Nat) (w : Bool) : Word := BitVec.ofNat 64 (memNat m ga (if w then 4 else 8))

/-- A CAS stores nothing where the old value is not the one it compares with (R139). -/
abbrev AmoKeeps (m : List Host.Cell) (ga op : Nat) (w : Bool) (cmp : Word) : Prop :=
  op = 9 ∧ (amoOld m ga w).toNat ≠ cmp.toNat % 2 ^ (8 * if w then 4 else 8)

/-- The bytes of memory after a performed atomic (R139). -/
def amoMem (m : List Host.Cell) (ga op : Nat) (w : Bool) (y cmp : Word) : List Host.Cell :=
  if AmoKeeps m ga op w cmp then m
  else memPut m ga (leBytes (if w then 4 else 8) (amoApply op w (amoOld m ga w) y).toNat)

/-- What a performed atomic leaves at its home before it answers. -/
def State.amoStored (s : State) (ga op : Nat) (w : Bool) (y cmp : Word) : State :=
  { s.setFull ga with mem := amoMem s.mem ga op w y cmp }

/-- A word of a page that does not migrate is set full by itself. -/
theorem State.putFull_of_none {s : State} {ga : Nat} (h : s.migratedTo ga = none) : s.putFull ga true = s.setFull ga := by
  have hnone : (s.setFull ga).migratedTo ga = none := h
  simp only [State.putFull, if_true, hnone]

/-- An atomic at a sound word that does not migrate stores, sets the word full and answers the old value, in one step. -/
theorem State.perform_amo {s : State} {r : AtomReq} {op : Nat} {w : Bool} {a : BitVec 5} {y cmp : Word}
    (hop : r.op = .amo op w a y cmp) (hh : r.hidden s = false) (hb : r.bad s = false) (hm : s.migratedTo r.ga = none) :
    s.perform r = (s.amoStored r.ga op w y cmp).answer r
      (prodFill r [.g a (amoResult op w (amoOld s.mem r.ga w))]) := by
  simp only [State.perform, hh, hb, Bool.false_eq_true, if_false, State.performGood, hop, State.amoStored, amoMem]
  by_cases hc : AmoKeeps s.mem r.ga op w cmp
  · rw [if_pos hc, if_pos (by simpa [AmoKeeps, amoOld] using hc), State.putFull_of_none hm]
    rfl
  · rw [if_neg hc, if_neg (by simpa [AmoKeeps, amoOld] using hc), State.putBytes_of_none hm, State.putFull_of_none (by exact hm)]
    rfl

section
variable {m : List Host.Cell} {ga op : Nat} {w : Bool} {y cmp : Word}

/-- An atomic changes no byte outside its own. -/
theorem memGet_amoMem_of_out (hwf : Memory.wf m = true) {x : Nat} (hx : x < ga ∨ ga + (if w then 4 else 8) ≤ x) :
    memGet (amoMem m ga op w y cmp) x = memGet m x := by
  by_cases h : AmoKeeps m ga op w cmp
  · rw [amoMem, if_pos h]
  · rw [amoMem, if_neg h]
    exact memGet_memPut_of_out hwf (by rwa [leBytes_length])

/-- Every atomic but a CAS that meets another value stores its result in its own bytes. -/
theorem memNat_amoMem (hwf : Memory.wf m = true) (h : ¬ AmoKeeps m ga op w cmp) :
    memNat (amoMem m ga op w y cmp) ga (if w then 4 else 8) =
      (amoApply op w (amoOld m ga w) y).toNat % 2 ^ (8 * if w then 4 else 8) := by
  rw [amoMem, if_neg h, memNat_memPut hwf, Nat.pow_mul]

end

/-- The old value of a field of at most 8 bytes is the number that memory holds there. -/
theorem toNat_amoOld (m : List Host.Cell) (ga : Nat) (w : Bool) :
    (amoOld m ga w).toNat = memNat m ga (if w then 4 else 8) := by
  have hlt := memNat_lt m ga (if w then 4 else 8)
  rw [BitVec.toNat_ofNat]
  exact Nat.mod_eq_of_lt (hlt.trans_le (by cases w <;> decide))

end Sys2Proof.Machine

/-- Settles O21: an atomic is an access of its size that sends its request, and its operation on two words is that of the
table in numbers, also of their low halves. -/
theorem atomicOperations : Obligations.AtomicOperations := by
  unfold Obligations.AtomicOperations
  refine ⟨fun a b c o d => ?_, fun x y => ?_⟩
  · intro t amo
    have sends {op : Nat} {i : Instr} (hi : ∀ s, exec i s = atomic op a b c o d s) : amo op i :=
      fun _ _ _ _ _ _ _ _ h hm hd => exec_of_deviceAccess hi h hm hd
    clear_value amo
    exact ⟨sends (exec_amoAdd a b c o d), sends (exec_amoAnd a b c o d), sends (exec_amoOr a b c o d),
      sends (exec_amoXor a b c o d), sends (exec_amoMin a b c o d), sends (exec_amoMax a b c o d),
      sends (exec_amoMinu a b c o d), sends (exec_amoMaxu a b c o d), sends (exec_amoSwap a b c o d),
      sends (exec_cas a b c o d)⟩
  · have low {c : Bool} : (if c then y else x).setWidth 32 = if c then y.setWidth 32 else x.setWidth 32 :=
      apply_ite (BitVec.setWidth 32) (c = true) y x
    refine ⟨rfl, BitVec.setWidth_add _ _ (by decide), rfl, BitVec.setWidth_and, rfl, BitVec.setWidth_or, rfl, BitVec.setWidth_xor,
      ite_slt_eq_min x y, ?_, ite_slt_eq_max x y, ?_, ite_ult_eq_min x y, ?_, ite_ult_eq_max x y, ?_, rfl, rfl, rfl, rfl⟩
    · exact low.trans (by simp only [if_true, slt_signExtend]; exact ite_slt_eq_min _ _)
    · exact low.trans (by simp only [if_true, slt_signExtend]; exact ite_slt_eq_max _ _)
    · exact low.trans (by simp only [if_true, ult_setWidth]; exact ite_ult_eq_min _ _)
    · exact low.trans (by simp only [if_true, ult_setWidth]; exact ite_ult_eq_max _ _)

/-- Settles O28: what `amoStored` leaves before the answer, byte by byte; answering changes neither memory nor processes. -/
theorem atomicPerformed : Obligations.AtomicPerformed := by
  unfold Obligations.AtomicPerformed
  intro s r op w a y cmp hwf hrise hop hh hb hm n old keeps result t
  have ht : t = (s.amoStored r.ga op w y cmp).answer r (prodFill r [.g a (amoResult op w old)]) :=
    State.perform_amo hop hh hb hm
  have hmem : t.mem = amoMem s.mem r.ga op w y cmp := by rw [ht]; exact State.post_mem _ _ _ _ _
  have hempties : t.empties = (s.setFull r.ga).empties := by rw [ht]; exact State.post_empties _ _ _ _ _
  have hstored (h : ¬ keeps) : memNat t.mem r.ga n = (amoApply op w old y).toNat % 2 ^ (8 * n) := by
    rw [hmem]; exact memNat_amoMem hwf h
  refine ⟨fun h => ?_, fun h h9 => ?_, fun h => hstored fun hk => h hk.1, ?_, fun x hx => ?_, ⟨s.amoStored r.ga op w y cmp, ?_⟩, ?_⟩
  · rw [hmem, amoMem, if_pos h]
    exact (toNat_amoOld s.mem r.ga w).symm
  · rw [hstored h, h9]
    rfl
  · unfold State.full
    rw [hempties]
    exact State.full_setFull_self s r.ga hrise
  · rw [hmem]
    exact memGet_amoMem_of_out hwf hx
  · have hres : amoResult op w old = result := by cases w <;> rfl
    rw [ht, hres]
  · rw [ht]
    exact State.post_procs _ _ _ _ _
end

section
open Sys2Proof Sys2Proof.Machine Sys2Proof.Safety

namespace Sys2Proof.Machine

/-! ### Fences (R145) -/

theorem State.byOwn_setProc_self (s : State) (k : Nat) (p : Proc) : (s.setProc k p).byOwn k p.gen = some p := by
  simp only [State.byOwn, State.setProc_procs, mget_mset_self, if_true]

/-- Issuing ends the stall of a process and does not hold it. -/
theorem State.start_snd (s : State) (k : Nat) (p : Proc) : (s.start k p).2.held = p.held ∧ (s.start k p).2.stall = none := by
  unfold State.start
  dsimp only
  split
  · exact ⟨rfl, rfl⟩
  · split <;> exact ⟨rfl, rfl⟩

/-- A process that goes on to its next instruction has not backed off. -/
theorem backsOff_fin (s : State) (k : Nat) {q : Proc} (hheld : q.held = false) (hstall : q.stall = none) :
    backsOff (s.fin k q) k q false = false := by
  have hq : (s.fin k q).byOwn k q.gen = some q.advance := State.byOwn_setProc_self s k q.advance
  have hmode : q.advance.smode = q.smode := rfl
  simp only [backsOff, hq, Proc.advance_held, hheld, hmode, Proc.advance_serving, Proc.advance_stall, hstall]
  cases q.smode <;> cases q.serving <;> rfl

/-- The reads and the writes among the four kinds of a FENCE, as its decoder splits them. -/
theorem fence_kinds (n : BitVec 4) : (n.extractLsb' 0 2 != 0) = (n.getLsbD 0 || n.getLsbD 1) ∧
    (n.extractLsb' 2 2 != 0) = (n.getLsbD 2 || n.getLsbD 3) := by
  revert n; decide

/-- What a FENCE asks for. -/
def fenceNeed (sc : Scope) (kinds : BitVec 4) : Need :=
  { scope := sc
    fence := if kinds = 0 then none else some (kinds.getLsbD 0 || kinds.getLsbD 1, kinds.getLsbD 2 || kinds.getLsbD 3) }

theorem exec_fence_eq (sc : Scope) (kinds : BitVec 4) (s : State) :
    exec (.fence sc kinds) s = issue (fenceNeed sc kinds) (fun k p s => s.fin k p) s := by
  rw [exec_fence, execFence, (fence_kinds kinds).1, (fence_kinds kinds).2]
  rfl

section
variable {s : State} {k : Nat} {p : Proc} {sc : Scope} {kinds : BitVec 4}

/-- A FENCE that names a kind waits for what it names. -/
theorem fenceWaits_of_ready (h : Ready s k p (fenceNeed sc kinds)) (hk : kinds ≠ 0) :
    fenceWaits s k p sc (kinds.getLsbD 0 || kinds.getLsbD 1, kinds.getLsbD 2 || kinds.getLsbD 3) = false := by
  have hw := h.order
  simp only [mustWait, fenceNeed, if_neg hk, Option.any_some, Bool.or_eq_false_iff] at hw
  exact hw.2

/-- A FENCE that nothing else keeps from issuing, and whose core holds reduction lines of its scope, sends them home first and
stalls (R141, R354). -/
theorem exec_fence_combines (hk : s.cur = k) (hp : mget s.procs k = some p) (ht : owedTrap p (fenceNeed sc kinds) = none)
    (hw : (kinds.getLsbD 2 || kinds.getLsbD 3) = true) (hheld : p.held = false) (hl : linesHeld s (placeOf k) sc = true) :
    exec (.fence sc kinds) s = .next ((s.combineAll (placeOf k) sc).stallOn k p .order none) := by
  have hne : kinds ≠ 0 := by rintro rfl; exact absurd hw (by decide)
  obtain ⟨hstarted, hstall⟩ := State.start_snd s k p
  have hgoes : backsOff ((s.start k p).1.fin k (s.start k p).2) k (s.start k p).2 false = false :=
    backsOff_fin _ k (hstarted.trans hheld) hstall
  have hcombines : (fenceNeed sc kinds).combines = true := by
    simp only [Need.combines, fenceNeed, if_neg hne, Option.any_some, hw, Bool.or_true]
  have htouches : (fenceNeed sc kinds).touches = false := rfl
  have hlines : linesHeld s (placeOf k) (fenceNeed sc kinds).scope = true := hl
  rw [exec_fence_eq, issue, run_of_get hk hp]
  simp only [ht, htouches, hcombines, hlines]
  simp [fenceNeed, trapSource, emptySource, hgoes]

end

/-- The addresses of HBM (R343). -/
theorem rangeOf_ne_hbm {pa : Nat} (h : ¬ pa < 768 * 2 ^ 30) (core : Nat) : rangeOf pa ≠ .hbm core := by
  have hend : (0x0C000000000 : Nat) = 768 * 2 ^ 30 := rfl
  unfold rangeOf
  rw [hend, if_neg h]
  split_ifs <;> exact Range.noConfusion

end Sys2Proof.Machine

/-- Settles O22: a reduction is an access of its size that folds its value into the core's line, where no other access of the
process to that word is on its way. -/
theorem reductions : Obligations.Reductions := by
  unfold Obligations.Reductions
  intro b c d red
  have folds {op : Nat} {i : Instr} (hi : ∀ s, exec i s = reduction op b c d s) : red op i := by
    intro s k p s₀ q s' ga leaf nd h hm hd hl
    rw [exec_of_deviceAccess hi h hm hd, if_neg (by simp [hl])]
    rfl
  exact ⟨folds (exec_redAdd b c d), folds (exec_redFadd b c d), folds (exec_redMin b c d), folds (exec_redMax b c d)⟩

/-- Settles O24: DELEG reads its address as one byte and calls the core under it, if it lies in HBM. -/
theorem delegation : Obligations.Delegation := by
  unfold Obligations.Delegation
  intro a b c s k p s₀ q s' ga leaf nd h hm
  rw [exec_of_access (exec_deleg a b c) h hm]
  by_cases hga : ga % 2 ^ 44 < 768 * 2 ^ 30
  · rw [if_pos hga]
    have hrange : rangeOf (gaPa ga) = .hbm (ga % 2 ^ 44 / 2 ^ 30) := if_pos hga
    simp only [hrange]
    rfl
  · rw [if_neg hga]
    split
    · exact absurd ‹_› (rangeOf_ne_hbm hga _)
    all_goals rfl

end

section
open Sys2Proof Sys2Proof.Machine Sys2Proof.Safety

namespace Sys2Proof.Machine

theorem State.combineAll_cycle (s : State) (pl : Nat) (sc : Scope) : (s.combineAll pl sc).cycle = s.cycle := by
  have hposts (ls : List RedLine) (t : State) :
      (ls.foldl (fun s l => s.post pl (agentHome (homeOf (l.line * 64))) none (.combine l)) t).cycle = t.cycle := by
    induction ls generalizing t with
    | nil => rfl
    | cons l ls ih => rw [List.foldl_cons, ih, State.post_cycle]
  unfold State.combineAll State.combineIf
  dsimp only
  split
  · rfl
  · exact hposts _ _

/-- A stall begins now. -/
theorem State.stallOn_of_none {s : State} {k : Nat} {p : Proc} (h : p.stall = none) (kind : StallKind) (deadline : Option Nat) :
    s.stallOn k p kind deadline = s.setProc k { p with stall := some { kind := kind, since := s.cycle, deadline := deadline } } := by
  simp only [State.stallOn, h]

section
variable (a b c : BitVec 5) (t : Bool) (n : MonCond)

/-- What MONW asks for. -/
def monwNeed (mem : Bool) : Need :=
  { srcs := [.g b, .g c], dsts := [.g a], touch := .acquire, noRoutine := true
    word := encR 0x1B a b c (BitVec.ofBool t ++ 1#5 ++ 0#2 ++ monCode n ++ BitVec.ofBool mem) }

/-- MONW at the word it finds (R146). -/
def monwGo (k : Nat) (p : Proc) (s : State) (ga : Nat) (leaf : Word) : State :=
  ((s.sendAtom (atomReq k p (ga / 8 * 8) leaf (p.rg b) (.monw a n (p.rg c)) .acquire 0 (deadlineOf s k p t))).waitIn k p
    .home a 0 (deadlineOf s k p t)).block k

theorem exec_monw_mem (s : State) : exec (.monw a b c t n true) s = issue (monwNeed a b c t n true) (fun k p s =>
    s.access k p false (p.rg b) 1 .read fun s ga leaf => s.notHost k p (p.rg b) ga (monwGo a b c t n k p s ga leaf)) s := by
  rw [exec_monw, execMonw]
  simp only [if_true]
  rfl

/-- The word of the scratchpad that MONW.S tests. -/
def monwWord (k : Nat) (p : Proc) (s : State) : Word := BitVec.ofNat 64 (spadNat s k p (scratchOff p (p.rg b) 0 8) 8)

/-- MONW.S of a process with scratchpad whose earlier accesses to the word are performed (R146). -/
theorem exec_monw_spad (s : State) : exec (.monw a b c t n false) s = issue (monwNeed a b c t n false) (fun k p s =>
    s.withSpad k p false (p.rg b)
      (if monHolds n (monwWord b k p s) (p.rg c) then s.fin k (p.wg a 0)
       else (s.waitIn k p (.monS (scratchOff p (p.rg b) 0 8) n (p.rg c)) a 0 (deadlineOf s k p t)).block k)
      [spadGa k p (scratchOff p (p.rg b) 0 8)]) s := by
  rw [exec_monw, execMonw]
  simp only [Bool.false_eq_true, if_false]
  rfl

end

/-- The condition of MONW as the table of R146 has it. -/
theorem monHolds_eq (n : MonCond) (x c : Word) :
    monHolds n x c = match n with | .eq => x == c | .geu => decide (c.toNat ≤ x.toNat) | .ne => x != c := by
  cases n <;> rfl

/-- A group instruction at the word it finds (R147, R148). -/
def groupGo (o : AtomOp) (r b : BitVec 5) (u : Touch) (deadline : Nat → Proc → State → Option Nat) (f : Proc → AtomOp)
    (k : Nat) (p : Proc) (s : State) (ga : Nat) (leaf : Word) : State :=
  let t := s.sendAtom (atomReq k p ga leaf (p.rg b) (f p) u 0 (deadline k p s))
  if o = .gleave then (if p.dropTrap then t.waitIn k p .load 0 0 none else t.fin k p)
  else t.waitIn k p .home r 0 (deadline k p s)

theorem exec_of_groupOp {o : AtomOp} {r b : BitVec 5} {u : Touch} {acc : Access} {tok : List RegRef} {word : IWord}
    {deadline : Nat → Proc → State → Option Nat} {f : Proc → AtomOp} {i : Instr} {s s₀ s' : State} {k ga : Nat} {p q : Proc}
    {leaf : Word} (hi : ∀ s, exec i s = groupOp o r b u acc tok deadline word f s)
    (h : Issues s k p { srcs := .g b :: tok, dsts := [.g r], touch := u, noRoutine := true, word := word } s₀ q)
    (hm : Maps s₀ k q (q.rg b) 64 acc s' ga leaf) (hd : InDevice ga) :
    exec i s = .next ((groupGo o r b u deadline f k q s' ga leaf).retired k q) :=
  exec_of_deviceAccess hi h hm hd

end Sys2Proof.Machine

/-- Settles O23: a FENCE waits for what `mustWait` names and sends home what its core holds; a monitor, a group instruction and
a barrier are accesses of the device's memory that send their request; MONW.S reads its word at once. -/
theorem synchronisation : Obligations.Synchronisation := by
  unfold Obligations.Synchronisation
  refine ⟨fun sc kinds => ?_, fun a b c t n => ?_, fun a b c t => ?_⟩
  · intro reads writes nd
    refine ⟨completes_of_issue (exec_fence_eq sc kinds) fun _ _ _ => rfl, fun s k p h => ⟨fun hr => ?_, fun hw => ?_⟩, ?_⟩
    · have hne : kinds ≠ 0 := by rintro rfl; exact absurd hr (by decide)
      have hwait : fenceWaits s k p sc (reads, writes) = false := fenceWaits_of_ready h hne
      simpa [fenceWaits, hr] using (Bool.or_eq_false_iff.1 hwait).1
    · have hne : kinds ≠ 0 := by rintro rfl; exact absurd hw (by decide)
      have hwait : fenceWaits s k p sc (reads, writes) = false := fenceWaits_of_ready h hne
      have hcombines : nd.combines = true := by simp only [nd, Need.combines, if_neg hne, Option.any_some, hw, Bool.or_true]
      have hout := (Bool.or_eq_false_iff.1 hwait).2
      rw [hw, Bool.true_and, Bool.or_eq_false_iff] at hout
      exact ⟨hout.1, hout.2, h.lines hcombines⟩
    · intro s k p hk hp ht hw hstall hheld hl
      rw [exec_fence_combines hk hp ht hw hheld hl, State.stallOn_of_none hstall, State.combineAll_cycle]
  · intro nd
    refine ⟨fun s k p s₀ q s' ga leaf h hm hd =>
      exec_of_deviceAccess (va := fun p => p.rg b) (go := monwGo a b c t n) (exec_monw_mem a b c t n) h hm hd, ?_⟩
    intro word met
    have hmet (k : Nat) (p : Proc) (s : State) : met k p s = monHolds n (monwWord b k p s) (p.rg c) := (monHolds_eq n _ _).symm
    refine ⟨completesIf_of_issue (exec_monw_spad a b c t n) fun k p s hc => ?_,
      completesIf_of_issue (exec_monw_spad a b c t n) fun k p s hc => ?_⟩
    · obtain ⟨hlog, hspad, hfe, hholds⟩ := hc
      rw [withSpad_of_goes _ _ _ hlog hspad hfe, if_pos ((hmet k p s).symm.trans hholds)]
      exact (putsG_eq a (fun _ => 0) k p s).symm
    · obtain ⟨hlog, hspad, hfe, hfails⟩ := hc
      rw [withSpad_of_goes _ _ _ hlog hspad hfe, if_neg (by rw [← hmet, hfails]; exact Bool.false_ne_true)]
  · intro op waits
    have sends {f : Proc → AtomOp} {o : AtomOp} {r : BitVec 5} {tok : List RegRef} {u : Touch} {acc : Access} {word : IWord}
        {timed : Bool} {i : Instr} (hi : ∀ s, exec i s = groupOp o r b u acc tok (fun k p s => deadlineOf s k p timed) word f s)
        (hf : o ≠ .gleave) : op i (.g b :: tok) [.g r] u acc word f timed fun s k q d => s.waitIn k q .home r 0 d := by
      intro s k p s₀ q s' ga leaf nd h hm hd
      rw [exec_of_groupOp hi h hm hd, groupGo, if_neg hf]
      rfl
    refine ⟨sends (exec_gjoin a b) AtomOp.noConfusion, sends (exec_barArrive a b) AtomOp.noConfusion,
      sends (exec_barDrop a b) AtomOp.noConfusion, sends (exec_barWait a b c t) AtomOp.noConfusion, ?_⟩
    intro s k p s₀ q s' ga leaf nd h hm hd
    rw [exec_of_groupOp (exec_gleave b) h hm hd, groupGo, if_pos rfl]
    rfl
end

section
open Sys2Proof Sys2Proof.Machine Sys2Proof.Safety

namespace Sys2Proof.Machine

/-! ### SPAWN (R152) -/

section
variable (a b : BitVec 5) (q : Proc)

/-- The process and the two result registers of SPAWN: one register for both is written 0 first. -/
def spawnProc : Proc := if a = b then q.wg a 0 else q
def spawnReg₁ : BitVec 5 := if a = b then 0 else a
def spawnReg₂ : BitVec 5 := if a = b then 0 else b

theorem spawn_apart : (if a = b then (q.wg a 0, (0 : BitVec 5), (0 : BitVec 5)) else (q, a, b)) =
    (spawnProc a b q, spawnReg₁ a b, spawnReg₂ a b) := by
  unfold spawnProc spawnReg₁ spawnReg₂
  split <;> rfl

/-- That write leaves everything of the process but its g registers. -/
theorem spawnProc_same {α : Type} (f : Proc → α) (hf : ∀ x, f (q.wg a x) = f q) : f (spawnProc a b q) = f q := by
  unfold spawnProc
  split
  · exact hf 0
  · rfl

end

/-- The task record of a SPAWN of process `p` (R152). -/
def spawnChild (k : Nat) (p : Proc) (arg : Word) (ttype : Nat) (n : BitVec 2) (e : BitVec 512) : Child :=
  { asid := p.asid, ttype := ttype, g1 := arg &&& 0xFFFFFFFFFFFF, parent := handleOf k p.gen, join := n.toNat
    autop := p.autop, dropTrap := p.dropTrap, numctl := p.numctl, epol := p.epol, tvec := p.tvec
    order := spawnOrder (coreOf (placeOf k)) (placeSet e), victim := none, entry := e }

/-- Where the task record goes from core `pl` (R297, R309): to the thief of the oldest request that it suits, where the core
itself comes first and could take the child, else to the first core of its order. -/
def State.spawnPlaced (t : State) (pl : Nat) (child : Child) (own : Own) : State :=
  match (if ttFlag child.entry 0 && child.order.head? == some (coreOf pl) && canTake t pl child then
      stealFor t pl (placeSet child.entry) else none) with
  | some r =>
    ((t.modCore pl fun x => { x with mailbox := x.mailbox.erase r }).modCore r.thief
      fun x => { x with stealOut := none, stealTried := 0 }).post pl r.thief none
        (.stealTask r.thief { child with victim := some pl } own)
  | none => t.spawnNext pl child own

theorem spawnPlaced_of_unstolen {t : State} {pl core : Nat} {child : Child} {own : Own} {rest : List Nat}
    (ho : child.order = core :: rest) (h : ttFlag child.entry 0 = false ∨ (t.core pl).mailbox = []) :
    t.spawnPlaced pl child own = t.post pl (devOf (placeOf own.p) * 1024 + core) none
      (.childCreate (devOf (placeOf own.p) * 1024 + core) { child with order := rest } own) := by
  have hnone : (if ttFlag child.entry 0 && child.order.head? == some (coreOf pl) && canTake t pl child then
      stealFor t pl (placeSet child.entry) else none) = none := by
    rcases h with h | h
    · simp [h]
    · simp [stealFor, h]
  simp only [State.spawnPlaced, hnone]
  simp only [State.spawnNext, ho]

theorem spawnPlaced_of_thief {t : State} {pl : Nat} {child : Child} {own : Own} {rest : List Nat} {thief : Steal}
    (ho : child.order = coreOf pl :: rest) (hflag : ttFlag child.entry 0 = true) (htake : canTake t pl child = true)
    (hthief : stealFor t pl (placeSet child.entry) = some thief) :
    t.spawnPlaced pl child own = ((t.modCore pl fun x => { x with mailbox := x.mailbox.erase thief }).modCore thief.thief
      fun x => { x with stealOut := none, stealTried := 0 }).post pl thief.thief none
        (.stealTask thief.thief { child with victim := some pl } own) := by
  have hsome : (if ttFlag child.entry 0 && child.order.head? == some (coreOf pl) && canTake t pl child then
      stealFor t pl (placeSet child.entry) else none) = some thief := by simp [hflag, ho, htake, hthief]
  simp only [State.spawnPlaced, hsome]

/-- The needs of SPAWN. -/
def spawnNeed (a b c : BitVec 5) (n : BitVec 2) : Need :=
  { srcs := [.g b, .g c], dsts := [.g a], touch := .release, quiet := true, noRoutine := true
    word := encR 0x1C a b c (0#9 ++ n) }

/-- A SPAWN that is refused completes with a status and the handle 0. -/
def State.spawnRefused (t : State) (k : Nat) (a b : BitVec 5) (q : Proc) (code : Word) : State :=
  t.setProc k (((spawnProc a b q).wg (spawnReg₂ a b) 0).wg (spawnReg₁ a b) code).advance

section
variable {a b c : BitVec 5} {n : BitVec 2} {s s' : State} {k : Nat} {p q : Proc} (h : Issues s k p (spawnNeed a b c n) s' q)
include h

theorem exec_spawn_of_noType (ht : 4096 ≤ (q.rg b).toNat ∨ (s'.space q.asid).types[(q.rg b).toNat]? = none) :
    exec (.spawn a b c n) s = .next ((s'.spawnRefused k a b q 7).retired k q) := by
  have hnone : (if (q.rg b).toNat < 4096 then (s'.space q.asid).types[(q.rg b).toNat]? else none) = none := by
    rcases ht with ht | ht
    · exact if_neg (by omega)
    · rw [ht, ite_self]
  have hasid : (spawnProc a b q).asid = q.asid := spawnProc_same a b q Proc.asid (q.wg_asid a)
  rw [exec_of_issues (exec_spawn a b c n) h]
  simp only [spawn_apart, hasid, hnone]
  rfl

variable {e : BitVec 512} (hlt : (q.rg b).toNat < 4096) (he : (s'.space q.asid).types[(q.rg b).toNat]? = some e)
include hlt he

/-- SPAWN of a task type that the space has: refused by its mode or its join counter, or on its way. -/
theorem exec_spawn_of_type : exec (.spawn a b c n) s = .next
    ((if ttFlag e 3 && !q.smode then s'.spawnRefused k a b q 7
      else if (q.joinAt n.toNat).count = BitVec.allOnes 32 then (s'.countCore (placeOf k) 0).spawnRefused k a b q 6
      else (s'.waitIn k (spawnProc a b q) (.spawn (spawnReg₂ a b) n.toNat) (spawnReg₁ a b) 0 none).spawnPlaced (placeOf k)
        (spawnChild k q (q.rg c) (q.rg b).toNat n e) (ownOf k q .none)).retired k q) := by
  have hsome : (if (q.rg b).toNat < 4096 then (s'.space (spawnProc a b q).asid).types[(q.rg b).toNat]? else none) = some e := by
    rw [if_pos hlt, spawnProc_same a b q Proc.asid (q.wg_asid a), he]
  have hmode : (spawnProc a b q).smode = q.smode := spawnProc_same a b q Proc.smode fun x => by simp [Proc.smode]
  have hjoins : (spawnProc a b q).joins = q.joins := spawnProc_same a b q Proc.joins (q.wg_joins a)
  have hown : ownOf k (spawnProc a b q) .none = ownOf k q .none :=
    spawnProc_same a b q (ownOf k · .none) fun x => by simp [ownOf, Proc.smode]
  have hchild : spawnChild k (spawnProc a b q) (q.rg c) (q.rg b).toNat n e = spawnChild k q (q.rg c) (q.rg b).toNat n e :=
    spawnProc_same a b q (spawnChild k · (q.rg c) (q.rg b).toNat n e) fun x => by
      simp [spawnChild, Proc.autop, Proc.dropTrap]
  rw [exec_of_issues (exec_spawn a b c n) h, ← hchild, ← hown]
  simp only [spawn_apart, hsome, hmode, hjoins]
  rfl

end

/-! ### EXIT, EXIT.R and PRIO (R153, R155, R156) -/

section
variable {s : State} {k : Nat} {p : Proc} (h : ∀ d ∈ p.doors, d.2.isSend = false → pushesOn s d.2.chan = false)
include h

/-- A process toward whose windows no push is in flight ends at once. -/
theorem exit_of_settled (keep : Option Retained) : s.exit k p keep =
    match keep with
    | none => (s.clocked k p).endProc k .normal none false
    | some r => ((s.clocked k p).endProc k .normal none true).modCore (placeOf k) fun c => { c with retained := c.retained ++ [r] } := by
  have hnone : (p.doors.any fun d => !d.2.isSend && pushesOn s d.2.chan) = false := by
    simp only [List.any_eq_false, Bool.and_eq_true, Bool.not_eq_true', not_and, Bool.not_eq_true]
    exact h
  unfold State.exit
  rw [hnone]
  cases keep <;> rfl

end

/-- Whether EXIT.R of process `p` keeps its allocation for the process that the handle names (R155). -/
def suitsSuccessor (s : State) (k : Nat) (p : Proc) (handle : Word) : Bool :=
  match s.byHandle handle with
  | some (j, q) => placeOf j == placeOf k && j != k && q.splog == p.splog && p.splog != 0 && !q.started
  | none => false

theorem suitsSuccessor_iff {s : State} {k : Nat} {p : Proc} {handle : Word} : suitsSuccessor s k p handle = true ↔
    ∃ j q, s.byHandle handle = some (j, q) ∧ placeOf j = placeOf k ∧ j ≠ k ∧ q.splog = p.splog ∧ p.splog ≠ 0 ∧ q.started = false := by
  unfold suitsSuccessor
  split
  · rename_i j q hq
    simp [hq, and_assoc]
  · rename_i hq
    simp [hq]

/-- The lowest bits of a word as a number. -/
theorem field_low (x : Word) (n : Nat) : field x 0 n = x.toNat % 2 ^ n := by simp [field]

end Sys2Proof.Machine

/-- Settles O25: SPAWN is refused or places its record; the others do at once what their rules say. -/
theorem processes : Obligations.Processes := by
  unfold Obligations.Processes
  refine ⟨fun a b c n s k p => ?_, fun a b t n => ?_⟩
  · intro nd pl ra rb s' q h q' answers ttype
    refine ⟨fun ht => exec_spawn_of_noType h ht, fun e hlt he => ?_⟩
    have hspawn := exec_spawn_of_type h hlt he
    refine ⟨fun hs hm => ?_, fun hs hc => ?_, fun hs hc => ?_⟩
    · rw [if_pos (by simp [hs, hm])] at hspawn
      exact hspawn
    · rw [if_neg (by simpa using hs), if_pos hc] at hspawn
      exact hspawn
    · intro child t
      rw [if_neg (by simpa using hs), if_neg hc] at hspawn
      have hplaced : exec (.spawn a b c n) s = .next ((t.spawnPlaced pl child (ownOf k q .none)).retired k q) := hspawn
      refine ⟨fun core rest ho hfree => ?_, fun rest thief ho hflag htake hthief => ?_⟩
      · rw [hplaced, spawnPlaced_of_unstolen (t := t) ho hfree]
        rfl
      · rw [hplaced, spawnPlaced_of_thief (t := t) ho hflag htake hthief]
  · intro nd ndx keeps settled ends
    refine ⟨completesIf_of_issue exec_exit fun k p s h => exit_of_settled h none,
      completesIf_of_issue (exec_exitR b) fun k p s h => ?_, completesIf_of_issue (exec_exitR b) fun k p s h => ?_,
      completes_of_issue exec_yield fun _ _ _ => rfl, completes_of_issue (exec_prio b) fun k p s => ?_,
      completes_of_issue (exec_self a) fun k p s => (putsG_eq a _ k p s).symm,
      completesIf_of_issue (exec_jwait a t n) fun k p s h => if_pos h,
      completesIf_of_issue (exec_jwait a t n) fun k p s h => if_neg h⟩
    · exact (congrArg (s.exit k p) (if_pos (suitsSuccessor_iff.2 h.2))).trans (exit_of_settled h.1 _)
    · exact (congrArg (s.exit k p) (if_neg (mt suitsSuccessor_iff.1 h.2))).trans (exit_of_settled h.1 none)
    · rw [field_low]
      rfl
end

section
open Sys2Proof Sys2Proof.Machine Sys2Proof.Safety

namespace Sys2Proof.Machine

/-! ### Doors (R20, R21) -/

section
variable {s : State} {k : Nat} {p : Proc} {d : BitVec 6} {e : Door}

/-- A bound door of the direction that is asked, if one is, is the instruction's door. -/
theorem withDoor_of_bound (hd : mget p.doors d.toNat = some e) {send : Option Bool} (hs : send ≠ some (!e.isSend))
    (go : Door → State) : s.withDoor k p d send go = go e := by
  simp only [State.withDoor, hd, if_neg hs]

/-- A door that is bound in no direction asked traps DOOR (R20). -/
theorem withDoor_of_unbound {send : Bool} (h : ∀ e, mget p.doors d.toNat = some e → e.isSend = !send) (go : Door → State) :
    s.withDoor k p d (some send) go = s.trap k p false 9 0 (d.setWidth 64) := by
  unfold State.withDoor
  split
  · rfl
  · rename_i e he
    rw [if_pos (by rw [h e he, Bool.not_not])]

/-- In S mode every door is open to CHCLOSE, CHBIND and WINOPEN, in U mode all but d62 and d63 (R21). -/
theorem notFixed_of_open (h : p.smode = true ∨ d.toNat < 62) (go : State) : s.notFixed k p d go = go := by
  unfold State.notFixed
  rw [if_neg]
  simp only [Bool.and_eq_true, Bool.not_eq_true', decide_eq_true_eq, not_and, Nat.not_le]
  intro hm
  exact h.resolve_left (by simp [hm])

end

/-! ### SEND and RECV (R160) -/

section
variable {s : State} {k : Nat} {p : Proc} {a : BitVec 5} {d : Nat} {t : Bool} {e : Door} {x : Chan}

/-- On a channel that is open at both ends, by a send end that is not poisoned, an item or tile is offered, waits for a slot
or is sent (R321, R325). -/
theorem sendGo_of_open (hs : x.sstate = .opened) (hr : x.rclosed = false) (he : e.poisoned = false) (ws : List Word)
    (tile : Option Nat) : s.sendGo k p a d t e x ws tile =
      if x.cap = 0 then
        (s.post (sendAgent s e) (agentChan e.chan) none (.offer e.chan (match tile with
          | none => .offer { words := ws, nan1 := p.nan1, seq := x.nexts } k p.gen
          | some _ => .tileOffer k p.gen p.nan1))).waitIn k p (.offer e.chan tile) a d (deadlineOf s k p t)
      else if x.credit = 0 then s.waitIn k p (.credit e.chan ws tile) a d (deadlineOf s k p t)
      else match tile with
        | none => (s.sendItem e k p p.nan1 x ws none).status k p a stOk d
        | some _ => (s.sendItem e k p p.nan1 x ws tile).waitIn k p (.copy e.chan) a d (deadlineOf s k p t) := by
  unfold State.sendGo
  refine (if_neg (by simp [hs, hr, he])).trans ?_
  split_ifs <;> cases tile <;> rfl

end

/-- Two results in one g register other than g0: it takes a free value, and g0 stands for both (log 24). -/
theorem twoResults_eq (s : State) (p : Proc) (a b : BitVec 5) : s.twoResults p a b =
    if a == b && a != 0 then ({ s with free := s.free + 1 }, p.wg a (Config.freeWord s.free), 0, 0) else (s, p, a, b) := by
  unfold State.twoResults
  refine if_congr ?_ rfl rfl
  simp

/-- The register file that suits a word or message channel (R160). -/
theorem itemSuits_of_typ {x : Chan} {f : ItemFile} (h : x.typ = match f with | .g => .word | .v => .message) :
    itemSuits x f = true := by
  cases f <;> simp only [itemSuits, h]

end Sys2Proof.Machine

/-- Settles O29: SEND on an open send door is `sendGo` of its words, and on any other door it traps. -/
theorem sending : Obligations.Sending := by
  unfold Obligations.Sending
  intro a b f d t s k p nd s' q ws h
  refine ⟨fun e x he hsend hx htyp hs hr hpoison => ?_, fun hbad => ?_⟩
  · rw [exec_of_issues (exec_send a b f d t) h, withDoor_of_bound he (by simp [hsend])]
    simp only [hx, itemSuits_of_typ htyp, Bool.not_true, Bool.false_eq_true, if_false]
    rw [sendGo_of_open hs hr hpoison]
    rfl
  · rw [exec_of_issues (exec_send a b f d t) h, withDoor_of_unbound hbad]

/-- Settles O30: RECV on a receive door of the process registers and waits, with its two results apart. -/
theorem receiving : Obligations.Receiving := by
  unfold Obligations.Receiving
  intro a b f d t s k p e x dst nd s' q h he hrecv hx htyp hfree one w q' ra rb
  rw [exec_of_issues (exec_recv a b f d t) h, withDoor_of_bound he (by simp [hrecv])]
  have hfree' : (attachedDoors s' k q).contains d.toNat = false := by simpa using hfree
  simp only [hx, itemSuits_of_typ htyp, hfree', Bool.not_true, Bool.or_self, Bool.false_eq_true, if_false]
  cases f with
  | v => rfl
  | g =>
    have hone : one = (a == b && a != 0) := rfl
    simp only [twoResults_eq, w, q', ra, rb, ← hone]
    cases one
    · rfl
    · simp only [if_true, Proc.wg_gen]
end

section
open Sys2Proof Sys2Proof.Machine Sys2Proof.Safety

namespace Sys2Proof.Machine

/-! ### CHCLOSE and WINOPEN (R166, R168) -/

section
variable {s : State} {k : Nat} {p : Proc} {a : BitVec 5} {d : Nat} {e : Door} {x : Chan}

/-- An end toward whose window no push has landed without its stamp closes at once. -/
theorem closeDoor_of_landed (hx : mget s.chans e.chan = some x) (hl : e.isSend = true ∨ x.landing = false) :
    s.closeDoor k p a d e =
      let gone : Bool := if e.isSend then x.rclosed else x.send == .gone
      let t := s.fin k (({ p with doors := mdel p.doors d } : Proc).wg a (statusWord (if gone then stClosed else stOk) d))
      if e.isSend then t.closeSend e.chan else ((t.closeRecv e.chan).roundTest k).holderEvent k := by
  have hnot : (!e.isSend && (mget s.chans e.chan).any Chan.landing) = false := by
    rcases hl with hl | hl <;> simp [hx, hl]
  unfold State.closeDoor
  rw [hnot, hx]
  rfl

end

end Sys2Proof.Machine

/-- Settles O31: each instruction meets its door and its channel, and then does at once what its rule says. -/
theorem doorInstructions : Obligations.DoorInstructions := by
  unfold Obligations.DoorInstructions
  refine ⟨fun a b d t => ?_, fun a b c d s k p e x => ?_⟩
  · intro alt poi mark
    refine ⟨completesIf_of_issue (exec_alt a b t) fun k p s h => ?_, completesIf_of_issue (exec_alt a b t) fun k p s h => ?_,
      fun s k p e x s' q h he hsend hx htyp hr => ?_, completes_of_issue (exec_mark a) fun k p s => ?_⟩
    · dsimp only
      rw [if_pos h]
      exact status_eq s k p a stTimeout 0
    · obtain ⟨hne, hbound, hfree⟩ := h
      have hdoors : ((List.range 64).find? fun i => (p.rg b).getLsbD i && (mget p.doors i).isNone) = none := by
        simp only [List.find?_eq_none, List.mem_range, Bool.and_eq_true, not_and, Bool.not_eq_true, Option.isNone_eq_false_iff]
        exact hbound
      have hattached : ((attachedDoors s k p).find? fun i => (p.rg b).getLsbD i) = none := by
        simpa only [List.find?_eq_none, Bool.not_eq_true] using hfree
      dsimp only
      rw [if_neg hne, hdoors, hattached]
    · rw [exec_of_issues (exec_poison a d) h, withDoor_of_bound he (by simp [hsend])]
      simp only [hx, if_neg htyp, hr, Bool.false_eq_true, if_false]
      rfl
    · have hround : ((p.wg a 0).advance).round = p.round := p.wg_round a 0
      simp only [hround]
  · intro clo wop wcl
    refine ⟨fun s' q h hopen he hx hl => ?_, ?_, fun s' q h he hrecv hx htyp hwin => ?_⟩
    · rw [exec_of_issues (exec_chclose a d) h, notFixed_of_open hopen, withDoor_of_bound he (by simp),
        closeDoor_of_landed hx hl]
      rfl
    · intro s' q size h hopen he hrecv hx htyp hwin hmin hmax
      rw [exec_of_issues (exec_winopen a b c d) h, notFixed_of_open hopen, withDoor_of_bound he (by simp [hrecv])]
      have hfits : ¬ (x.typ ≠ .window ∨ (q.rg c).toNat < 6 ∨ q.splog < (q.rg c).toNat) := by
        rw [not_or, not_or]
        exact ⟨not_not_intro htyp, by omega, by omega⟩
      simp only [hx, if_neg hfits]
      split
      · exact absurd ‹_› (hwin _ _)
      all_goals rfl
    · rw [exec_of_issues (exec_winclose a d) h, withDoor_of_bound he (by simp [hrecv])]
      obtain ⟨u, v, hwin⟩ := hwin
      simp only [hx, htyp, hwin]
      rfl
end

section
open Sys2Proof Sys2Proof.Machine Sys2Proof.Safety

namespace Sys2Proof.Machine

/-! ### Moving an end (R165, R334) -/

section
variable {s : State} {k : Nat} {p : Proc} {a : BitVec 5} {d src sd kind tdoor : Nat} {e : Door} {x : Chan} {tgt : Word} {capb : Bool}
  {h : Holder} (hx : mget s.chans e.chan = some x) (hh : bindHolder s k p x e.isSend kind tgt tdoor = .ok h)
include hx hh

/-- An end that its old holder has left alone begins to move. -/
theorem bindGo_of_free (hfault : (e.isSend && isFaultChan s e.chan) = false) (hcopy : x.copying = false) (hmove : x.moving = false)
    (hquiet : quietOf s e.chan x e.isSend = .free) : s.bindGo k p a d src sd e kind tgt tdoor capb =
      s.startBind k p a d e.chan x e.isSend (if p.smode then capb else e.bindCap) h := by
  unfold State.bindGo
  have hfree : (Quiet.free == Quiet.busy) = false := rfl
  simp only [hx, hh, hfault, hcopy, hmove, hquiet, hfree, Bool.or_self, Bool.false_eq_true, if_false]

/-- A send end of a fault door moves at once (R22). -/
theorem bindGo_of_fault (hsend : e.isSend = true) (hfault : isFaultChan s e.chan = true) {u : Proc}
    (hu : mget ((s.moveFaultEnd src sd h (if p.smode then capb else e.bindCap) e).chanEvent e.chan).procs k = some u) :
    s.bindGo k p a d src sd e kind tgt tdoor capb =
      ((s.moveFaultEnd src sd h (if p.smode then capb else e.bindCap) e).chanEvent e.chan).status k u a stOk d := by
  have hboth : (e.isSend && isFaultChan s e.chan) = true := by rw [hsend, hfault]; rfl
  unfold State.bindGo
  simp only [hx, hh, hboth, if_true, hu]

end

/-- The channel that CHNEW of a shape makes, or FULL where it finds no room (R164). -/
def chnewGo (a : BitVec 5) (d : BitVec 6) (k : Nat) (p : Proc) (w : ChanShape) (s : State) : State :=
  let need := if w.typ = ChanType.tile then w.cap * w.rows * w.rowb else 0
  match (if need = 0 then some (s, 0) else s.grantBytes (placeOf k) p.asid need) with
  | none => s.status k p a stFull d.toNat
  | some (u, stage) =>
    if 8192 ≤ recordsAt s (placeOf k) then s.status k p a stFull d.toNat
    else
      let c := u.nextChan
      let doors := mset (mset p.doors d.toNat { chan := c, isSend := true, bindCap := true, marks := 0 }) w.rdoor
        { chan := c, isSend := false, bindCap := true, marks := if w.typ = ChanType.window then 0 else bindMarks s p }
      ({ u with nextChan := c + 1 }.setChan c
        (newChan w p.asid stage (.proc k p.gen d.toNat) (.proc k p.gen w.rdoor))).status k { p with doors := doors } a stOk d.toNat

/-- The needs of CHNEW. -/
def chnewNeed (a b : BitVec 5) (d : BitVec 6) : Need :=
  { srcs := [.g b], dsts := [.g a], noRoutine := true, word := encR 0x1D a b 0 (d ++ 5#5) }

/-- CHNEW on two free doors makes the channel of its descriptor, if that has a shape (R164). -/
theorem exec_chnew_of_issues {a b : BitVec 5} {d : BitVec 6} {s s' : State} {k : Nat} {p q : Proc}
    (h : Issues s k p (chnewNeed a b d) s' q) (hd : mget q.doors d.toNat = none) (hr : mget q.doors (field (q.rg b) 0 6) = none)
    (hne : field (q.rg b) 0 6 ≠ d.toNat) : exec (.chnew a b d) s = .next
      ((match chanShape (q.rg b) with
        | none => s'.status k q a stBadType d.toNat
        | some w => chnewGo a d k q w s').retired k q) := by
  rw [exec_of_issues (exec_chnew a b d) h]
  simp only [hd, hr, hne, Option.isSome_none, Bool.false_eq_true, or_self, if_false]
  rfl

/-- CHNEW of a shape whose staging slots are granted, at a core with room for the record. -/
theorem chnewGo_of_room {a : BitVec 5} {d : BitVec 6} {k stage : Nat} {p : Proc} {w : ChanShape} {s u : State}
    (hstage : (if (if w.typ = ChanType.tile then w.cap * w.rows * w.rowb else 0) = 0 then some (s, 0)
      else s.grantBytes (placeOf k) p.asid (if w.typ = ChanType.tile then w.cap * w.rows * w.rowb else 0)) = some (u, stage))
    (hroom : recordsAt s (placeOf k) < 8192) : chnewGo a d k p w s =
      ({ u with nextChan := u.nextChan + 1 }.setChan u.nextChan
        (newChan w p.asid stage (.proc k p.gen d.toNat) (.proc k p.gen w.rdoor))).status k
          { p with doors := mset (mset p.doors d.toNat { chan := u.nextChan, isSend := true, bindCap := true, marks := 0 }) w.rdoor
                     { chan := u.nextChan, isSend := false, bindCap := true
                       marks := if w.typ = ChanType.window then 0 else bindMarks s p } } a stOk d.toNat := by
  unfold chnewGo
  simp only [hstage, if_neg (Nat.not_le.2 hroom)]

/-- The needs of CHBIND. -/
def chbindNeed (a b c : BitVec 5) (d : BitVec 6) : Need :=
  { scope := .system, srcs := [.g b, .g c], dsts := [.g a], touch := .release, quiet := true, noRoutine := true
    word := encR 0x1D a b c (d ++ 6#5) }

/-- CHBIND on a door that its process may move: the capability and the reserved bits are checked before the bind (R165). -/
theorem exec_chbind_of_issues {a b c : BitVec 5} {d : BitVec 6} {s s' : State} {k : Nat} {p q : Proc} {e : Door}
    (h : Issues s k p (chbindNeed a b c d) s' q) (hopen : q.smode = true ∨ d.toNat < 62) (he : mget q.doors d.toNat = some e) :
    exec (.chbind a b c d) s = .next
      ((if !q.smode && !e.bindCap then s'.trap k q false 2 0 ((encR 0x1D a b c (d ++ 6#5)).setWidth 64)
        else if field (q.rg c) 6 2 ≠ 0 ∨ field (q.rg c) 10 6 ≠ 0 ∨ field (q.rg c) 17 47 ≠ 0 then
          s'.status k q a stBadType d.toNat
        else s'.bindGo k q a d.toNat k d.toNat e (field (q.rg c) 8 2) (q.rg b) (field (q.rg c) 0 6)
          ((q.rg c).getLsbD 16)).retired k q) := by
  unfold chbindNeed at h
  rw [exec_chbind, execChbind, issue_of_issues h, notFixed_of_open hopen, withDoor_of_bound he (by simp)]

/-- The needs of CHBIND.D. -/
def chbindDNeed (a b : BitVec 5) : Need :=
  { scope := .system, srcs := [.g b], dsts := [.g a], needS := true, touch := .both, noRoutine := true, word := encR 0x1D a b 0 0x016 }

/-- CHBIND.D with a descriptor in its ranges, on a bound door of its own process: the bind of that door (R165). -/
theorem exec_chbindD_of_own {a b : BitVec 5} {s s₀ s₁ : State} {k : Nat} {p q : Proc} {ws : List Word} {e : Door}
    (h : Issues s k p (chbindDNeed a b) s₀ q) (halign : (q.rg b).toNat % 8 = 0) (hws : s₀.issueWords k q (q.rg b) 4 = (s₁, .ok ws))
    (hown : ws.getD 0 0 = 0) (hrange : ¬ (64 ≤ field (ws.getD 1 0) 0 8 ∨ 64 ≤ field (ws.getD 1 0) 8 8 ∨ 4 ≤ field (ws.getD 1 0) 16 8 ∨
      2 ≤ field (ws.getD 1 0) 24 8 ∨ field (ws.getD 1 0) 32 32 ≠ 0 ∨ ws.getD 3 0 ≠ 0))
    (he : mget q.doors (field (ws.getD 1 0) 0 8) = some e) :
    exec (.chbindD a b) s = .next ((s₁.bindGo k q a 0 k (field (ws.getD 1 0) 0 8) e (field (ws.getD 1 0) 16 8) (ws.getD 2 0)
      (field (ws.getD 1 0) 8 8) ((ws.getD 1 0).getLsbD 24)).retired k q) := by
  unfold chbindDNeed at h
  rw [exec_chbindD, execChbindD, issue_of_issues h]
  simp only [halign, hws, hown, hrange, he, ne_eq, not_true_eq_false, if_false, if_true]

/-- A field of a word is 0 where its bits are. -/
theorem field_eq_zero {x : Word} {lo n : Nat} : field x lo n = 0 ↔ x.extractLsb' lo n = 0 := by
  rw [field, ← BitVec.toNat_inj]
  simp

end Sys2Proof.Machine

/-- Settles O32: each instruction meets its checks in their order; a copy that its target takes installs the end, and the
announcement and its answer go back the same way. -/
theorem channelEnds : Obligations.ChannelEnds := by
  unfold Obligations.ChannelEnds
  refine ⟨fun a b d s k p => ?_, fun a b c d s k p => ?_, fun s n src dst c d place o x isSend cap h own p w => ?_⟩
  · intro nd s' q r h hd hr hne
    have hnew := exec_chnew_of_issues (a := a) h hd hr hne
    refine ⟨fun w u stage hw hstage hroom => ?_, fun hw => ?_⟩
    · rw [hnew, hw]
      exact congrArg (fun t : State => Host.Outcome.next (t.retired k q)) (chnewGo_of_room hstage hroom)
    · rw [hnew, hw]
      rfl
  · intro free word nd ndd
    refine ⟨?_, ?_⟩
    · intro s' q w e x hold h hopen he
      have hbind := exec_chbind_of_issues (a := a) (b := b) (c := c) h hopen he
      have hgo (hcap : q.smode = true ∨ e.bindCap = true) (h₁ : w.extractLsb' 6 2 = 0) (h₂ : w.extractLsb' 10 6 = 0)
          (h₃ : w.extractLsb' 17 47 = 0) : exec (.chbind a b c d) s = .next
            ((s'.bindGo k q a d.toNat k d.toNat e (field w 8 2) (q.rg b) (field w 0 6) (w.getLsbD 16)).retired k q) := by
        rw [hbind, if_neg (by simp only [Bool.and_eq_true, Bool.not_eq_true', not_and]; intro hm; simpa [hm] using hcap),
          if_neg (by rw [field_eq_zero.2 h₁, field_eq_zero.2 h₂, field_eq_zero.2 h₃]; simp)]
      refine ⟨fun hcap h₁ h₂ h₃ hfree hh => ?_, fun u hcap h₁ h₂ h₃ hx hsend hfault hh => ?_, fun hm hcap => ?_⟩
      · obtain ⟨hx, hfault, hcopy, hmove, hquiet⟩ := hfree
        rw [hgo hcap h₁ h₂ h₃, bindGo_of_free hx hh hfault hcopy hmove hquiet]
      · intro t hu
        rw [hgo hcap h₁ h₂ h₃, bindGo_of_fault hx hh hsend hfault hu]
        rfl
      · rw [hbind, if_pos (by simp [hm, hcap])]
    · intro s₀ q s₁ ws e x hold w h halign hws h0 h3 hd ht hkind hcap hz he hfree hh
      obtain ⟨hx, hfault, hcopy, hmove, hquiet⟩ := hfree
      rw [exec_chbindD_of_own h halign hws h0 (by simp only [not_or, not_le, not_not]; exact ⟨hd, ht, hkind, hcap, hz, h3⟩) he,
        bindGo_of_free hx hh hfault hcopy hmove hquiet]
  · intro msg
    refine ⟨fun ha hx hold hcode hquiet hcopy => ?_, fun ha => ?_, fun ha hp hw hk => ?_, rfl⟩
    · have hx' : mget (s.took n).chans c = some x := hx
      simp only [exec_recordCopy, execRecordCopy, ha, msg, hx', if_neg hold, hcode, hquiet, hcopy]
      cases isSend <;> rfl
    · simp only [exec_rebindAnnounce, execRebindAnnounce, ha, msg]
    · obtain ⟨wk⟩ := w
      simp only at hk
      simp only [exec_rebindAck, execRebindAck, ha, msg, hp, hw, hk, if_true]
      rfl
end

section
open Sys2Proof Sys2Proof.Machine Sys2Proof.Safety

namespace Sys2Proof.Machine

/-! ### The scratchpad of an instruction and the doors of a halo (R171, R172) -/

/-- In a process with scratchpad, with no access to it on its way through the aperture, the instruction goes on. -/
theorem withSpad_of_settled {s : State} {k : Nat} {p : Proc} {val : Word} (h : p.splog ≠ 0) (hs : spadWaits s k p.gen = false)
    (go : State) : s.withSpad k p false val go = go := by
  unfold State.withSpad
  rw [if_neg h, if_neg (by simp [hs])]

/-- Whether the door of a direction stops THALO: a receive door, or none where the package has no edge (R172). -/
def haloBad (k : Nat) (p : Proc) (d i : Nat) : Bool :=
  match mget p.doors (d + i) with
  | none => !atEdge (coreOf (placeOf k)) i
  | some e => !e.isSend

/-- No direction stops THALO where each has a bound send door or a package edge. -/
theorem haloBad_find?_eq_none {k d : Nat} {p : Proc}
    (h : ∀ i < 4, match mget p.doors (d + i) with | none => atEdge (coreOf (placeOf k)) i = true | some e => e.isSend = true) :
    (List.range 4).find? (haloBad k p d) = none := by
  rw [List.find?_eq_none]
  intro i hi
  have hdoor := h i (List.mem_range.1 hi)
  unfold haloBad
  cases he : mget p.doors (d + i) <;> simp only [he] at hdoor ⊢ <;> simp [hdoor]

/-- The four pushes of a halo, in the order of the directions: the state and the outcome of each, 255 where it is not known yet. -/
def haloPushes (k : Nat) (p : Proc) (d : Nat) (sh : Nat × Nat × Nat × Nat) (base : Nat) (s : State) : State × List Nat :=
  (List.range 4).foldl (fun r i => ((r.1.haloPush k p d base sh i).1, r.2 ++ [(r.1.haloPush k p d base sh i).2])) (s, [])

/-- What THALO does past its checks: its four pushes, and the wait for the outcomes that are not known yet (R172). -/
def thaloGo (a b : BitVec 5) (d : Nat) (t : Bool) (k : Nat) (p : Proc) (sh : Nat × Nat × Nat × Nat) (s : State) : State :=
  let skip := (List.range 4).foldl (fun n i => n + (if (mget p.doors (d + i)).isNone then 2 ^ i else 0)) 0
  let r := haloPushes k p d sh (scratchOff p (p.rg b) 0 8) s
  if r.2.contains 255 then r.1.waitIn k p (.halo r.2 skip) a d (deadlineOf r.1 k p t)
  else r.1.fin k (p.wg a (haloStatus r.2 d skip))

/-- THALO is an issue that checks its doors, its scratchpad and its shape, and then goes on. -/
theorem exec_thalo_eq (a b c : BitVec 5) (d : BitVec 6) (t : Bool) (s : State) : exec (.thalo a b c d t) s =
    issue { scope := .system, srcs := [.g b, .g c], dsts := [.g a], touch := .release, noRoutine := true
            word := encR 0x1E a b c (d ++ BitVec.ofBool t ++ 2#4) } (fun k p s =>
      match (List.range 4).find? (haloBad k p d.toNat) with
      | some i => s.trap k p false 9 0 (BitVec.ofNat 64 (d.toNat + i))
      | none => s.withSpad k p false (p.rg b) (match haloShape (p.rg c) with
        | none => s.status k p a stBadType d.toNat
        | some sh => thaloGo a b d.toNat t k p sh s)) s := rfl

end Sys2Proof.Machine

/-- Settles O33: each instruction passes its checks; what is left is its message and its wait. -/
theorem messagesAndTiles : Obligations.MessagesAndTiles := by
  unfold Obligations.MessagesAndTiles
  intro a b c d t s k p ams til hal
  refine ⟨?_, fun e x => ⟨?_, ?_⟩, ?_⟩
  · intro s' q pl ws h hin hinbox hreach
    rw [exec_amsg, execAmsg, issue_of_issues h]
    have hhere : (!(inService s' (devOf pl) 0 (coreOf pl) && (reserved s' pl q.asid .inbox).isSome) ||
        !reachable s' (keyDev k) (devOf pl) q.asid) = false := by rw [hin, hinbox, hreach]; rfl
    simp only [pl] at hhere
    simp only [hhere, Bool.false_eq_true, if_false]
    rfl
  · intro s' q h he hsend hlog hspad hx htyp hs hr hpoison
    rw [exec_of_issues (exec_sendt a b d t) h, withDoor_of_bound he (by simp [hsend]), withSpad_of_settled hlog hspad]
    simp only [hx, htyp, ne_eq, not_true_eq_false, if_false]
    rw [sendGo_of_open hs hr hpoison]
  · intro s' q h he hrecv hlog hspad hx htyp
    rw [exec_of_issues (exec_recvt a b d t) h, withDoor_of_bound he (by simp [hrecv]), withSpad_of_settled hlog hspad]
    simp only [hx, htyp, ne_eq, not_true_eq_false, if_false]
  · intro s' q sh h hlog hspad hsh hdoors
    rw [exec_of_issues (exec_thalo_eq a b c d t) h, haloBad_find?_eq_none hdoors, withSpad_of_settled hlog hspad, hsh]
    rfl
end

section
open Sys2Proof Sys2Proof.Machine Sys2Proof.Safety

namespace Sys2Proof.Machine

/-! ### What arrives at a record (R320 to R332) -/

/-- An open record that a process holds, and that is not moving, appends what arrives and acts on the change (R320). -/
theorem State.control_of_process {s : State} {c q g d : Nat} {x : Chan} {e : Entry} (hx : mget s.chans c = some x)
    (hrecv : x.recv = .proc q g d) (hmove : x.moving = false) (hopen : x.rclosed = false) :
    s.control c e = (s.setChan c { x with q := x.q ++ [e] }).chanEvent c := by
  have hdated : x.recv.dated s.cycle e = e := by rw [hrecv]; rfl
  simp only [State.control, hx, hrecv, State.toRecord, hmove, hopen, Bool.false_eq_true, if_false]
  rw [← hrecv, hdated]

end Sys2Proof.Machine

/-- Settles O34: an arriving entry is appended by `control`; a receive and the withdrawals change RWAIT and the queue. -/
theorem records : Obligations.Records := by
  unfold Obligations.Records
  intro s n src dst c own x e i r k gen msg takes
  have append {j : Instr} {b : Body} {e : Entry}
      (h : s.arriving n = some (msg b) → exec j s = .next ((s.took n).control c e)) : takes j b e := by
    rintro ha hx ⟨q, g, d, hrecv⟩ hmove hopen
    rw [h ha, State.control_of_process (s := s.took n) hx hrecv hmove hopen]
  refine ⟨append fun ha => ?_, append fun ha => ?_, append fun ha => ?_, append fun ha => ?_, append fun ha => ?_,
    fun ha hx => ?_, fun ha hx hrecv hany => ?_, fun ha hx hw hp hgen => ?_⟩
  · simp only [exec_recordOffer, execRecordOffer, ha, msg]
  · simp only [exec_recordItem, execRecordItem, ha, msg]
  · simp only [exec_recordMarker, execRecordMarker, ha, msg]
  · simp only [exec_recordErrorToken, execRecordErrorToken, ha, msg]
  · simp only [exec_recordClose, execRecordClose, ha, msg]
  · simp only [exec_recordReceive, execRecordReceive, ha, msg, State.took_chans, hx]
  · obtain ⟨q, g, d, hrecv⟩ := hrecv
    simp only [exec_recordWithdrawal, execRecordWithdrawal, ha, msg, State.took_chans, hx, hrecv, hany, List.any_nil, if_true,
      Bool.false_eq_true, if_false]
    rfl
  · simp only [exec_recordWithdrawal, execRecordWithdrawal, ha, msg, State.took_chans, hx, hw, hp, hgen, and_self, if_true]
    rfl
end

section
open Sys2Proof Sys2Proof.Machine Sys2Proof.Safety

namespace Sys2Proof.Machine

/-! ### Processes that are not spilled (R19) -/

section
variable {s : State} {k : Nat} {p : Proc} (hp : mget s.procs k = some p) (hspill : p.spilled = none)
include hp hspill

/-- A process that is not spilled stands in its entry. -/
theorem State.live_of_unspilled : s.live k = some p := by
  simp only [State.live, hp, hspill]

/-- Changing a process that is not spilled, and stays so, changes its entry alone. -/
theorem State.modLive_of_unspilled {f : Proc → Proc} (hf : (f p).spilled = none) : s.modLive k f = s.setProc k (f p) := by
  simp only [State.modLive, State.live_of_unspilled hp hspill, State.putProc, hf]

end

/-! ### Ends of children (R155) -/

/-- A join counter after the end of a child of kind 1 (cancelled), 2 (faulted) or other (R155). -/
def Join.childEnded (x : Join) (kind : Nat) : Join :=
  { count := x.count - 1, canc := if kind = 1 then satInc x.canc else x.canc, flt := if kind = 2 then satInc x.flt else x.flt }

/-- A process after the end of a child under one of its join counters (R155). -/
def Proc.childEnded (p : Proc) (j kind : Nat) : Proc := { p with joins := p.joins.setIfInBounds j ((p.joinAt j).childEnded kind) }

/-- CHILD_END to a parent that waits for nothing counts the end there (R155). -/
theorem exec_childEnd_of_unwaiting {s : State} {n k j kind src dst : Nat} {own : Option Own} {p : Proc} {parent : Word}
    (ha : s.arriving n = some { src := src, dst := dst, own := own, body := .childEnd parent j kind }) (hk : (s.took n).byHandle parent = some (k, p))
    (hspill : p.spilled = none) (hwait : p.wait = none) :
    exec (.childEnd n) s = .next ((s.took n).setProc k (p.childEnded j kind)) := by
  have hp := get_of_byHandle hk
  have hmod := State.modLive_of_unspilled hp hspill (f := (·.childEnded j kind)) hspill
  have hlive : ((s.took n).setProc k (p.childEnded j kind)).live k = some (p.childEnded j kind) :=
    State.live_of_unspilled (by simp) hspill
  unfold Proc.childEnded Join.childEnded at hmod hlive ⊢
  simp only [exec_childEnd, execChildEnd, ha, hk, hmod, hlive]
  rw [hwait]

end Sys2Proof.Machine

/-- Settles O53: each step by the case of its definition that its premises choose. -/
theorem tasksAndCalls : Obligations.TasksAndCalls := by
  unfold Obligations.TasksAndCalls
  intro s n src dst pl own arrives t
  refine ⟨fun c o u => ⟨fun h ha hc => ?_, fun ha hc => ?_, fun h ha hc => ?_, fun ha hc => ?_, fun ha => ?_⟩,
    fun p k parent j kind x ha hk hspill hwait hx => ?_, ?_, rfl, rfl, fun c k p rest => ⟨fun ha hin hbox hroom => ?_,
      fun hq hres hserv hrun => ?_, fun ha hclosed hroom => ?_, ?_⟩⟩
  · simp only [exec_childCreation, execChildCreation, show s.arriving n = _ from ha, show (s.took n).create pl c = _ from hc]
  · simp only [exec_childCreation, execChildCreation, show s.arriving n = _ from ha, show (s.took n).create pl c = _ from hc]
  · simp only [exec_stealArrival, execStealArrival, show s.arriving n = _ from ha, show (s.took n).create pl c = _ from hc]
  · simp only [exec_stealArrival, execStealArrival, show s.arriving n = _ from ha, show (s.took n).create pl c = _ from hc]
  · simp only [exec_stealReturned, execStealReturned, show s.arriving n = _ from ha, t]
  · have hjoin : p.joinAt j = x := by rw [Proc.joinAt, hx]; rfl
    rw [exec_childEnd_of_unwaiting ha hk hspill hwait, Proc.childEnded, hjoin]
    rfl
  · intro core ring last v hout hidle hsince hcore hv hroom
    have hgo : ((s.core pl).stealOut.isSome || !(s.core pl).idle || decide (s.timeb < (s.core pl).idleSince.getD 0 + 1000) ||
        decide (768 ≤ coreOf pl)) = false := by
      simpa [show (s.core pl).stealOut = none from hout, show (s.core pl).idle = true from hidle, hcore] using hsince
    have hv' : nextVictim (if (s.core pl).stealTried < 7 then shedRing (coreOf pl) else dieRing (coreOf pl))
      (if (s.core pl).stealTried < 7 then (s.core pl).stealVictim else (s.core pl).stealDie) = some v := hv
    simp only [exec_stealRequest, execStealRequest, hgo, decide_eq_true_eq, hv', hroom, if_true, Bool.false_eq_true, if_false]
    rfl
  · have hhere : (!inService (s.took n) (devOf pl) 0 (coreOf pl) || (reserved (s.took n) pl c.asid .inbox).isNone) = false := by
      rw [show inService (s.took n) _ _ _ = true from hin, Option.isNone_eq_false_iff.2 hbox]; rfl
    have hroom' : inboxLoad (s.took n) pl c.asid < 64 := hroom
    simp only [exec_inboxMessage, execInboxMessage, show s.arriving n = _ from ha, hhere, Bool.false_eq_true, if_false,
      if_neg (Nat.not_le.2 hroom')]
    rfl
  · simp only [exec_handlerDispatch, execHandlerDispatch, hq, hres, hserv, hrun, Option.getD_some, Option.isSome_none, Bool.false_or,
      beq_iff_eq, if_false]
  · have hclosed' : coreClosed (s.took n) pl c.asid = false := hclosed
    have hroom' : ((mget ((s.took n).core pl).delegs c.asid).getD []).length < 64 := hroom
    simp only [exec_delegRequest, execDelegRequest, show s.arriving n = _ from ha, hclosed', Bool.false_eq_true, if_false,
      if_neg (Nat.not_le.2 hroom')]
    rfl
  · intro u w hq hres hserv hrun
    have hres' : reserved (s.reserve pl c.asid .deleg) pl c.asid .deleg = some (k, p) := hres
    simp only [exec_delegRoutineStart, execDelegRoutineStart, hq, hres', hserv, hrun, Option.getD_some, Option.isSome_none,
      Bool.false_or, beq_iff_eq, if_false]
    rfl
end

section
open Sys2Proof Sys2Proof.Machine Sys2Proof.Safety

namespace Sys2Proof.Machine

/-! ### What an instruction on vectors or masks puts in its destination (R177, R182, R183, R188) -/

theorem putsK_eq (a : BitVec 3) (f : Proc → Word) (k : Nat) (p : Proc) (s : State) :
    putsK a f k p s = s.fin k (p.wk a (f p)) := by
  simp [putsK, State.fin, Proc.advance]

/-- An instruction that computes a mask puts it in its k register; k0 stays as it is. -/
theorem completes_of_mask {srcs : List RegRef} {a : BitVec 3} {f : Proc → Word} {i : Instr}
    (hi : ∀ s, exec i s = issue { srcs := srcs } (fun k p s => s.fin k (p.wk a (f p))) s) :
    Completes { srcs := srcs } i (putsK a f) :=
  completes_of_issue hi fun k p s => (putsK_eq a f k p s).symm

/-- An instruction that computes its active elements each from its index. -/
theorem completes_of_vecPerm {srcs : List RegRef} {a : BitVec 5} {m : BitVec 3} {ty : Ty} {i : Instr} {f g : Proc → Nat → Nat}
    (hi : ∀ s, exec i s = vecPerm srcs a m ty f s) (hf : ∀ p j, f p j = g p j) :
    Completes { srcs := srcs, dsts := [.v a] } i (putsV a fun p => vMasked ty.bytes (p.rk m) (p.rv a) (g p)) := by
  obtain rfl : f = g := funext₂ hf
  exact completes_of_vecTo hi

end Sys2Proof.Machine

/-- Settles O37: each instruction computes a mask, a g register, a v register or the active elements of one, and its end is
the one of its kind. -/
theorem vectorMasksMoves : Obligations.VectorMasksMoves := by
  unfold Obligations.VectorMasksMoves
  refine ⟨fun a b c ka kb kc m ty => ?_, fun a b c rtz sat src ty m q => ?_⟩
  · exact ⟨completes_of_mask (exec_vcmpEq ka b c m ty), completes_of_mask (exec_vcmpNe ka b c m ty),
      completes_of_mask (exec_vcmpLt ka b c m ty), completes_of_mask (exec_vcmpLe ka b c m ty),
      completes_of_mask (exec_vcmpUn ka b c m ty), completes_of_vecTo (exec_vsel a b c m ty),
      completes_of_mask (exec_kand ka kb kc), completes_of_mask (exec_kor ka kb kc), completes_of_mask (exec_kxor ka kb kc),
      completes_of_mask (exec_knot ka kb), completes_of_execG (exec_kmovg a kb) fun _ => rfl, completes_of_mask (exec_kmovk ka b),
      completes_of_execG (exec_kpopc a kb) fun _ => rfl, completes_of_execG (exec_kfirst a kb) fun _ => rfl⟩
  · intro red masked n
    have reduce {i : Instr} {f : Proc → Word} (hi : ∀ s, exec i s = vecRed a b f s) : red i f :=
      completes_of_execG hi fun _ => rfl
    have elements {srcs : List RegRef} {i : Instr} {f : Proc → Nat → Nat} (hi : ∀ s, exec i s = vecPerm srcs a m ty f s) :
        masked srcs i f := completes_of_vecPerm hi fun _ _ => rfl
    exact ⟨completes_of_vecTo (exec_vcvt a b rtz src m ty q sat), reduce (exec_vredsum a b m ty), reduce (exec_vredmin a b m ty),
      reduce (exec_vredmax a b m ty), reduce (exec_vredand a b m ty), reduce (exec_vredor a b m ty),
      reduce (exec_vredxor a b m ty), reduce (exec_vredsumw a b m ty), elements (exec_vbcast a b m ty),
      completes_of_vecTo (exec_vins a b c ty), completes_of_execG (exec_vext a b c ty) fun _ => rfl, elements (exec_viota a m ty),
      elements (exec_vsplat a b c m ty)⟩

/-- Settles O38: each permute computes its active elements from their indices, or packs or spreads a whole register. -/
theorem vectorPermutes : Obligations.VectorPermutes := by
  unfold Obligations.VectorPermutes
  intro a b c m ty n at_ perm
  have elements {srcs : List RegRef} {i : Instr} {f : Proc → Nat → Nat} (hi : ∀ s, exec i s = vecPerm srcs a m ty f s) :
      perm srcs i f := completes_of_vecPerm hi fun _ _ => rfl
  have halves (p : Proc) (j x : Nat) : getEl ty.bytes (if j % 2 = 0 then p.rv b else p.rv c) x =
      if j % 2 = 0 then at_ b p x else at_ c p x := apply_ite (getEl ty.bytes · x) _ _ _
  exact ⟨elements (exec_vperm a b c m ty), elements (exec_vpermx a b c m ty), elements (exec_vsldn a b c m ty),
    elements (exec_vslup a b c m ty), completes_of_vecPerm (exec_vzipl a b c m ty) fun p j => halves p j _,
    completes_of_vecPerm (exec_vziph a b c m ty) fun p j => halves p j _, elements (exec_vuzpe a b c m ty),
    elements (exec_vuzpo a b c m ty), elements (exec_vrev a b m ty), completes_of_vecTo (exec_vcomp a b m ty),
    completes_of_vecTo (exec_vexpd a b m ty)⟩
end

section
open Sys2Proof Sys2Proof.Machine Sys2Proof.Safety

namespace Sys2Proof.Machine

/-! ### Vector accesses whose pages translate (R190, R191) -/

section
variable {s s' : State} {k : Nat} {p : Proc} {ty : Ty} {els : List (Nat × Word)} {xs : List (Nat × Word × Nat × Word)}

/-- What a vector load does once its elements are translated: nothing without any, else a read of each in ascending index,
and the register waits for as many fills. -/
def State.vecReads (s : State) (k : Nat) (p : Proc) (a : BitVec 5) (e : Nat) (xs : List (Nat × Word × Nat × Word)) : State :=
  if xs = [] then s.fin k p
  else
    ((byIndex xs).foldl (fun s x => s.post (placeOf k) (accessAgent s (placeOf k) x.2.2.1) (some (ownOf k p .plain))
      (readBody s (placeOf k) p.asid x.2.2.1 e x.2.2.2 (.v a e x.1) x.2.1 p.dropTrap)) s).produced k p
      { p.ev a with
        vfills := { reg := a, left := xs.length, data := p.rv a, poison := none, dropTrap := p.dropTrap } :: p.vfills }

theorem any_feWaits_false (hf : ∀ x ∈ xs, feWaits s k p.gen x.2.2.1 = false) :
    (xs.any fun x => feWaits s k p.gen x.2.2.1) = false := by
  simpa using hf

theorem State.vecLoad_of_pagesXlate (a : BitVec 5) (ht : elsTrap els ty.bytes = none)
    (hx : pagesXlate s k p els .read (pagesOf els) = (s', .ok xs)) (hf : ∀ x ∈ xs, feWaits s' k p.gen x.2.2.1 = false) :
    s.vecLoad k p a ty els = s'.vecReads k p a ty.bytes xs := by
  simp only [State.vecLoad, ht, hx, any_feWaits_false hf, Bool.false_eq_true, if_false, List.isEmpty_iff]
  rfl

theorem State.vecStore_of_pagesReach (a : BitVec 5) (ht : elsTrap els ty.bytes = none)
    (hx : pagesReach s k p els (pagesOf els) = (s', xs, none)) (hf : ∀ x ∈ xs, feWaits s' k p.gen x.2.2.1 = false) :
    s.vecStore k p a ty els = (s'.vecWrites k p a ty.bytes xs).fin k p := by
  simp only [State.vecStore, ht, hx, any_feWaits_false hf, Bool.false_eq_true, if_false]

/-- A store whose page fails has stored to those below it, and takes that page's trap (R190). -/
theorem State.vecStore_of_failing_page (a : BitVec 5) {c d : Nat} {va : Word} (hn : p.kind = .normal)
    (ht : elsTrap els ty.bytes = none) (hx : pagesReach s k p els (pagesOf els) = (s', xs, some (some (c, d, va))))
    (hf : ∀ x ∈ xs, feWaits s' k p.gen x.2.2.1 = false) :
    s.vecStore k p a ty els =
      ((s'.vecWrites k p a ty.bytes xs).setProc k { p with stall := none }).takeTrap k c d va p.pc false false := by
  simp only [State.vecStore, ht, hx, any_feWaits_false hf, hn, bne_self_eq_false, Bool.false_and, Bool.false_eq_true, if_false]

end

/-! ### Vector accesses to the scratchpad (R193) -/

/-- Scratchpad accesses go on where no access of the process to it, and to none of the words, is on its way. -/
theorem withSpad_of_all_go {s : State} {k : Nat} {p : Proc} (ext : Bool) (val : Word) (go : State) {gas : List Nat}
    (h : p.splog ≠ 0) (hs : spadWaits s k p.gen = false) (hf : ∀ ga ∈ gas, feWaits s k p.gen ga = false) :
    s.withSpad k p ext val go gas = go := by
  have hany : gas.any (feWaits s k p.gen) = false := by simpa using hf
  simp only [State.withSpad, if_neg h, hs, hany, Bool.or_self, Bool.false_eq_true, if_false]

theorem spadOff_eq (p : Proc) (va : Word) (e : Nat) :
    spadOff p va e = va.toNat % 2 ^ p.splog - va.toNat % 2 ^ p.splog % e := by
  simp [spadOff, scratchOff]

/-- The value at a key of a list of indices, those that a test selects, with a function's values. -/
theorem mget_map_filter {α : Type} (f : Nat → α) (t : Nat → Bool) (l : List Nat) (j : Nat) :
    mget ((l.filter t).map fun i => (i, f i)) j = if j ∈ l ∧ t j = true then some (f j) else none := by
  induction l with
  | nil => simp [mget]
  | cons i l ih =>
    rw [List.filter_cons]
    split
    next hi =>
      rw [List.map_cons, mget]
      split
      next hj => subst hj; simp [hi]
      next hj => rw [ih]; simp [Ne.symm hj]
    next hi =>
      have hne : t j = true → j ≠ i := by rintro hj rfl; exact hi hj
      rw [ih]
      exact if_congr (and_congr_left fun hj => by simp [hne hj]) rfl rfl

/-- The address of an element: only an active one has one. -/
theorem mget_activeEls (p : Proc) (m : BitVec 3) (ty : Ty) (addr : Nat → Word) {j : Nat} (hj : j < elCount ty.bytes) :
    mget (activeEls p m ty addr) j = if (p.rk m).getLsbD j then some (addr j) else none := by
  rw [activeEls, mget_map_filter]
  simp [hj]

theorem vBuild_congr {e : Nat} {f g : Nat → Nat} (h : ∀ j < elCount e, f j = g j) : vBuild e f = vBuild e g := by
  rw [vBuild, vBuild, List.map_congr_left fun j hj => h j (List.mem_range.1 hj)]

section
variable {s : State} {k : Nat} {p : Proc} {m : BitVec 3} {ty : Ty} {addr : Nat → Word} (a b : BitVec 5)

/-- The conditions under which a scratchpad access to the active elements goes on (R132, R361). -/
structure SpadGoes (s : State) (k : Nat) (p : Proc) (m : BitVec 3) (ty : Ty) (addr : Nat → Word) : Prop where
  spad : p.splog ≠ 0
  order : spadWaits s k p.gen = false
  words : ∀ j < elCount ty.bytes, (p.rk m).getLsbD j = true →
    feWaits s k p.gen (spadGa k p (spadOff p (addr j) ty.bytes)) = false

theorem withSpad_of_spadGoes (h : SpadGoes s k p m ty addr) (go : State) :
    s.withSpad k p false (p.rg b) go ((activeEls p m ty addr).map fun x => spadGa k p (spadOff p x.2 ty.bytes)) = go := by
  refine withSpad_of_all_go _ _ _ h.spad h.order ?_
  simpa only [activeEls, List.forall_mem_map, List.mem_filter, List.mem_range, and_imp] using h.words

theorem State.vecSpl_of_spadGoes (h : SpadGoes s k p m ty addr) :
    s.vecSpl k p a b ty (activeEls p m ty addr) =
      (s.selfFill k p [.v a (vMasked ty.bytes (p.rk m) (p.rv a) fun j =>
        spadNat s k p (spadOff p (addr j) ty.bytes) ty.bytes)]).fin k (p.ev a) :=
  (withSpad_of_spadGoes b h _).trans (congrArg (fun x => (s.selfFill k p [.v a x]).fin k (p.ev a))
    (vBuild_congr fun j hj => by rw [mget_activeEls p m ty addr hj]; cases (p.rk m).getLsbD j <;> rfl))

theorem State.vecSps_of_spadGoes (h : SpadGoes s k p m ty addr) :
    s.vecSps k p a b ty (activeEls p m ty addr) =
      (((List.range (elCount ty.bytes)).filter fun j => (p.rk m).getLsbD j).foldl
        (fun s j => s.spadPut k p (spadOff p (addr j) ty.bytes) (leBytes ty.bytes (getEl ty.bytes (p.rv a) j))) s).fin k p :=
  (withSpad_of_spadGoes b h _).trans (congrArg (State.fin · k p) List.foldl_map)

end

end Sys2Proof.Machine

/-- Settles O39: the addresses of R189 make the active elements, whose accesses go on where nothing stops them. -/
theorem vectorMemory : Obligations.VectorMemory := by
  unfold Obligations.VectorMemory
  refine ⟨fun a b c m ty => ?_, fun a b c m ty => ?_⟩
  · intro e els plain stride index loads stores
    have load {srcs : List RegRef} {i : Instr} {f : Proc → Nat → Word}
        (hi : ∀ s, exec i s = issue { srcs := srcs, dsts := [.v a], touch := .plain }
          (fun k p s => s.vecLoad k p a ty (activeEls p m ty (f p))) s) : loads srcs i f := by
      intro s k p s₀ q s' xs h ht hx hf
      rw [exec_of_issues hi h, State.vecLoad_of_pagesXlate (els := activeEls q m ty (f q)) a ht hx hf]
      rfl
    have store {srcs : List RegRef} {i : Instr} {f : Proc → Nat → Word}
        (hi : ∀ s, exec i s = issue { srcs := srcs, touch := .plain }
          (fun k p s => s.vecStore k p a ty (activeEls p m ty (f p))) s) : stores srcs i f := by
      intro s k p s₀ q s' xs h ht sent hf
      refine ⟨fun hx => ?_, fun c d va hn hx => ?_⟩
      · rw [exec_of_issues hi h, State.vecStore_of_pagesReach (els := activeEls q m ty (f q)) a ht hx hf]
        rfl
      · rw [exec_of_issues hi h, State.vecStore_of_failing_page (els := activeEls q m ty (f q)) a hn ht hx hf]
        rfl
    exact ⟨load (exec_vld a b m ty), load (exec_vlds a b c m ty), load (exec_vgath a b c m ty), store (exec_vst a b m ty),
      store (exec_vsts a b c m ty), store (exec_vscat a b c m ty)⟩
  · intro e off active plain index loads stores both
    have offset (p : Proc) (va : Word) : off p va = spadOff p va e := (spadOff_eq p va e).symm
    have goes {k : Nat} {p : Proc} {s : State} {f : Proc → Nat → Word} : (p.splog ≠ 0 ∧ spadWaits s k p.gen = false ∧
        ∀ j < 64 / e, active p j = true → feWaits s k p.gen (spadGa k p (off p (f p j))) = false) →
        SpadGoes s k p m ty (f p) :=
      fun ⟨hspad, horder, hwords⟩ => ⟨hspad, horder, fun j hj hm => offset p (f p j) ▸ hwords j hj hm⟩
    have load {nd : Need} {i : Instr} {f : Proc → Nat → Word}
        (hi : ∀ s, exec i s = issue nd (fun k p s => s.vecSpl k p a b ty (activeEls p m ty (f p))) s) : both nd i f (loads f) :=
      ⟨completesIf_of_issue hi fun k p s h => by simp only [State.vecSpl_of_spadGoes a b (goes h), loads, offset]; rfl,
        completesIf_of_issue hi fun k p s h => withSpad_of_none _ _ _ h _⟩
    have store {nd : Need} {i : Instr} {f : Proc → Nat → Word}
        (hi : ∀ s, exec i s = issue nd (fun k p s => s.vecSps k p a b ty (activeEls p m ty (f p))) s) : both nd i f (stores f) :=
      ⟨completesIf_of_issue hi fun k p s h => by simp only [State.vecSps_of_spadGoes a b (goes h), stores, offset]; rfl,
        completesIf_of_issue hi fun k p s h => withSpad_of_none _ _ _ h _⟩
    exact ⟨load (exec_vspl a b m ty), load (exec_vspga a b c m ty), store (exec_vsps a b m ty), store (exec_vspsc a b c m ty)⟩
end

section
open Sys2Proof Sys2Proof.Machine Sys2Proof.Safety

namespace Sys2Proof.Machine

/-! ### Tiles in the scratchpad (R200, R201) -/

/-- A tile access to the scratchpad goes on where nothing that must come before it is on its way (R132, R361). -/
theorem withSpad_of_rows_go {s : State} {k : Nat} {p : Proc} {b c : BitVec 5} (h : p.splog ≠ 0)
    (hs : spadWaits s k p.gen = false)
    (hf : ∀ i < 16, ∀ j < 8, feWaits s k p.gen (spadGa k p (rowOff p b c i + 8 * j)) = false) (go : State) :
    s.withSpad k p false (p.rg b) go (rowWords k p b c) = go := by
  refine withSpad_of_all_go _ _ _ h hs fun ga hga => ?_
  obtain ⟨i, hi, hrow⟩ := List.mem_flatMap.1 hga
  obtain ⟨j, hj, rfl⟩ := List.mem_map.1 hrow
  exact hf i (List.mem_range.1 hi) j (List.mem_range.1 hj)

/-! ### The swap square (R50, R202) -/

/-- The square that SWAPSQ names is valid and contains a core. -/
def InSquare (w : Word) (core : Nat) : Prop :=
  w.getLsbD 31 = true ∧ field w 8 5 + swapSide w ≤ 24 ∧ field w 16 5 + swapSide w ≤ 32 ∧ core < 768 ∧
    field w 8 5 ≤ coreX core ∧ coreX core < field w 8 5 + swapSide w ∧
    field w 16 5 ≤ coreY core ∧ coreY core < field w 16 5 + swapSide w

/-- The core across the diagonal of the square. -/
def acrossSquare (w : Word) (core : Nat) : Nat :=
  coreAt (field w 8 5 + coreY core - field w 16 5) (field w 16 5 + coreX core - field w 8 5)

theorem swapPartner_of_inSquare {w : Word} {core : Nat} (h : InSquare w core) :
    swapPartner w core = some (acrossSquare w core) := by
  obtain ⟨hvalid, hright, htop, hcore, hx, hx', hy, hy'⟩ := h
  unfold swapPartner
  dsimp only
  rw [hvalid, if_neg (by simp), if_neg (by omega), if_neg (by omega)]
  rfl

theorem swapPartner_of_not_inSquare {w : Word} {core : Nat} (h : ¬ InSquare w core) : swapPartner w core = none := by
  unfold swapPartner
  dsimp only
  split
  · rfl
  next hvalid =>
    split
    · rfl
    next hfits =>
      split
      · rfl
      next hin =>
        refine absurd ⟨by simpa using hvalid, ?_⟩ h
        omega

/-! ### The outcomes of a swap (R202) -/

section
variable {s s' : State} {k : Nat} {p q : Proc} {a : BitVec 3} {c : BitVec 5} {core : Nat}
  (h : Issues s k p { unit := .tile, srcs := [.m a], dsts := [.g c], touch := .both, quiet := true } s' q)
include h

/-- Without a square that contains the core the status is BADTYPE. -/
theorem swap_of_noPartner (hp : swapPartner q.swapsq (coreOf (placeOf k)) = none) (timed : Bool) (old : Option (Option Nat)) :
    swap a c timed old s = .next ((s'.fin k (q.wg c 7)).retired k q) := by
  unfold swap
  rw [issue_of_issues h]
  simp only [hp]
  rfl

/-- On the diagonal nothing moves. -/
theorem swap_of_diagonal (hp : swapPartner q.swapsq (coreOf (placeOf k)) = some (coreOf (placeOf k))) (timed : Bool)
    (old : Option (Option Nat)) : swap a c timed old s = .next ((s'.fin k (q.wg c 0)).retired k q) := by
  unfold swap
  rw [issue_of_issues h]
  simp only [hp, if_true]

/-- A partner that waits in a swap of the same square exchanges its tile. -/
theorem swap_of_waiting_partner (hp : swapPartner q.swapsq (coreOf (placeOf k)) = some core) (hne : core ≠ coreOf (placeOf k))
    {j : Nat} {r : Proc} {m : BitVec 3} {st : BitVec 5} {since : Nat} {d : Option Nat}
    (ho : (s'.core (devOf (placeOf k) * 1024 + core)).tileOwner = some j) (hl : s'.live j = some r)
    (hr : r.stall = some { kind := .tswap m st, since := since, deadline := d }) (hsq : r.swapsq = q.swapsq)
    (timed : Bool) (old : Option (Option Nat)) :
    let there := devOf (placeOf k) * 1024 + core
    swap a c timed old s = .next (((((s'.wm (placeOf k) a ((s'.core there).rm m)).wm there m
      ((s'.core (placeOf k)).rm a)).swapEnd k q c r).swapEnd j r st q).retired k q) := by
  unfold swap
  rw [issue_of_issues h]
  simp only [hp, if_neg hne, ho, hl, hr, hsq, if_true]

/-- With no owner of the partner's unit, a swap without a deadline waits. -/
theorem swap_of_unowned_partner (hp : swapPartner q.swapsq (coreOf (placeOf k)) = some core) (hne : core ≠ coreOf (placeOf k))
    (ho : (s'.core (devOf (placeOf k) * 1024 + core)).tileOwner = none) :
    swap a c false none s = .next ((s'.stallOn k q (.tswap a c) none).retired k q) := by
  unfold swap
  rw [issue_of_issues h]
  simp only [hp, if_neg hne, ho]
  rfl

end

/-- TILE_CLAIM on a unit that no one owns gives it to the process that has waited longest (R198, log 40). -/
theorem execTileClaim_of_unowned {s : State} {place k : Nat} {p : Proc} (ho : (s.core place).tileOwner = none)
    (hc : tileClaimant s place = some (k, p)) :
    execTileClaim place s = .next ((s.loadTiles place p.usa).modCore place fun c => { c with tileOwner := some k }) := by
  simp only [execTileClaim, hc, ho, Option.bind_none]

end Sys2Proof.Machine

/-- Settles O40: a tile instruction does its work once the scratchpad lets it, and a swap ends by the square, the partner and
what the partner waits in. -/
theorem tiles : Obligations.Tiles := by
  unfold Obligations.Tiles
  refine ⟨fun a b c gb gc ty => ?_, fun a c timed s k p s' q => ?_⟩
  · intro row u fills spad
    have behind {nd : Need} {i : Instr} {effect : Nat → Proc → State → State}
        (hi : ∀ s, exec i s = issue nd (fun k p s => s.withSpad k p false (p.rg gb) (effect k p s) (rowWords k p gb gc)) s) :
        CompletesIf nd i spad effect :=
      completesIf_of_issue hi fun k p s ⟨hlog, hspad, hrows⟩ => withSpad_of_rows_go hlog hspad hrows _
    exact ⟨behind (exec_tld a gb gc), behind (exec_tldt a gb gc ty), behind (exec_tst a gb gc),
      completes_of_issue (exec_tmma a b c ty) fun _ _ _ => rfl, completes_of_issue (exec_tzero a) fun _ _ _ => rfl,
      completes_of_issue (exec_tcvt a b ty) fun _ _ _ => rfl,
      fun s place k p ho hc => (exec_tileClaim place s).trans (execTileClaim_of_unowned ho hc)⟩
  · intro i x y w side inside core there h
    obtain ⟨old, hi, hold⟩ : ∃ old, exec i s = swap a c timed old s ∧ (timed = false → old = none) := by
      cases timed with
      | false => exact ⟨none, exec_tswap a c s, fun _ => rfl⟩
      | true => exact ⟨swapDeadline s, exec_tswapT a c s, nofun⟩
    rw [hi]
    have partner (hin : inside) : swapPartner q.swapsq (coreOf (placeOf k)) = some core := swapPartner_of_inSquare hin
    refine ⟨fun hout => swap_of_noPartner h (swapPartner_of_not_inSquare hout) _ _,
      fun hin hdiag => swap_of_diagonal h (by rw [partner hin, hdiag]) _ _, fun hin hne => ⟨?_, ?_⟩⟩
    · intro j r m st since d ho hl hr hsq
      exact swap_of_waiting_partner h (partner hin) hne ho hl hr hsq _ _
    · intro ho ht
      subst ht
      rw [hold rfl]
      exact swap_of_unowned_partner h (partner hin) hne ho
end

section
open Sys2Proof Sys2Proof.Machine Sys2Proof.Safety

namespace Sys2Proof.Machine

/-! ### Operand rings (R207 to R215) -/

/-- What a ring reference reaches, by the ring that stands where it points (R207, R215). -/
theorem ringAt_of_large {s : State} {k : Nat} {p : Proc} {w : Word} (h : 32 ≤ w.toNat) : ringAt s k p w = .inl stBadType :=
  if_pos h

theorem ringAt_of_lt {s : State} {k : Nat} {p : Proc} {w : Word} (h : w.toNat < 32) : ringAt s k p w =
    match s.ring (ringPlace (placeOf k) w.toNat) (ringNo w.toNat) with
    | none => .inl stClosed
    | some r => if r.asid = p.asid then .inr (ringPlace (placeOf k) w.toNat, ringNo w.toNat, r) else .inl stBadType :=
  if_neg (by omega)

/-- Whether RCFG takes a ring's parameters: a clean word, a capacity of 2 to 32 entries, and entries inside the scratchpad
(R209). -/
def ringFits (p : Proc) (w : Word) : Prop :=
  field w 6 2 = 0 ∧ field w 11 53 = 0 ∧ 1 ≤ field w 8 3 ∧ field w 8 3 ≤ 5 ∧ p.splog ≠ 0 ∧
    (field w 0 6 + 2 ^ field w 8 3) * 8192 ≤ 2 ^ p.splog

theorem not_ringFits_iff {p : Proc} {w : Word} : ¬ ringFits p w ↔ (field w 6 2 ≠ 0 ∨ field w 11 53 ≠ 0 ∨ field w 8 3 < 1 ∨
    5 < field w 8 3 ∨ p.splog = 0 ∨ 2 ^ p.splog < (field w 0 6 + 2 ^ field w 8 3) * 8192) := by
  simp only [ringFits, not_and_or, not_le, ne_eq, not_not]

/-- RRES queues at a full ring, and behind those that queue already (R210). -/
theorem ringFull_iff {r : Ring} : (r.isFull || !r.waiters.isEmpty) = true ↔ r.isFull = true ∨ r.waiters ≠ [] := by
  simp

theorem ringRoom_iff {r : Ring} : (r.isFull || !r.waiters.isEmpty) = false ↔ r.isFull = false ∧ r.waiters = [] := by
  simp

/-- A snapshot of the ring that the reference reaches, or 0 (R213). -/
theorem completesIf_ringState {a b : BitVec 5} {i : Instr} {f : Ring → Nat → Proc → Word} (hi : ∀ s, exec i s = ringState a b f s)
    (pl j : Nat) (r : Ring) : CompletesIf { srcs := [.g b], dsts := [.g a], touch := .plain } i
      (fun k p s => ringAt s k p (p.rg b) = .inr (pl, j, r)) (fun k p s => s.setProc k (p.wg a (f r k p)).advance) :=
  completesIf_of_issue hi fun k p s hr => by
    rw [hr]
    rfl

theorem completesIf_ringState_none {a b : BitVec 5} {i : Instr} {f : Ring → Nat → Proc → Word}
    (hi : ∀ s, exec i s = ringState a b f s) (code : Nat) : CompletesIf { srcs := [.g b], dsts := [.g a], touch := .plain } i
      (fun k p s => ringAt s k p (p.rg b) = .inl code) (putsG a fun _ => 0) :=
  completesIf_of_issue hi fun k p s hr => by
    rw [hr]
    exact (putsG_eq a (fun _ => 0) k p s).symm

/-- MSTAT and MSTAT.CLR queue at the matrix unit and wait there (R232). -/
theorem completes_slotStat {a b : BitVec 5} {clr : Bool} {i : Instr} (hi : ∀ s, exec i s = slotStat a b clr s) :
    Completes { srcs := [.g b], dsts := [.g a], touch := .plain } i (fun k p s =>
      (s.toMatrix (placeOf k) (.mstat k p.gen a (field (p.rg b) 0 3) clr)).waitIn k p .matrix a 0 none) :=
  completes_of_issue hi fun _ _ _ => rfl

end Sys2Proof.Machine

/-- Settles O41: a ring instruction meets what its number or reference reaches; the matrix unit's requests queue. -/
theorem ringsAndMatrix : Obligations.RingsAndMatrix := by
  unfold Obligations.RingsAndMatrix
  intro a b c n t ref acq pub own clean seq
  refine ⟨?rcfg, ?rcfgUsed, ?rcfgBad, ?rrstNone, fun pl i r => ⟨?rres, ?rresWaits, ?rpub, ?rpubTraps, ?rstat, ?rstatMap, ?rrst⟩,
    fun code => ⟨?rresNone, ?rpubNone, ?rstatNone, ?rstatMapNone⟩, fun s k p w r => ⟨?large, ?closed, ?foreign⟩,
    ?mstat, ?mstatClr, ?mzero, ?mwgt⟩
  case rcfg =>
    refine completesIf_of_issue (exec_rcfg a b n) fun k p s ⟨hp, hs⟩ => ?_
    dsimp only
    rw [if_neg (not_ringFits_iff.not_right.1 hp), if_neg (by simp [hs])]
    rfl
  case rcfgUsed =>
    refine completesIf_of_issue (exec_rcfg a b n) fun k p s ⟨hp, hs⟩ => ?_
    dsimp only
    rw [if_neg (not_ringFits_iff.not_right.1 hp), if_pos hs]
    exact status_eq s k p a stFull 0
  case rcfgBad =>
    refine completesIf_of_issue (exec_rcfg a b n) fun k p s hp => ?_
    dsimp only
    rw [if_pos (not_ringFits_iff.1 hp)]
    exact status_eq s k p a stBadType 0
  case rrstNone =>
    refine completesIf_of_issue (exec_rrst a n) fun k p s hs => ?_
    simp only [hs]
    exact status_eq s k p a stClosed 0
  case rrst =>
    refine completesIf_of_issue (exec_rrst a n) fun k p s ⟨hs, howner⟩ => ?_
    simp only [hs]
    exact if_pos howner
  case rres =>
    refine completesIf_of_issue (exec_rres a b t) fun k p s ⟨hr, hroom⟩ => ?_
    simp only [show ringAt s k p (p.rg b) = _ from hr, ringRoom_iff.2 hroom]
    rfl
  case rresWaits =>
    refine completesIf_of_issue (exec_rres a b t) fun k p s ⟨hr, hfull⟩ => ?_
    simp only [show ringAt s k p (p.rg b) = _ from hr, ringFull_iff.2 hfull, if_true]
  case rpub =>
    refine completesIf_of_issue (exec_rpub a b c) fun k p s ⟨hw, hr, hpend⟩ => ?_
    rw [if_neg (not_not.2 hw), show ringAt s k p (p.rg b) = _ from hr]
    exact if_pos hpend
  case rpubTraps =>
    refine completesIf_of_issue (exec_rpub a b c) fun k p s ⟨hw, hr, hpend⟩ => ?_
    rw [if_neg (not_not.2 hw), show ringAt s k p (p.rg b) = _ from hr]
    exact if_neg (Bool.not_eq_true _ ▸ hpend)
  case rstat => exact completesIf_ringState (exec_rstat a b) pl i r
  case rstatMap => exact completesIf_ringState (exec_rstatMap a b) pl i r
  case rresNone =>
    refine completesIf_of_issue (exec_rres a b t) fun k p s hr => ?_
    rw [show ringAt s k p (p.rg b) = _ from hr]
    exact status_eq s k p a code 0
  case rpubNone =>
    refine completesIf_of_issue (exec_rpub a b c) fun k p s ⟨hw, hr⟩ => ?_
    rw [if_neg (not_not.2 hw), show ringAt s k p (p.rg b) = _ from hr]
    exact status_eq s k p a code 0
  case rstatNone => exact completesIf_ringState_none (exec_rstat a b) code
  case rstatMapNone => exact completesIf_ringState_none (exec_rstatMap a b) code
  case large => exact ringAt_of_large
  case closed =>
    intro h hr
    rw [ringAt_of_lt h, show s.ring (ringPlace (placeOf k) w.toNat) (ringNo w.toNat) = none from hr]
    rfl
  case foreign =>
    intro h hr hasid
    rw [ringAt_of_lt h, show s.ring (ringPlace (placeOf k) w.toNat) (ringNo w.toNat) = some r from hr]
    exact if_neg hasid
  case mstat => exact completes_slotStat (exec_mstat a b)
  case mstatClr => exact completes_slotStat (exec_mstatClr a b)
  case mzero => exact completes_of_issue (exec_mzero a b) fun _ _ _ => rfl
  case mwgt => exact completes_of_issue (exec_mwgt a b c) fun _ _ _ => rfl
end

section
open Sys2Proof Sys2Proof.Machine Sys2Proof.Safety

namespace Sys2Proof.Machine

/-! ### Engine commands (R216 to R219) -/

section
variable {s : State} {k : Nat} {p : Proc} {preds : Word} (a : BitVec 5) (kind : NodeKind) (cmd : Word) (chan : Nat)

/-- The four outcomes of an engine command, in the order in which it tests for them. -/
theorem command_of_foreign {id : Nat} (h : (predIds preds).find? (foreignNode s k p) = some id) (ok : Bool) :
    s.command k p a kind cmd preds ok chan = s.trap k p false 0x0F 0 (BitVec.ofNat 64 id) := by
  simp only [State.command, h]

theorem command_of_bad (h : (predIds preds).find? (foreignNode s k p) = none) :
    s.command k p a kind cmd preds false chan = putsG a (fun _ => 0x70000) k p s := by
  simp only [State.command, h, putsG_eq]
  rfl

theorem command_of_full (h : (predIds preds).find? (foreignNode s k p) = none) (hn : freeNode s (placeOf k) = none) :
    s.command k p a kind cmd preds true chan = (s.countCore (placeOf k) 3).setProc k (p.wg a 0x60000).advance := by
  simp only [State.command, h, hn]
  rfl

theorem command_of_free {i gen : Nat} (h : (predIds preds).find? (foreignNode s k p) = none)
    (hn : freeNode s (placeOf k) = some (i, gen)) :
    s.command k p a kind cmd preds true chan =
      ((s.setNode (placeOf k) i (newNode k p kind cmd (livePreds s k preds) chan gen)).setProc k
        (p.wg a (BitVec.ofNat 64 (nodeId i gen))).advance).beginNode (placeOf k) i (livePreds s k preds) := by
  simp only [State.command, h, hn]
  rfl

end

/-- A node just made is cancelled, waits or launches (R217). -/
theorem beginNode_eq (s : State) (pl i : Nat) (l : List (Nat × Node)) : s.beginNode pl i l =
    if predFailed l then s.finishNodes pl 256 [(i, 9, false)]
    else if predsPending l ≠ [] then s
    else match s.launchNode pl i with
      | (s, none) => s
      | (s, some code) => s.finishNodes pl 256 [(i, code, false)] := by
  unfold State.beginNode
  congr 2
  simp

/-- A command names a window by its send end (R231, R234). -/
theorem windowDoor_of_window {s : State} {k d : Nat} {p : Proc} {e : Door} (he : mget p.doors d = some e) (hs : e.isSend = true)
    (hw : (mget s.chans e.chan).all (·.typ == .window) = true) (go : Nat → State) : s.windowDoor k p d go = go e.chan := by
  simp only [State.windowDoor, he, hs, hw, Bool.and_self, if_true]

/-- A process that issues keeps its registers and doors, and every channel stays. -/
theorem start_keeps (s : State) (k : Nat) (p : Proc) : (s.start k p).1.chans = s.chans ∧ (s.start k p).2.doors = p.doors ∧
    (s.start k p).2.rg = p.rg := by
  unfold State.start
  dsimp only
  split
  · exact ⟨rfl, rfl, rfl⟩
  · split <;> exact ⟨rfl, rfl, rfl⟩

/-- The scope of a command toward the device of a receive end, if anyone holds it (R219). -/
def scopeToward (k : Nat) (holder : Option Nat) : Scope :=
  match holder with
  | none => .device
  | some d => if d = keyDev k then .device else .system

/-- The scope of a command toward a channel: SYSTEM where its receive end is held off the device (R219). -/
def chanReach (s : State) (k chan : Nat) : Scope := scopeToward k ((mget s.chans chan).bind fun x => holderDev x.recv)

section
variable {s s' : State} {k : Nat} {p q : Proc} {nd : Need} {b : BitVec 5} {door : Word → Option Nat}

/-- The scope of a command is found before it issues (R219), from what issuing keeps. -/
theorem towardDoor_of_issues (h : Issues s k p nd s' q) : towardDoor s b door = scopeToward k
    ((((door (q.rg b)).bind fun d => mget q.doors d).bind fun e => mget s'.chans e.chan).bind fun x => holderDev x.recv) := by
  obtain ⟨hready, hstart⟩ := h
  obtain ⟨hchans, hdoors, hregs⟩ := start_keeps s k p
  rw [show s.start k p = (s', q) from hstart] at hchans hdoors hregs
  unfold towardDoor
  rw [hready.cur, hready.here, hchans, hdoors, hregs]
  rfl

theorem towardDoor_of_door {d : Nat} {e : Door} (h : Issues s k p nd s' q) (hd : door (q.rg b) = some d)
    (he : mget q.doors d = some e) : towardDoor s b door = chanReach s' k e.chan := by
  rw [towardDoor_of_issues h, hd, Option.bind_some, he, Option.bind_some]
  rfl

theorem towardDoor_of_noDoor (h : Issues s k p nd s' q) (hd : door (q.rg b) = none) : towardDoor s b door = .device := by
  rw [towardDoor_of_issues h, hd]
  rfl

end

end Sys2Proof.Machine

/-- Settles O42: past its door and its scratchpad each command is `State.command` of its kind, whose four outcomes are the
four clauses. -/
theorem engineCommands : Obligations.EngineCommands := by
  unfold Obligations.EngineCommands
  intro a b c cmd window reach
  have commands {sc : Scope} {i : Instr} {kind : NodeKind} {ok : Word → Bool} {chan : Nat} {cond : Nat → Proc → State → Prop}
      (hi : ∀ (s : State) (k : Nat) (p : Proc) (s' : State) (q : Proc),
        Issues s k p { scope := sc, srcs := [.g b, .g c], dsts := [.g a], touch := .release } s' q → cond k q s' →
        exec i s = .next ((s'.command k q a kind (q.rg b) (q.rg c) (ok (q.rg b)) chan).retired k q)) :
      cmd sc i kind ok chan cond := by
    refine ⟨fun s k p s' q h ⟨⟨hc, hmine⟩, hok⟩ => ?_, fun s k p s' q h ⟨⟨hc, hmine⟩, hok, hfull⟩ => ?_,
      fun id s k p s' q h ⟨hc, hforeign⟩ => ?_, fun n gen s k p s' q h ⟨⟨hc, hmine⟩, hok, hfree⟩ => ?_⟩
    · rw [hi s k p s' q h hc, hok, command_of_bad _ _ _ _ hmine]
    · rw [hi s k p s' q h hc, hok, command_of_full _ _ _ _ hmine hfull]
    · rw [hi s k p s' q h hc, command_of_foreign _ _ _ _ hforeign]
    · rw [hi s k p s' q h hc, hok, command_of_free _ _ _ _ hmine hfree]
      exact congrArg (fun t : State => (.next (t.retired k q) : Out)) (beginNode_eq _ _ _ _)
  refine ⟨?cmu, fun chan sc => ?drain, fun chan sc => ?copy, ?qsearch, ?bred⟩
  case cmu => exact commands fun s k p s' q h _ => (exec_nodeCmu a b c s).trans (issue_of_issues h _)
  case drain =>
    refine commands fun s k p s' q h ⟨⟨e, he, hsend, hchan, hw⟩, hsc⟩ => ?_
    subst hchan hsc
    have hscope : towardDoor s b (fun w => some (field w 8 6)) = chanReach s' k e.chan := towardDoor_of_door h rfl he
    rw [exec_nodeDrain, execNodeDrain, hscope]
    refine (issue_of_issues h _).trans ?_
    rw [windowDoor_of_window he hsend hw]
  case copy =>
    refine commands fun s k p s' q h ⟨hlog, hspad, hdoor⟩ => ?_
    by_cases hring : (q.rg b).getLsbD 19 = true
    · rw [if_pos hring] at hdoor
      obtain ⟨rfl, rfl⟩ := hdoor
      have hscope : towardDoor s b (fun w => if w.getLsbD 19 then none else some (field w 37 6)) = .device :=
        towardDoor_of_noDoor h (if_pos hring)
      rw [exec_nodeCopy, execNodeCopy, hscope]
      refine (issue_of_issues h _).trans ?_
      dsimp only
      rw [if_pos hring, withSpad_of_settled hlog hspad]
    · rw [if_neg hring] at hdoor
      obtain ⟨⟨e, he, hsend, rfl, hw⟩, rfl⟩ := hdoor
      have hscope : towardDoor s b (fun w => if w.getLsbD 19 then none else some (field w 37 6)) = chanReach s' k e.chan :=
        towardDoor_of_door h (if_neg hring) he
      rw [exec_nodeCopy, execNodeCopy, hscope]
      refine (issue_of_issues h _).trans ?_
      dsimp only
      rw [if_neg hring, windowDoor_of_window he hsend hw, withSpad_of_settled hlog hspad]
  case qsearch =>
    refine commands (ok := fun w => field w 19 45 == 0) (cond := fun k p s => p.splog ≠ 0 ∧ spadWaits s k p.gen = false)
      fun s k p s' q h ⟨hlog, hspad⟩ => ?_
    rw [exec_of_issues (exec_qsearch a b c) h, withSpad_of_settled hlog hspad]
  case bred => exact commands (ok := fun w => field w 0 6 == 0) fun s k p s' q h _ =>
    (exec_bred a b c s).trans (issue_of_issues h _)
end

section
open Sys2Proof Sys2Proof.Machine Sys2Proof.Safety

namespace Sys2Proof.Machine

/-! ### Waiting for nodes (R217, R221, R222) -/

section
variable {s : State} {k id : Nat} {p : Proc} {n : Node}

/-- A node as its issuer's id finds it: its own, stale, or of another process. -/
theorem withNode_of_own (hn : s.nodeOf (placeOf k) id = some n) (howner : n.owner = k) (hgen : n.ogen = p.gen)
    (hdet : n.detached = false) (stale : State) (go : Node → State) : s.withNode k p id stale go = go n := by
  simp only [State.withNode, hn, howner, hgen, hdet, ne_eq, not_true_eq_false, or_self, if_false, Bool.false_eq_true]

theorem withNode_of_none (hn : s.nodeOf (placeOf k) id = none) (stale : State) (go : Node → State) :
    s.withNode k p id stale go = stale := by
  simp only [State.withNode, hn]

theorem withNode_of_foreign (hn : s.nodeOf (placeOf k) id = some n) (hforeign : n.owner ≠ k ∨ n.ogen ≠ p.gen) (stale : State)
    (go : Node → State) : s.withNode k p id stale go = s.trap k p false 0x0F 0 (BitVec.ofNat 64 id) := by
  simp only [State.withNode, hn]
  exact if_pos hforeign

end

section
variable {nd : Need} {i : Instr} {b : BitVec 5} {stale : Nat → Proc → State → State} {go : Nat → Proc → State → Node → State}
  (hi : ∀ s, exec i s = issue nd (fun k p s => s.withNode k p (field (p.rg b) 0 16) (stale k p s) (go k p s)) s) (n : Node)
include hi

/-- An instruction on a node, by what it does with its own node, with a stale id and with another process's node. -/
theorem completesIf_of_ownNode {cond : Nat → Proc → State → Prop} {effect : Nat → Proc → State → State}
    (hg : ∀ k p s, cond k p s → go k p s n = effect k p s) : CompletesIf nd i (fun k p s =>
      (s.nodeOf (placeOf k) (field (p.rg b) 0 16) = some n ∧ n.owner = k ∧ n.ogen = p.gen ∧ n.detached = false) ∧ cond k p s) effect :=
  completesIf_of_issue hi fun k p s ⟨⟨hn, howner, hgen, hdet⟩, hc⟩ =>
    (withNode_of_own hn howner hgen hdet _ _).trans (hg k p s hc)

theorem completesIf_of_noNode {effect : Nat → Proc → State → State} (hs : ∀ k p s, stale k p s = effect k p s) :
    CompletesIf nd i (fun k p s => s.nodeOf (placeOf k) (field (p.rg b) 0 16) = none) effect :=
  completesIf_of_issue hi fun k p s hn => (withNode_of_none hn _ _).trans (hs k p s)

theorem completesIf_of_foreignNode : CompletesIf nd i (fun k p s =>
      s.nodeOf (placeOf k) (field (p.rg b) 0 16) = some n ∧ (n.owner ≠ k ∨ n.ogen ≠ p.gen))
    (fun k p s => s.trap k p false 0x0F 0 (BitVec.ofNat 64 (field (p.rg b) 0 16))) :=
  completesIf_of_issue hi fun _ _ _ hn => withNode_of_foreign hn.1 hn.2 _ _

end

/-- NFREE frees a node that is DONE and detaches another (R222). -/
theorem Node.detach_of_done {n : Node} (h : n.st = .done) : n.detach = { n with live := false } := by
  simp only [Node.detach, h]

theorem Node.detach_of_not_done {n : Node} (h : n.st ≠ .done) : n.detach = { n with detached := true, waiters := [] } := by
  unfold Node.detach
  cases hst : n.st
  case done => exact absurd hst h
  all_goals rfl

/-- The state of a node that is not DONE as NPOLL returns it (R220). -/
theorem nodeState_of_not_done {n : Node} (h : n.st ≠ .done) : nodeState n = if n.st = .launched then 1 else 0 := by
  unfold nodeState
  cases hst : n.st
  case done => exact absurd hst h
  all_goals rfl

end Sys2Proof.Machine

/-- Settles O43: each instruction meets the node of its id and then does at once what its rule says; the end of a node and
the copy path by the case that their premises choose. -/
theorem nodeWaits : Obligations.NodeWaits := by
  unfold Obligations.NodeWaits
  intro a b t n nd free id at_ word put owes drops
  refine ⟨?nwaitDone, ?nwait, ?nwaitLate, ?npollDone, ?npoll, ?nfreeDone, ?nfree, ?stale, ?steps⟩
  case nwaitDone =>
    exact completesIf_of_ownNode (exec_nwait a b t) n fun k p s hst => if_pos hst
  case nwait =>
    refine completesIf_of_ownNode (exec_nwait a b t) n fun k p s ⟨hst, hd⟩ => (if_neg hst).trans (if_neg ?_)
    simp [hd]
  case nwaitLate =>
    exact completesIf_of_ownNode (exec_nwait a b t) n fun k p s ⟨hst, hd⟩ =>
      (if_neg hst).trans ((if_pos hd).trans (status_eq s k p a stTimeout 0))
  case npollDone =>
    refine completesIf_of_ownNode (exec_npoll a b) n fun k p s hst => ?_
    simp only [hst, nodeState, beq_self_eq_true, Bool.true_and, if_true]
    rfl
  case npoll =>
    refine completesIf_of_ownNode (exec_npoll a b) n fun k p s hst => ?_
    have hbeq : (n.st == .done) = false := beq_eq_false_iff_ne.2 hst
    simp only [hst, hbeq, nodeState_of_not_done hst, Bool.false_and, Bool.false_eq_true, if_false, putsG_eq]
    rfl
  case nfreeDone =>
    refine completesIf_of_ownNode (exec_nfree a b) n fun k p s ⟨hst, hw⟩ => ?_
    simp only [hw, Node.detach_of_done hst, List.foldl_nil]
    rfl
  case nfree =>
    refine completesIf_of_ownNode (exec_nfree a b) n fun k p s ⟨hst, hw⟩ => ?_
    simp only [hw, Node.detach_of_not_done hst, List.foldl_nil]
    rfl
  case stale =>
    rintro i code nd' (⟨rfl, rfl, rfl⟩ | ⟨rfl, rfl, rfl⟩ | ⟨rfl, rfl, rfl⟩)
    · exact ⟨completesIf_of_noNode (exec_nwait a b t) fun k p s => status_eq s k p a stBadType 0,
        completesIf_of_foreignNode (exec_nwait a b t) n⟩
    · exact ⟨completesIf_of_noNode (exec_npoll a b) fun k p s =>
        (putsG_eq a (fun _ => nodeStatus stBadType false 3) k p s).symm, completesIf_of_foreignNode (exec_npoll a b) n⟩
    · exact ⟨completesIf_of_noNode (exec_nfree a b) fun k p s => status_eq s k p a stBadType 0,
        completesIf_of_foreignNode (exec_nfree a b) n⟩
  case steps =>
    intro s m src dst pl i code own drop
    refine ⟨fun ha hn hlive => ?_, fun rest r hq hn hsteps => ⟨fun hring hr hasid hpend => ?_, fun hwin => ?_⟩⟩
    · rw [exec_nodeFinish, execNodeFinish]
      simp only [ha, hn, hlive, bne_self_eq_false, Bool.not_true, Bool.or_self, Bool.false_eq_true, if_false]
      rfl
    · rw [exec_copyRun, execCopyRun]
      simp only [hq, hn, hsteps, ne_eq, not_true_eq_false, if_false]
      rw [if_pos hring, show State.ring _ _ (ringNo (field n.cmd 37 5)) = some r from hr]
      exact if_pos ⟨hasid, hpend⟩
    · rw [exec_copyRun, execCopyRun]
      simp only [hq, hn, hsteps, hwin, ne_eq, not_true_eq_false, Bool.false_eq_true, if_false]
end

section
open Sys2Proof Sys2Proof.Machine Sys2Proof.Safety

namespace Sys2Proof.Machine

/-! ### Block formats (R241) -/

/-- An instruction on blocks counts the undescribed ones, and writes its result unless DROPTRAP asks for a trap. -/
theorem blockOp_of_result {p : Proc} {srcs : List VReg} (h : p.dropTrap = false ∨ undescribed srcs = []) (s : State) (k : Nat)
    (a : BitVec 5) (res : VReg) : s.blockOp k p a srcs res =
      ((undescribed srcs).foldl (fun s _ => s.countCore (placeOf k) 4) s).fin k (p.wv a res) := by
  unfold State.blockOp
  dsimp only
  split
  next hd hbad => simp [hd, hbad] at h
  next => rfl

theorem blockOp_of_trap {p : Proc} {srcs : List VReg} {j : Nat} {l : List Nat} (hd : p.dropTrap = true)
    (hbad : undescribed srcs = j :: l) (s : State) (k : Nat) (a : BitVec 5) (res : VReg) : s.blockOp k p a srcs res =
      ((undescribed srcs).foldl (fun s _ => s.countCore (placeOf k) 4) s).trap k p false 0x07 3 (BitVec.ofNat 64 j) := by
  simp only [State.blockOp, hd, hbad]

/-! ### The descriptor of a chain (R271) -/

/-- A descriptor of 1 to 8 steps whose reserved bytes are zero passes CHAIN's checks. -/
theorem chainClean {d : List Byte} {n : Nat} (h₁ : 1 ≤ n) (h₈ : n ≤ 8) (hz : bytesZero d 0x19 7 = true)
    (hs : ∀ i < n, bytesZero d (0x24 + 16 * i) 4 = true) :
    ¬ (n < 1 ∨ 8 < n ∨ (bytesZero d 0x19 7 && (List.range n).all fun i => bytesZero d (0x24 + 16 * i) 4) = false) := by
  have hall : ((List.range n).all fun i => bytesZero d (0x24 + 16 * i) 4) = true :=
    List.all_eq_true.2 fun i hi => hs i (List.mem_range.1 hi)
  simp only [hz, hall, Bool.and_self, Bool.true_eq_false, or_false]
  omega

end Sys2Proof.Machine

/-- Settles O44: a block instruction is `State.blockOp` of its sources; CHAIN passes its checks and posts its packet. -/
theorem chainAndBlocks : Obligations.ChainAndBlocks := by
  unfold Obligations.ChainAndBlocks
  intro a b c m ty n one cha block
  have blocks {nd : Need} {i : Instr} {srcs : Proc → List VReg} {res : Proc → VReg}
      (hi : ∀ s, exec i s = issue nd (fun k p s => s.blockOp k p a (srcs p) (res p)) s) : block nd i srcs res := by
    refine ⟨completesIf_of_issue hi fun k p s h => ?_, fun j l => completesIf_of_issue hi fun k p s h => ?_⟩
    · rw [putsV_eq]
      exact blockOp_of_result h s k a (res p)
    · exact blockOp_of_trap h.1 h.2 s k a (res p)
  refine ⟨blocks (exec_bfpx a b c m ty), blocks (exec_bfpscl a b c), blocks (exec_bfpq a b c n), ?bfpcvt, ?reserved,
    fun s₁ h => ?chain⟩
  case bfpcvt => exact completes_of_issue (exec_bfpcvt a b ty n) fun k p s => by rw [putsV_eq]
  case reserved =>
    refine completesIf_of_issue (exec_chain a b) fun k p s ⟨hlog, hspad, hres⟩ => ?_
    rw [withSpad_of_settled hlog hspad, if_pos hres, putsG_eq]
  case chain =>
    intro packet c
    refine completesIf_of_issue (exec_chain a b) fun k p s ⟨hlog, hspad, hres, h₁, h₈, hz, hs, hc, hhome⟩ => ?_
    subst hc
    rw [withSpad_of_settled hlog hspad, if_neg (not_not.2 hres)]
    refine (if_neg (chainClean h₁ h₈ hz hs)).trans ?_
    dsimp only [packet] at hhome ⊢
    rw [hhome]
    rfl
end

section
open Sys2Proof Sys2Proof.Machine Sys2Proof.Safety

namespace Sys2Proof.Machine

/-! ### The matrix unit (R212, R225, R228) -/

/-- The state once a granted step of node `i` of queue `c` has retired: both entries popped, the step counted (R212). -/
def State.retiredStep (s : State) (sh c i : Nat) (x : Node) : State :=
  let pl := shedPlace sh c
  let pop (s : State) (lo : Nat) : State := s.popEntry (ringPlace pl (field x.cmd lo 5)) (ringNo (field x.cmd lo 5))
  (pop (pop (s.setShed sh { s.shed sh with busy := none }) 12) 17).setNode pl i { x with steps := x.steps + 1 }

/-- After its last step the node of a shed's granted step ends, and before it goes on. -/
theorem kstepRetire_of_busy {s : State} {sh c i : Nat} {x : Node} (hb : (s.shed sh).busy = some (c, i))
    (hx : s.node (shedPlace sh c) i = some x) : exec (.kstepRetire sh) s = .next
      (let u := s.retiredStep sh c i x
       if x.steps + 1 < field x.cmd 24 16 then u
       else (u.setShed sh ((u.shed sh).pop c)).tellNode (agentPart sh) (shedPlace sh c) i x.gen stOk x.drop) := by
  have hx' : (s.setShed sh { s.shed sh with busy := none }).node (shedPlace sh c) i = some x := hx
  rw [exec_kstepRetire, execKstepRetire]
  simp only [hb, hx', State.retiredStep]
  split <;> rfl

/-! ### The search and reduction units (R265 to R270, R379 to R381) -/

section
variable {s : State} {unit : Nat} {q : Query} {rest : List Query} {x : Node} {d : QueryInfo}

/-- How the search of a query stands at its unit (R265, R266). -/
def Query.seek (q : Query) (d : QueryInfo) : Seek := q.run.getD (Seek.start (queryEntries d q.shard q.whole))

/-- The vector of a SEARCH node, and whether it held an undescribed block (R263). -/
def queryVector (q : Query) (x : Node) (d : QueryInfo) : List FVal × Bool :=
  vectorEls d.ty (queryView q x).nan1 d.dim (x.data.drop 384)

/-- The first query that a unit holds leaves it. -/
theorem Stack.popQuery_of_cons {b : Stack} (h : b.queries = q :: rest) :
    b.popQuery = { b with queries := rest, out := b.out.map (· - 1) } := by
  rw [Stack.popQuery, h, List.drop_succ_cons, List.drop_zero]

section
variable (hout : (s.base unit).out ≠ some 0) (hq : (s.base unit).queries = q :: rest) (hx : s.node q.place q.node = some x)
  (hd : queryData x.data = some d)
include hout hq hx hd

/-- The first query of a unit in service reports once its search has ended, and otherwise goes on by one read. -/
theorem searchQueryStart_of_ended {code fid : Nat} (he : (q.seek d).ending = some (code, fid)) :
    exec (.searchQueryStart unit) s = .next ((s.setBase unit (s.base unit).popQuery).post (searchAgent unit) q.place none
      (.report ((q.seek d).report q code fid (queryVector q x d).2))) := by
  unfold Query.seek at he
  rw [exec_searchQueryStart, execSearchQueryStart]
  simp only [hq, if_neg hout, hx, hd, he]
  rfl

theorem searchQueryStart_of_read {g : Gathered} {z : Seek} {u : State} (he : (q.seek d).ending = none)
    (hn : (q.seek d).next s (queryView q x) d (queryVector q x d).1 (q.has d) = (g, z))
    (hg : s.gathered (searchAgent unit) q.place x.asid g = .ok u) :
    exec (.searchQueryStart unit) s = .next
      (u.setBase unit { s.base unit with queries := { q with run := some z } :: rest }) := by
  unfold Query.seek at he hn
  unfold queryVector at hn
  rw [exec_searchQueryStart, execSearchQueryStart]
  simp only [hq, if_neg hout, hx, hd, he, hn, hg]

end

end

section
variable {s : State} {n src dst : Nat} {own : Option Own} {r : Report} {m : Merge} {x : Node}
  (ha : s.arriving n = some { src := src, dst := dst, own := own, body := .report r })
  (hm : mget (s.took n).merges (mergeKey r.place r.node) = some m) (hx : (s.took n).node r.place r.node = some x)
  (hgen : x.gen = r.ngen)
include ha hm hx hgen

/-- A report is kept while others of its node are due, and the last one writes the result window (R380). -/
theorem shardReport_of_more (hl : 1 < m.left) : exec (.shardReport n) s = .next
    { s.took n with
      merges := mset (s.took n).merges (mergeKey r.place r.node) { left := m.left - 1, reports := m.reports ++ [r] } } := by
  rw [exec_shardReport, execShardReport]
  simp only [ha, hm, hx, hgen, ne_eq, not_true_eq_false, if_false]
  exact if_pos hl

theorem shardReport_of_last {d : QueryInfo} (hl : m.left ≤ 1) (hd : queryData x.data = some d) :
    exec (.shardReport n) s = .next
      (let z := mergeReports d (m.reports ++ [r])
       (({ s.took n with merges := mdel (s.took n).merges (mergeKey r.place r.node) } : State).setNode r.place r.node
         { x with status := z.1, drop := x.drop || z.2.2 }).post (agentSend x.chan) (agentChan x.chan) none
          (.winPush { chan := x.chan, off := d.doff, bytes := z.2.1, need := d.doff + 8 * d.k + 16
                      stamp := x.stamp.map fun v => (v, d.doff + 8 * d.k + 8), halo := none
                      node := some (r.place, nodeId r.node r.ngen), waiter := none })) := by
  rw [exec_shardReport, execShardReport]
  simp only [ha, hm, hx, hgen, ne_eq, not_true_eq_false, if_false, if_neg (Nat.not_lt.2 hl), hd]

end

section
variable {s u : State} {unit : Nat} {j : BredJob} {rest : List BredJob}

/-- A unit in service takes the first of its jobs where that one waits for no access (R381). -/
theorem bredJob_first (hout : (s.base unit).bredOut = none) (hj : (s.base unit).jobs = j :: rest) (hw : j.writes = 0)
    (ha : j.asked = false) :
    ((s.base unit).jobs.take (Min.min 4 ((s.base unit).bredOut.getD 64))).find? (fun j => j.writes == 0 && !j.asked) = some j := by
  rw [hout, hj]
  exact List.find?_cons_of_pos (by simp [hw, ha])

/-- Such a job asks for the chunk of its next source, and writes the result once every source is read (R270). -/
theorem bredChunk_of_job (hout : (s.base unit).bredOut = none) (hj : (s.base unit).jobs = j :: rest) (hw : j.writes = 0)
    (ha : j.asked = false) (hc : j.chunk < j.chunks) :
    exec (.bredChunk unit) s =
      let va (off : Int) : Word := j.dest + BitVec.ofInt 64 (64 * off) + BitVec.ofNat 64 (64 * j.chunk)
      if j.got.length < j.nsrc then
        .next (s.bredAccess unit j (va (j.offs.getD j.got.length 0)) j.got.length none { j with asked := true })
      else .next (s.bredAccess unit j (va 0) 0 (some (bredChunkBytes j)) { j with got := [], writes := 1 }) := by
  rw [exec_bredChunk, execBredChunk]
  dsimp only
  rw [bredJob_first hout hj hw ha]
  exact if_pos hc

/-- An access of a job that finds its word is sent to its home (R343). -/
theorem bredAccess_read {va leaf : Word} {ga : Nat}
    (hx : xlateFor s j.place j.asid j.smode va .read = (u, .ok ga leaf)) (i : Nat) (next : BredJob) :
    s.bredAccess unit j va i none next =
      (u.post (bredAgent unit) (agentHome (homeFor u j.place ga)) none
        (.eread ga 64 (leafPois leaf) (.bred unit j.place j.node i))).setJob unit j.place j.node (some next) := by
  simp only [State.bredAccess, Option.isSome_none, Bool.false_eq_true, if_false, hx]

theorem bredAccess_write {va leaf : Word} {ga : Nat} {bs : List Byte}
    (hx : xlateFor s j.place j.asid j.smode va .write = (u, .ok ga leaf)) (i : Nat) (next : BredJob) :
    s.bredAccess unit j va i (some bs) next =
      (u.post (bredAgent unit) (agentHome (homeFor u j.place ga)) none
        (.ewrite ga bs (leafPois leaf) (.bred unit j.place j.node i))).setJob unit j.place j.node (some next) := by
  simp only [State.bredAccess, Option.isSome_some, if_true, hx]

end

section
variable {s s₁ : State} {n src dst ga unit pl i which : Nat} {own : Option Own} {j : BredJob}

/-- An engine's read at its home, of a word that is neither poisoned nor sealed from it (R370). -/
theorem portEread_of_charged {sz : Nat}
    (ha : s.arriving n = some { src := src, dst := dst, own := own, body := .eread ga sz false (.bred unit pl i which) })
    (hc : s.charge ga sz = some s₁) (hj : jobOf ((s₁.took n).recall (ga / 64)) unit pl i = some j)
    (hb : ((s₁.took n).recall (ga / 64)).bad ga = false)
    (hs : sealedFrom ((s₁.took n).recall (ga / 64)) ga (some j.asid) = false) :
    exec (.portEread n) s = .next (((s₁.took n).recall (ga / 64)).setJob unit pl i
      (some { j with got := j.got ++ [(which, memBytes ((s₁.took n).recall (ga / 64)).mem ga sz)], asked := false })) := by
  rw [exec_portEread, execPortEread]
  simp only [ha, hc, hj, hb, hs, Bool.or_false, Bool.false_eq_true, if_false]

/-- An engine's write there: one of a chunk goes on, one of the flag ends the job (R270). -/
theorem portEwrite_of_charged {bs : List Byte}
    (ha : s.arriving n = some { src := src, dst := dst, own := own, body := .ewrite ga bs false (.bred unit pl i which) })
    (hc : s.charge ga bs.length = some s₁) (hj : jobOf ((s₁.took n).recall (ga / 64)) unit pl i = some j)
    (hb : ((s₁.took n).recall (ga / 64)).bad ga = false)
    (hs : sealedFrom ((s₁.took n).recall (ga / 64)) ga (some j.asid) = false) {w : State}
    (hw : ((((s₁.took n).recall (ga / 64)).putBytes ga bs).fillWords ga bs.length).wrote ((s₁.took n).recall (ga / 64)) ga
      bs.length = w) (hjw : jobOf w unit pl i = some j) :
    exec (.portEwrite n) s = .next (if which = 0 then w.setJob unit pl i (some { j with chunk := j.chunk + 1, writes := 0 })
      else w.endBred unit j 0) := by
  rw [exec_portEwrite, execPortEwrite]
  simp only [ha, hc, hj, hb, hs, hw, hjw, Option.map_some, Bool.or_false, Bool.false_eq_true, if_false]
  split <;> rfl

end

/-! ### Chains (R375, R376) -/

section
variable {s t₁ t₂ : State} {n src dst ga : Nat} {own : Option Own} {c : ChainPkt} {off mask leaf : Word} {rest : List (Word × Word)}
  (ha : s.arriving n = some { src := src, dst := dst, own := own, body := .chain c }) (hsteps : c.steps = (off, mask) :: rest)
  (hal : (c.v + off).toNat % 8 = 0)
  (hx : portXlate (s.took n) (dst - agentHome 0) (portPlace (dst - agentHome 0)) c.asid c.smode (c.v + off) .read =
    (t₁, .ok ga leaf))
  (hdev : InDevice ga) (hc : t₁.charge ga 8 = some t₂) (hp : leafPois leaf = false) (hb : (t₂.recall (ga / 64)).bad ga = false)
  (hs : sealedFrom (t₂.recall (ga / 64)) ga (some c.asid) = false)
include ha hsteps hal hx hdev hc hp hb hs

/-- The value of a step goes back after the last one, and goes on with the packet before (R375). -/
theorem portChain_of_last (hrest : rest = []) : exec (.portChain n) s = .next
    ((t₂.recall (ga / 64)).post dst (placeOf c.p) none
      (.chainBack c 0 0 (BitVec.ofNat 64 (memNat (t₂.recall (ga / 64)).mem ga 8) &&& mask))) := by
  subst hrest
  rw [exec_portChain, execPortChain]
  simp only [ha, hsteps, hal, hx, hc, ne_eq, not_true_eq_false, if_false]
  cases hr : rangeOf (gaPa ga)
  case host => exact absurd hr hdev
  all_goals simp only [hp, hb, hs, Bool.or_self, Bool.false_eq_true, if_false, List.isEmpty_nil, if_true]

theorem portChain_of_more {t₃ : State} {h : Nat} (hrest : rest ≠ []) {c' : ChainPkt}
    (hc' : c' = { c with v := BitVec.ofNat 64 (memNat (t₂.recall (ga / 64)).mem ga 8) &&& mask, i := c.i + 1, steps := rest })
    (hh : chainHome (t₂.recall (ga / 64)) (portPlace (dst - agentHome 0)) c' = (t₃, some h)) :
    exec (.portChain n) s = .next (t₃.post dst h (some c'.own) (.chain c')) := by
  subst hc'
  rw [exec_portChain, execPortChain]
  simp only [ha, hsteps, hal, hx, hc, ne_eq, not_true_eq_false, if_false]
  have hempty : rest.isEmpty = false := List.isEmpty_eq_false_iff.2 hrest
  cases hr : rangeOf (gaPa ga)
  case host => exact absurd hr hdev
  all_goals simp only [hp, hb, hs, Bool.or_self, Bool.false_eq_true, if_false, hempty, hh]

end

/-! ### The memory server of a port (R329, R378) -/

section
variable {s : State} {place c k gen : Nat} {x : Chan} {i : Item} {q : List Entry}

/-- The request that came first enters a work queue with room. -/
theorem memoryServerRequest_of_item (hf : firstRequest s place = some (c, x)) (hq : x.q = .item i :: q)
    (hroom : (s.server place).queue.length < 128) (hk : i.sender = some (k, gen)) :
    exec (.memoryServerRequest place) s = .next
      (((s.setChan c { x with q := q, nextr := x.nextr + 1 }).token c x).takeRequest place k gen i.words) := by
  rw [exec_memoryServerRequest, execMemoryServerRequest]
  simp only [hf, if_neg (Nat.not_le.2 hroom), hq, hk, List.drop_succ_cons, List.drop_zero]

end

section
variable {s : State} {n src dst place : Nat} {own : Option Own} {r : ServerReq} {q : PushReq}
  (ha : s.arriving n = some { src := src, dst := dst, own := own, body := .serverPush place })
  (hr : (s.server place).pick = some r) (hq : pushReq r.words = some q)
include ha hr hq

/-- A request without a stamp draws it (R329). -/
theorem portPush_of_start {p : Proc} {c : Nat} (hs : r.stamp = none) (hp : (s.took n).byOwn r.p r.gen = some p)
    (hw : pushWindow (s.took n) place r.p q = some c) :
    exec (.portPush n) s = .next
      ((((s.took n).drawStamp c).1.setServer place { (s.took n).server place with
        queue := ((s.took n).server place).queue.replace r
          { r with stamp := some ((s.took n).drawStamp c).2, chan := c, asid := p.asid, smode := p.smode } }).serveMore place) := by
  rw [exec_portPush, execPortPush]
  simp only [ha, hr, hs, State.startPush, hp, hq, Option.bind_some, hw]

/-- One that has drawn it reads its next grain. -/
theorem portPush_of_grain {v : Nat} {g : Gathered} {t u : State} (hs : r.stamp = some v)
    (hg : portWords (s.took n) (devOf place * 2048 + coreOf place) place r.asid r.smode (q.va + BitVec.ofNat 64 r.data.length)
      (Min.min 8 ((q.len - r.data.length) / 8)) = (t, some g))
    (hu : t.gathered (serverAgent place) place r.asid g = .ok u) :
    exec (.portPush n) s = .next ((u.serveGrain place r q g).serveMore place) := by
  have hgrain : grainOf (s.took n) place r q = .ok (u, g) := by
    simp only [grainOf, hg, hu]
  rw [exec_portPush, execPortPush]
  simp only [ha, hr, hs, hq, hgrain]

end

section
variable {s : State} {place : Nat} {r : ServerReq} {q : PushReq} {g : Gathered}

/-- After a grain without a fault the request goes on, and after the last one it is pushed (R378). -/
theorem serveGrain_of_more (hf : g.fault = none) (hl : (r.data ++ g.bytes).length < q.len) :
    s.serveGrain place r q g = s.setServer place
      { queue := (s.server place).queue.replace r { r with data := r.data ++ g.bytes }, turn := r.p + 1 } := by
  unfold State.serveGrain
  exact if_pos (by rw [hf, decide_eq_true hl]; rfl)

theorem serveGrain_of_last (hf : g.fault = none) (hl : q.len ≤ (r.data ++ g.bytes).length) :
    s.serveGrain place r q g =
      (s.setServer place { queue := (s.server place).queue.erase r, turn := r.p + 1 }).post (agentSend r.chan) (agentChan r.chan) none
        (.winPush (servedPush r q (r.data ++ g.bytes) none)) := by
  unfold State.serveGrain
  rw [← hf]
  exact if_neg (by rw [decide_eq_false (Nat.not_lt.2 hl), Bool.and_false]; exact Bool.false_ne_true)

end

/-! ### Migration and row remap (R356, R358, R384) -/

section
variable {s : State} {page : Nat} {m : Migration} (hm : mget s.migrations page = some m)
include hm

/-- A line that its two homes let through is copied, and the next one follows (R356). -/
theorem portMigrate_of_charged {s₁ : State} {n src dst : Nat} {own : Option Own}
    (ha : s.arriving n = some { src := src, dst := dst, own := own, body := .migrate page })
    (hc : s.charge (m.new * 65536 + 64 * m.next) 64 = some s₁)
    (hw : readWaits (s.took n) (agentHome (homeOf (page * 65536 + 64 * m.next))) (page * 65536 + 64 * m.next) 64 = false) :
    exec (.portMigrate n) s = .next
      (let u := (s₁.took n).copyLine (page * 65536 + 64 * m.next) (m.new * 65536 + 64 * m.next)
       let u := { u with migrations := mset u.migrations page { m with next := m.next + 1 } }
       if m.next + 1 < 1024 then u.sendLine page { m with next := m.next + 1 } else u) := by
  rw [exec_portMigrate, execPortMigrate]
  simp only [ha, hm, hc, hw, Bool.false_eq_true, if_false]

/-- A copied page that no access is under way to changes its leaf (R358). -/
theorem migrationSwitch_of_idle {ga : Nat} {t u : State} (hn : 1024 ≤ m.next)
    (ht : s.invalidate (page * 65536 / 2 ^ 44) m.asid (some m.va) = t)
    (hb : spaceBusy t (page * 65536 / 2 ^ 44) m.asid = false) (hu : { t with migrations := mdel t.migrations page } = u)
    (he : spaceEntry u (page * 65536 / 2 ^ 44) m.asid m.va 4 = some ga) :
    exec (.migrationSwitch page) s = .next
      ((((u.putBytes ga (leBytes 8 (field (BitVec.ofNat 64 (readNat u ga 8)) 0 13 + m.new * 65536 % 2 ^ 44))).moveParked page
        m.new).giveBack m.asid (page * 65536) 65536).reply (placeOf m.svc.p / 1024 * 1024 + 768 + coreDie (coreOf (placeOf m.svc.p)))
          m.svc stOk 0) := by
  subst ht hu
  rw [exec_migrationSwitch, execMigrationSwitch]
  simp only [hm, if_neg (Nat.not_lt.2 hn), hb, Bool.false_eq_true, if_false, he]

end

/-- Telling the host changes no home. -/
theorem signal_home (s : State) (dev v h : Nat) : (s.signal dev v).home h = s.home h := by
  unfold State.signal
  dsimp only
  split <;> rfl

/-- A pseudo-channel that fails is marked so at its home, and has no bad segment left (R384). -/
theorem failPort_home (s : State) (dev inst : Nat) :
    (s.failPort dev inst).home (portHome dev inst) = { s.home (portHome dev inst) with failed := true, badSegs := [] } := by
  unfold State.failPort
  rw [signal_home]
  simp only [State.home, State.setHome_homes, mget_mset_self, Option.getD_some]

theorem portHome_div_mod (home : Nat) : portHome (home / 2048) (home % 2048) = home := Nat.div_add_mod' home 2048

/-- A reloaded segment takes its entries from the shadow; where that fails, the pseudo-channel fails (R384). -/
theorem remapReload_of_lt {home seg : Nat} (hs : seg < 16) (hh : home % 2048 < 772) (s : State) (ok : Bool) :
    exec (.remapReload home seg ok) s =
      let u := s.count (home / 2048) 2 (home % 2048) 5 1
      if ok then .next (u.modHome home fun x =>
        { x with
          badSegs := sdel x.badSegs seg, badCrc := sdel x.badCrc seg
          remap := (x.shadow.filter fun e => e.1 / 64 == seg).foldl (fun m e =>
            mset m e.1 { row := e.2.1, spare := e.2.2, wrong := 0 }) (x.remap.filter fun e => e.1 / 64 != seg) })
      else
        let w := u.failPort (home / 2048) (home % 2048)
        .next (w.serve home (fun _ => true) ((w.home home).parked.length + 1)) := by
  rw [exec_remapReload, execRemapReload, if_neg (by omega)]

end Sys2Proof.Machine

/-- Settles O54: each step by the case of its definition that its premises choose. -/
theorem engineSteps : Obligations.EngineSteps := by
  unfold Obligations.EngineSteps
  intro s n src dst own arrives t
  refine ⟨fun sh c i credit code h hbusy harb => ⟨?kstep, ?perform, ?fails⟩, fun sh c i x hbusy hx => ⟨?retire, ?retireLast⟩,
    fun unit q rest x d => ?search, fun r m x d ha hm hx hgen => ⟨?reportMore, ?reportLast⟩,
    fun unit ga leaf j rest u => ?chunk, fun ga sz unit pl i which bs j s₁ => ?port,
    fun c off mask rest ga leaf t₁ t₂ => ?chain, fun c status faddr val p ha hp => ?back, fun place c k gen x i q => ?request,
    fun place r q => ?push, fun page m => ⟨?migrate, ?switch⟩, fun home seg hseg hhome => ⟨?reload, ?reloadFails, ?failed⟩⟩
  case kstep | perform | fails =>
    rintro rfl
    simp only [exec_matrixStepGrant, execMatrixStepGrant, hbusy, harb, Option.isSome_none, Bool.false_eq_true, if_false]
  case retire =>
    exact fun hmore => (kstepRetire_of_busy hbusy hx).trans (congrArg _ (if_pos hmore))
  case retireLast =>
    exact fun hlast => (kstepRetire_of_busy hbusy hx).trans (congrArg _ (if_neg (Nat.not_lt.2 hlast)))
  case search =>
    intro b vec z₀ hout hq hx hd
    exact ⟨fun code fid he => (searchQueryStart_of_ended hout hq hx hd he).trans (by rw [Stack.popQuery_of_cons hq]; rfl),
      fun g z u he hn hg => searchQueryStart_of_read hout hq hx hd he hn hg⟩
  case reportMore => exact shardReport_of_more ha hm hx hgen
  case reportLast => exact shardReport_of_last ha hm hx hgen
  case chunk =>
    intro va sends hout hjobs hwrites hasked hchunk
    rw [bredChunk_of_job hout hjobs hwrites hasked hchunk]
    exact ⟨fun hread hx => (if_pos hread).trans (congrArg _ (bredAccess_read hx _ _)),
      fun hread hx => (if_neg (Nat.not_lt.2 hread)).trans (congrArg _ (bredAccess_write hx _ _))⟩
  case port =>
    intro r hj hb hs
    refine ⟨fun ha hc => portEread_of_charged ha hc hj hb hs, fun ha hc => ?_⟩
    intro w hjw
    rw [portEwrite_of_charged ha hc hj hb hs rfl hjw]
    exact ⟨fun h => congrArg _ (if_pos h), fun h => congrArg _ (if_neg h)⟩
  case chain =>
    intro y home r v ha hsteps hal hx hdev hc hp hb hs
    exact ⟨portChain_of_last ha hsteps hal hx hdev hc hp hb hs,
      fun t₃ h hrest => portChain_of_more ha hsteps hal hx hdev hc hp hb hs hrest rfl⟩
  case back =>
    rw [exec_chainReturn, execChainReturn]
    simp only [show s.arriving n = _ from ha, show (s.took n).byOwn c.p c.gen = _ from hp]
    rfl
  case request => exact memoryServerRequest_of_item
  case push =>
    intro y ha hr hq
    refine ⟨fun p c => portPush_of_start ha hr hq, fun v g t₁ u => ?_⟩
    intro data hs hg hu hf
    rw [portPush_of_grain ha hr hq hs hg hu]
    refine ⟨fun hmore => ?_, fun hlast => ?_⟩
    · rw [serveGrain_of_more hf hmore]
    · rw [serveGrain_of_last hf hlast, servedPush, hs]
      rfl
  case migrate => exact fun s₁ ha hm hc hw => portMigrate_of_charged hm ha hc hw
  case switch => exact fun ga hm hn hb he => migrationSwitch_of_idle hm hn rfl hb rfl he
  case reload => exact remapReload_of_lt hseg hhome s true
  case reloadFails => exact remapReload_of_lt hseg hhome s false
  case failed =>
    have h := failPort_home (s.count (home / 2048) 2 (home % 2048) 5 1) (home / 2048) (home % 2048)
    rwa [portHome_div_mod] at h
end

section
open Sys2Proof Sys2Proof.Machine Sys2Proof.Safety

namespace Sys2Proof.Machine

/-! ### The fields of a word that has one replaced -/

/-- A bit of a word with a field replaced: that of the new value inside the field, the old one outside. -/
theorem getLsbD_setField (x : Word) {lo n : Nat} (h : lo + n ≤ 64) (v i : Nat) :
    (setField x lo n v).getLsbD i = if lo ≤ i ∧ i < lo + n then v.testBit (i - lo) else x.getLsbD i := by
  by_cases hi : i < 64
  · simp only [setField, BitVec.getLsbD_or, BitVec.getLsbD_and, BitVec.getLsbD_not, BitVec.getLsbD_ofNat, Nat.testBit_shiftLeft,
      Nat.testBit_two_pow_sub_one, Nat.testBit_mod_two_pow, hi]
    split_ifs with hin
    · have h1 : i - lo < n := by omega
      simp [hin.1, h1]
    · by_cases hlo : lo ≤ i
      · have h1 : ¬ i - lo < n := by omega
        simp [h1]
      · simp [hlo]
  · rw [BitVec.getLsbD_of_ge _ _ (by omega), BitVec.getLsbD_of_ge _ _ (by omega), if_neg (by omega)]

/-- A bit of a field. -/
theorem testBit_field (x : Word) (lo n i : Nat) : (field x lo n).testBit i = (decide (i < n) && x.getLsbD (lo + i)) := by
  rw [field, BitVec.testBit_toNat, BitVec.getLsbD_extractLsb']

/-- A field that has been replaced holds the new value, cut to its width. -/
theorem field_setField_self (x : Word) {lo n : Nat} (h : lo + n ≤ 64) (v : Nat) : field (setField x lo n v) lo n = v % 2 ^ n := by
  refine Nat.eq_of_testBit_eq fun i => ?_
  rw [testBit_field, getLsbD_setField x h, Nat.testBit_mod_two_pow]
  by_cases hi : i < n
  · rw [if_pos (by omega), Nat.add_sub_cancel_left]
  · simp [hi]

/-- Replacing a field leaves the fields beside it alone. -/
theorem field_setField_of_disjoint (x : Word) {lo n : Nat} (h : lo + n ≤ 64) (v : Nat) {lo' n' : Nat}
    (hd : lo' + n' ≤ lo ∨ lo + n ≤ lo') : field (setField x lo n v) lo' n' = field x lo' n' := by
  refine Nat.eq_of_testBit_eq fun i => ?_
  rw [testBit_field, testBit_field, getLsbD_setField x h]
  by_cases hi : i < n'
  · rw [if_neg (by omega)]
  · simp [hi]

/-! ### The return from a trap, and the trap it returns from (R277, R397) -/

/-- ERET gives a process that does not stall its PC and its PSTAT, and nothing else. -/
theorem returnFromTrap_of_unstalled {p : Proc} (h : p.stall = none) :
    returnFromTrap p = { p with pc := p.tpc, pstat := (returnFromTrap p).pstat } := by
  simp only [returnFromTrap, h]

/-- MODE after ERET: U for a PMODE of 0, S for any other. -/
theorem field_mode_returnFromTrap (p : Proc) :
    field (returnFromTrap p).pstat 0 2 = if field p.tstat 0 2 = 0 then 0 else 1 := by
  rw [returnFromTrap, field_setField_of_disjoint _ (by omega) _ (by omega), field_setField_self _ (by omega)]
  split <;> rfl

/-- EVMASK after ERET. -/
theorem field_evmask_returnFromTrap (p : Proc) : field (returnFromTrap p).pstat 16 3 = field p.tstat 8 3 := by
  rw [returnFromTrap, field_setField_self _ (by omega)]
  exact Nat.mod_eq_of_lt (BitVec.isLt _)

/-- ERET leaves every bit of PSTAT but those of MODE and EVMASK. -/
theorem getLsbD_pstat_returnFromTrap (p : Proc) {i : Nat} (h : i ∉ [0, 1, 16, 17, 18]) :
    (returnFromTrap p).pstat.getLsbD i = p.pstat.getLsbD i := by
  simp only [List.mem_cons, List.not_mem_nil, or_false, not_or] at h
  rw [returnFromTrap, getLsbD_setField _ (by omega), if_neg (by omega), getLsbD_setField _ (by omega), if_neg (by omega)]

/-- Of two replacements at one key the second stands. -/
theorem mset_mset_self {α : Type} (m : Map α) (i : Nat) (x y : α) : mset (mset m i x) i y = mset m i y := by
  induction m with
  | nil => simp [mset]
  | cons e r ih =>
    obtain ⟨j, z⟩ := e
    rcases lt_trichotomy i j with h | rfl | h
    · simp [mset, h]
    · simp [mset]
    · simp [mset, h.not_gt, h.ne', ih]

theorem State.setProc_setProc_self (s : State) (k : Nat) (p q : Proc) : (s.setProc k p).setProc k q = s.setProc k q := by
  simp only [State.setProc, mset_mset_self]

/-- TSTAT of a trap has EXTP where the trap stands at an EXT pair. -/
theorem getLsbD_newTstat_extp (p : Proc) (ext : Bool) : (newTstat p ext).getLsbD 2 = ext := by
  have hmode : field p.pstat 0 2 < 4 := BitVec.isLt _
  have hbit : ∀ m e, m < 4 → (m + (if ext then 4 else 0) + e * 256).testBit 2 = ext := by
    intro m e hm
    rw [Nat.testBit_eq_decide_div_mod_eq]
    cases ext
    · rw [decide_eq_false_iff_not]
      simp only [Bool.false_eq_true, if_false]
      omega
    · rw [decide_eq_true_eq]
      simp only [if_true]
      omega
  rw [newTstat, BitVec.getLsbD_ofNat, hbit _ _ hmode]
  simp

/-- A synchronous trap of a process in U mode that has a handler replaces the process by its trap entry (R397). -/
theorem takeTrap_of_handled {s : State} {k : Nat} {p : Proc} (hlive : s.live k = some p) (hkind : p.kind = .normal)
    (hspill : p.spilled = none) (hmode : p.smode = false) (htvec : p.tvec ≠ 0) (code detail : Nat) (val pc : Word) (ext : Bool) :
    s.takeTrap k code detail val pc false ext = s.setProc k (trapEntry s (keyDev k) p code detail val pc false ext) := by
  have hentry : (trapEntry s (keyDev k) p code detail val pc false ext).spilled = none := hspill
  simp only [State.takeTrap, hlive, hkind, hmode, htvec, State.putProc, hentry, ne_eq, not_true_eq_false, false_and, Bool.false_and,
    Bool.false_eq_true, if_false]

/-- The same at its current instruction, which it no longer stalls in. -/
theorem trap_of_handled {s : State} {k : Nat} {p : Proc} (hkind : p.kind = .normal) (hspill : p.spilled = none)
    (hmode : p.smode = false) (htvec : p.tvec ≠ 0) (ext : Bool) (code detail : Nat) (val : Word) :
    s.trap k p ext code detail val = s.setProc k (trapEntry (s.setProc k { p with stall := none }) (keyDev k)
      { p with stall := none } code detail val p.pc false ext) := by
  have hlive : (s.setProc k { p with stall := none }).live k = some { p with stall := none } :=
    State.live_of_unspilled (by simp) hspill
  rw [State.trap, if_neg (by simp [hkind]), takeTrap_of_handled hlive hkind hspill hmode htvec, State.setProc_setProc_self]

end Sys2Proof.Machine

/-- Settles O49: ERET is `returnFromTrap`, whose PSTAT is known field by field, and a trap of a handled process leaves its
trap entry. -/
theorem returnFromException : Obligations.ReturnFromException := by
  unfold Obligations.ReturnFromException
  refine ⟨fun s k p s' q h => ⟨(returnFromTrap q).pstat, ?_, field_mode_returnFromTrap q, field_evmask_returnFromTrap q,
    fun i hi => getLsbD_pstat_returnFromTrap q hi⟩, fun s k code detail val p _ hkind hspill hmode htvec =>
    ⟨_, trap_of_handled hkind hspill hmode htvec true code detail val, getLsbD_newTstat_extp _ true, rfl⟩⟩
  have hstall : q.stall = none := by
    have hq := (s.start_snd k p).2
    rwa [show s.start k p = (s', q) from h.2] at hq
  rw [exec_of_issues exec_eret h, ← returnFromTrap_of_unstalled hstall]
end

section
open Sys2Proof Sys2Proof.Machine Sys2Proof.Safety

namespace Sys2Proof.Machine

/-! ### The instructions of the yard (R254) -/

section
variable {need : Need} {i : Instr} {pre : Nat → Proc → State → (State → State) → State}
  {outside : Nat → Proc → State → State} {body : Nat → Proc → State → Yard → State}

/-- Where its check lets the owner of the yard pass, a yard instruction runs on its yard. -/
theorem completesIf_of_yardOwner {cond : Nat → Proc → State → Prop} {effect : Nat → Proc → State → State}
    (hi : ∀ s, exec i s = yardOp need pre outside body s) (hpre : ∀ k p s, cond k p s → ∀ go, pre k p s go = go s)
    (hb : ∀ k p s, cond k p s → body k p s (s.core (placeOf k)).yard = effect k p s) :
    CompletesIf { need with unit := .yard } i (fun k p s => (s.core (placeOf k)).yardOwner = some k ∧ cond k p s) effect :=
  completesIf_of_issue hi fun k p s ⟨howner, hc⟩ => (hpre k p s hc _).trans ((if_pos howner).trans (hb k p s hc))

section
variable (hi : ∀ s, exec i s = yardOp need noPre outside body s)
include hi

/-- A yard instruction that checks nothing before runs on the owner's yard. -/
theorem completesIf_of_uncheckedOwner {cond : Nat → Proc → State → Prop} {effect : Nat → Proc → State → State}
    (hb : ∀ k p s, cond k p s → body k p s (s.core (placeOf k)).yard = effect k p s) :
    CompletesIf { need with unit := .yard } i (fun k p s => (s.core (placeOf k)).yardOwner = some k ∧ cond k p s) effect :=
  completesIf_of_yardOwner hi (fun _ _ _ _ _ => rfl) hb

/-- A process that has not held the yard is answered `outside`; a displaced holder claims the yard first (R252, R254). -/
theorem completesIf_of_notOwner {answer : Nat → Proc → State → State} (ho : ∀ k p s, outside k p s = answer k p s) :
    CompletesIf { need with unit := .yard } i (fun k _ s => (s.core (placeOf k)).yardOwner ≠ some k ∧
        (s.core (placeOf k)).displaced.contains k = false) answer ∧
      CompletesIf { need with unit := .yard } i (fun k _ s => (s.core (placeOf k)).yardOwner ≠ some k ∧
        (s.core (placeOf k)).displaced.contains k = true) (fun k p s => s.stallOn k p .yclaim none) :=
  ⟨completesIf_of_issue hi fun k p s ⟨howner, hd⟩ => (if_neg howner).trans ((if_neg (by rw [hd]; decide)).trans (ho k p s)),
    completesIf_of_issue hi fun k p s ⟨howner, hd⟩ => (if_neg howner).trans (if_pos hd)⟩

end
end

/-- The scratchpad check of a yard instruction lets a process pass whose scratchpad is settled. -/
theorem spadPre_of_settled {s : State} {k : Nat} {p : Proc} (b : BitVec 5) (h : p.splog ≠ 0) (hs : spadWaits s k p.gen = false)
    (go : State → State) : spadPre b k p s go = go s :=
  withSpad_of_settled h hs _

/-- A yard instruction's status is its code: no door stands beside it (R136). -/
theorem ycode_eq (s : State) (k : Nat) (p : Proc) (a : BitVec 5) {code : Nat} (h : code < 256) :
    s.ycode k p a code = s.setProc k (p.wg a (BitVec.ofNat 64 code)).advance := by
  have hword : statusWord code 0 = BitVec.ofNat 64 code := by
    unfold statusWord doorWord
    split
    next h0 => rw [h0]; rfl
    next => rw [Nat.mod_eq_of_lt h]; rfl
  rw [State.ycode, State.status, hword, State.fin]

/-- Whether one of the domains that a mask names has a property (R256). -/
theorem any_named_iff (mask : Nat) (f : Nat → Bool) : ((List.range 4).any fun d => mask.testBit d && f d) = true ↔
    ∃ d ∈ (List.range 4).filter fun d => mask.testBit d, f d = true := by
  rw [← List.any_filter, List.any_eq_true]

/-- The answers to a process without a yard. -/
theorem yClosed_eq (a : BitVec 5) (k : Nat) (p : Proc) (s : State) : yClosed a k p s = putsG a (fun _ => 4) k p s :=
  status_eq s k p a stClosed 0

theorem yZero_eq (a : BitVec 5) (k : Nat) (p : Proc) (s : State) : yZero a k p s = putsG a (fun _ => 0) k p s :=
  (putsG_eq a (fun _ => 0) k p s).symm

end Sys2Proof.Machine

/-- Settles O45: past the owner's check each instruction does at once what its rule says of the owner's yard. -/
theorem yardInstructions : Obligations.YardInstructions := by
  unfold Obligations.YardInstructions
  intro a b c t y owns op any answer set mask named
  refine ⟨?yclaim, ?yrel, ⟨fun cells pairs => ?yload, ?yloadBad⟩, fun x => ?yclk, ?yclkBad, ?yrun, ?ystop, ?ystopW,
    ?ystopWaits, ?ysave, fun cells pairs => ?yrest, ?yget, fun z => ?yset, ?ysetBad, ?yinj, ?ystat, ?ystatClr⟩
  case yclaim =>
    intro s k p s' q h ⟨howner, _⟩
    rw [exec_yclaim, execYclaim, claimYard, issue_of_issues h]
    exact congrArg (fun u : State => Host.Outcome.next (u.retired k q)) (if_pos howner)
  case yrel => exact completesIf_of_uncheckedOwner (exec_yrel a) fun _ _ _ _ => rfl
  case yload =>
    refine completesIf_of_yardOwner (exec_yload a b) (fun k p s ⟨hlog, hspad, _⟩ => spadPre_of_settled b hlog hspad)
      fun k p s ⟨_, _, hrun, himg⟩ => ?_
    have himg' : patchOf s p (patchBytes s k p (yardOff (p.rg b) % 2 ^ p.splog)) = some (cells, pairs) := himg
    have hrun' : (s.core (placeOf k)).yard.running = false := hrun
    simp only [hrun', himg']
    rfl
  case yloadBad =>
    refine completesIf_of_yardOwner (exec_yload a b) (fun k p s ⟨hlog, hspad, _⟩ => spadPre_of_settled b hlog hspad)
      fun k p s ⟨_, _, hbad⟩ => ?_
    dsimp only
    split
    next hrun himg => exact hbad.elim (fun h => absurd (hrun.symm.trans h) (by decide)) fun h => nomatch himg.symm.trans h
    next => rfl
  case yclk =>
    refine completesIf_of_uncheckedOwner (exec_yclk a b c) fun k p s ⟨hdom, hrun, hclock⟩ => ?_
    dsimp only
    rw [if_pos ⟨hdom, hrun⟩, hclock]
    rfl
  case yclkBad =>
    refine completesIf_of_uncheckedOwner (exec_yclk a b c) fun k p s hdom => ?_
    dsimp only
    rw [if_neg fun h => Nat.not_lt.2 hdom h.1]
    rfl
  case yrun =>
    refine completesIf_of_uncheckedOwner (exec_yrun a b) fun k p s ⟨hmask, hvalid, hcounts⟩ => if_neg ?_
    rw [not_or, not_or, Nat.not_le, Bool.not_eq_false, Bool.not_eq_true, List.any_eq_false]
    refine ⟨hmask, hvalid, fun d hd h => ?_⟩
    obtain ⟨hmode, hleft⟩ := (Bool.and_eq_true _ _).mp h
    exact (hcounts d hd).elim (· (beq_iff_eq.1 hmode)) (· (beq_iff_eq.1 hleft))
  case ystop =>
    exact completesIf_of_uncheckedOwner (exec_ystop a b) fun k p s hmask => if_neg (Nat.not_le.2 hmask)
  case ystopW =>
    refine completesIf_of_uncheckedOwner (exec_ystopW a b t) fun k p s ⟨hmask, hstopped⟩ =>
      (if_neg (Nat.not_le.2 hmask)).trans (if_neg ?_)
    rw [any_named_iff]
    rintro ⟨d, hd, hrun⟩
    exact absurd ((hstopped d hd).symm.trans hrun) (by decide)
  case ystopWaits =>
    exact completesIf_of_uncheckedOwner (exec_ystopW a b t) fun k p s ⟨hmask, hrun⟩ =>
      (if_neg (Nat.not_le.2 hmask)).trans (if_pos ((any_named_iff _ _).2 hrun))
  case ysave =>
    exact completesIf_of_yardOwner (exec_ysave a b) (fun k p s ⟨hlog, hspad⟩ => spadPre_of_settled b hlog hspad) fun _ _ _ _ => rfl
  case yrest =>
    refine completesIf_of_yardOwner (exec_yrest a b) (fun k p s ⟨hlog, hspad, _⟩ => spadPre_of_settled b hlog hspad)
      fun k p s ⟨_, _, hrun, hvalid, himg⟩ => ?_
    have himg' : patchOf s p (patchBytes s k p (yardFrom (spadBytes s k p (yardOff (p.rg b)) 2304) blankCells []).patch) =
      some (cells, pairs) := himg
    have hrun' : (s.core (placeOf k)).yard.running = false := hrun
    have hvalid' : (yardFrom (spadBytes s k p (yardOff (p.rg b)) 2304) blankCells []).valid = true := hvalid
    simp only [hrun', himg', hvalid']
    rfl
  case yget => exact completesIf_of_uncheckedOwner (exec_yget a b) fun _ _ _ _ => rfl
  case yset =>
    refine completesIf_of_uncheckedOwner (exec_yset a b c) fun k p s hput => ?_
    rw [hput]
    rfl
  case ysetBad =>
    refine completesIf_of_uncheckedOwner (exec_yset a b c) fun k p s hput => ?_
    rw [hput]
    rfl
  case yinj =>
    exact completesIf_of_uncheckedOwner (exec_yinj a b c) fun k p s hport =>
      (if_neg (Nat.not_le.2 hport)).trans (ycode_eq _ k p a (by split <;> decide))
  case ystat => exact completesIf_of_uncheckedOwner (exec_ystat a) fun _ _ _ _ => rfl
  case ystatClr => exact completesIf_of_uncheckedOwner (exec_ystatClr a) fun _ _ _ _ => rfl

end

section
open Sys2Proof Sys2Proof.Machine Sys2Proof.Safety

namespace Sys2Proof.Machine

/-! ### The yard by itself (R248 to R252) -/

section
variable {s : State} {place : Nat}

/-- No domain of an unowned yard steps. -/
theorem yardSteps_of_unowned (h : (s.core place).yardOwner = none) (fuel : Nat) : s.yardSteps place fuel = s := by
  cases fuel with
  | zero => rfl
  | succ fuel =>
    have hdue : yardDue s place = none := by rw [yardDue, h]; rfl
    rw [State.yardSteps, hdue]

/-- An unowned yard is taken from nobody. -/
theorem displace_of_unowned (h : (s.core place).yardOwner = none) : s.displace place = s := by
  rw [State.displace, h]

/-- An unowned yard goes back to its only displaced holder (R252). -/
theorem yardRestore_of_single {k : Nat} (h : (s.core place).yardOwner = none) (hd : (s.core place).displaced = [k]) :
    exec (.yardRestore place) s = .next (s.giveYard place k) := by
  rw [exec_yardRestore, execYardRestore]
  simp only [h, hd, Option.isSome_none, Bool.false_eq_true, if_false, List.foldl_cons, List.foldl_nil]

/-- An unowned yard that no holder was displaced from goes to its only claimant (R252). -/
theorem yardClaimDone_of_single {k : Nat} {p : Proc} (h : (s.core place).yardOwner = none) (hd : (s.core place).displaced = [])
    (hc : (s.procsAt place).filter (fun e => claimsYard e.2) = [(k, p)]) :
    exec (.yardClaimDone place) s = .next (s.giveYard place k) := by
  have hholds : ∀ q, ownerHolds s place q = false := fun q => by rw [ownerHolds, h]
  have hserved : ∀ q, ownerServed s place q = false := fun q => by rw [ownerServed, h]; rfl
  rw [exec_yardClaimDone, execYardClaimDone]
  simp only [h, hd, hholds, hserved, List.isEmpty_nil, Bool.true_eq_false, and_false, if_false, Bool.not_false, Bool.and_true,
    bne, Option.none_beq_some, hc, List.foldl_cons, List.foldl_nil, yardSteps_of_unowned h, displace_of_unowned h]

end

/-- A domain whose turn it is not does nothing (R249). -/
theorem yardStep_of_not_turn {s : State} {place d : Nat} (h : (s.core place).yard.turn (s.device (devOf place)).t0 s.cycle d = false) :
    s.yardStep place d = s := by
  rw [State.yardStep]
  cases (s.core place).yardOwner with
  | none => rfl
  | some k => exact if_pos (.inr h)

end Sys2Proof.Machine

/-- Settles O46: each step by the case of its definition that its premises choose; for a process that does not own the yard
every instruction ends at the owner's check. -/
theorem yardByItself : Obligations.YardByItself := by
  unfold Obligations.YardByItself
  refine ⟨?step, ?input, fun s place k p howner => ⟨yardRestore_of_single howner, yardClaimDone_of_single howner⟩, ?outside⟩
  case step =>
    intro s place k d howner hd y x r z late y' turn
    refine ⟨fun hturn => ?_, fun hturn => ?_⟩
    · rw [exec_yardStep, execYardStep, yardStep_of_not_turn hturn]
    · rw [exec_yardStep, execYardStep, State.yardStep]
      simp only [howner]
      rw [if_neg (not_or.2 ⟨Nat.not_le.2 hd, by simpa using hturn⟩)]
      simp only [y', late, decide_eq_true_eq]
      rfl
  case input =>
    intro s place k input p d x i q att howner hinput hatt hp hdoor hx hrecv hmarks hmoving hq
    have hatt' : ((s.core place).yard.attach.getD input 0).getLsbD 7 = true := hatt
    have hdoor' : mget p.doors (((s.core place).yard.attach.getD input 0).toNat % 64) = some d := hdoor
    have hfree : markHolds s d = false := by rw [markHolds, hmarks]; rfl
    rw [exec_yardInputItem, execYardInputItem]
    simp only [howner, hatt', hp, hdoor', hx, hrecv, hmoving, hq, hfree, Nat.not_le.2 hinput, Bool.true_eq_false, or_self,
      Option.bind_some, Bool.or_self, Bool.false_eq_true, if_false]
    rfl
  case outside =>
    intro a b c t i srcs zero hi nd owner
    simp only [List.mem_cons, Prod.mk.injEq, List.not_mem_nil, or_false] at hi
    obtain ⟨rfl, rfl, rfl⟩ | ⟨rfl, rfl, rfl⟩ | ⟨rfl, rfl, rfl⟩ | ⟨rfl, rfl, rfl⟩ | ⟨rfl, rfl, rfl⟩ |
      ⟨rfl, rfl, rfl⟩ | ⟨rfl, rfl, rfl⟩ | ⟨rfl, rfl, rfl⟩ | ⟨rfl, rfl, rfl⟩ | ⟨rfl, rfl, rfl⟩ := hi
    · exact completesIf_of_notOwner (exec_yrel a) (yClosed_eq a)
    · exact completesIf_of_notOwner (exec_yclk a b c) (yClosed_eq a)
    · exact completesIf_of_notOwner (exec_yrun a b) (yClosed_eq a)
    · exact completesIf_of_notOwner (exec_ystop a b) (yClosed_eq a)
    · exact completesIf_of_notOwner (exec_ystopW a b t) (yClosed_eq a)
    · exact completesIf_of_notOwner (exec_yget a b) (yZero_eq a)
    · exact completesIf_of_notOwner (exec_yset a b c) (yClosed_eq a)
    · exact completesIf_of_notOwner (exec_yinj a b c) (yClosed_eq a)
    · exact completesIf_of_notOwner (exec_ystat a) (yZero_eq a)
    · exact completesIf_of_notOwner (exec_ystatClr a) (yZero_eq a)
end

section
open Sys2Proof Sys2Proof.Machine Sys2Proof.Safety

namespace Sys2Proof.Machine

/-! ### Acknowledgements, slot tokens and tile copies at the sender (R322, R323, R325, R326) -/

/-- The next sequence number of a rendezvous channel is no matter of a process (R322). -/
theorem State.sentOne_byOwn (s : State) (c k gen : Nat) : (s.sentOne c).byOwn k gen = s.byOwn k gen := by
  unfold State.sentOne State.modChan
  cases mget s.chans c <;> rfl

/-- The bytes that the copy path of a sender takes to the receiver (R323). -/
theorem State.copyTile_of_offer {s : State} {c k off : Nat} {x : Chan} {p : Proc} {w : Wait} {r : RecvOp} (hw : p.wait = some w)
    (hk : w.kind = .offer c (some off)) :
    s.copyTile c x k p r = (s.spadSeen (placeOf k)).post (placeOf k) (placeOf r.p) none (.tileLanded c k p.gen (some r)
      { words := packWords (spadBytes (s.spadSeen (placeOf k)) k p (regionOff x off) x.tileBytes), nan1 := w.nan, seq := x.nextr }) := by
  obtain ⟨kind⟩ := w
  obtain rfl : kind = _ := hk
  simp only [State.copyTile, hw, Option.elim_some]

/-- A send end is shut unless it is open and some process has it (R418). -/
theorem Chan.shut_eq_false {x : Chan} : x.shut = false ↔ x.sstate = .opened ∧ x.send ≠ .gone := by
  simp [Chan.shut]

/-- An arriving slot token raises CREDIT, unless the send end is shut and its channel is not that of a fault door (R325, R418). -/
theorem exec_slotToken_of_arriving {s : State} {n src dst c : Nat} {own : Option Own}
    (ha : s.arriving n = some { src := src, dst := dst, own := own, body := .slotToken c }) :
    exec (.slotToken n) s = .next
      (if (mget s.chans c).any Chan.shut = true ∧ isFaultChan s c = false then s.took n
       else ((((s.took n).modChan c fun x => { x with credit := min (x.credit + 1) x.cap }).serveCredit c).hostGoesOn c).chanEvent c) := by
  have hfault : isFaultChan (s.took n) c = isFaultChan s c := rfl
  simp only [exec_slotToken, execSlotToken, ha, State.took_chans, hfault, Bool.and_eq_true, Bool.not_eq_true']
  split <;> rfl

/-- A tile that comes to the open receive end of a process stands in its staging slot and in the record's queue (R326). -/
theorem State.stagedItem_of_process {s : State} {c k gen q g d : Nat} {x : Chan} {i : Item} (hrecv : x.recv = .proc q g d)
    (hopen : x.rclosed = false) (hgen : gen ≠ 0) :
    s.stagedItem c k gen x i =
      if keyDev k = keyDev q then
        ((s.putStage x i.seq (exactly x.tileBytes (unpackWords i.words))).control c (.item { i with words := [] })).copySent k gen c
      else ((s.putStage x i.seq (exactly x.tileBytes (unpackWords i.words))).control c (.item { i with words := [] })).post
        (agentChan c) (placeOf k) none (.ack c k gen stOk) := by
  simp only [State.stagedItem, hopen, Bool.false_eq_true, if_false, if_neg hgen, hrecv, holderDev]

/-- The staging slots of a process's receive end are in memory (R326). -/
theorem State.putStage_of_process {s : State} {x : Chan} {q g d seq : Nat} {bs : List Byte} (hrecv : x.recv = .proc q g d) :
    s.putStage x seq bs =
      (s.putBytes (x.stage + seq % x.cap * x.tileBytes) bs).fillWords (x.stage + seq % x.cap * x.tileBytes) bs.length := by
  simp only [State.putStage, hrecv]

end Sys2Proof.Machine

/-- Settles O35: each arrival by the case that the state of its channel and of the waiting sender chooses. -/
theorem sendEnds : Obligations.SendEnds := by
  unfold Obligations.SendEnds
  intro s n src dst c k gen code own x p w r i ps msg
  refine ⟨?ack, fun ha => ⟨?token, ?discarded⟩, ?go, ?landed, ?window⟩
  case ack =>
    intro ha hp hw ⟨tl, hk⟩
    obtain ⟨kind, status, door⟩ := w
    obtain rfl : kind = _ := hk
    have hp' : (if code = stOk then (s.took n).sentOne c else s.took n).byOwn k gen = some p := by
      split
      · rw [State.sentOne_byOwn, hp]
      · exact hp
    simp only [exec_sendAck, execSendAck, ha, msg, hp', hw, if_true]
    rfl
  case token =>
    intro hopen
    have hkeep : ¬ ((mget s.chans c).any Chan.shut = true ∧ isFaultChan s c = false) := by
      rintro ⟨hshut, hfault⟩
      obtain ⟨y, hy, hshut⟩ := (Option.any_eq_true ..).1 hshut
      obtain hopen | hfault' := hopen
      · exact Bool.false_ne_true ((Chan.shut_eq_false.2 (hopen y hy)).symm.trans hshut)
      · exact Bool.false_ne_true (hfault.symm.trans hfault')
    rw [exec_slotToken_of_arriving ha, if_neg hkeep]
  case discarded =>
    intro hx hshut hfault
    have hshut' : (mget s.chans c).any Chan.shut = true := by simpa [hx, Chan.shut] using hshut
    rw [exec_slotToken_of_arriving ha, if_pos ⟨hshut', hfault⟩]
  case go =>
    intro off ha hp hx hw hk
    simp only [exec_tileGo, execTileGo, ha, msg, hp, State.took_chans, hx, State.copyTile_of_offer hw hk]
  case landed =>
    intro q g d ha hx hrecv hopen hgen
    simp only [exec_tileCopyLanded, execTileCopyLanded, ha, msg, State.took_chans, hx,
      State.stagedItem_of_process hrecv hopen hgen, State.putStage_of_process hrecv]
    rfl
  case window =>
    intro ha
    simp only [exec_windowPush, execWindowPush, ha, msg]
end

section
open Sys2Proof Sys2Proof.Machine Sys2Proof.Safety

namespace Sys2Proof.Machine

/-! ### An entry of a link port sent again, given up or arrived (R423 to R426) -/

/-- One more try of an entry is counted, and after 16 the port reports it (R426). -/
def State.countTry (s : State) (dev port tries : Nat) : State :=
  if 15 ≤ tries then (s.countLink dev port 1).countLink dev port 2 else s.countLink dev port 1

/-- An entry that is no item, or has tries left, is sent again (R426). -/
theorem State.resend_of_retry {s : State} {dev port : Nat} {e : LinkEntry} (hport : port < 16) (h : e.item = false ∨ e.tries < 15) :
    s.resend (dev * 16 + port) e =
      (s.setEntry (dev * 16 + port) { e with tries := e.tries + 1, sentAt := some s.timeb }).countTry dev port e.tries := by
  have hdev : (dev * 16 + port) / 16 = dev := by omega
  have hmod : (dev * 16 + port) % 16 = port := by omega
  have hgo : (e.item && decide (15 ≤ e.tries)) = false := by
    obtain h | h := h
    · rw [h, Bool.false_and]
    · rw [decide_eq_false (Nat.not_le.2 h), Bool.and_false]
  simp only [State.resend, hgo, hdev, hmod, Bool.false_eq_true, if_false, State.countTry]

/-- An item that has had its 16 tries is given up (R426). -/
theorem State.resend_of_spent {s : State} {l : Nat} {e : LinkEntry} (hitem : e.item = true) (h : 15 ≤ e.tries) :
    s.resend l e = s.giveUp l e := by
  simp only [State.resend, hitem, h, decide_true, Bool.and_self, if_true]

/-- With flits left after it, a flit counts its entry down (R425). -/
theorem State.flitIn_of_more {s : State} {l dev : Nat} {e : LinkEntry} (h : 1 < e.left) :
    s.flitIn l dev e = s.setEntry l { e with left := e.left - 1, tries := 0, sentAt := some s.timeb } := by
  simp only [State.flitIn, ne_eq, Nat.sub_ne_zero_of_lt h, not_false_eq_true, if_true]

/-- With its last flit an entry is at the device, and its peer keeps it (R425, R426). -/
theorem State.flitIn_of_last {s : State} {l dev : Nat} {e : LinkEntry} (h : e.left ≤ 1) :
    s.flitIn l dev e =
      ((s.unlink l e).setLink l { (s.unlink l e).link l with
        replay := ((s.unlink l e).link l).replay ++ [{ e with left := e.left - 1, tries := 0, sentAt := some s.timeb }] }).delivered dev e := by
  simp only [State.flitIn, ne_eq, Nat.sub_eq_zero_of_le h, not_true_eq_false, if_false]

/-! ### What a port that is up, with its peer, takes (R426, R429) -/

section
variable {s : State} {dev port pd pp : Nat} (hpeer : (s.link (dev * 16 + port)).peer = some (pd, pp))
  (hup : (s.link (dev * 16 + port)).up = true) (hpeerUp : (s.link (pd * 16 + pp)).up = true)
include hpeer hup hpeerUp

/-- The next flit of the peer arrives: corrupt, with a wrong tag at the end of a sealed entry, or right (R426, R429). -/
theorem exec_flitArrival_of_next {e : LinkEntry} (hkept : (s.link (dev * 16 + port)).replay = [])
    (hnext : nextEntry s (pd * 16 + pp) = some e) (crc tag : Bool) :
    exec (.flitArrival dev port crc tag) s = .next
      (if crc = true then
        if tag = false ∧ e.left ≤ 1 ∧ e.toKey = dev ∧ isSealed s e.msg = true then
          (s.countLink dev port 5).resend (pd * 16 + pp) e
        else s.flitIn (pd * 16 + pp) dev e
       else s.resend (pd * 16 + pp) e) := by
  simp only [exec_flitArrival, execFlitArrival, hpeer, hup, hpeerUp, hkept, hnext]
  cases crc with
  | false => rfl
  | true =>
    cases tag with
    | true => rfl
    | false =>
      by_cases hbad : e.left ≤ 1 ∧ e.toKey = dev ∧ isSealed s e.msg = true
      · simp [hbad]
      · have hgood : (decide (e.left ≤ 1) && e.toKey == dev && isSealed s e.msg) = false := by
          simpa [Bool.and_assoc] using hbad
        simp [hgood, hbad]

/-- The acknowledgement of the oldest entry that a port keeps arrives, right or corrupt (R426). -/
theorem exec_flitArrival_of_kept {e : LinkEntry} {q : List LinkEntry} (hkept : (s.link (dev * 16 + port)).replay = e :: q)
    (hack : e.ackLost = false) (crc tag : Bool) :
    exec (.flitArrival dev port crc tag) s = .next (s.setLink (dev * 16 + port) { s.link (dev * 16 + port) with
      replay := if crc then q else { e with ackLost := true } :: q }) := by
  simp only [exec_flitArrival, execFlitArrival, hpeer, hup, hpeerUp, hkept, hack, Bool.not_true, Bool.or_self, Bool.false_eq_true,
    if_false]

/-- A lost-entry notice at the head of the peer's queue, with nothing of its sender before it, is passed on (R327). -/
theorem exec_lostEntry_of_head {e : LinkEntry} {q : List LinkEntry} {c n : Nat} (hq : (s.link (pd * 16 + pp)).queue = e :: q)
    (hfirst : onLinks s e.msg.src e.msg.dst (e.id - 1) = false) (hbody : e.msg.body = .offer c (.lost n)) :
    exec (.lostEntry dev port) s = .next ((s.unlink (pd * 16 + pp) e).delivered dev e) := by
  have hnotice : e.isNotice = true := by rw [LinkEntry.isNotice, hbody]
  simp only [exec_lostEntry, execLostEntry, hpeer, hup, hpeerUp, hq, List.find?_cons, hnotice, hfirst, Bool.not_true, Bool.not_false,
    Bool.or_self, Bool.and_self, Bool.false_eq_true, if_false]

end

/-! ### A port that narrows, goes down or comes up, and a path that is gone (R427, R428, R444) -/

/-- A port with a narrower width takes it, and counts (R427). -/
theorem exec_laneSpare_of_narrower {s : State} {dev port b : Nat} (h : narrower (s.link (dev * 16 + port)).lanes = some b) :
    exec (.laneSpare dev port) s =
      .next ((s.setLink (dev * 16 + port) { s.link (dev * 16 + port) with lanes := b }).countLink dev port 3) := by
  simp only [exec_laneSpare, execLaneSpare, h]

/-- The item at the head of a port's queue is given up once its path is gone (R428). -/
theorem exec_pathGiveUp_of_head {s : State} {dev port : Nat} {e : LinkEntry} {q : List LinkEntry}
    (hq : (s.link (dev * 16 + port)).queue = e :: q) (hitem : e.item = true) (hgone : pathGone s dev e.toKey = true) :
    exec (.pathGiveUp dev port) s = .next (s.giveUp (dev * 16 + port) e) := by
  simp only [exec_pathGiveUp, execPathGiveUp, hq, List.find?_cons, hitem, hgone, Bool.and_self]

/-- A port that is up goes down. -/
theorem State.linkDown_of_up {s : State} {dev port : Nat} (h : (s.link (dev * 16 + port)).up = true) :
    s.linkDown dev port =
      ((s.setLink (dev * 16 + port) { s.link (dev * 16 + port) with up := false, downAt := s.timeb }).repath dev).signal dev 5 := by
  simp only [State.linkDown, h, Bool.not_true, Bool.false_eq_true, if_false]

/-- A port that is down, and has a peer, comes up. -/
theorem State.linkUp_of_down {s : State} {dev port pd pp : Nat} (h : (s.link (dev * 16 + port)).up = false)
    (hpeer : (s.link (dev * 16 + port)).peer = some (pd, pp)) :
    s.linkUp dev port =
      ((s.setLink (dev * 16 + port) { s.link (dev * 16 + port) with up := true, lanes := 8 }).repath dev).signal dev 5 := by
  simp only [State.linkUp, h, hpeer, Option.isNone_some, Bool.or_self, Bool.false_eq_true, if_false]

/-! ### An acknowledgement that does not come (R426) -/

section
variable {s : State} {dev port : Nat} {e : LinkEntry} (hup : (s.link (dev * 16 + port)).up = true)
  (hlate : e.sentAt.getD e.queuedAt + 2000 ≤ s.timeb)
include hup hlate

/-- The flit that a port sends has no acknowledgement in time: it is sent again. -/
theorem exec_flitAckTimeout_of_sent (hkept : (s.link (dev * 16 + port)).replay = [])
    (hnext : nextEntry s (dev * 16 + port) = some e) :
    exec (.flitAckTimeout dev port) s = .next (s.resend (dev * 16 + port) e) := by
  simp only [exec_flitAckTimeout, execFlitAckTimeout, hkept, hnext, hup, hlate, decide_true, Bool.and_self, if_true]

/-- The oldest entry that a port keeps has no acknowledgement in time: it is given up after its 16 tries, or sent again. -/
theorem exec_flitAckTimeout_of_kept {q : List LinkEntry} (hkept : (s.link (dev * 16 + port)).replay = e :: q) :
    exec (.flitAckTimeout dev port) s = .next
      (if e.item = true ∧ 15 ≤ e.tries then s.giveUpKept (dev * 16 + port) e
       else (s.setLink (dev * 16 + port) { s.link (dev * 16 + port) with
        replay := { e with tries := e.tries + 1, sentAt := some s.timeb, ackLost := false } :: q }).countTry dev port e.tries) := by
  simp only [exec_flitAckTimeout, execFlitAckTimeout, hkept, hup, hlate, decide_true, Bool.and_self, Bool.not_true,
    Bool.false_eq_true, if_false, Bool.and_eq_true, decide_eq_true_eq]
  split <;> rfl

end

end Sys2Proof.Machine

/-- Settles O55: a flit or an acknowledgement by what the port keeps, a timeout by the tries of its entry, and each step of a
port in its own case. -/
theorem linkPorts : Obligations.LinkPorts := by
  unfold Obligations.LinkPorts
  intro s dev port pd pp e q l m ups arrives
  refine ⟨?flit, ?ack, ?timeout, ?lost, ?gone, ?spare, rfl, ?down, ?comesUp⟩
  case flit =>
    intro ⟨hpeer, hup, hpeerUp⟩ hkept hnext one last bad
    have harrives := exec_flitArrival_of_next hpeer hup hpeerUp hkept hnext
    have hlast (h : e.left ≤ 1) : s.flitIn m dev e = last := State.flitIn_of_last h
    refine ⟨fun tag hgood => ?right, fun hbad => ?wrongTag, fun tag => ?corrupt⟩
    case right =>
      have hgood' : ¬ (tag = false ∧ bad) := by
        rintro ⟨rfl, hbad⟩
        exact hgood.elim Bool.false_ne_true fun h => h hbad
      have hin : arrives true tag (s.flitIn m dev e) := (harrives true tag).trans (by rw [if_pos rfl, if_neg hgood'])
      exact ⟨fun h => State.flitIn_of_more h ▸ hin, fun h => hlast h ▸ hin⟩
    case wrongTag => exact (harrives true false).trans (by rw [if_pos rfl, if_pos ⟨rfl, hbad⟩]; rfl)
    case corrupt => exact harrives false tag
  case ack =>
    intro ⟨hpeer, hup, hpeerUp⟩ hkept hack tag
    have harrives := exec_flitArrival_of_kept hpeer hup hpeerUp hkept hack
    exact ⟨harrives true tag, harrives false tag⟩
  case timeout =>
    intro again counted times hport hup hlate
    refine ⟨fun hkept hnext => ?sent, fun hkept => ?kept⟩
    case sent =>
      have htimes := exec_flitAckTimeout_of_sent hup hlate hkept hnext
      exact ⟨fun hretry => htimes.trans (by rw [State.resend_of_retry hport hretry]; rfl),
        fun hitem hspent => htimes.trans (by rw [State.resend_of_spent hitem hspent])⟩
    case kept =>
      have htimes := exec_flitAckTimeout_of_kept hup hlate hkept
      refine ⟨fun hretry => htimes.trans ?_, fun hitem hspent => htimes.trans (by rw [if_pos ⟨hitem, hspent⟩])⟩
      have hgo : ¬ (e.item = true ∧ 15 ≤ e.tries) := by
        rintro ⟨hitem, hspent⟩
        obtain h | h := hretry
        · exact Bool.false_ne_true (h.symm.trans hitem)
        · omega
      rw [if_neg hgo]
      rfl
  case lost =>
    intro ⟨hpeer, hup, hpeerUp⟩ hq hfirst ⟨c, n, hbody⟩
    exact exec_lostEntry_of_head hpeer hup hpeerUp hq hfirst hbody
  case gone => exact exec_pathGiveUp_of_head
  case spare =>
    intro a b hab hlanes
    have hnarrow : narrower a = some b := by
      simp only [List.mem_cons, Prod.mk.injEq, List.not_mem_nil, or_false] at hab
      obtain ⟨rfl, rfl⟩ | ⟨rfl, rfl⟩ | ⟨rfl, rfl⟩ := hab <;> rfl
    exact exec_laneSpare_of_narrower (hlanes ▸ hnarrow)
  case down => exact fun hup => congrArg Host.Outcome.next (State.linkDown_of_up hup)
  case comesUp => exact fun hdown hpeer hin => (if_pos hin).trans (congrArg Host.Outcome.next (State.linkUp_of_down hdown hpeer))
end

section
open Sys2Proof Sys2Proof.Machine Sys2Proof.Safety

namespace Sys2Proof.Machine

/-! ### Reads, writes and fills as they arrive (R19, R370, R373) -/

section
variable {s s₁ : State} {n src dst ga sz : Nat} {va : Word} {bs : List Byte} {t : Target} {drop : Bool}

/-- A read that its home admits, of a word that is sound and visible once the line is recalled: its requester is sent what
memory holds there then. -/
theorem portRead_of_clear {o : Own}
    (ha : s.arriving n = some { src := src, dst := dst, own := some o, body := .read ga sz t va drop false none })
    (hc : s.charge ga sz = some s₁) (hb : ((s₁.took n).recall (ga / 64)).bad ga = false)
    (hs : sealedFrom ((s₁.took n).recall (ga / 64)) ga (some o.asid) = false) :
    exec (.portRead n) s = .next (((s₁.took n).recall (ga / 64)).post dst src none
      (.fill (readFill o.p o.gen sz t va drop false (memNat ((s₁.took n).recall (ga / 64)).mem ga sz)))) := by
  rw [exec_portRead, execPortRead]
  simp only [ha, hc, hb, hs, Bool.or_self, Bool.false_eq_true, if_false]

/-- A read that its home does not admit waits there. -/
theorem portRead_of_not_charged {o : Own}
    (ha : s.arriving n = some { src := src, dst := dst, own := some o, body := .read ga sz t va drop false none })
    (hc : s.charge ga sz = none) : exec (.portRead n) s = .next (s.holdPort ga n) := by
  rw [exec_portRead, execPortRead]
  simp only [ha, hc]

/-- A write that its home admits, to a word that is sound and visible, is performed. -/
theorem portWrite_of_clear {own : Option Own}
    (ha : s.arriving n = some { src := src, dst := dst, own := own, body := .write ga bs false })
    (hc : s.charge ga bs.length = some s₁) (hb : (s₁.took n).bad ga = false)
    (hs : sealedFrom (s₁.took n) ga (own.map (·.asid)) = false) :
    exec (.portWrite n) s =
      .next ((((s₁.took n).putBytes ga bs).fillWords ga bs.length).wrote (s₁.took n) ga bs.length) := by
  rw [exec_portWrite, execPortWrite]
  simp only [ha, hc, hb, hs, Bool.or_self, Bool.false_eq_true, if_false]

/-- A write to host memory is stored by the service core (R343). -/
theorem portHost_write_of_host {own : Option Own} (hr : rangeOf (gaPa ga) = .host)
    (ha : s.arriving n = some { src := src, dst := dst, own := own, body := .host ga sz (some bs) none drop false }) :
    exec (.portHost n) s = .next ((s.took n).putBytes ga bs) := by
  rw [exec_portHost, execPortHost]
  simp only [ha, hr, ne_eq, not_true_eq_false, Bool.false_eq_true, if_false]

/-- A read of host memory is answered by the service core (R343). -/
theorem portHost_read_of_host {o : Own} (hr : rangeOf (gaPa ga) = .host)
    (ha : s.arriving n =
      some { src := src, dst := dst, own := some o, body := .host ga sz none (some (t, va)) drop false }) :
    exec (.portHost n) s = .next ((s.took n).post dst src none
      (.fill (readFill o.p o.gen sz t va drop false (memNat (s.took n).mem ga sz)))) := by
  rw [exec_portHost, execPortHost]
  simp only [ha, hr, ne_eq, not_true_eq_false, Bool.false_eq_true, if_false]

end

section
variable {s : State} {n src dst : Nat} {own : Option Own} {f : Fill}
  (ha : s.arriving n = some { src := src, dst := dst, own := own, body := .fill f })
include ha

/-- A fill that completes no TLBINV is applied. -/
theorem fillArrival_of_plain (hf : f.inv = none) : exec (.fillArrival n) s = .next ((s.took n).applyFill dst f) := by
  rw [exec_fillArrival, execFillArrival]
  simp only [ha, hf]

/-- A fill that completes a TLBINV waits for the accesses of its space (R279, R347). -/
theorem fillArrival_of_inv {asid : Nat} {x : Option Word} (hf : f.inv = some (asid, x)) :
    exec (.fillArrival n) s = .next (if spaceBusy s (devOf dst) asid then s
      else ((s.took n).dropLines (devOf dst) asid x).applyFill dst f) := by
  rw [exec_fillArrival, execFillArrival]
  simp only [ha, hf]
  split <;> rfl

end

/-! ### The budget of a port (R373, R455, R458) -/

/-- The state once the time that a home has held requests is counted. -/
def State.heldCounted (s : State) (home : Nat) : State :=
  match (s.home home).heldSince with
  | none => s
  | some t => s.count (home / 2048) 2 (home % 2048) 3 (s.timeb - t)

/-- Counting does not move the clock. -/
theorem homeMs_heldCounted (s : State) (home : Nat) : homeMs (s.heldCounted home) home = homeMs s home := by
  unfold State.heldCounted
  split <;> rfl

/-- In a later millisecond than its last one a port takes the budget that comes into force. -/
theorem budgetBoundary_of_due {s : State} {home budget : Nat} (h : (s.home home).ms < homeMs s home) :
    exec (.budgetBoundary home budget) s = .next ((s.heldCounted home).setHome home
      { s.home home with
        budget := some (budgetOf s home budget), left := budgetOf s home budget - (s.home home).borrowed, borrowed := 0
        heldSince := none, ms := homeMs s home }) := by
  rw [exec_budgetBoundary, ← homeMs_heldCounted s home]
  exact if_neg (not_le.2 h)

section
variable {s : State} {home budget : Nat}

/-- While the arbiter is in service and the die is not hot, the budget is the one given. -/
theorem budgetOf_of_cool (hin : ((mget (s.device (home / 2048)).parts (7 * 4096)).any fun x => !x.inService) = false)
    (hcool : mget (s.device (home / 2048)).hot (homeDie home) = none) :
    budgetOf s home budget = max budget 4194304 := by
  simp only [budgetOf, hin, hcool, Option.isSome_none, Bool.false_eq_true, if_false, Nat.reducePow, Nat.reduceMul]

/-- While its die is hot, it is lowered. -/
theorem budgetOf_of_hot (hin : ((mget (s.device (home / 2048)).parts (7 * 4096)).any fun x => !x.inService) = false)
    (hhot : mget (s.device (home / 2048)).hot (homeDie home) ≠ none) :
    budgetOf s home budget = max (min budget (Config.hotBudget home (homeMs s home))) 4194304 := by
  simp only [budgetOf, hin, Option.isSome_iff_ne_none.2 hhot, Bool.false_eq_true, if_false, if_true, Nat.reducePow, Nat.reduceMul]

/-- While the arbiter is out of service, the last one stays in force. -/
theorem budgetOf_of_out {b : Nat} (hout : ((mget (s.device (home / 2048)).parts (7 * 4096)).any fun x => !x.inService) = true)
    (hlast : (s.home home).budget = some b) : budgetOf s home budget = b := by
  simp only [budgetOf, hout, hlast, if_true]

end

end Sys2Proof.Machine

/-- Settles O26: each access by what its home admits, a fill by whether it completes a TLBINV, and a boundary by the budget
that comes into force. -/
theorem homes : Obligations.Homes := by
  unfold Obligations.Homes
  refine ⟨?accesses, ?budgets⟩
  case accesses =>
    intro s n src dst ga sz own o t va drop bs f clear
    exact ⟨fun _ ha hc ⟨hb, hs⟩ => portRead_of_clear ha hc hb hs, fun _ ha hc ⟨hb, hs⟩ => portWrite_of_clear ha hc hb hs,
      portHost_write_of_host, portHost_read_of_host, fun hc ha => portRead_of_not_charged ha hc,
      fun ha => ⟨fillArrival_of_plain ha, fun _ _ => fillArrival_of_inv ha⟩⟩
  case budgets =>
    intro s home budget b hdue d out counted starts
    have hstarts {v : Nat} (hv : budgetOf s home budget = max v 4194304) : starts v := by
      have h := budgetBoundary_of_due (budget := budget) hdue
      rw [hv] at h
      exact h
    exact ⟨fun hin hcool => hstarts (budgetOf_of_cool hin hcool), fun hin hhot => hstarts (budgetOf_of_hot hin hhot),
      fun hout hlast hb => hstarts ((budgetOf_of_out hout hlast).trans (max_eq_left hb).symm)⟩
end

section
open Sys2Proof Sys2Proof.Machine Sys2Proof.Safety

namespace Sys2Proof.Machine

/-! ### Atomic requests and reduction lines as they arrive (R129, R141, R370) -/

section
variable {s s₁ : State} {n src dst : Nat} {own : Option Own} {r : AtomReq}

/-- A request that its home admits, by whether it can be performed once the line is recalled (R129). -/
theorem portAtomic_of_charged (hc : s.charge r.ga 8 = some s₁)
    (ha : s.arriving n = some { src := src, dst := dst, own := own, body := .atomic r }) :
    exec (.portAtomic n) s =
      let x := (s₁.took n).recall (r.ga / 64)
      .next (if r.ready x = true then (x.perform r).wrote x r.ga 64
        else if pastDeadline x r.deadline = true ∨ r.retries ≠ 0 then
          x.post (agentHome (homeOf r.ga)) r.core (some r.own) (.refused r)
        else x.parkReq r) := by
  rw [exec_portAtomic, execPortAtomic]
  simp only [ha, hc, Bool.or_eq_true, decide_eq_true_eq]
  split
  · rfl
  · split <;> rfl

/-- A refused request of a living process goes out again, one retry less, while its deadline has not passed. -/
theorem feRefusal_of_living {p : Proc}
    (ha : s.arriving n = some { src := src, dst := dst, own := own, body := .refused r })
    (hp : (s.took n).byOwn r.own.p r.own.gen = some p) (hd : pastDeadline (s.took n) r.deadline = false) :
    exec (.feRefusal n) s = .next ((s.took n).post r.core (agentHome (homeOf r.ga)) (some r.own)
      (.atomic { r with retries := r.retries - 1 })) := by
  rw [exec_feRefusal, execFeRefusal]
  simp only [ha, hp, hd, Option.isNone_some, Bool.false_eq_true, if_false]
  rfl

/-- A reduction line that its home admits is combined into memory. -/
theorem portCombine_of_charged {l : RedLine} (hl : l.els ≠ []) (hc : s.charge (l.line * 64) 64 = some s₁)
    (ha : s.arriving n = some { src := src, dst := dst, own := own, body := .combine l }) :
    exec (.portCombine n) s = .next ((s₁.took n).combineLine l) := by
  rw [exec_portCombine, execPortCombine]
  simp only [ha, hc, List.isEmpty_iff, if_neg hl]

end

/-- The home of a line recalls it. -/
theorem portRecall_of_home (s : State) (line : Nat) :
    exec (.portRecall (homeOf (line * 64)) line) s = .next (s.recall line) := by
  rw [exec_portRecall, execPortRecall, if_pos rfl]

end Sys2Proof.Machine

/-- Settles O27: a request by whether it is ready and, if not, whether it may be repeated; the other steps are their own
equations. -/
theorem portAtomics : Obligations.PortAtomics := by
  unfold Obligations.PortAtomics
  intro s n src dst own r l
  refine ⟨fun s₁ hc ha => ?request, fun ha ⟨_, hp⟩ hd => feRefusal_of_living ha hp hd,
    fun _ hl hc ha => portCombine_of_charged hl hc ha, portRecall_of_home s⟩
  case request =>
    intro x
    rw [portAtomic_of_charged hc ha]
    refine ⟨fun hready => ?performed, fun hready hrefuse => ?refused, fun hready hdue hretries => ?parked⟩
    case performed => simp only [x, hready, if_true]
    case refused => simp only [x, hready, Bool.false_eq_true, if_false, if_pos hrefuse]
    case parked =>
      have hpark : ¬ (pastDeadline x r.deadline = true ∨ r.retries ≠ 0) :=
        not_or.2 ⟨Bool.eq_false_iff.1 hdue, not_not.2 hretries⟩
      simp only [x, hready, Bool.false_eq_true, if_false, if_neg hpark]
end

section
open Sys2Proof Sys2Proof.Machine Sys2Proof.Safety

namespace Sys2Proof.Machine

/-! ### What a trap comes to (R397) -/

/-- Writing one bit leaves the others. -/
theorem getLsbD_setBit_of_ne {w : Nat} (x : BitVec w) {i j : Nat} (h : i ≠ j) (b : Bool) :
    (setBit x j b).getLsbD i = x.getLsbD i := by
  by_cases hi : i < w
  · cases b <;> simp [setBit, -BitVec.getLsbD_eq_getElem, BitVec.getLsbD_twoPow, hi, h.symm]
  · rw [BitVec.getLsbD_of_ge _ _ (by omega), BitVec.getLsbD_of_ge _ _ (by omega)]

/-- A field is the field of any other word with the same bits there. -/
theorem field_congr {x y : Word} {lo n : Nat} (h : ∀ i < n, x.getLsbD (lo + i) = y.getLsbD (lo + i)) :
    field x lo n = field y lo n := by
  refine Nat.eq_of_testBit_eq fun i => ?_
  rw [testBit_field, testBit_field]
  by_cases hi : i < n
  · rw [h i hi]
  · simp [hi]

/-- The causes with an EVPEND bit are the three events, each pending at the bit that its code numbers. -/
theorem eventBit_eq_some_iff {code b : Nat} : eventBit code = some b ↔ code = b ∧ 24 ≤ b ∧ b < 27 := by
  unfold eventBit
  split_ifs <;> simp <;> omega

theorem isSome_eventBit_iff {code : Nat} : (eventBit code).isSome = true ↔ code ∈ [0x18, 0x19, 0x1A] := by
  simp only [Option.isSome_iff_exists, eventBit_eq_some_iff, List.mem_cons, List.not_mem_nil, or_false]
  constructor
  · rintro ⟨b, rfl, h⟩
    omega
  · intro h
    exact ⟨code, rfl, by omega⟩

section
variable {s : State} {k : Nat} {p : Proc} {async : Bool}

/-- R397 by its branches, for a trap that does not end a routine. -/
theorem takeTrap_of_live (hlive : s.live k = some p) (hkind : p.kind = .normal ∨ async = true)
    (code detail : Nat) (val pc : Word) (ext : Bool) :
    s.takeTrap k code detail val pc async ext =
      if async = true ∧ p.smode = true ∧ field p.pstat 16 3 = 0 then s
      else if p.smode = true ∧ async = false then s.freeze k p code detail val pc async ext
      else if p.tvec = 0 then
        if async = true ∧ code ∈ [0x18, 0x19, 0x1A] then s
        else if (s.space p.asid).wdog.getLsbD 0 then s.hold k p code detail val pc async ext
        else s.freeze k p code detail val pc async ext
      else s.putProc k p (trapEntry s (keyDev k) p code detail val pc async ext) := by
  have hroutine : ¬ (p.kind ≠ .normal ∧ (!async) = true) := by
    rintro ⟨hne, hsync⟩
    exact hkind.elim hne (by simpa using hsync)
  rw [State.takeTrap, hlive]
  refine (if_neg hroutine).trans ?_
  simp only [Bool.and_eq_true, beq_iff_eq, Bool.not_eq_true', Proc.evmask, isSome_eventBit_iff, and_assoc]

/-- A resident process replaced is just replaced: there is no ring record to bring up to date. -/
theorem State.putProc_of_unspilled {q : Proc} (h : q.spilled = none) : s.putProc k p q = s.setProc k q := by
  rw [State.putProc, h]

end

/-! ### The registers of a trap entry (R397) -/

/-- A field of a number. -/
theorem field_ofNat {v lo n : Nat} (hv : v < 2 ^ 64) : field (BitVec.ofNat 64 v) lo n = v / 2 ^ lo % 2 ^ n := by
  rw [field, BitVec.extractLsb'_toNat, BitVec.toNat_ofNat, Nat.mod_eq_of_lt hv, Nat.shiftRight_eq_div_pow]

section
variable (p : Proc) (ext : Bool)

/-- PMODE of TSTAT. -/
theorem field_mode_newTstat : field (newTstat p ext) 0 2 = field p.pstat 0 2 := by
  have hmode : field p.pstat 0 2 < 4 := BitVec.isLt _
  have hmask : p.evmask < 8 := BitVec.isLt _
  rw [newTstat, field_ofNat (by split <;> omega)]
  split <;> omega

/-- PEVMASK of TSTAT. -/
theorem field_evmask_newTstat : field (newTstat p ext) 8 3 = field p.pstat 16 3 := by
  have hmode : field p.pstat 0 2 < 4 := BitVec.isLt _
  have hmask : p.evmask < 8 := BitVec.isLt _
  rw [newTstat, field_ofNat (by split <;> omega), ← Proc.evmask]
  split <;> omega

end

section
variable (s : State) (dev : Nat) (p : Proc) (code detail : Nat) (val pc : Word) (async ext : Bool)

/-- A trap entry sets only the trap registers, PSTAT and the PC, and it no longer stalls. -/
theorem trapEntry_frame :
    let q := trapEntry s dev p code detail val pc async ext
    q = { p with
      tcause := q.tcause, tval := q.tval, tpc := q.tpc, tstat := q.tstat, pstat := q.pstat, pc := q.pc, stall := none } :=
  rfl

theorem tcause_trapEntry (h : detail < 65536) : (trapEntry s dev p code detail val pc async ext).tcause =
    BitVec.ofNat 64 (code + (if async then 256 else 0) + detail * 65536) := by
  simp only [trapEntry, Nat.mod_eq_of_lt h]

/-- The EVPEND bit of the event taken is clear, but for a timer level that still holds. -/
theorem getLsbD_pstat_trapEntry_of_event {b : Nat} (hb : eventBit code = some b) :
    (trapEntry s dev p code detail val pc true ext).pstat.getLsbD b = (b == 24 && timerLevel s dev p) := by
  have hlt : b < 64 := by
    have := eventBit_eq_some_iff.1 hb
    omega
  simp only [trapEntry, hb]
  exact getLsbD_setBit_self _ hlt _

variable {async code}

/-- Every other bit of PSTAT is as MODE and EVMASK leave it. -/
theorem getLsbD_pstat_trapEntry_of_ne {i : Nat} (h : async = true → eventBit code ≠ some i) :
    (trapEntry s dev p code detail val pc async ext).pstat.getLsbD i =
      (setField (setField p.pstat 16 3 0) 0 2 1).getLsbD i := by
  cases async with
  | false => rfl
  | true =>
    cases hb : eventBit code with
    | none => simp only [trapEntry, hb]
    | some b =>
      simp only [trapEntry, hb]
      exact getLsbD_setBit_of_ne _ (fun hib => h rfl (hb.trans (congrArg some hib.symm))) _

/-- Outside MODE and EVMASK, a bit of PSTAT whose event is not taken is as before. -/
theorem getLsbD_pstat_trapEntry_of_kept {i : Nat} (h : async = true → eventBit code ≠ some i) (hi : i ∉ [0, 1, 16, 17, 18]) :
    (trapEntry s dev p code detail val pc async ext).pstat.getLsbD i = p.pstat.getLsbD i := by
  simp only [List.mem_cons, List.not_mem_nil, or_false, not_or] at hi
  rw [getLsbD_pstat_trapEntry_of_ne s dev p detail val pc ext h, getLsbD_setField _ (by omega), if_neg (by omega),
    getLsbD_setField _ (by omega), if_neg (by omega)]

variable (async code)

/-- A field of PSTAT below the EVPEND bits is as MODE and EVMASK leave it. -/
theorem field_pstat_trapEntry_of_low {lo n : Nat} (h : lo + n ≤ 24) :
    field (trapEntry s dev p code detail val pc async ext).pstat lo n =
      field (setField (setField p.pstat 16 3 0) 0 2 1) lo n :=
  field_congr fun i hi => getLsbD_pstat_trapEntry_of_ne s dev p detail val pc ext fun _ hb => by
    have := eventBit_eq_some_iff.1 hb
    omega

theorem field_mode_trapEntry : field (trapEntry s dev p code detail val pc async ext).pstat 0 2 = 1 := by
  rw [field_pstat_trapEntry_of_low _ _ _ _ _ _ _ _ _ (by omega), field_setField_self _ (by omega)]
  rfl

theorem field_evmask_trapEntry : field (trapEntry s dev p code detail val pc async ext).pstat 16 3 = 0 := by
  rw [field_pstat_trapEntry_of_low _ _ _ _ _ _ _ _ _ (by omega), field_setField_of_disjoint _ (by omega) _ (by omega),
    field_setField_self _ (by omega)]
  rfl

/-- The EVPEND bits after an asynchronous trap: that of its own cause is the timer level or clear, the others are as
before. -/
theorem evpend_trapEntry {i : Nat} (hi : i < 3) :
    (trapEntry s dev p code detail val pc true ext).pstat.getLsbD (24 + i) =
      if code = 0x18 + i then i == 0 && decide (p.timecmp.toNat ≤ s.timebOf dev) else p.pstat.getLsbD (24 + i) := by
  split_ifs with hcode
  · rw [getLsbD_pstat_trapEntry_of_event _ _ _ _ _ _ _ _ (eventBit_eq_some_iff.2 ⟨hcode, by omega, by omega⟩), timerLevel]
    congr 1
    rw [Bool.eq_iff_iff, beq_iff_eq, beq_iff_eq]
    omega
  · refine getLsbD_pstat_trapEntry_of_kept _ _ _ _ _ _ _ (fun _ hb => hcode (eventBit_eq_some_iff.1 hb).1) ?_
    simp only [List.mem_cons, List.not_mem_nil, or_false]
    omega

end

end Sys2Proof.Machine

/-- Settles O50: R397 by its branches, and the trap entry by its fields. -/
theorem trapEntry : Obligations.TrapEntry := by
  unfold Obligations.TrapEntry
  intro s k code detail val pc async ext p hlive hkind hspill _ hdetail
  rw [takeTrap_of_live hlive hkind]
  refine ⟨fun hS ha hmask => if_pos ⟨ha, hS, hmask⟩, fun hS ha => ?frozen, fun hU htvec => ?unhandled, fun htaken htvec => ?entered⟩
  case frozen => rw [if_neg (by simp [ha]), if_pos ⟨hS, ha⟩]
  case unhandled => rw [if_neg (by simp [hU]), if_neg (by simp [hU]), if_pos htvec]
  case entered =>
    have hpending : ¬ (async = true ∧ p.smode = true ∧ field p.pstat 16 3 = 0) := by
      rintro ⟨-, hS, hmask⟩
      exact htaken.elim (by simp [hS]) fun h => h.2 hmask
    have hfrozen : ¬ (p.smode = true ∧ async = false) := by
      rintro ⟨hS, ha⟩
      exact htaken.elim (by simp [hS]) (by simp [ha])
    rw [if_neg hpending, if_neg hfrozen, if_neg htvec]
    refine ⟨_, State.putProc_of_unspilled hspill, ?cause, rfl, rfl, field_mode_newTstat p ext, getLsbD_newTstat_extp p ext,
      field_evmask_newTstat p ext, rfl, field_mode_trapEntry .., field_evmask_trapEntry .., fun ha => ?sync, fun ha i hi => ?async,
      fun i hi => ?kept, trapEntry_frame ..⟩
    case cause => exact tcause_trapEntry (h := hdetail) ..
    case sync => exact field_congr fun i hi => getLsbD_pstat_trapEntry_of_kept _ _ _ _ _ _ _ (by simp [ha]) (by simp; omega)
    case async =>
      subst ha
      exact evpend_trapEntry _ _ _ _ _ _ _ _ hi
    case kept =>
      simp only [List.mem_cons, List.not_mem_nil, or_false, not_or] at hi
      refine getLsbD_pstat_trapEntry_of_kept _ _ _ _ _ _ _ (fun _ hb => ?_) (by simp; omega)
      have := eventBit_eq_some_iff.1 hb
      omega
end

section
open Sys2Proof Sys2Proof.Machine Sys2Proof.Safety

namespace Sys2Proof.Machine

/-! ### The steps of collective units (R433, R434) -/

section
variable {s : State} {b c₀ : Nat} {x : Coll} {y₀ : Chan} {i j : Item} {q₀ : List Entry}

/-- With an item at each head the output gets their sum, and both inputs lose their heads. -/
theorem State.collReduce_of_items {l n o : Nat × Chan} :
    s.collReduce b x l (some n) o (.item i) (some (.item j)) =
      ((s.collSend o.1 o.2 (.item i) (collSum x.ety (itemBytes s l.2 i) (itemBytes s n.2 j))).consume l.1).consume n.1 :=
  rfl

/-- Once both inputs have an entry and OUT has a credit, what is done depends on the heads alone. -/
theorem exec_reduceStep_of_heads {c₁ c₂ : Nat} {y₁ y₂ : Chan} {h₀ h₁ : Entry} {q₁ : List Entry} (hx : mget s.colls b = some x)
    (hreduce : x.fanout = false) (hstop : x.stopped = false) (hdiscard : x.discard = none) (hhead : x.head = false)
    (hlocal : x.at_ s 0 = some (c₀, y₀)) (hin : x.at_ s 1 = some (c₁, y₁)) (hout : x.at_ s 2 = some (c₂, y₂))
    (hcredit : y₂.credit ≠ 0) (hq₀ : y₀.q = h₀ :: q₀) (hq₁ : y₁.q = h₁ :: q₁) :
    exec (.reduceStep b) s = .next (s.collReduce b x (c₀, y₀) (some (c₁, y₁)) (c₂, y₂) h₀ (some h₁)) := by
  simp only [exec_reduceStep, execReduceStep, hx, hreduce, hstop, hdiscard, hhead, hlocal, hin, hout, hcredit, hq₀, hq₁,
    Bool.or_false, Bool.false_eq_true, if_false]

/-- Once each output has a credit, every output gets a copy of the item at IN's head. -/
theorem exec_fanoutStep_of_item {outs : List (Nat × Chan)} (hx : mget s.colls b = some x) (hfan : x.fanout = true)
    (hstop : x.stopped = false) (houts : x.outputs.map (x.at_ s) = outs.map some) (hcredit : ∀ o ∈ outs, o.2.credit ≠ 0)
    (hin : x.at_ s 0 = some (c₀, y₀)) (hq : y₀.q = .item i :: q₀) :
    exec (.fanoutStep b) s =
      .next ((outs.foldl (fun t o => t.collSend o.1 o.2 (.item i) (itemBytes s y₀ i)) s).consume c₀) := by
  have hready : (outs.any fun o => o.2.credit == 0) = false :=
    List.any_eq_false.2 fun o ho => by simpa using hcredit o ho
  simp only [exec_fanoutStep, execFanoutStep, hx, hfan, hstop, houts, List.any_map, Function.comp_def, hready, hin, hq,
    List.foldl_map, Bool.not_true, Bool.or_false, Bool.false_eq_true, if_false]

end

/-! ### The session of two devices (R452) -/

section
variable {s : State} {asid a b : Nat}

/-- The session of a space between two devices, whose key is bound to both reports. -/
def State.sessionOf (s : State) (asid a b : Nat) : Session :=
  let key (d : Nat) : Nat := (s.space asid).keyId * 4096 + d
  let report (d e : Nat) : List Byte :=
    attestReport s d (some asid) (leBytes 32 (Config.freeWord (s.free + e)).toNat) (sessionPublic (key d))
  { asid := asid, devA := a, devB := b, nonce := 0
    key := exactly 32 (sha512 (x25519 (exactly 32 (Config.sessionKey (key a))) (sessionPublic (key b)) ++ report a b ++ report b a)) }

/-- Two devices with no session yet agree one exactly when each accepts the other. -/
theorem State.agree_of_new (hab : a < b) (hnew : ∀ y ∈ s.sessions, ¬ (y.asid = asid ∧ y.devA = a ∧ y.devB = b)) :
    s.agree asid a b = if canAgree s (s.space asid) a b then
      { s with free := s.free + 4096, sessions := s.sessions ++ [s.sessionOf asid a b] } else s := by
  have hnone : (s.sessions.any fun y => y.asid == asid && y.devA == a && y.devB == b) = false :=
    List.any_eq_false.2 fun y hy => by simpa [and_assoc] using hnew y hy
  simp only [State.agree, Nat.min_eq_left hab.le, Nat.max_eq_right hab.le, hnone, Bool.or_false]
  cases canAgree s (s.space asid) a b with
  | false => rfl
  | true => rfl

end

end Sys2Proof.Machine

/-- Settles O56: a reduce step by the items at its heads, a fan-out step by its one output, and a session by whether the two
devices accept each other. -/
theorem collectives : Obligations.Collectives := by
  unfold Obligations.Collectives
  refine ⟨fun s b c₀ c₁ c₂ x y₀ y₁ y₂ i j q₀ q₁ hx hstop h₀ h₁ h₂ hcredit hq₀ => ⟨?reduce, ?fanout⟩, ?session⟩
  case reduce =>
    intro hreduce hhead hdiscard hq₁
    rw [exec_reduceStep_of_heads hx hreduce hstop hdiscard hhead h₀ h₁ h₂ hcredit hq₀ hq₁, State.collReduce_of_items]
  case fanout =>
    intro hfan hnout
    have houts : x.outputs = [2] := by
      simp only [Coll.outputs, hfan, hnout, if_true]
      rfl
    exact exec_fanoutStep_of_item (outs := [(c₂, y₂)]) hx hfan hstop (by rw [houts, List.map_singleton, h₂]; rfl)
      (by simpa using hcredit) h₀ hq₀
  case session => exact fun s asid a b hab hnew => congrArg Host.Outcome.next (State.agree_of_new hab hnew)
end
